-- ==== Sys2Proof/Word.lean ====
section
/-! DEFINITION. The word types of the Shatia GD9610 model (00_scope.md, R6, R9, R12). -/

namespace Sys2Proof

/-- One byte of memory or of a record. -/
abbrev Byte := BitVec 8

/-- A 32-bit stone register or register value (R35). -/
abbrev U32 := BitVec 32

/-- A DMA instruction word (R278). -/
abbrev U128 := BitVec 128

/-- Device time: an unsigned 64-bit tick count that wraps and is ordered unsigned (R6). -/
abbrev DT := BitVec 64

/-- A 64-byte command entry (Table 2-16) as one little-endian number: byte i is bits 8i+7..8i (R12). -/
abbrev Entry := BitVec 512

end Sys2Proof
end

