-- ==== Sys2Proof/Syntax.lean ====
section
/-! DEFINITION. The commands of the block (spec/opcode_table.json), one constructor a row.
A row that is a mailbox command carries the 64-byte entry Korsyn takes from a command ring (Table 2-16);
every other row carries the device time at which it happens and the data it brings in from outside
(DESIGN CHOICE, safe: log 10). An operand of type Unit carries nothing: what it stands for is computed. -/

namespace Sys2Proof

/-- A command entry as Korsyn takes it: the DT t_take (R59), the command ring it stands in, its 64 bytes (Table 2-16),
which the row carries (DEDUCED, safe: log 30). -/
structure Cmd where
  t : DT
  ring : Nat
  entry : Entry
  deriving DecidableEq, Repr

/-- The power domains Korsyn starts on demand (Tables 1-3 and 19-2). -/
inductive Domain where
  | fabric
  | converter (die : Nat)
  | ethernet (port : Nat)
  | display
  deriving DecidableEq, Repr

/-- The mapping of DT to TAI that Korsyn keeps (R79). -/
structure Epoch where
  dt : DT
  taiS : Nat
  taiNs : Nat
  ratePpt : Int
  deriving DecidableEq, Repr

/-- Who asked for the DRAM word that is in error (Table 15-3). -/
inductive Requester where
  | scrub
  | bar4
  | dma (channel : Nat)
  | pipReplay (pip : Nat)
  | currantReplay (currant : Nat)
  | generator (dac : Nat)
  | display (layer : Nat)
  | steward
  | other (cls : Nat)
  deriving DecidableEq, Repr

/-- A DRAM error as the controller reports it (R307, Table 15-5): kind 1 CE, 2 UE, 3 LINK_CE. -/
structure DramError where
  kind : Nat
  requester : Requester
  channel : Nat
  bank : Nat
  row : Nat
  column : Nat
  bit : Nat
  addr : Nat
  deriving DecidableEq, Repr

/-- An on-die SRAM error (R312, Table 15-6): block code, instance, row, word address, corrected bit. -/
structure SramError where
  block : Nat
  inst : Nat
  row : Nat
  addr : Nat
  bit : Nat
  uncorrectable : Bool
  deriving DecidableEq, Repr

/-- What a received Ethernet frame is, as the port sorts it (R319, R320). -/
inductive FrameKind where
  | arp
  | neighbour
  | icmp
  | ptp
  | endpoint
  | pause
  | other
  deriving DecidableEq, Repr

/-- A datagram at the Ethernet control endpoint (R328): its source, its 16-byte header and its entries. -/
structure Datagram where
  port : Nat
  srcIp : Nat
  srcUdp : Nat
  magic : Nat
  kind : Nat
  count : Nat
  seq : Nat
  ring : Nat
  first : Nat
  entries : List Entry
  deriving DecidableEq, Repr

/-- The commands the block takes: one constructor for each row of spec/opcode_table.json, in the table's order. -/
inductive Instr where
  /-- POR_N_LOW (R30): POR_N driven low, or VDD_STONE falling below 0.70 V, resets the whole device including the stone domain. -/
  | porNLow (t : DT)
  /-- POR_N_RISE (R31): POR_N rises and the stone domain starts the power-up sequence of Table 2-2 on its 8 MHz RC clock. -/
  | porNRise (t : DT)
  /-- FUSES_VALID (R31): Fuses are read, so CAP_FUSE0-3 and LC_STATE become valid; on a RETIRED part the sequence halts here with error RETIRED. -/
  | fusesValid (t : DT)
  /-- SRAM_WIPE_DONE (R31): Zeroing of all on-die SRAM completes, SRAM_WIPED is set, the stage moves to WAIT_IMAGE and LPDDR5X training starts. -/
  | sramWipeDone (t : DT)
  /-- DRAM_TRAINING_DONE (R31): LPDDR5X training completes and the fill engine starts zeroing DRAM; a training failure halts with DRAM_INIT. -/
  | dramTrainingDone (t : DT) (ok : Bool)
  /-- DRAM_WIPE_DONE (R32): The DRAM fill completes and BOOT_STAT.DRAM_WIPED is set. -/
  | dramWipeDone (t : DT)
  /-- VERIFY_DONE (R38): Verification of the staged image ends, either passing to WAIT_DRAM or failing back to WAIT_IMAGE with an error code. -/
  | verifyDone (t : DT) (u v : Unit := ())
  /-- KORSYN_START (R33): Once verification and the DRAM wipe have both finished, the stone domain releases the steward from reset. -/
  | korsynStart (t : DT)
  /-- KORSYN_READY (R34): Korsyn places the bootstrap rings and the descriptor, writes IFACE_LEVEL, sets STAGE to READY and signals MSI-X vector 0. -/
  | korsynReady (t : DT)
  /-- START_TIMEOUT (R34): READY has not been reached 500 ms after START, so the steward is halted and the stage becomes HALT_ERROR. -/
  | startTimeout (t : DT)
  /-- PERST_N_ASSERT (R33): PERST_N low resets only the PCIe endpoint; the data plane continues and host-memory rings stall. -/
  | perstNAssert (t : DT)
  /-- PERST_N_RELEASE (R33): PERST_N is released, the PCIe link comes up and BAR0 answers again. -/
  | perstNRelease (t : DT)
  /-- RAIL_UNDERVOLTAGE (R385): A rail held 5 % or more below its minimum for 1 µs drops LASER_EN, zeroes the DACs and holds the device in reset. -/
  | railUndervoltage (t : DT)
  /-- RAIL_RECOVERY (R385): After every rail has been in range for 1 ms, the stone domain reruns the sequence from POWER. -/
  | railRecovery (t : DT)
  /-- THERMAL_TRIP (R392): A die sensor reading 115 °C drops LASER_EN and gates every domain except the stone domain. -/
  | thermalTrip (t : DT)
  /-- THERMAL_HOLD_END (R392): The 10 s reset hold after a thermal trip expires and the power-up sequence runs again. -/
  | thermalHoldEnd (t : DT)
  /-- TEMP_THRESHOLD (R392): A die or DRAM temperature crosses TEMP_WARN, crosses 100 °C, or falls 2 °C back. -/
  | tempThreshold (t : DT) (sensor : Nat) (centi : Int)
  /-- BOOT_CTRL_DEV_RESET (R30): A write of DEV_RESET with KEY 0xA5 causes a device reset; any other key sets STONE_ERR.RESET_KEY. -/
  | bootCtrlDevReset (t : DT) (value : U32)
  /-- GO (R38): A BOOT_CTRL.GO write in WAIT_IMAGE starts verification of the staged image of BOOT_LEN bytes. -/
  | go (t : DT) (value : U32)
  /-- ABORT (R41): A BOOT_CTRL.ABORT write in WAIT_IMAGE discards the staged image and the source claim. -/
  | abort (t : DT) (value : U32)
  /-- SPI_ENABLE (R397): A write of BOOT_CTRL.SPI_ENABLE enables or disables the action of BOOT_SPI staging transactions. -/
  | spiEnable (t : DT) (value : U32)
  /-- REGISTER_WRITE (R35): Write to a stone register that has no row of its own (BOOT_LEN, WAKE_CTRL, W1C clears, unlisted offsets), with the access checks applied. -/
  | registerWrite (t : DT) (offset width : Nat) (value : U32)
  /-- DT_SNAP_LO_READ (R35): A read of DT_SNAP_LO returns DT[31:0] and latches DT[63:32] into DT_SNAP_HI. -/
  | dtSnapLoRead (t : DT)
  /-- DOORBELL_WRITE (R36): A host write of its own index for a ring, checked for overflow or backward movement. -/
  | doorbellWrite (t : DT) (ring : Nat) (value : U32)
  /-- DMA_DOORBELL (R293): A write to a channel's bound doorbell either wakes a parked channel to refetch its END address or sets KICK. -/
  | dmaDoorbell (t : DT) (number : Nat) (value : U32)
  /-- IMAGE_STAGING_WRITE (R41): A PCIe write to BAR2 staging stores image data and claims staging for PCIe when it is the first write. -/
  | imageStagingWrite (t : DT) (offset : Nat) (bytes : List Byte)
  /-- BOOT_SPI_WRITE_STAGING (R397): BOOT_SPI transaction 0x02 writes staging data and claims staging for BOOT_SPI when it is the first. -/
  | bootSpiWriteStaging (t : DT) (bytes : List Byte)
  /-- BOOT_SPI_READ_STAGING (R397): BOOT_SPI transaction 0x0B reads back staging data. -/
  | bootSpiReadStaging (t : DT) (bytes : List Byte) (len : Nat)
  /-- BOOT_SPI_READ_STATUS (R397): BOOT_SPI transaction 0x05 returns BOOT_STAT in every stage. -/
  | bootSpiReadStatus (t : DT) (bytes : List Byte)
  /-- BOOT_SPI_WRITE_BOOT_LEN (R397): BOOT_SPI transaction 0x31 writes BOOT_LEN. -/
  | bootSpiWriteBootLen (t : DT) (bytes : List Byte)
  /-- BOOT_SPI_GO (R397): BOOT_SPI transaction 0x3A starts verification. -/
  | bootSpiGo (t : DT) (bytes : List Byte)
  /-- BOOT_SPI_ABORT (R397): BOOT_SPI transaction 0x3B discards the staged image and the claim. -/
  | bootSpiAbort (t : DT) (bytes : List Byte)
  /-- BOOT_SPI_UNKNOWN_TRANSACTION (R397): A BOOT_SPI transaction with an unknown first byte is discarded and sets STONE_ERR.SPI_FRAME. -/
  | bootSpiUnknownTransaction (t : DT) (first : Byte)
  /-- BAR4_READ (R316): A host read through the BAR4 window of device DRAM at WINDOW_BASE plus the offset. -/
  | bar4Read (t : DT) (offset len : Nat)
  /-- BAR4_WRITE (R316): A host write through the BAR4 window, discarded if it falls out of range or in Korsyn's area. -/
  | bar4Write (t : DT) (offset : Nat) (bytes : List Byte)
  /-- DEV_INFO (R398): Returns the interface level, silicon revision, variant and life-cycle state in RESULT. -/
  | devInfo (c : Cmd)
  /-- DEV_CAPS (R48): Writes the capability descriptor to the host address given. -/
  | devCaps (c : Cmd)
  /-- DEV_RESET (R30): Command that completes and then causes a device reset. -/
  | devReset (c : Cmd)
  /-- DEV_SET_WINDOW (R316): Sets WINDOW_BASE of the BAR4 DRAM window. -/
  | devSetWindow (c : Cmd)
  /-- DEV_UPDATE (R364): Fetches and checks a new Korsyn image, then hands over hitlessly. -/
  | devUpdate (c : Cmd) (u v : Unit := ())
  /-- DEV_SET_POWER (R371): Requests Standby or Off when the device is fully idle. -/
  | devSetPower (c : Cmd) (pf1D3hot : Bool)
  /-- RING_CREATE (R44): Creates a ring of the given kind, size, location and pairing. -/
  | ringCreate (c : Cmd)
  /-- RING_DESTROY (R44): Removes a ring unless it is bootstrap, paired, busy or bound to DMA. -/
  | ringDestroy (c : Cmd)
  /-- RING_MODERATE (R296): Changes MSIX, MOD_COUNT and MOD_TIME of a created ring. -/
  | ringModerate (c : Cmd)
  /-- BUNCH_OPEN (R50): Opens a bunch with a timeout and returns its ID. -/
  | bunchOpen (c : Cmd)
  /-- BUNCH_COMMIT (R59): Fixes the commit point T from the anchor and starts arming the bunch. -/
  | bunchCommit (c : Cmd)
  /-- BUNCH_ABORT (R61): Aborts an OPEN or ARMING bunch; on an ARMED or LANDING bunch it completes with BUSY. -/
  | bunchAbort (c : Cmd)
  /-- BUNCH_QUERY (R50): Reports the state, master and member-write count of a bunch ID. -/
  | bunchQuery (c : Cmd)
  /-- STAGING_CYCLE (R55): At each 1 µs staging cycle Korsyn arbitrates simultaneous claims, aborts the losers and retries scheduled bunches. -/
  | stagingCycle (t : DT)
  /-- BUNCH_ARMED (R60): Every member sits in shadow state, so the bunch is ARMED and its commit completes. -/
  | bunchArmed (t : DT) (id : Nat)
  /-- COMMIT_POINT (R49): DT reaches T and the armed bunch enters LANDING. -/
  | commitPoint (t : DT) (id : Nat)
  /-- MEMBER_LANDING (R54): A member reaches its block's boundary at or after T and takes effect there. -/
  | memberLanding (t : DT) (id member : Nat)
  /-- BUNCH_TIMEOUT (R64): A bunch stays OPEN past TIMEOUT_MS and aborts with cause TIMEOUT. -/
  | bunchTimeout (t : DT) (id : Nat)
  /-- DOMAIN_STARTED (R18): A power domain that Korsyn started for a bunch finishes its start time. -/
  | domainStarted (t : DT) (domain : Domain)
  /-- CLK_STATUS (R67): Returns the lock, bypass and reference status of each ADPLL. -/
  | clkStatus (c : Cmd)
  /-- CLK_SET_LOCK_MODE (R66): Selects SEARCH or CACHE lock mode for an ADPLL, or flushes its hop cache. -/
  | clkSetLockMode (c : Cmd)
  /-- CLK_SELECT_REF (R71): Relocks the ADPLLs to REFCLK or XTAL_B in the order M, F, S, D. -/
  | clkSelectRef (c : Cmd)
  /-- CLK_SYNC_ARM (R82): Arms the load of DT from the next SYNC_IN edge in the chosen mode. -/
  | clkSyncArm (c : Cmd)
  /-- CLK_SET_SKEW (R84): Advances the ADPLL-S tick phase by a hop relock. -/
  | clkSetSkew (c : Cmd)
  /-- ADPLL_LOCK (R67): An ADPLL declares lock after band search or hop, with the ADPLL-S DT step where it applies. -/
  | adpllLock (t : DT) (pll step : Nat)
  /-- GATED_OUTPUT_RETURN (R68): 64 output cycles after lock, the DCO output returns to the logic tree and the absence ends. -/
  | gatedOutputReturn (t : DT) (pll : Nat)
  /-- ADPLL_LOCK_LOSS (R67): Phase error beyond ±10 % for 4 reference cycles: loss of lock, with the switch of the logic tree to bypass. -/
  | adpllLockLoss (t : DT) (pll : Nat)
  /-- REFCLK_LOSS (R70): No REFCLK edge for 40 ns: all ADPLLs leave their trees and are relocked to XTAL_B. -/
  | refclkLoss (t : DT)
  /-- REFCLK_RESTORED (R70): After 1 ms of good edges REFCLK counts as restored. -/
  | refclkRestored (t : DT)
  /-- TIME_GET (R79): Writes the time record with the epoch, rate and status. -/
  | timeGet (c : Cmd)
  /-- TIME_SET_TAI (R81): Gives the TAI second of a coming PPS, or sets the epoch directly. -/
  | timeSetTai (c : Cmd)
  /-- TIME_CONFIG (R80): Selects the time source and the active PPS edge. -/
  | timeConfig (c : Cmd)
  /-- PPS_IN_EDGE (R80): A PPS_IN edge is stamped and accepted, rejected, or taken as a candidate, and the epoch and rate are updated. -/
  | ppsInEdge (t : DT) (falling : Bool)
  /-- PPS_LOSS_TIMEOUT (R80): No pulse is accepted for 1.5 s, so the epoch enters HOLDOVER. -/
  | ppsLossTimeout (t : DT)
  /-- SYNC_IN_EDGE (R82): An armed SYNC_IN edge is stamped and loads DT as the mode states, with SYNC_OUT driven where configured. -/
  | syncInEdge (t : DT) (fraction marginPs : Nat)
  /-- SYNC_OUT_LAUNCH (R82): A chain master drives SYNC_OUT at the REFCLK edge where DT equals D. -/
  | syncOutLaunch (t : DT)
  /-- SYNC_ARM_TIMEOUT (R82): No SYNC edge arrives within TIMEOUT_MS, so the arm is disarmed. -/
  | syncArmTimeout (t : DT)
  /-- PTP_EVENT_MESSAGE (R326): A PTP event message is sent or received, stamped in DT, and fed to the servo. -/
  | ptpEventMessage (t : DT) (port : Nat) (received : Bool) (servo : Option Epoch)
  /-- RF_SET_RANGE (R88): Sets the attenuator, pad and optional reference state of an RF channel. -/
  | rfSetRange (c : Cmd)
  /-- RF_STATUS (R88): Writes the RF status record (range, compensation, slices, pad count). -/
  | rfStatus (c : Cmd)
  /-- RF_SET_PAD_COUNT (R94): Sets the pad change count to the host value, but no lower than the OTP floor, plus one. -/
  | rfSetPadCount (c : Cmd)
  /-- CAL_SET_RF (R104): Sets the user offset, table and delay calibration of an RF path. -/
  | calSetRf (c : Cmd)
  /-- RF_GROUP (R98): A 64-sample RF group with its sideband arrives from the converter die at the DDC. -/
  | rfGroup (t : DT) (channel : Nat) (codes : List Int)
  /-- OVERDRIVE_COMPARATOR (R100): The analogue overdrive comparator fires or releases and forces OVR on groups. -/
  | overdriveComparator (t : DT) (channel : Nat) (fires : Bool)
  /-- PAD_SETTLE_END (R91): The 19,200-group pad settling interval ends, and held pad members may land. -/
  | padSettleEnd (t : DT) (channel : Nat)
  /-- OTP_BURN_DONE (R93): A pad-wear OTP bit burn completes, so a pending pad change may land. -/
  | otpBurnDone (t : DT) (channel : Nat)
  /-- SLICE_SWAP (R96): Every 2.000 s the spare RF slice is swapped in, and the outgoing slice is measured and possibly retired. -/
  | sliceSwap (t : DT) (channel : Nat) (fault : Option (Nat × Nat))
  /-- OPTICAL_GROUP (R218): A 16-sample optical group arrives with its OVR flag. -/
  | opticalGroup (t : DT) (receiver : Nat) (codes : List Int)
  /-- DDC_SET (R107): Sets the NCO, phase, decimation, shift and enable of a DDC path. -/
  | ddcSet (c : Cmd)
  /-- DDC_SET_DETECT (R124): Configures the peak, RMS and envelope detectors of a path. -/
  | ddcSetDetect (c : Cmd)
  /-- DDC_OUTPUT_GROUP (R113): A DDC output group of 64 outputs with its sideband is produced and passed to pips, capture and VDIF. -/
  | ddcOutputGroup (t : DT) (path : Nat) (u : Unit := ())
  /-- DETECTOR_WINDOW_END (R124): A detector window of 2^w outputs ends; values are reported and the time-domain condition is tested. -/
  | detectorWindowEnd (t : DT) (path : Nat)
  /-- VDIF_FRAME (R323): S samples fill a VDIF frame, which is written into its data ring entry. -/
  | vdifFrame (t : DT) (ring : Nat) (u : Unit := ())
  /-- PIP_ASSIGN (R148): Starts or stops the spectral processing of an RF personality. -/
  | pipAssign (c : Cmd)
  /-- PIP_SET_SPARES (R20): Sets the pip spare count S. -/
  | pipSetSpares (c : Cmd)
  /-- PIP_STATUS (R148): Writes the state of each pip, with S and H. -/
  | pipStatus (c : Cmd)
  /-- SPEC_SET_FFT (R133): Sets the FFT length, overlap, averaging and record selection. -/
  | specSetFft (c : Cmd)
  /-- SPEC_SET_WINDOW (R129): Selects the FFT window. -/
  | specSetWindow (c : Cmd)
  /-- SPEC_SET_TRACE (R166): Configures a trace detector. -/
  | specSetTrace (c : Cmd)
  /-- PIP_FRAME_DONE (R132): A pip completes a frame, Parseval-checks it and hands the spectrum to the trigger, traces, change log and bloom queue. -/
  | pipFrameDone (t : DT) (personality : Nat) (upset : List (Int × Int))
  /-- AVERAGING_BLOCK_END (R139): A block of V frames ends and the averaged spectrum record is written. -/
  | averagingBlockEnd (t : DT) (personality : Nat)
  /-- TRACE_BLOCK_END (R166): A trace block of INTERVAL frames ends, and its record is written and limit-tested. -/
  | traceBlockEnd (t : DT) (personality trace : Nat)
  /-- PIP_FAULT (R144): A pip fault (Parseval, ECC, test, watchdog) is detected, and relief, recompute or degradation follows. -/
  | pipFault (t : DT) (pip cause : Nat)
  /-- PIP_RECOMPUTE_DONE (R144): The spare delivers the recomputed spectra from the replay window and the fault record closes. -/
  | pipRecomputeDone (t : DT) (pip : Nat) (poisoned : Bool) (u : Unit := ())
  /-- BLOOM_SET (R150): Sets or releases a bloom map and its geometry, decay and snapshots. -/
  | bloomSet (c : Cmd)
  /-- BLOOM_CLEAR (R161): Clears a bloom map at its boundary. -/
  | bloomClear (c : Cmd)
  /-- BLOOM_READ (R164): Writes a snapshot of a map, optionally clearing it. -/
  | bloomRead (c : Cmd)
  /-- BLOOM_INGEST (R153): The bloom engine takes a queued spectrum and adds its bins into each accepting map. -/
  | bloomIngest (t : DT) (personality : Nat)
  /-- BLOOM_DECAY (R159): After every K-th accepted spectrum a decay pass of the map starts. -/
  | bloomDecay (t : DT) (map : Nat)
  /-- DECAY_PASS_DONE (R160): A decay pass completes and the map accepts spectra again. -/
  | decayPassDone (t : DT) (map : Nat)
  /-- BLOOM_SNAPSHOT (R164): Every SNAP_SPECTRA accepted spectra, a periodic snapshot is written to the snapshot ring. -/
  | bloomSnapshot (t : DT) (map : Nat)
  /-- TRIG_SET_MASK (R171): Configures a frequency mask. -/
  | trigSetMask (c : Cmd)
  /-- TRIG_SET_TD (R176): Configures the time-domain condition. -/
  | trigSetTd (c : Cmd)
  /-- TRIG_SET_SEQ (R179): Configures and arms or disarms the sequencer. -/
  | trigSetSeq (c : Cmd)
  /-- TRIG_SET_LIMIT (R182): Configures a limit test on a trace. -/
  | trigSetLimit (c : Cmd)
  /-- TRIG_LIMIT_RESUME (R183): Resumes output stopped by a limit violation. -/
  | trigLimitResume (c : Cmd)
  /-- TRIG_SET_LOG (R194): Configures the spectral change log. -/
  | trigSetLog (c : Cmd)
  /-- TRIG_SET_LINE_LOG (R196): Configures the line log and the device-wide TRIG_IN edges. -/
  | trigSetLineLog (c : Cmd)
  /-- TRIG_IN_EDGE (R177): An edge at a TRIG_IN line is stamped and delivered to triggers, request lines and generators, or merged. -/
  | trigInEdge (t : DT) (line : Nat) (falling : Bool)
  /-- SEQUENCER_EVALUATE (R180): Once every input has delivered up to a DT, the sequencer processes its events in DT order and may issue a trigger. -/
  | sequencerEvaluate (t : DT) (personality : Nat)
  /-- SEQUENCER_STEP_TIMEOUT (R179): A step waits TIMEOUT tk and the sequencer returns to step 0. -/
  | sequencerStepTimeout (t : DT) (personality : Nat)
  /-- CAP_SET (R184): Configures a capture unit and allocates its buffer. -/
  | capSet (c : Cmd)
  /-- CAP_ARM (R185): Arms or disarms a capture. -/
  | capArm (c : Cmd)
  /-- CAP_FORCE (R185): Forces a capture trigger at its landing group. -/
  | capForce (c : Cmd)
  /-- CAP_READ (R192): Delivers a capture record to a ring or address. -/
  | capRead (c : Cmd)
  /-- CAP_STATUS (R188): Writes the capture status. -/
  | capStatus (c : Cmd)
  /-- CAPTURE_END (R186): POST units after the trigger have been written and the record ends. -/
  | captureEnd (t : DT) (capture : Nat)
  /-- CAPTURE_OVERFLOW (R191): Capture staging fills while DRAM writes stall, and the capture ends with OVERFLOW. -/
  | captureOverflow (t : DT) (capture : Nat)
  /-- GEN_SEGMENT (R203): Defines a generator segment. -/
  | genSegment (c : Cmd)
  /-- GEN_LOAD (R207): Loads the sequence table. -/
  | genLoad (c : Cmd)
  /-- GEN_START (R199): Starts, restarts or stops a generator. -/
  | genStart (c : Cmd)
  /-- GEN_CARRIER (R206): Sets a carrier lane's frequency and phase and the shared bias. -/
  | genCarrier (c : Cmd)
  /-- GEN_JUMP (R208): Sets a generator host flag. -/
  | genJump (c : Cmd)
  /-- GEN_ROUTE (R210): Routes the marker and TRIG_OUT lines to DACs and sets the pulse width. -/
  | genRoute (c : Cmd)
  /-- GEN_STATUS (R214): Writes the generator status. -/
  | genStatus (c : Cmd)
  /-- CAL_SET_GEN (R202): Sets the generator user delay. -/
  | calSetGen (c : Cmd)
  /-- GEN_LATCH_POINT (R209): 4 granules before a play ends, the generator fixes what follows (stop, jump, repeat, loop, next). -/
  | genLatchPoint (t : DT) (dac : Nat)
  /-- GEN_SEGMENT_START (R211): A play ends and the next segment starts, with TRIG_OUT pulses, trigger events, epochs and a possible LASER_EN rise. -/
  | genSegmentStart (t : DT) (dac : Nat)
  /-- TRIG_OUT_PULSE_END (R211): A TRIG_OUT pulse ends after WIDTH × 16 tk. -/
  | trigOutPulseEnd (t : DT) (line : Nat)
  /-- GENERATOR_UNDERRUN (R214): The sample stream reaches a granule that has not arrived, so IDLE is played and the sequence resumes or stops. -/
  | generatorUnderrun (t : DT) (dac : Nat)
  /-- DAS_START (R217): Starts or stops DAS on a fibre with k receivers. -/
  | dasStart (c : Cmd)
  /-- DAS_SET_SLOT (R219): Configures a DAS slot code and its launch entries. -/
  | dasSetSlot (c : Cmd)
  /-- DAS_SET_GRID (R227): Sets the DAS output grid, kind, combine and ring. -/
  | dasSetGrid (c : Cmd)
  /-- DAS_SET_PMASK (R233): Configures the DAS position mask. -/
  | dasSetPmask (c : Cmd)
  /-- DAS_STATUS (R232): Writes the DAS status. -/
  | dasStatus (c : Cmd)
  /-- CAL_SET_FIBRE (R226): Sets n_g, D_FIX and the coil fields of a fibre. -/
  | calSetFibre (c : Cmd)
  /-- DAS_TRACE_READY (R226): The currants finish a DAS trace, write its record and test it against the position mask. -/
  | dasTraceReady (t : DT) (fibre : Nat) (slot : Nat)
  /-- DAS_BAND_WINDOW_END (R270): A window of 2^w traces ends and the band energy record is written. -/
  | dasBandWindowEnd (t : DT) (fibre : Nat)
  /-- LASER_SET_MODCAL (R234): Loads the modulator transfer table and P_REF. -/
  | laserSetModcal (c : Cmd)
  /-- LASER_SET_CAPS (R235): Sets the peak, pulse and average caps. -/
  | laserSetCaps (c : Cmd)
  /-- LASER_ARM (R236): Arms or disarms the laser on a DAC, clearing a latched trip by disarm then arm. -/
  | laserArm (c : Cmd)
  /-- LASER_STATUS (R236): Writes the laser status. -/
  | laserStatus (c : Cmd)
  /-- LASER_COMPARATOR_TRIP (R236): The hardware comparator exceeds a cap, so LASER_EN drops and the DACs go to IDLE. -/
  | laserComparatorTrip (t : DT) (dac measure : Nat)
  /-- LASER_PERMIT_LOW (R236): LASER_PERMIT stays low for 100 ns, so LASER_EN drops. -/
  | laserPermitLow (t : DT)
  /-- LASER_PERMIT_HIGH (R236): LASER_PERMIT goes high again and the permit change is reported. -/
  | laserPermitHigh (t : DT)
  /-- DTS_START (R237): Starts or stops DTS on a fibre. -/
  | dtsStart (c : Cmd)
  /-- DTS_SET (R238): Sets the DTS launch, grid, stack and ring. -/
  | dtsSet (c : Cmd)
  /-- DTS_STATUS (R240): Writes the DTS status. -/
  | dtsStatus (c : Cmd)
  /-- DTS_LAUNCH (R239): The raw cells of a launch are checked and either stacked or left out. -/
  | dtsLaunch (t : DT) (fibre : Nat) (u : Unit := ())
  /-- DTS_STACK_END (R240): REQUESTED launches complete a stack, and restoration, ratio and temperature start; the ADPLL-F point may change here. -/
  | dtsStackEnd (t : DT) (fibre : Nat)
  /-- DTS_RECORD_READY (R245): The DTS record reaches its ring within 5 ms of the stack end. -/
  | dtsRecordReady (t : DT) (fibre : Nat)
  /-- SLOW_SET_SCAN (R249): Loads the slow-converter scan table. -/
  | slowSetScan (c : Cmd)
  /-- SLOW_START (R249): Starts the scan at entry 0, or stops it after the running conversion. -/
  | slowStart (c : Cmd)
  /-- SLOW_URGENT (R252): Runs one inline conversion after the running one. -/
  | slowUrgent (c : Cmd)
  /-- SLOW_ENTRY_DELAY_END (R248): An entry's DELAY_US expires and converter power-up begins. -/
  | slowEntryDelayEnd (t : DT)
  /-- SLOW_CONVERSION_END (R248): An integration ends; the result is written and the next due action starts. -/
  | slowConversionEnd (t : DT) (code : Int)
  /-- SLOW_PARTIAL_ENTRY_FLUSH (R253): A partial ring entry 100 ms old is written out padded. -/
  | slowPartialEntryFlush (t : DT)
  /-- EXC_SET (R257): Enables an excitation output and sets its impedance check. -/
  | excSet (c : Cmd)
  /-- EXC_STATUS (R254): Writes the excitation status. -/
  | excStatus (c : Cmd)
  /-- EXC_BREAK_DETECT (R255): The output current falls below 1 µA; BREAK is set and a running conversion aborts. -/
  | excBreakDetect (t : DT) (exc : Nat)
  /-- EXC_BREAK_RESTORED (R255): The current stays at or above 1 µA for 1 ms and the restoration is reported. -/
  | excBreakRestored (t : DT) (exc : Nat)
  /-- IMPEDANCE_CHECK_DUE (R257): The IMP_PERIOD_S timer expires and the impedance check is queued. -/
  | impedanceCheckDue (t : DT) (exc : Nat)
  /-- IMPEDANCE_CHECK_DONE (R257): The 8 ms tone measurement ends and its result record is written. -/
  | impedanceCheckDone (t : DT) (exc nanofarad microsiemens : Nat)
  /-- CUR_SET_BAND (R270): Configures DAS band energy detection. -/
  | curSetBand (c : Cmd)
  /-- CUR_STATUS (R274): Writes the currant status. -/
  | curStatus (c : Cmd)
  /-- CURRANT_FAULT (R272): A currant fault is detected, and a spare takes over or the fibre degrades. -/
  | currantFault (t : DT) (currant cause : Nat)
  /-- CURRANT_RECOMPUTE_DONE (R272): The spare delivers the recomputed traces. -/
  | currantRecomputeDone (t : DT) (currant : Nat) (slots : List Nat)
  /-- DMA_SET (R276): Binds a host DMA channel. -/
  | dmaSet (c : Cmd)
  /-- DMA_START (R290): Stops, starts or resumes a DMA channel. -/
  | dmaStart (c : Cmd)
  /-- DMA_STATUS (R288): Writes the channel status. -/
  | dmaStatus (c : Cmd)
  /-- DMA_REQUEST (R285): Raises requests on a software line. -/
  | dmaRequest (c : Cmd)
  /-- DMA_MOVE (R280): MOVE instruction: copy LEN bytes from SRC to DST. -/
  | dmaMove (t : DT) (channel : Nat) (word : U128)
  /-- DMA_GATHER (R280): GATHER instruction: copy list elements to a contiguous destination. -/
  | dmaGather (t : DT) (channel : Nat) (word : U128)
  /-- DMA_SCATTER (R280): SCATTER instruction: copy a contiguous source to list elements. -/
  | dmaScatter (t : DT) (channel : Nat) (word : U128)
  /-- DMA_LOOP (R282): LOOP instruction: counter handling and branch back. -/
  | dmaLoop (t : DT) (channel : Nat) (word : U128)
  /-- DMA_WAIT (R283): WAIT instruction begins waiting on a line, semaphore, ring or DT. -/
  | dmaWait (t : DT) (channel : Nat) (word : U128)
  /-- DMA_WAIT_SATISFIED (R283): The awaited requests, semaphore units, ring entries or DT arrive and the WAIT passes. -/
  | dmaWaitSatisfied (t : DT) (channel : Nat)
  /-- DMA_SIGNAL (R284): SIGNAL instruction: advance a ring index, post an event, add to a semaphore or raise a line. -/
  | dmaSignal (t : DT) (channel : Nat) (word : U128)
  /-- DMA_LINK (R278): LINK instruction: continue at another address. -/
  | dmaLink (t : DT) (channel : Nat) (word : U128)
  /-- DMA_END (R293): END instruction: the channel parks with the address latched, or refetches if KICK is set. -/
  | dmaEnd (t : DT) (channel : Nat) (word : U128)
  /-- DMA_UNDEFINED_OP (R278): An instruction with an unlisted OP stops the channel with BAD_OP. -/
  | dmaUndefinedOp (t : DT) (channel : Nat) (word : U128)
  /-- DMA_BURST (R280): A paced or unpaced burst of a transfer is issued when its request or data is ready. -/
  | dmaBurst (t : DT) (channel : Nat)
  /-- DMA_TRANSFER_DONE (R287): All responses, including the flush read, are in and the transfer is DONE. -/
  | dmaTransferDone (t : DT) (channel : Nat)
  /-- DMA_ERROR_RESPONSE (R288): An error response on a beat stops the channel at that instruction. -/
  | dmaErrorResponse (t : DT) (channel cause : Nat)
  /-- REQUEST_LINE_REQUEST (R285): A source raises a request on a line, counted or lost at a full count. -/
  | requestLineRequest (t : DT) (line : Nat)
  /-- MSIX_MOD_TIME_EXPIRY (R295): MOD_TIME elapses after the first unsignalled entry, so an MSI-X message falls due. -/
  | msixModTimeExpiry (t : DT) (ring : Nat)
  /-- MSIX_UNMASK (R296): The host unmasks a vector with its pending bit set and one message is sent. -/
  | msixUnmask (t : DT) (function vector : Nat)
  /-- MEM_SET_FREQ (R306): Requests a change of DRAM frequency point. -/
  | memSetFreq (c : Cmd)
  /-- MEM_SET_IDLE (R302): Sets the automatic self-refresh idle time. -/
  | memSetIdle (c : Cmd)
  /-- MEM_STATUS (R303): Writes the memory status. -/
  | memStatus (c : Cmd)
  /-- MEM_READ_LOG (R309): Writes the oldest unread error log entries and marks them read. -/
  | memReadLog (c : Cmd)
  /-- MEM_REPAIR (R311): Burns the remapped rows by post-package repair. -/
  | memRepair (c : Cmd)
  /-- DFS_DONE (R304): The DFS sequence completes at self-refresh exit, traffic resumes and SET_FREQ completes. -/
  | dfsDone (t : DT)
  /-- TRAINING_WINDOW (R305): The 100 ms periodic training window starts. -/
  | trainingWindow (t : DT)
  /-- TRAINING_WINDOW_END (R305): The training window ends and a deferred frequency change begins. -/
  | trainingWindowEnd (t : DT)
  /-- SELF_REFRESH_ENTRY (R302): No request has arrived for IDLE_US, so the DRAM enters self-refresh. -/
  | selfRefreshEntry (t : DT)
  /-- DRAM_WAKE (R302): The first request after entry wakes the DRAM and is served within 3 µs. -/
  | dramWake (t : DT)
  /-- DRAM_REFRESH (R301): Per-bank refresh falls due at the rate MR4 requires. -/
  | dramRefresh (t : DT) (channel bank : Nat)
  /-- PATROL_SCRUB (R308): The patrol scrub reads through usable capacity once per 24 h. -/
  | patrolScrub (t : DT) (address : Nat)
  /-- DRAM_ECC_ERROR (R307): A DRAM read finds a correctable or uncorrectable error; it is corrected or answered, logged, and possibly remapped. -/
  | dramEccError (t : DT) (error : DramError)
  /-- SRAM_ECC_ERROR (R312): An on-die SRAM error is found; the row is spared and the block consequence follows. -/
  | sramEccError (t : DT) (error : SramError)
  /-- PCIE_LINK_CHANGE (R318): The PCIe link trains at a new width or rate and the PF1 budget is scaled. -/
  | pcieLinkChange (t : DT) (width rate : Nat)
  /-- PF1_FLR (R317): A function-level reset of PF1 stops its transfers and clears its MSI-X table. -/
  | pf1Flr (t : DT)
  /-- PF0_D3HOT (R317): PF0 enters D3hot and the device is handed to power-state handling. -/
  | pf0D3hot (t : DT)
  /-- NET_SET_PORT (R319): Configures an Ethernet port's mode, addresses and PTP. -/
  | netSetPort (c : Cmd)
  /-- NET_SET_STREAM (R321): Binds an outbound data ring to a port. -/
  | netSetStream (c : Cmd)
  /-- NET_SET_VDIF (R323): Makes a data ring carry VDIF frames of a DDC path. -/
  | netSetVdif (c : Cmd)
  /-- NET_SET_CONTROL (R327): Enables the Ethernet control endpoint and creates its rings. -/
  | netSetControl (c : Cmd)
  /-- NET_STATUS (R331): Writes the port status. -/
  | netStatus (c : Cmd)
  /-- ETH_FRAME_RECEIVED (R320): A received frame is answered (ARP, ND, ICMP), passed to PTP or the endpoint, or discarded. -/
  | ethFrameReceived (t : DT) (port : Nat) (frame : FrameKind)
  /-- STREAM_DATAGRAM_SEND (R321): A bound port takes a ring entry and sends it as one UDP datagram, or discards it while the link is down. -/
  | streamDatagramSend (t : DT) (ring : Nat)
  /-- ETH_LINK_CHANGE (R331): A port link goes up or down. -/
  | ethLinkChange (t : DT) (port : Nat) (up : Bool)
  /-- CONTROL_COMMAND_DATAGRAM (R328): A command datagram from the peer is accepted by SEQ, repeated, or discarded. -/
  | controlCommandDatagram (t : DT) (datagram : Datagram)
  /-- CONTROL_RESEND_DATAGRAM (R329): A resend datagram asks for entries again, or for the endpoint state when count is 0. -/
  | controlResendDatagram (t : DT) (datagram : Datagram)
  /-- STREAM_DROP_REPORT (R330): The drop report for a ring falls due, at the first drop or at the end of the 1 s window. -/
  | streamDropReport (t : DT) (ring : Nat)
  /-- DISP_SET_MODE (R333): Sets the display output and timing. -/
  | dispSetMode (c : Cmd)
  /-- DISP_SET_LAYER (R336): Configures a display layer. -/
  | dispSetLayer (c : Cmd)
  /-- DISP_SET_PALETTE (R339): Loads the bloom layer palette. -/
  | dispSetPalette (c : Cmd)
  /-- DISP_ALLOC (R338): Allocates or releases the display pool. -/
  | dispAlloc (c : Cmd)
  /-- DISP_SET_PSR (R344): Sets panel self-refresh mode. -/
  | dispSetPsr (c : Cmd)
  /-- DISP_STATUS (R340): Writes the display status. -/
  | dispStatus (c : Cmd)
  /-- DISPLAY_FRAME_START (R335): A display frame starts at its first active line and is stamped in DT. -/
  | displayFrameStart (t : DT)
  /-- DISPLAY_VERTICAL_ACTIVE_END (R341): Vertical active ends and replaced buffers are released. -/
  | displayVerticalActiveEnd (t : DT)
  /-- DISPLAY_FRAME_END (R340): A frame ends, display members land, and PSR entry may follow. -/
  | displayFrameEnd (t : DT) (underflow : List Nat)
  /-- HPD_UNPLUG (R335): DP_HPD stays low for 2 ms, so the main link stops. -/
  | hpdUnplug (t : DT)
  /-- HPD_PLUG (R335): The sink is reconnected, so the link is trained and black is sent. -/
  | hpdPlug (t : DT)
  /-- HPD_IRQ (R335): An HPD interrupt pulse makes Korsyn read the sink status and retrain if needed. -/
  | hpdIrq (t : DT) (lost : Bool)
  /-- LINK_TRAINING_DONE (R343): Display link training ends and frame 1 of the new mode starts. -/
  | linkTrainingDone (t : DT) (ok : Bool)
  /-- HEALTH_STATUS (R361): Writes health telemetry. -/
  | healthStatus (c : Cmd)
  /-- HEALTH_SET_ROTATION (R345): Sets the rotation periods and TEMP_WARN. -/
  | healthSetRotation (c : Cmd)
  /-- HEALTH_READ_FAULTS (R356): Writes the open and closed fault records. -/
  | healthReadFaults (c : Cmd)
  /-- HEALTH_SET_RETIRED (R355): Retires units from stored masks before the first admission. -/
  | healthSetRetired (c : Cmd)
  /-- ROTATION_VISIT (R345): A rotation visit falls due; the unit is relieved by a spare and tested, or tested in place. -/
  | rotationVisit (t : DT) (kind unit : Nat)
  /-- UNIT_TEST_DONE (R348): A pip or currant test ends; the unit becomes a spare or is retired. -/
  | unitTestDone (t : DT) (kind unit : Nat) (pass : Bool)
  /-- ORX_SLICE_SWAP (R350): Every 2.000 s the optical spare slice is swapped and measured. -/
  | orxSliceSwap (t : DT) (receiver : Nat) (fault : Option Int)
  /-- DAC_LOOPBACK (R350): Every 1.000 s the DAC output current is compared with the codes played. -/
  | dacLoopback (t : DT) (dac : Nat) (deviationPpm : Int)
  /-- DIE_REFERENCE_CHECK (R350): Every 10 s each converter die compares its reference with its bandgap. -/
  | dieReferenceCheck (t : DT) (die : Nat) (milliDy ppm : Int)
  /-- SLOW_SELFTEST_DUE (R350): Every 3,600 s the zero and half-scale conversions are queued. -/
  | slowSelftestDue (t : DT)
  /-- STEWARD_FAULT (R360): A lockstep mismatch, handler fault, handler overrun or SRAM error resets the steward. -/
  | stewardFault (t : DT) (cause : Nat)
  /-- STEWARD_RESTART_DONE (R361): Korsyn returns after restart, recovers the persistent state and resumes taking commands. -/
  | stewardRestartDone (t : DT) (imageOk : Bool)
  /-- STEWARD_OUTAGE_TIMEOUT (R362): Korsyn has not returned within 2 s, so LASER_EN drops and the generators stop at IDLE. -/
  | stewardOutageTimeout (t : DT)
  /-- HANDOVER_TIMEOUT (R366): The new image misses READY within 500 ms, so the kept image is restored. -/
  | handoverTimeout (t : DT)
  /-- READY_ENTRY (R369): 1 ms after the last user stops, Korsyn moves from Active to Ready. -/
  | readyEntry (t : DT)
  /-- STANDBY_ENTRY_DONE (R372): State is saved, the DRAM is in self-refresh and the stone domain powers the steward down. -/
  | standbyEntryDone (t : DT)
  /-- WAKE (R374): An enabled wake source fires in Standby or Off, WAKE_STAT is recorded and restore begins. -/
  | wake (t : DT) (sources : Byte)
  /-- STANDBY_RESTORE_DONE (R375): The image copied back from DRAM is verified and Korsyn resumes in Ready. -/
  | standbyRestoreDone (t : DT) (u v : Unit := ())
  /-- LC_SECURE (R377): Generates the identity key and moves MANUFACTURE to SECURED. -/
  | lcSecure (c : Cmd)
  /-- LC_SERVICE (R378): With a valid token, moves SECURED to SERVICE. -/
  | lcService (c : Cmd) (u v : Unit := ())
  /-- LC_RESUME (R377): Returns SERVICE to SECURED. -/
  | lcResume (c : Cmd)
  /-- LC_RETURN (R378): With a valid token, moves to RETURN, zeroising the key. -/
  | lcReturn (c : Cmd) (u v : Unit := ())
  /-- LC_RETIRE (R378): Moves the part to RETIRED. -/
  | lcRetire (c : Cmd) (u v : Unit := ())
  /-- LC_RAISE_FLOOR (R40): Burns the anti-rollback floor up to the running SEC_VERSION. -/
  | lcRaiseFloor (c : Cmd)
  /-- LC_CHALLENGE (R378): Writes a fresh nonce for a token. -/
  | lcChallenge (c : Cmd)
  /-- XTAL_B_RUNNING (R31): About 0.5 ms after POR_N rises, XTAL_B is running, the steward domain and all on-die SRAM are powered, STAGE becomes WIPE_SRAM and the SRAM wipe starts. -/
  | xtalBRunning (t : DT)
  /-- SLOW_INTEGRATION_START (R248): The slow converter's 0.8 ms power-up ends and integration begins; at this point EXC_OFF, LIMIT and RECOVER (2 ms after an OVR result) are decided. -/
  | slowIntegrationStart (t : DT)
  /-- PF1_BUS_MASTER_ENABLE (R317): After an FLR, the host enables bus mastering and MSI-X on PF1 again, and data rings with LOCATION 1 resume with their indices unchanged. -/
  | pf1BusMasterEnable (t : DT)
  deriving DecidableEq, Repr

end Sys2Proof
end

