-- ==== Sys2Proof/WellFormed.lean ====
section
/-! DEFINITION. When a command is well formed: a mailbox row's entry carries that row's opcode (Tables 2-20 and the
command tables of the chapters) on a ring that can exist, and every other row's operands have the shapes and ranges
the spec gives them. A meaning is total and asks for none of this. -/

namespace Sys2Proof

/-- OPCODE of an entry (Table 2-16, bytes 0 and 1). -/
def Cmd.opcode (c : Cmd) : Nat := c.entry.toNat % 65536

/-- An entry of the given opcode on a ring number of the part (R43). -/
def Cmd.wf (op : Nat) (c : Cmd) : Bool := decide (c.ring < 8192) && c.opcode == op

/-- Table 1-3: a domain that exists. -/
def Domain.wf : Domain → Bool
  | .fabric => true
  | .converter die => decide (die < 2)
  | .ethernet port => decide (port < 4)
  | .display => true

/-- R227: a trace names a slot of Table 11-1, or 0xFF for COMBINE = 1 (Table 11-3). -/
def traceSlot (slot : Nat) : Bool := decide (slot < 8) || slot == 0xFF

/-- Table 4-5: an epoch that the time record can hold. -/
def Epoch.wf (e : Epoch) : Bool :=
  decide (e.taiS < 2 ^ 64) && decide (e.taiNs < 1000000000) && decide (-2147483648 ≤ e.ratePpt) && decide (e.ratePpt < 2147483648)

/-- The opcode of a mailbox row; none for a row that is no mailbox command. -/
def Instr.mailboxOpcode : Instr → Option Nat
  | .porNLow _ => none
  | .porNRise _ => none
  | .fusesValid _ => none
  | .sramWipeDone _ => none
  | .dramTrainingDone _ _ => none
  | .dramWipeDone _ => none
  | .verifyDone _ _ _ => none
  | .korsynStart _ => none
  | .korsynReady _ => none
  | .startTimeout _ => none
  | .perstNAssert _ => none
  | .perstNRelease _ => none
  | .railUndervoltage _ => none
  | .railRecovery _ => none
  | .thermalTrip _ => none
  | .thermalHoldEnd _ => none
  | .tempThreshold _ _ _ => none
  | .bootCtrlDevReset _ _ => none
  | .go _ _ => none
  | .abort _ _ => none
  | .spiEnable _ _ => none
  | .registerWrite _ _ _ _ => none
  | .dtSnapLoRead _ => none
  | .doorbellWrite _ _ _ => none
  | .dmaDoorbell _ _ _ => none
  | .imageStagingWrite _ _ _ => none
  | .bootSpiWriteStaging _ _ => none
  | .bootSpiReadStaging _ _ _ => none
  | .bootSpiReadStatus _ _ => none
  | .bootSpiWriteBootLen _ _ => none
  | .bootSpiGo _ _ => none
  | .bootSpiAbort _ _ => none
  | .bootSpiUnknownTransaction _ _ => none
  | .bar4Read _ _ _ => none
  | .bar4Write _ _ _ => none
  | .devInfo _ => some 0x0101
  | .devCaps _ => some 0x0102
  | .devReset _ => some 0x0103
  | .devSetWindow _ => some 0x0104
  | .devUpdate _ _ _ => some 0x0105
  | .devSetPower _ _ => some 0x0106
  | .ringCreate _ => some 0x0201
  | .ringDestroy _ => some 0x0202
  | .ringModerate _ => some 0x0203
  | .bunchOpen _ => some 0x0301
  | .bunchCommit _ => some 0x0302
  | .bunchAbort _ => some 0x0303
  | .bunchQuery _ => some 0x0304
  | .stagingCycle _ => none
  | .bunchArmed _ _ => none
  | .commitPoint _ _ => none
  | .memberLanding _ _ _ => none
  | .bunchTimeout _ _ => none
  | .domainStarted _ _ => none
  | .clkStatus _ => some 0x0401
  | .clkSetLockMode _ => some 0x0402
  | .clkSelectRef _ => some 0x0403
  | .clkSyncArm _ => some 0x0404
  | .clkSetSkew _ => some 0x0406
  | .adpllLock _ _ _ => none
  | .gatedOutputReturn _ _ => none
  | .adpllLockLoss _ _ => none
  | .refclkLoss _ => none
  | .refclkRestored _ => none
  | .timeGet _ => some 0x0501
  | .timeSetTai _ => some 0x0502
  | .timeConfig _ => some 0x0503
  | .ppsInEdge _ _ => none
  | .ppsLossTimeout _ => none
  | .syncInEdge _ _ _ => none
  | .syncOutLaunch _ => none
  | .syncArmTimeout _ => none
  | .ptpEventMessage _ _ _ _ => none
  | .rfSetRange _ => some 0x0601
  | .rfStatus _ => some 0x0602
  | .rfSetPadCount _ => some 0x0603
  | .calSetRf _ => some 0x1901
  | .rfGroup _ _ _ => none
  | .overdriveComparator _ _ _ => none
  | .padSettleEnd _ _ => none
  | .otpBurnDone _ _ => none
  | .sliceSwap _ _ _ => none
  | .opticalGroup _ _ _ => none
  | .ddcSet _ => some 0x0701
  | .ddcSetDetect _ => some 0x0702
  | .ddcOutputGroup _ _ _ => none
  | .detectorWindowEnd _ _ => none
  | .vdifFrame _ _ _ => none
  | .pipAssign _ => some 0x0801
  | .pipSetSpares _ => some 0x0802
  | .pipStatus _ => some 0x0803
  | .specSetFft _ => some 0x0901
  | .specSetWindow _ => some 0x0902
  | .specSetTrace _ => some 0x0903
  | .pipFrameDone _ _ _ => none
  | .averagingBlockEnd _ _ => none
  | .traceBlockEnd _ _ _ => none
  | .pipFault _ _ _ => none
  | .pipRecomputeDone _ _ _ _ => none
  | .bloomSet _ => some 0x0A01
  | .bloomClear _ => some 0x0A02
  | .bloomRead _ => some 0x0A03
  | .bloomIngest _ _ => none
  | .bloomDecay _ _ => none
  | .decayPassDone _ _ => none
  | .bloomSnapshot _ _ => none
  | .trigSetMask _ => some 0x0B01
  | .trigSetTd _ => some 0x0B02
  | .trigSetSeq _ => some 0x0B03
  | .trigSetLimit _ => some 0x0B04
  | .trigLimitResume _ => some 0x0B05
  | .trigSetLog _ => some 0x0B06
  | .trigSetLineLog _ => some 0x0B07
  | .trigInEdge _ _ _ => none
  | .sequencerEvaluate _ _ => none
  | .sequencerStepTimeout _ _ => none
  | .capSet _ => some 0x0C01
  | .capArm _ => some 0x0C02
  | .capForce _ => some 0x0C03
  | .capRead _ => some 0x0C04
  | .capStatus _ => some 0x0C05
  | .captureEnd _ _ => none
  | .captureOverflow _ _ => none
  | .genSegment _ => some 0x0D01
  | .genLoad _ => some 0x0D02
  | .genStart _ => some 0x0D03
  | .genCarrier _ => some 0x0D04
  | .genJump _ => some 0x0D05
  | .genRoute _ => some 0x0D06
  | .genStatus _ => some 0x0D07
  | .calSetGen _ => some 0x1902
  | .genLatchPoint _ _ => none
  | .genSegmentStart _ _ => none
  | .trigOutPulseEnd _ _ => none
  | .generatorUnderrun _ _ => none
  | .dasStart _ => some 0x0F01
  | .dasSetSlot _ => some 0x0F02
  | .dasSetGrid _ => some 0x0F03
  | .dasSetPmask _ => some 0x0F04
  | .dasStatus _ => some 0x0F05
  | .calSetFibre _ => some 0x1903
  | .dasTraceReady _ _ _ => none
  | .dasBandWindowEnd _ _ => none
  | .laserSetModcal _ => some 0x0E01
  | .laserSetCaps _ => some 0x0E02
  | .laserArm _ => some 0x0E03
  | .laserStatus _ => some 0x0E04
  | .laserComparatorTrip _ _ _ => none
  | .laserPermitLow _ => none
  | .laserPermitHigh _ => none
  | .dtsStart _ => some 0x1001
  | .dtsSet _ => some 0x1002
  | .dtsStatus _ => some 0x1003
  | .dtsLaunch _ _ _ => none
  | .dtsStackEnd _ _ => none
  | .dtsRecordReady _ _ => none
  | .slowSetScan _ => some 0x1101
  | .slowStart _ => some 0x1102
  | .slowUrgent _ => some 0x1103
  | .slowEntryDelayEnd _ => none
  | .slowConversionEnd _ _ => none
  | .slowPartialEntryFlush _ => none
  | .excSet _ => some 0x1201
  | .excStatus _ => some 0x1202
  | .excBreakDetect _ _ => none
  | .excBreakRestored _ _ => none
  | .impedanceCheckDue _ _ => none
  | .impedanceCheckDone _ _ _ _ => none
  | .curSetBand _ => some 0x1302
  | .curStatus _ => some 0x1301
  | .currantFault _ _ _ => none
  | .currantRecomputeDone _ _ _ => none
  | .dmaSet _ => some 0x1401
  | .dmaStart _ => some 0x1402
  | .dmaStatus _ => some 0x1403
  | .dmaRequest _ => some 0x1404
  | .dmaMove _ _ _ => none
  | .dmaGather _ _ _ => none
  | .dmaScatter _ _ _ => none
  | .dmaLoop _ _ _ => none
  | .dmaWait _ _ _ => none
  | .dmaWaitSatisfied _ _ => none
  | .dmaSignal _ _ _ => none
  | .dmaLink _ _ _ => none
  | .dmaEnd _ _ _ => none
  | .dmaUndefinedOp _ _ _ => none
  | .dmaBurst _ _ => none
  | .dmaTransferDone _ _ => none
  | .dmaErrorResponse _ _ _ => none
  | .requestLineRequest _ _ => none
  | .msixModTimeExpiry _ _ => none
  | .msixUnmask _ _ _ => none
  | .memSetFreq _ => some 0x1501
  | .memSetIdle _ => some 0x1502
  | .memStatus _ => some 0x1503
  | .memReadLog _ => some 0x1504
  | .memRepair _ => some 0x1505
  | .dfsDone _ => none
  | .trainingWindow _ => none
  | .trainingWindowEnd _ => none
  | .selfRefreshEntry _ => none
  | .dramWake _ => none
  | .dramRefresh _ _ _ => none
  | .patrolScrub _ _ => none
  | .dramEccError _ _ => none
  | .sramEccError _ _ => none
  | .pcieLinkChange _ _ _ => none
  | .pf1Flr _ => none
  | .pf0D3hot _ => none
  | .netSetPort _ => some 0x1601
  | .netSetStream _ => some 0x1602
  | .netSetVdif _ => some 0x1603
  | .netSetControl _ => some 0x1604
  | .netStatus _ => some 0x1605
  | .ethFrameReceived _ _ _ => none
  | .streamDatagramSend _ _ => none
  | .ethLinkChange _ _ _ => none
  | .controlCommandDatagram _ _ => none
  | .controlResendDatagram _ _ => none
  | .streamDropReport _ _ => none
  | .dispSetMode _ => some 0x1701
  | .dispSetLayer _ => some 0x1702
  | .dispSetPalette _ => some 0x1703
  | .dispAlloc _ => some 0x1704
  | .dispSetPsr _ => some 0x1705
  | .dispStatus _ => some 0x1706
  | .displayFrameStart _ => none
  | .displayVerticalActiveEnd _ => none
  | .displayFrameEnd _ _ => none
  | .hpdUnplug _ => none
  | .hpdPlug _ => none
  | .hpdIrq _ _ => none
  | .linkTrainingDone _ _ => none
  | .healthStatus _ => some 0x1801
  | .healthSetRotation _ => some 0x1802
  | .healthReadFaults _ => some 0x1803
  | .healthSetRetired _ => some 0x1804
  | .rotationVisit _ _ _ => none
  | .unitTestDone _ _ _ _ => none
  | .orxSliceSwap _ _ _ => none
  | .dacLoopback _ _ _ => none
  | .dieReferenceCheck _ _ _ _ => none
  | .slowSelftestDue _ => none
  | .stewardFault _ _ => none
  | .stewardRestartDone _ _ => none
  | .stewardOutageTimeout _ => none
  | .handoverTimeout _ => none
  | .readyEntry _ => none
  | .standbyEntryDone _ => none
  | .wake _ _ => none
  | .standbyRestoreDone _ _ _ => none
  | .lcSecure _ => some 0x1A01
  | .lcService _ _ _ => some 0x1A02
  | .lcResume _ => some 0x1A03
  | .lcReturn _ _ _ => some 0x1A04
  | .lcRetire _ _ _ => some 0x1A06
  | .lcRaiseFloor _ => some 0x1A05
  | .lcChallenge _ => some 0x1A07
  | .xtalBRunning _ => none
  | .slowIntegrationStart _ => none
  | .pf1BusMasterEnable _ => none

/-- Well-formedness of a command, one arm a row. -/
def Instr.wf : Instr → Bool
  | .porNLow _ => true
  | .porNRise _ => true
  | .fusesValid _ => true
  | .sramWipeDone _ => true
  | .dramTrainingDone _ _ => true
  | .dramWipeDone _ => true
  | .verifyDone _ _ _ => true
  | .korsynStart _ => true
  | .korsynReady _ => true
  | .startTimeout _ => true
  | .perstNAssert _ => true
  | .perstNRelease _ => true
  | .railUndervoltage _ => true
  | .railRecovery _ => true
  | .thermalTrip _ => true
  | .thermalHoldEnd _ => true
  | .tempThreshold _ sensor _ => decide (sensor < 4)
  | .bootCtrlDevReset _ _ => true
  | .go _ _ => true
  | .abort _ _ => true
  | .spiEnable _ _ => true
  | .registerWrite _ offset width _ => decide (offset < 0x10000) && decide (width ≤ 8)
  | .dtSnapLoRead _ => true
  | .doorbellWrite _ ring _ => decide (ring < 8192)
  | .dmaDoorbell _ number _ => decide (3 ≤ number) && decide (number < 8192)
  | .imageStagingWrite _ offset bytes => decide (offset + bytes.length ≤ 0x1000000)
  | .bootSpiWriteStaging _ bytes => decide (3 ≤ bytes.length)
  | .bootSpiReadStaging _ bytes _ => decide (bytes.length = 4)
  | .bootSpiReadStatus _ bytes => bytes.isEmpty
  | .bootSpiWriteBootLen _ bytes => decide (bytes.length = 4)
  | .bootSpiGo _ bytes => bytes.isEmpty
  | .bootSpiAbort _ bytes => bytes.isEmpty
  | .bootSpiUnknownTransaction _ first => !List.contains [0x02, 0x0B, 0x05, 0x31, 0x3A, 0x3B] first.toNat
  | .bar4Read _ _ len => decide (0 < len)
  | .bar4Write _ _ bytes => !bytes.isEmpty
  | .devInfo c => c.wf 0x0101
  | .devCaps c => c.wf 0x0102
  | .devReset c => c.wf 0x0103
  | .devSetWindow c => c.wf 0x0104
  | .devUpdate c _ _ => c.wf 0x0105
  | .devSetPower c _ => c.wf 0x0106
  | .ringCreate c => c.wf 0x0201
  | .ringDestroy c => c.wf 0x0202
  | .ringModerate c => c.wf 0x0203
  | .bunchOpen c => c.wf 0x0301
  | .bunchCommit c => c.wf 0x0302
  | .bunchAbort c => c.wf 0x0303
  | .bunchQuery c => c.wf 0x0304
  | .stagingCycle _ => true
  | .bunchArmed _ id => decide (id < 64)
  | .commitPoint _ id => decide (id < 64)
  | .memberLanding _ id member => decide (id < 64) && decide (member < 256)
  | .bunchTimeout _ id => decide (id < 64)
  | .domainStarted _ domain => domain.wf
  | .clkStatus c => c.wf 0x0401
  | .clkSetLockMode c => c.wf 0x0402
  | .clkSelectRef c => c.wf 0x0403
  | .clkSyncArm c => c.wf 0x0404
  | .clkSetSkew c => c.wf 0x0406
  | .adpllLock _ pll step => decide (pll < 4) && decide (step < 1024)
  | .gatedOutputReturn _ pll => decide (pll < 4)
  | .adpllLockLoss _ pll => decide (pll < 4)
  | .refclkLoss _ => true
  | .refclkRestored _ => true
  | .timeGet c => c.wf 0x0501
  | .timeSetTai c => c.wf 0x0502
  | .timeConfig c => c.wf 0x0503
  | .ppsInEdge _ _ => true
  | .ppsLossTimeout _ => true
  | .syncInEdge _ fraction _ => decide (fraction < 64)
  | .syncOutLaunch _ => true
  | .syncArmTimeout _ => true
  | .ptpEventMessage _ port _ servo => decide (port < 4) && servo.all Epoch.wf
  | .rfSetRange c => c.wf 0x0601
  | .rfStatus c => c.wf 0x0602
  | .rfSetPadCount c => c.wf 0x0603
  | .calSetRf c => c.wf 0x1901
  | .rfGroup _ channel codes => decide (channel < 4) && decide (codes.length = 64) && codes.all fun v => decide (-2048 ≤ v) && decide (v ≤ 2047)
  | .overdriveComparator _ channel _ => decide (channel < 4)
  | .padSettleEnd _ channel => decide (channel < 4)
  | .otpBurnDone _ channel => decide (channel < 4)
  | .sliceSwap _ channel _ => decide (channel < 4)
  | .opticalGroup _ receiver codes => decide (receiver < 4) && decide (codes.length = 16) && codes.all fun v => decide (-8192 ≤ v) && decide (v ≤ 8191)
  | .ddcSet c => c.wf 0x0701
  | .ddcSetDetect c => c.wf 0x0702
  | .ddcOutputGroup _ path _ => decide (path < 48)
  | .detectorWindowEnd _ path => decide (path < 48)
  | .vdifFrame _ ring _ => decide (ring < 8192)
  | .pipAssign c => c.wf 0x0801
  | .pipSetSpares c => c.wf 0x0802
  | .pipStatus c => c.wf 0x0803
  | .specSetFft c => c.wf 0x0901
  | .specSetWindow c => c.wf 0x0902
  | .specSetTrace c => c.wf 0x0903
  | .pipFrameDone _ personality upset => decide (personality < 4) && decide (upset.length ≤ 65536)
  | .averagingBlockEnd _ personality => decide (personality < 4)
  | .traceBlockEnd _ personality trace => decide (personality < 4) && decide (trace < 4)
  | .pipFault _ pip cause => decide (pip < 36) && decide (1 ≤ cause) && decide (cause ≤ 4)
  | .pipRecomputeDone _ pip _ _ => decide (pip < 36)
  | .bloomSet c => c.wf 0x0A01
  | .bloomClear c => c.wf 0x0A02
  | .bloomRead c => c.wf 0x0A03
  | .bloomIngest _ personality => decide (personality < 4)
  | .bloomDecay _ map => decide (map < 4)
  | .decayPassDone _ map => decide (map < 4)
  | .bloomSnapshot _ map => decide (map < 4)
  | .trigSetMask c => c.wf 0x0B01
  | .trigSetTd c => c.wf 0x0B02
  | .trigSetSeq c => c.wf 0x0B03
  | .trigSetLimit c => c.wf 0x0B04
  | .trigLimitResume c => c.wf 0x0B05
  | .trigSetLog c => c.wf 0x0B06
  | .trigSetLineLog c => c.wf 0x0B07
  | .trigInEdge _ line _ => decide (line < 4)
  | .sequencerEvaluate _ personality => decide (personality < 6)
  | .sequencerStepTimeout _ personality => decide (personality < 6)
  | .capSet c => c.wf 0x0C01
  | .capArm c => c.wf 0x0C02
  | .capForce c => c.wf 0x0C03
  | .capRead c => c.wf 0x0C04
  | .capStatus c => c.wf 0x0C05
  | .captureEnd _ capture => decide (capture < 16)
  | .captureOverflow _ capture => decide (capture < 16)
  | .genSegment c => c.wf 0x0D01
  | .genLoad c => c.wf 0x0D02
  | .genStart c => c.wf 0x0D03
  | .genCarrier c => c.wf 0x0D04
  | .genJump c => c.wf 0x0D05
  | .genRoute c => c.wf 0x0D06
  | .genStatus c => c.wf 0x0D07
  | .calSetGen c => c.wf 0x1902
  | .genLatchPoint _ dac => decide (dac < 2)
  | .genSegmentStart _ dac => decide (dac < 2)
  | .trigOutPulseEnd _ line => decide (line < 4)
  | .generatorUnderrun _ dac => decide (dac < 2)
  | .dasStart c => c.wf 0x0F01
  | .dasSetSlot c => c.wf 0x0F02
  | .dasSetGrid c => c.wf 0x0F03
  | .dasSetPmask c => c.wf 0x0F04
  | .dasStatus c => c.wf 0x0F05
  | .calSetFibre c => c.wf 0x1903
  | .dasTraceReady _ fibre slot => decide (fibre < 2) && traceSlot slot
  | .dasBandWindowEnd _ fibre => decide (fibre < 2)
  | .laserSetModcal c => c.wf 0x0E01
  | .laserSetCaps c => c.wf 0x0E02
  | .laserArm c => c.wf 0x0E03
  | .laserStatus c => c.wf 0x0E04
  | .laserComparatorTrip _ dac measure => decide (dac < 2) && decide (1 ≤ measure) && decide (measure ≤ 3)
  | .laserPermitLow _ => true
  | .laserPermitHigh _ => true
  | .dtsStart c => c.wf 0x1001
  | .dtsSet c => c.wf 0x1002
  | .dtsStatus c => c.wf 0x1003
  | .dtsLaunch _ fibre _ => decide (fibre < 2)
  | .dtsStackEnd _ fibre => decide (fibre < 2)
  | .dtsRecordReady _ fibre => decide (fibre < 2)
  | .slowSetScan c => c.wf 0x1101
  | .slowStart c => c.wf 0x1102
  | .slowUrgent c => c.wf 0x1103
  | .slowEntryDelayEnd _ => true
  | .slowConversionEnd _ _ => true
  | .slowPartialEntryFlush _ => true
  | .excSet c => c.wf 0x1201
  | .excStatus c => c.wf 0x1202
  | .excBreakDetect _ exc => decide (exc < 4)
  | .excBreakRestored _ exc => decide (exc < 4)
  | .impedanceCheckDue _ exc => decide (exc < 4)
  | .impedanceCheckDone _ exc _ _ => decide (exc < 4)
  | .curSetBand c => c.wf 0x1302
  | .curStatus c => c.wf 0x1301
  | .currantFault _ currant cause => decide (currant < 18) && decide (1 ≤ cause)
  | .currantRecomputeDone _ currant slots => decide (currant < 18) && slots.all traceSlot
  | .dmaSet c => c.wf 0x1401
  | .dmaStart c => c.wf 0x1402
  | .dmaStatus c => c.wf 0x1403
  | .dmaRequest c => c.wf 0x1404
  | .dmaMove _ channel word => decide (channel < 256) && decide (word.toNat % 16 = 1)
  | .dmaGather _ channel word => decide (channel < 256) && decide (word.toNat % 16 = 2)
  | .dmaScatter _ channel word => decide (channel < 256) && decide (word.toNat % 16 = 3)
  | .dmaLoop _ channel word => decide (channel < 256) && decide (word.toNat % 16 = 4)
  | .dmaWait _ channel word => decide (channel < 256) && decide (word.toNat % 16 = 5)
  | .dmaWaitSatisfied _ channel => decide (channel < 256)
  | .dmaSignal _ channel word => decide (channel < 256) && decide (word.toNat % 16 = 6)
  | .dmaLink _ channel word => decide (channel < 256) && decide (word.toNat % 16 = 7)
  | .dmaEnd _ channel word => decide (channel < 256) && decide (word.toNat % 16 = 0)
  | .dmaUndefinedOp _ channel word => decide (channel < 256) && decide (8 ≤ word.toNat % 16)
  | .dmaBurst _ channel => decide (channel < 256)
  | .dmaTransferDone _ channel => decide (channel < 256)
  | .dmaErrorResponse _ channel cause => decide (channel < 256) && decide (1 ≤ cause) && decide (cause ≤ 3)
  | .requestLineRequest _ line => decide (line < 512)
  | .msixModTimeExpiry _ ring => decide (ring < 8192)
  | .msixUnmask _ function vector => decide (function < 2) && decide (vector < 64)
  | .memSetFreq c => c.wf 0x1501
  | .memSetIdle c => c.wf 0x1502
  | .memStatus c => c.wf 0x1503
  | .memReadLog c => c.wf 0x1504
  | .memRepair c => c.wf 0x1505
  | .dfsDone _ => true
  | .trainingWindow _ => true
  | .trainingWindowEnd _ => true
  | .selfRefreshEntry _ => true
  | .dramWake _ => true
  | .dramRefresh _ channel bank => decide (channel < 16) && decide (bank < 16)
  | .patrolScrub _ _ => true
  | .dramEccError _ error => decide (1 ≤ error.kind) && decide (error.kind ≤ 3) && decide (error.channel < 16)
  | .sramEccError _ error => decide (1 ≤ error.block)
  | .pcieLinkChange _ width _ => [1, 2, 4, 8].contains width
  | .pf1Flr _ => true
  | .pf0D3hot _ => true
  | .netSetPort c => c.wf 0x1601
  | .netSetStream c => c.wf 0x1602
  | .netSetVdif c => c.wf 0x1603
  | .netSetControl c => c.wf 0x1604
  | .netStatus c => c.wf 0x1605
  | .ethFrameReceived _ port _ => decide (port < 4)
  | .streamDatagramSend _ ring => decide (ring < 8192)
  | .ethLinkChange _ port _ => decide (port < 4)
  | .controlCommandDatagram _ datagram => decide (datagram.port < 4) && decide (datagram.entries.length = datagram.count)
  | .controlResendDatagram _ datagram => decide (datagram.port < 4)
  | .streamDropReport _ ring => decide (ring < 8192)
  | .dispSetMode c => c.wf 0x1701
  | .dispSetLayer c => c.wf 0x1702
  | .dispSetPalette c => c.wf 0x1703
  | .dispAlloc c => c.wf 0x1704
  | .dispSetPsr c => c.wf 0x1705
  | .dispStatus c => c.wf 0x1706
  | .displayFrameStart _ => true
  | .displayVerticalActiveEnd _ => true
  | .displayFrameEnd _ underflow => underflow.all fun l => decide (l < 4)
  | .hpdUnplug _ => true
  | .hpdPlug _ => true
  | .hpdIrq _ _ => true
  | .linkTrainingDone _ _ => true
  | .healthStatus c => c.wf 0x1801
  | .healthSetRotation c => c.wf 0x1802
  | .healthReadFaults c => c.wf 0x1803
  | .healthSetRetired c => c.wf 0x1804
  | .rotationVisit _ kind unit => decide (1 ≤ kind) && decide (kind ≤ 2) && decide (unit < 36)
  | .unitTestDone _ kind unit _ => decide (1 ≤ kind) && decide (kind ≤ 2) && decide (unit < 36)
  | .orxSliceSwap _ receiver _ => decide (receiver < 4)
  | .dacLoopback _ dac _ => decide (dac < 2)
  | .dieReferenceCheck _ die _ _ => decide (die < 2)
  | .slowSelftestDue _ => true
  | .stewardFault _ cause => [1, 2, 5].contains cause
  | .stewardRestartDone _ _ => true
  | .stewardOutageTimeout _ => true
  | .handoverTimeout _ => true
  | .readyEntry _ => true
  | .standbyEntryDone _ => true
  | .wake _ _ => true
  | .standbyRestoreDone _ _ _ => true
  | .lcSecure c => c.wf 0x1A01
  | .lcService c _ _ => c.wf 0x1A02
  | .lcResume c => c.wf 0x1A03
  | .lcReturn c _ _ => c.wf 0x1A04
  | .lcRetire c _ _ => c.wf 0x1A06
  | .lcRaiseFloor c => c.wf 0x1A05
  | .lcChallenge c => c.wf 0x1A07
  | .xtalBRunning _ => true
  | .slowIntegrationStart _ => true
  | .pf1BusMasterEnable _ => true

end Sys2Proof
end

