-- ==== Sys2Proof/Decode.lean ====
section
/-! DEFINITION. spec/opcode_table.json gives no row any bits: a command of this block is not spelled by a word, so no
word spells one. The envelope of the mailbox rows is read in Machine/Operands.lean. -/

namespace Sys2Proof

/-- The command a word spells by the table's bits: none, for the table gives no bits (DEDUCED, safe: log 11). -/
def decodeTableWord (_nbits _w : Nat) : Option Instr := none

end Sys2Proof
end

