-- ==== Sys2Proof/Config.lean ====
section
/-! DEFINITION. What one part or its factory fixes and the spec does not state as a number: constants with no body,
so that nothing can be proved of their values. The numbers in brackets are log entries of notes/assumptions. -/

namespace Sys2Proof.Config

/-- A fresh value the spec leaves open, indexed by the model's own counter State.freeCount (DESIGN CHOICE, safe: log 4). -/
opaque freeValue : Nat → Nat

/-- R104: flat_fac(state, f), the factory flatness in L16 codes: channel, range state byte, NCO-word frequency (PRESUMED, safe: log 5). -/
opaque flatFactory : Nat → Nat → Nat → Int

/-- R105: the factory path delay of an RF channel in ticks (PRESUMED, safe: log 5). -/
opaque factoryDelay : Nat → Int

/-- R244: the coil temperature in mK for a 24-bit CODE, REF_OHM in milliohm and RTD_TYPE; the spec gives the
equation and no rounding (DESIGN CHOICE, safe: log 6). -/
opaque rtdMilliKelvin : Int → Nat → Nat → Nat

/-- R241: kappa of a DTS receiver (2 * fibre for anti-Stokes, one more for Stokes) from its factory corner:
kappa = cornerMantissa / 2 ^ cornerExponent (PRESUMED, safe: log 5). -/
opaque cornerMantissa : Nat → Nat
opaque cornerExponent : Nat → Nat

/-- R242, R271: ln (r_c / r) in units of 2^-48 from the anti-Stokes and Stokes sums of the coil and of a position; the
spec bounds its error and states no rounding (DESIGN CHOICE, safe: log 70). -/
opaque lnRatio : Int → Int → Int → Int → Int

/-- Table 9-8: whether CAP.READ takes a DEST as a device address; the spec gives no rule that tells it from a host address
(DESIGN CHOICE, safe: log 77). -/
opaque destInDevice : Nat → Bool

/-- R89: whether an inexact product of a code and a gain k is rounded away from zero (DESIGN CHOICE, safe: log 80). -/
opaque gainUp : Int → Int → Bool

/-- R106: the error of the mixer's cos and sin for a 20-bit phase, in units of 2^-30 (DESIGN CHOICE, safe: log 80). -/
opaque mixerError : Nat → Int × Int

/-- R109: the taps at odd offsets of the first and of the further half-band stages, in units of 2^-24 (DESIGN CHOICE, safe: log 80). -/
opaque tap63 : Nat → Int
opaque tap47 : Nat → Int

/-- R131, R147: the noise of the transform, in units of the block's last place: personality or slot path, start of the frame or
output group, bin or output (DESIGN CHOICE, safe: log 80). -/
opaque transformNoise : Nat → Nat → Nat → Int × Int

/-- R204: the interpolator's tap for an envelope sample so many ticks away, in units of 2^-24 (DESIGN CHOICE, safe: log 80). -/
opaque envelopeTap : Nat → Int

/-- R221: the error of a loaded coefficient in units of 2^-22: LENGTH, BANDWIDTH_KHZ, m (DESIGN CHOICE, safe: log 86). -/
opaque coefficientError : Nat → Nat → Nat → Int × Int

/-- R268: the error of phi for a dp, in LSB (DESIGN CHOICE, safe: log 86). -/
opaque phaseError : Int → Int → Int

end Sys2Proof.Config
end

