-- ==== Sys2Proof/Machine/State.lean ====
section
/-! DEFINITION. The state of the Shatia GD9610 as plain data. A part that exists several times (channels, rings,
maps) is a Table: a list of (number, record) with strictly rising numbers in which a number that is not listed
holds the record's reset value. Every default value below is the value at reset: "spec" marks the values the spec
states; the others are the model's (DESIGN CHOICE, unsafe: log 1). -/

namespace Sys2Proof.Machine

/-- A numbered set of like things in canonical form: rising numbers, no entry equal to the reset record. -/
abbrev Table (α : Type) := List (Nat × α)

/-- Memory in canonical form: rising addresses, no byte equal to 0, which an unlisted address reads as (DESIGN CHOICE, unsafe: log 2). -/
abbrev Mem := List Host.Cell

/-! ## Boot, registers and life-cycle (02_startup_and_mailbox.md, 19_power_lifecycle_security.md) -/

/-- BOOT_STAT.STAGE (Table 2-5). -/
inductive Stage where
  | power | wipeSram | waitImage | verify | waitDram | start | ready | haltError
  deriving DecidableEq, Repr

/-- BOOT_STAT.SRC: who claimed staging (Table 2-5, R41). -/
inductive Source where
  | none | pcie | spi
  deriving DecidableEq, Repr

/-- LC_STATE.STATE (Table 2-8, R377). -/
inductive LifeCycle where
  | manufacture | secured | service | retirn | retired
  deriving DecidableEq, Repr

/-- The identity key slot (Table 19-5). -/
inductive KeySlot where
  | empty | held | zeroised
  deriving DecidableEq, Repr

/-- Why the stone domain holds the rest of the device in reset (R385, R392). -/
inductive Hold where
  | none | undervoltage | thermal | both
  deriving DecidableEq, Repr

/-- Power state (Table 19-1). -/
inductive Power where
  | active | ready | standby | off
  deriving DecidableEq, Repr

/-- What each part is fused as (Tables 0-1, 2-9; R40, R93, R377): factory values, and the fuses that commands burn. -/
structure Fuses where
  /-- CAP_FUSE0.VARIANT: 1 AX, 2 AR, 3 FX, 4 A2 (R1). -/
  variant : Nat := 1
  /-- CAP_FUSE0.SI_REV, 8 bits (R35). -/
  siRev : Nat := 1
  /-- CAP_FUSE1, CAP_FUSE2[3:0]: present mask of pips 0 to 35. -/
  pips : Nat := 0xFFFFFFFFF
  /-- CAP_FUSE2[21:4]: present mask of currants 0 to 17. -/
  currants : Nat := 0x3FFFF
  /-- CAP_FUSE3[20] DDC_PRESET. -/
  presetOnly : Bool := false
  /-- CAP_FUSE3[19:16]: fitted DRAM, 1 = 16 GB, 2 = 32 GB, 3 = 64 GB. -/
  dram : Nat := 2
  /-- CAP_FUSE3[15]. -/
  display : Bool := true
  /-- CAP_FUSE3[9:8]. -/
  dacs : Nat := 3
  /-- CAP_FUSE3[7:4]. -/
  orx : Nat := 15
  /-- CAP_FUSE3[3:0]. -/
  rf : Nat := 15
  /-- R40: the anti-rollback floor, 0 to 127. -/
  floor : Nat := 0
  /-- R38: revocation bits of the four key slots. -/
  revoked : Nat := 0
  /-- R38: SHA-384 digests of the public keys in slots 0 to 3. -/
  keyDigests : List (BitVec 384) := [0, 0, 0, 0]
  /-- R377: the life-cycle state the fuses read (SERVICE is never fused). -/
  lifeCycle : LifeCycle := .secured
  /-- R311: DRAM banks (channel, bank) whose repair resource is burned. -/
  repaired : List (Nat × Nat) := []
  /-- R93: burned OTP pad bits of RF0 to RF3, bit k - 1 for burned bit k from 1 to 100. -/
  padBits : Table Nat := []
  deriving DecidableEq, Repr

/-- The stone domain: BAR0 registers (Tables 2-3 to 2-10), sequence, staging claim, life-cycle, pins it drives. -/
structure Stone where
  /-- Pin POR_N (R30). -/
  porN : Bool := false
  /-- Pin PERST_N (R30, R33). -/
  perstN : Bool := false
  /-- BOOT_STAT.STAGE, 4 bits; spec 0 POWER. -/
  stage : Stage := .power
  /-- BOOT_STAT.SRC; spec 0. -/
  src : Source := .none
  /-- BOOT_STAT.ERROR, 8 bits; spec 0. -/
  error : Nat := 0
  /-- BOOT_STAT.IFACE_LEVEL, 8 bits; spec 0. -/
  ifaceLevel : Nat := 0
  /-- BOOT_STAT.DRAM_WIPED; spec 0. -/
  dramWiped : Bool := false
  /-- BOOT_STAT.SRAM_WIPED; spec 0. -/
  sramWiped : Bool := false
  /-- BOOT_CTRL.SPI_ENABLE; spec 1. -/
  spiEnable : Bool := true
  /-- BOOT_LEN.LENGTH, 24 bits; spec 0. -/
  bootLen : Nat := 0
  /-- Table 2-2: CAP_FUSE and LC_STATE are valid. -/
  fusesValid : Bool := false
  /-- R31: XTAL_B is running. -/
  xtalB : Bool := false
  /-- R35: DT_SNAP_HI, 32 bits; spec 0. -/
  dtSnapHi : U32 := 0
  /-- WAKE_CTRL[7:0]; spec 0x81. -/
  wakeCtrl : Byte := 0x81
  /-- WAKE_STAT[7:0]; spec 0. -/
  wakeStat : Byte := 0
  /-- STONE_ERR[5:0]; spec 0. -/
  stoneErr : BitVec 6 := 0
  /-- LC_STATE.STATE in force (R377). -/
  lifeCycle : LifeCycle := .secured
  /-- LC_STATE.SCAN_EN; spec 0. -/
  scanEn : Bool := false
  /-- Table 19-5: identity key slot. -/
  idKey : KeySlot := .held
  /-- R378: the valid nonce. -/
  nonce : Option Nat := none
  /-- R385, R392: reset hold. -/
  hold : Hold := .none
  /-- R396: DT at which the running sequence began. -/
  seqStart : DT := 0
  /-- R38, R41: length of the image being verified or running. -/
  imageLen : Nat := 0
  /-- R48: SEC_VERSION of the running image. -/
  runSec : Nat := 0
  /-- R41: DT of the staging write that made the claim. -/
  claimAt : DT := 0
  /-- R31: LPDDR5X training has completed and the fill runs. -/
  dramFill : Bool := false
  /-- R34: DT of START. -/
  startAt : DT := 0
  /-- R375: a restore from Standby is in progress. -/
  restoring : Bool := false
  deriving DecidableEq, Repr

/-! ## Mailbox (02_startup_and_mailbox.md, 14_dma_and_rings.md) -/

/-- Masters (R55), by the code of Table 2-18. -/
inductive Master where
  | pf0 | ethernet | scheduled
  deriving DecidableEq, Repr

/-- Where a command came from, so that its completion can be written (Table 2-17). -/
structure CmdRef where
  ring : Nat
  index : Nat
  tag : Nat
  opcode : Nat
  quiet : Bool
  deriving DecidableEq, Repr

/-- A completion's content (Table 2-18). -/
structure Done where
  status : Nat
  reason : Nat := 0
  result : Nat := 0
  deriving DecidableEq, Repr

/-- A command Korsyn has taken: completions leave in ring order (R46). -/
structure Inflight where
  ref : CmdRef
  outcome : Option Done
  deriving DecidableEq, Repr

/-- An event (Table 2-19) before a ring gives it SEQ and PHASE; data is DATA[15:0] as a number. -/
structure Event where
  code : Nat
  severity : Nat
  unit : Nat
  dt : DT
  data : Nat
  deriving DecidableEq, Repr

/-- Ring kinds (Table 2-15). -/
inductive RingKind where
  | command | completion | event | data
  deriving DecidableEq, Repr

/-- NET.SET_STREAM (Table 16-5). -/
structure StreamCfg where
  port : Nat
  vdif : Bool
  ipv6 : Bool
  dscp : Nat
  vlan : Nat
  dstUdp : Nat
  dstMac : Nat
  srcUdp : Nat
  dstIp : Nat
  deriving DecidableEq, Repr

/-- NET.SET_VDIF (Table 16-5). -/
structure VdifCfg where
  path : Nat
  bits : Nat
  thread : Nat
  station : Nat
  payload : Nat
  thresh : Nat
  leap : Nat
  refEpoch : Nat
  deriving DecidableEq, Repr

/-- A ring (R43, R44, R294, R295, R330). -/
structure Ring where
  created : Bool := false
  kind : RingKind := .data
  /-- k of R43: 2^k entries. -/
  log2 : Nat := 2
  /-- Table 2-15 LOCATION. -/
  location : Nat := 3
  msix : Nat := 0
  /-- Bytes per entry. -/
  entrySize : Nat := 64
  base : Nat := 0
  pair : Nat := 0xFFFF
  modCount : Nat := 0
  modTime : Nat := 0
  /-- Table 2-15 NS_MASK, 32 bits. -/
  nsMask : Nat := 0
  master : Master := .pf0
  /-- Producer index, 16 bits, free-running (R43). -/
  prod : BitVec 16 := 0
  /-- Consumer index, 16 bits, free-running (R43). -/
  cons : BitVec 16 := 0
  /-- R43: stopped by a ring fault. -/
  stopped : Bool := false
  /-- R46: commands taken and not completed, oldest first. -/
  inflight : List Inflight := []
  /-- Table 2-19 SEQ of the next event, 16 bits. -/
  seq : BitVec 16 := 0
  /-- R46: the next event written carries LOST. -/
  lost : Bool := false
  /-- R295: entries published since the last message. -/
  unsignalled : Nat := 0
  /-- R295: DT of the first of them. -/
  firstUnsignalled : DT := 0
  /-- R276: channel that produces into it. -/
  prodChannel : Option Nat := none
  /-- R276: channel that consumes from it. -/
  consChannel : Option Nat := none
  /-- R321: stream binding. -/
  stream : Option StreamCfg := none
  /-- R321: datagrams sent on this binding. -/
  streamSeq : Nat := 0
  /-- R321: DT at which each held entry was published, oldest first. -/
  published : List DT := []
  /-- R323: VDIF framing. -/
  vdif : Option VdifCfg := none
  /-- R325: frames written since the anchor, and the VDIF second of the first. -/
  vdifFrame : Nat := 0
  vdifSecond : Option Nat := none
  /-- R323: represented instant of the next sample of the frame being filled. -/
  vdifNext : Option DT := none
  /-- R195, R253: bytes of the entry being filled by 16-byte entries. -/
  filling : List Byte := []
  /-- R330: drops since the last EV_STREAM_DROP, cause and DT of the first, DT of that event. -/
  drops : Nat := 0
  dropCause : Nat := 0
  dropFirst : DT := 0
  dropEvent : Option DT := none
  deriving DecidableEq, Repr

/-! ## Settings that members carry (03_bunches.md and the chapters of the blocks) -/

/-- A claim unit of Table 3-2: class and instance. -/
structure Claim where
  cls : Nat
  inst : Nat
  deriving DecidableEq, Repr

/-- SPEC.SET_FFT (Table 7-6). -/
structure FftCfg where
  log2N : Nat := 12
  overlap : Nat := 2
  exclude : Nat := 0
  avg : Nat := 1
  /-- none selects the span bins. -/
  bins : Option (Nat × Nat) := none
  ring : Nat := 0xFFFF
  deriving DecidableEq, Repr

/-- SPEC.SET_TRACE (Table 8-5). -/
structure TraceCfg where
  detector : Nat := 0
  bpp : Nat := 1
  hold : Bool := false
  /-- none selects the span bins. -/
  firstBin : Option Nat := none
  points : Nat := 1
  exclude : Nat := 0
  interval : Nat := 1
  ring : Nat := 0xFFFF
  deriving DecidableEq, Repr

/-- BLOOM.SET (Table 8-2). -/
structure BloomCfg where
  personality : Nat := 0
  bpc : Nat := 1
  columns : Nat := 1
  rows : Nat := 1
  rowTop : Int := 0
  rowStep : Nat := 1
  exclude : Nat := 0
  firstBin : Option Nat := none
  decayK : Nat := 0
  gain : Nat := 1
  keepOnChange : Bool := false
  snapRing : Nat := 0xFFFF
  snapSpectra : Nat := 0
  deriving DecidableEq, Repr

/-- TRIG.SET_MASK (Table 9-3). -/
structure MaskCfg where
  below : Bool
  bpp : Nat
  enable : Bool
  firstBin : Option Nat
  points : Nat
  minPoints : Nat
  hyst : Nat
  minSpectra : Nat
  ignore : Nat
  levels : List Int
  deriving DecidableEq, Repr

/-- TRIG.SET_TD (Table 9-3). -/
structure TdCfg where
  detector : Nat
  below : Bool
  enable : Bool
  ignore : Nat
  path : Nat
  level : Int
  hyst : Nat
  minWindows : Nat
  deriving DecidableEq, Repr

/-- A sequencer step entry (Table 9-3). -/
structure StepCfg where
  inputs : Nat
  all : Bool
  reset : Nat
  count : Nat
  window : Nat
  timeout : Nat
  delay : Nat
  deriving DecidableEq, Repr

/-- TRIG.SET_SEQ (Table 9-3). -/
structure SeqCfg where
  steps : List StepCfg := []
  continuous : Bool := false
  arm : Bool := false
  holdoff : Nat := 0
  /-- E0 to E7, 0xFFFF for none. -/
  inputs : List Nat := []
  deriving DecidableEq, Repr

/-- TRIG.SET_LIMIT (Table 9-3). -/
structure LimitCfg where
  trace : Nat
  stop : Bool
  enable : Bool
  stopCaps : Nat
  ignore : Nat
  upper : List Int
  lower : List Int
  deriving DecidableEq, Repr

/-- TRIG.SET_LOG (Table 9-3). -/
structure ChangeLogCfg where
  enable : Bool
  bpp : Nat
  thresh : Nat
  firstBin : Option Nat
  points : Nat
  ignore : Nat
  keyframe : Nat
  ring : Nat
  maxRate : Nat
  deriving DecidableEq, Repr

/-- TRIG.SET_LINE_LOG (Table 9-3). -/
structure LineLogCfg where
  lines : Nat := 0
  minGap : Nat := 0
  ring : Nat := 0xFFFF
  /-- TRIG_IN_EDGE: bit i 1 falling; spec rising (R177). -/
  fallingEdges : Nat := 0
  deriving DecidableEq, Repr

/-- CAP.SET (Table 9-8). -/
structure CapCfg where
  kind : Nat := 0
  mode : Nat := 0
  trigUnit : Nat := 0xFF
  segments : Nat := 1
  source : Nat := 0
  spillRing : Nat := 0xFFFF
  bufSize : Nat := 0
  pre : Nat := 0
  post : Nat := 1
  indexSize : Nat := 0
  deriving DecidableEq, Repr

/-- GEN.SEGMENT (Table 10-5). -/
structure SegCfg where
  carrier : Bool
  lanes : Nat
  length : Nat
  idle : Int
  resident : Bool
  addr : Nat
  deriving DecidableEq, Repr

/-- A sequence table entry (Table 10-2). -/
structure SeqEntry where
  segment : Nat
  flags : Nat
  repeats : Nat
  loopTo : Nat
  loopCount : Nat
  next : Nat
  jumpTo : Nat
  jumpCond : Nat
  stopCond : Nat
  deriving DecidableEq, Repr

/-- DAS.SET_SLOT (Table 11-7). -/
structure SlotCfg where
  enable : Bool := false
  golay : Bool := false
  taper : Bool := false
  length : Nat := 0
  chip : Nat := 0
  bandwidth : Nat := 0
  entryA : Nat := 0
  entryB : Nat := 0xFFFF
  offset : Nat := 0
  deriving DecidableEq, Repr

/-- DAS.SET_GRID (Table 11-7). -/
structure GridCfg where
  firstCell : Nat := 0
  positions : Nat := 1
  step : Nat := 1
  gauge : Nat := 1
  kind : Nat := 0
  combine : Bool := false
  ring : Nat := 0xFFFF
  noiseFirst : Nat := 0
  noiseCount : Nat := 0
  deriving DecidableEq, Repr

/-- DAS.SET_PMASK (Table 11-7). -/
structure PmaskCfg where
  enable : Bool := false
  bpp : Nat := 1
  hyst : Nat := 0
  firstPos : Nat := 0
  points : Nat := 1
  minTraces : Nat := 1
  ignore : Nat := 0
  levels : List Int := []
  deriving DecidableEq, Repr

/-- CAL.SET_FIBRE (Tables 11-7 and 12-7). -/
structure FibreCal where
  /-- n_g in millionths; spec 1.4682 (R11). -/
  nG : Nat := 1468200
  dFix : Nat := 0
  coilFirst : Nat := 0
  coilCells : Nat := 0
  rtdEntry : Nat := 0
  rtdType : Nat := 0
  refOhm : Nat := 0
  gamma : Nat := 0
  dalpha : Int := 0
  tFixed : Nat := 0
  maxAge : Nat := 0
  deriving DecidableEq, Repr

/-- LASER.SET_CAPS (Table 11-7). -/
structure LaserCaps where
  peak : Nat
  pulse : Nat
  pulseWindow : Nat
  avg : Nat
  avgWindow : Nat
  deriving DecidableEq, Repr

/-- DTS.SET (Table 12-7). -/
structure DtsCfg where
  entry : Nat := 0
  step : Nat := 1
  offset : Nat := 0
  firstCell : Nat := 0
  positions : Nat := 1
  parts : Nat := 1
  content : Nat := 0
  ring : Nat := 0xFFFF
  deriving DecidableEq, Repr

/-- A scan table entry (Table 12-4). -/
structure ScanEntry where
  ain : Nat
  exc : Nat
  gain : Nat
  nplc : Nat
  repeats : Nat
  delayUs : Nat
  deriving DecidableEq, Repr

/-- EXC.SET (Table 12-7). -/
structure ExcCfg where
  enable : Bool := false
  impPeriod : Nat := 0
  cMax : Nat := 0
  deriving DecidableEq, Repr

/-- CUR.SET_BAND (Table 13-2). -/
structure BandCfg where
  enable : Bool := false
  log2Win : Nat := 0
  thresh : Int := 0
  ring : Nat := 0xFFFF
  coef : List Int := []
  deriving DecidableEq, Repr

/-- DISP.SET_MODE (Table 17-5) with the lanes and rate Korsyn chooses (R334). -/
structure ModeCfg where
  output : Nat := 0
  bpc : Nat := 8
  lanes : Nat := 0
  rate : Nat := 0
  pclk : Nat := 0
  /-- Active, front porch, sync, back porch. -/
  h : List Nat := [0, 0, 0, 0]
  v : List Nat := [0, 0, 0, 0]
  syncPol : Nat := 0
  background : Nat := 0
  deriving DecidableEq, Repr

/-- DISP.SET_LAYER (Table 17-5). -/
structure LayerCfg where
  enable : Bool := false
  z : Nat := 0
  alpha : Nat := 0
  x : Nat := 0
  y : Nat := 0
  w : Nat := 0
  h : Nat := 0
  format : Nat := 0
  csc : Nat := 0
  pitch : Nat := 0
  base0 : Nat := 0
  base1 : Nat := 0
  pitch1 : Nat := 0
  gain : Nat := 0
  deriving DecidableEq, Repr

/-- One configuration write as a block's shadow state holds it until it lands. The last group are the writes of
Korsyn's own scheduled bunches (R399). -/
inductive Write where
  | rfRange (ch : Nat) (pad : Bool) (atten : Nat) (setRef moves : Bool)
  | calRf (ch : Nat) (off : Int) (table : List Int) (delay : Int) (fStart fStep : Nat)
  | ddcSet (path f phi decim shift : Nat) (enable : Bool)
  | ddcDetect (path w a enable ring : Nat)
  | pipStart (p : Nat)
  | pipStop (p : Nat)
  | specFft (p : Nat) (cfg : FftCfg)
  | specWindow (p w : Nat)
  | specTrace (p i : Nat) (cfg : TraceCfg)
  | bloomSet (m : Nat) (cfg : BloomCfg)
  | bloomRelease (m : Nat)
  | bloomClear (m : Nat)
  | bloomReadClear (m dest : Nat)
  | trigMask (p i : Nat) (cfg : MaskCfg)
  | trigTd (p : Nat) (cfg : TdCfg)
  | trigSeq (p : Nat) (cfg : SeqCfg)
  | trigLimit (p : Nat) (cfg : LimitCfg)
  | limitResume (p : Nat)
  | trigLog (p : Nat) (cfg : ChangeLogCfg)
  | lineLog (cfg : LineLogCfg)
  | capSet (k : Nat) (cfg : CapCfg)
  | capArm (k : Nat) (arm : Bool)
  | capForce (k : Nat)
  | genSegment (d i : Nat) (cfg : SegCfg)
  | genLoad (d : Nat) (entries : List SeqEntry) (start : Nat)
  | genStart (d start : Nat)
  | genStop (d : Nat)
  | genCarrier (d lane g phi : Nat) (bias : Int)
  | calGen (d : Nat) (delay : Int)
  | dasStart (f k : Nat)
  | dasStop (f : Nat)
  | dasSlot (f s : Nat) (cfg : SlotCfg)
  | slotCarrier (d s g : Nat)
  | slotPath (path f : Nat) (enable : Bool)
  | dasGrid (f : Nat) (cfg : GridCfg)
  | dasPmask (f : Nat) (cfg : PmaskCfg)
  | calFibre (f : Nat) (cfg : FibreCal)
  | laserModcal (d pRef : Nat) (table : List Nat)
  | laserCaps (d : Nat) (cfg : LaserCaps)
  | laserArm (d : Nat) (arm : Bool)
  | dtsStart (f : Nat)
  | dtsStop (f : Nat)
  | dtsSet (f : Nat) (cfg : DtsCfg)
  | slowScan (entries : List ScanEntry) (lineHz ring : Nat)
  | slowStart
  | slowStop
  | excSet (e : Nat) (cfg : ExcCfg)
  | curBand (f : Nat) (cfg : BandCfg)
  | netStream (ring : Nat) (cfg : Option StreamCfg)
  | netVdif (ring : Nat) (cfg : VdifCfg)
  | dispMode (cfg : ModeCfg)
  | dispLayer (i : Nat) (cfg : LayerCfg)
  | dispPalette (entries : List Nat)
  | dispPsr (mode idle : Nat)
  | relievePip (p failed spare : Nat)
  | relieveCurrant (p failed spare : Nat)
  | degradeRf (p overlap stages : Nat)
  | degradeDas (f slots : Nat)
  | degradeDts (f : Nat)
  | genResume (d entry : Nat)
  | halt (p cause : Nat)
  /-- A claim without a write: CAL.SET_FIBRE in the class of the kind of sensing that does not run. -/
  | claimOnly
  deriving DecidableEq, Repr

/-- One member of a bunch: its claim, its write, the number of member writes it counts for (R52), the command it
came from, whether it has landed, and whether its block stood still at T, so that it lands there (R54). -/
structure Member where
  claim : Claim
  write : Write
  weight : Nat
  opcode : Nat
  tag : Nat
  landed : Bool
  atRest : Bool := false
  deriving DecidableEq, Repr

/-- Bunch states (Table 3-1). -/
inductive BunchState where
  | free | opened | arming | armed | landing | aborted
  deriving DecidableEq, Repr

/-- A bunch (R49 to R64). -/
structure Bunch where
  state : BunchState := .free
  master : Master := .pf0
  members : List Member := []
  /-- R50: TIMEOUT_MS and the DT of BUNCH.OPEN. -/
  timeoutMs : Nat := 0
  openedAt : DT := 0
  /-- R59: commit point; with an anchor unit still open, the earliest it can be. -/
  point : DT := 0
  /-- R59: anchor UNIT: the claim unit whose boundary fixes the commit point. -/
  anchor : Option Claim := none
  /-- R58: a one-member bunch made from this direct write. -/
  direct : Option CmdRef := none
  /-- R60: the pending BUNCH.COMMIT. -/
  commit : Option CmdRef := none
  /-- R63: DT of the last landing. -/
  lastLanding : DT := 0
  /-- R58, R148: the command's own RESULT. -/
  result : Nat := 0
  /-- R399: made by Korsyn; retried when it loses. -/
  retry : Bool := false
  /-- R18, R59: the power domains that were off when its members were staged. -/
  starts : List Domain := []
  /-- R355: a member waits for the tests of the first admission. -/
  tests : Bool := false
  deriving DecidableEq, Repr

/-- A member command taken in the running staging cycle and not yet arbitrated (R55). -/
structure Staged where
  id : Nat
  master : Master
  members : List Member
  ref : Option CmdRef
  result : Nat
  deriving DecidableEq, Repr

/-- Bunch control: IDs 0 to 63 and the staging cycle. -/
structure BunchUnit where
  table : Table Bunch := []
  /-- R55: claims made in this cycle, in take order. -/
  staged : List Staged := []
  /-- R57: members of bunches that aborted in this cycle keep their budget until it ends. -/
  lingering : List Member := []
  /-- R399: scheduled bunches waiting for a later cycle. -/
  retries : List (List Member) := []
  /-- R18, R58: direct commands to blocks that do not run, waiting for a power domain to start. -/
  deferred : List (CmdRef × List Member) := []
  deriving DecidableEq, Repr

/-! ## Clocks and time (04_clocks_and_time.md) -/

/-- A hop-cache entry (R66): reference, target in kHz, die temperature in 0.01 C when stored. -/
structure HopEntry where
  xtal : Bool
  target : Nat
  centi : Int
  deriving DecidableEq, Repr

/-- An ADPLL (R65 to R69). -/
structure Pll where
  locked : Bool := false
  /-- R68, R73: DT at which the absence of the gated output began. -/
  absent : Option DT := none
  bypass : Bool := false
  xtal : Bool := false
  hop : Bool := false
  stopped : Bool := true
  /-- R66: mode CACHE; spec default. -/
  cacheMode : Bool := true
  /-- R66: hop cache, most recently used first, at most 16. -/
  cache : List HopEntry := []
  /-- Target frequency in kHz. -/
  target : Nat := 0
  /-- R68: a search, hop or relock runs, and its gated output has not returned. -/
  relocking : Bool := false
  /-- R84: the next lock is the hop of a CLK.SET_SKEW. -/
  hopNext : Bool := false
  deriving DecidableEq, Repr

/-- CLK.SYNC_ARM (Table 4-4). -/
structure SyncArm where
  mode : Nat
  position : Nat
  outEn : Bool
  d : DT
  timeoutMs : Nat
  armedAt : DT
  deriving DecidableEq, Repr

/-- A relock of several ADPLLs (R70, R71): those still to return, and the command that waits. -/
structure Relock where
  remaining : List Nat
  toXtal : Bool
  waiting : Option CmdRef
  /-- R71: REFCLK was lost while it ran, so the command completes with BUSY. -/
  busy : Bool
  deriving DecidableEq, Repr

/-- Clocking and device time. -/
structure Clock where
  plls : Table Pll := []
  /-- R70: REFCLK counts as present. -/
  refOk : Bool := true
  relock : Option Relock := none
  /-- R82: the part is armed. -/
  sync : Option SyncArm := none
  /-- Table 4-5 ALIGNED. -/
  aligned : Bool := false
  /-- R84: advance of the ADPLL-S tick phase, 1/64 tk. -/
  skew : Int := 0
  /-- R76: fraction of a tick carried by the DT counter, in fifths. -/
  fifths : Nat := 0
  /-- R84: CLK.SET_SKEW commands that wait for the return of ADPLL-S. -/
  skewWaiting : List CmdRef := []
  /-- Pin SYNC_OUT; spec low in reset (R388). -/
  syncOut : Bool := false
  deriving DecidableEq, Repr

/-- The epoch and its sources (R79 to R81). -/
structure TimeBase where
  epoch : Epoch := { dt := 0, taiS := 0, taiNs := 0, ratePpt := 0 }
  /-- TIME.CONFIG SOURCE. -/
  source : Nat := 0
  /-- TIME.CONFIG PPS_EDGE. -/
  fallingEdge : Bool := false
  ppsOk : Bool := false
  ptpOk : Bool := false
  holdover : Bool := false
  rejected : Nat := 0
  /-- R81: candidate pulse. -/
  candidate : Option DT := none
  /-- R80: accepted pulses, newest first, at most 16, with their TAI seconds when known. -/
  accepted : List (DT × Option Nat) := []
  /-- R80: TAI_S of TIME.SET_TAI mode 0, waiting. -/
  nextTai : Option Nat := none
  /-- R81: the epoch was set (first acquisition is over, or mode 1). -/
  epochSet : Bool := false
  deriving DecidableEq, Repr

/-! ## RF and optical inputs, down-conversion (05, 06, 11) -/

/-- An RF channel (R85 to R105). -/
structure RfChan where
  powered : Bool := false
  /-- R88: pad state p; spec 1 at reset. -/
  pad : Bool := true
  /-- R88: attenuation A; spec 31 at reset. -/
  atten : Nat := 31
  /-- R89: reference state. -/
  padRef : Bool := true
  attenRef : Nat := 31
  /-- R88: held power-up state. -/
  held : Option (Bool × Nat) := none
  /-- R90: groups before this DT carry RANGING. -/
  rangingUntil : DT := 0
  /-- R91: groups before this DT carry PAD_SETTLE. -/
  settleUntil : DT := 0
  /-- R93: pad changes. -/
  padCount : Nat := 0
  /-- R93: an OTP bit is due or being burned, and which, from 1. -/
  burning : Bool := false
  burnBit : Nat := 0
  /-- R88, R93: the pad state a power-up reaches only after the burn. -/
  padTarget : Option Bool := none
  /-- R94: a pad change has been made since boot. -/
  padMoved : Bool := false
  /-- R88: a pad move back to p = 1 waits for a burn before power-down. -/
  returnPending : Bool := false
  /-- R96: physical slice in each interleave position. -/
  positions : List Nat := [0, 1, 2, 3, 4, 5, 6, 7, 8, 9, 10, 11, 12, 13, 14, 15]
  /-- R96: slice out of the interleave; none when the spare is retired. -/
  spare : Option Nat := some 16
  /-- R96: next position to swap, and the DT from which the next swap is due. -/
  nextPos : Nat := 0
  swapDue : DT := 0
  /-- R97: retired physical slices, oldest first. -/
  retired : List Nat := []
  /-- R117: groups still to come with VALID = 0. -/
  invalidLeft : Nat := 0
  /-- R99: samples of the clip recovery still to run. -/
  recovery : Nat := 0
  /-- R100: the comparator is on, or was until this DT. -/
  overdrive : Bool := false
  overdriveUntil : DT := 0
  /-- R101, R103: DT of the last OVR group. -/
  lastOvr : Option DT := none
  /-- R103: OVR groups counted since the last quiet second. -/
  ovrRun : Nat := 0
  /-- Table 5-7 OVR_GROUPS. -/
  ovrGroups : Nat := 0
  /-- Table 5-5: sideband of the last group; spec 0x3F, and the DT of that group. -/
  sideband : BitVec 16 := 0x3F
  lastGroup : Option DT := none
  /-- R114: groups that are not clean, newest first: DT and sideband. -/
  flagged : List (DT × Nat) := []
  /-- R89: the compensated samples of recent groups, newest first. -/
  input : List (DT × List Int) := []
  /-- R104, R113: range state bytes, 256 x the reference's added, with the DT from which each holds, newest first. -/
  history : List (DT × Nat) := []
  /-- R105: user delays with the DT from which each holds, newest first. -/
  delays : List (DT × Int) := []
  /-- R105, Table 5-6: user calibration. -/
  userOff : Int := 0
  userTable : List Int := []
  delayTk : Int := 0
  fStart : Nat := 0
  fStep : Nat := 0
  deriving DecidableEq, Repr

/-- An optical receiver (R218, R350). -/
structure OrxChan where
  recovery : Nat := 0
  ovr : Bool := false
  flagged : List (DT × Nat) := []
  /-- R218: the codes of recent groups, newest first. -/
  input : List (DT × List Int) := []
  /-- R350: DT of the next swap, from the first group of a run; 0 before it. -/
  swapDue : DT := 0
  positions : List Nat := [0, 1, 2, 3]
  spare : Option Nat := some 4
  nextPos : Nat := 0
  retired : List Nat := []
  deriving DecidableEq, Repr

/-- A DDC output group as later stages see it (Table 6-3). -/
structure GroupInfo where
  dt : DT
  flags : Nat
  /-- VALID_MASK, bit i for output i. -/
  valid : Nat
  range : Nat
  /-- R104: range state byte of the reference. -/
  ref : Nat := 0
  /-- Settings in force at the last output: DECIM, OUT_SHIFT, F. -/
  decim : Nat := 0
  shift : Nat := 0
  f : Nat := 0
  /-- R111: the 64 outputs, saturated. -/
  samples : List (Int × Int) := []
  deriving DecidableEq, Repr

/-- The filter chain of a DDC path between two starts (R110, R116). -/
structure DdcChain where
  decim : Nat
  /-- F, phase offset and OUT_SHIFT with the DT from which each holds, newest first. -/
  sets : List (DT × Nat × Nat × Nat)
  /-- R116: the start, and the DT from which the next chain gives the outputs. -/
  first : DT
  stop : DT
  nextGroup : DT
  invalid : List (DT × DT)
  deriving DecidableEq, Repr

/-- A DDC path (R106 to R125). -/
structure DdcPath where
  enable : Bool := false
  /-- F, 48 bits. -/
  f : Nat := 0
  /-- Phase offset, 48 bits. -/
  phi : Nat := 0
  /-- DECIM as written (Table 6-5). -/
  decim : Nat := 0
  outShift : Nat := 0
  /-- R113: represented instant of the next output group. -/
  nextGroup : DT := 0
  /-- R115, R116: represented instants [from, to) whose outputs are marked invalid. -/
  invalid : List (DT × DT) := []
  /-- R107, R116: F, phase offset and OUT_SHIFT since the last start, newest first, and the DT of that start. -/
  sets : List (DT × Nat × Nat × Nat) := []
  first : DT := 0
  /-- R116: chains from before it whose outputs have not all left, newest first. -/
  old : List DdcChain := []
  /-- Recent output groups, newest first. -/
  groups : List GroupInfo := []
  /-- Table 6-6. -/
  log2Win : Nat := 0
  alpha : Nat := 0
  detEnable : Nat := 0
  detRing : Nat := 0xFFFF
  /-- R124: outputs the detectors have not counted yet, oldest first: instant, power in units of 2^-28, flags, VALID. -/
  detQueue : List (DT × Nat × Nat × Bool) := []
  /-- R124: envelope e = envNum / 2^envExp in units of 2^-28. -/
  envNum : Nat := 0
  envExp : Nat := 0
  deriving DecidableEq, Repr

/-! ## Pips, bloom, traces (07, 08) -/

/-- A spectrum as delivered to trigger, traces and bloom (R132). -/
structure Spectrum where
  /-- t_m. -/
  dt : DT
  /-- FRAME_SEQ. -/
  seq : Nat
  flags : Nat
  /-- Bin levels v, port-referred L16 codes (R104). -/
  levels : List Int
  deriving DecidableEq, Repr

/-- What a frame was made with, as its first output group says (R104, R142). -/
structure FrameInfo where
  range : Nat := 0
  ref : Nat := 0
  shift : Nat := 0
  f : Nat := 0
  decim : Nat := 0
  window : Nat := 0
  deriving DecidableEq, Repr

/-- A trace detector (R165 to R168). -/
structure Trace where
  cfg : TraceCfg := {}
  /-- Frames seen in this block, frames summed. -/
  seen : Nat := 0
  summed : Nat := 0
  flags : Nat := 0
  accSat : Bool := false
  /-- One accumulator for each bin or point. -/
  acc : List Int := []
  /-- Table 8-3: calibration terms of the first frame summed, by bin. -/
  terms : List Int := []
  firstDt : DT := 0
  firstSeq : Nat := 0
  /-- The first frame of the block that was summed, or seen while none is. -/
  info : FrameInfo := {}
  /-- R166: FRAME_SEQ at which the first block under these settings may start. -/
  start : Nat := 0
  deriving DecidableEq, Repr

/-- The spectral processing of an RF personality (R126 to R149). -/
structure Spectral where
  running : Bool := false
  fft : FftCfg := {}
  /-- Window code; spec Hann at start (R148). -/
  window : Nat := 1
  /-- R127: pips in dealing order. -/
  pips : List Nat := []
  /-- R126: t_0 and DECIM of the grid. -/
  t0 : DT := 0
  decim : Nat := 0
  /-- R133: starts whose grid follows once the complete frames of the one before are out, oldest first: DT, DECIM, overlap,
  and bits: 0 CLOCK_GAP, 1 its stages are degraded ones. -/
  starts : List (DT × Nat × Nat × Nat) := []
  /-- FRAME_SEQ of the next spectrum to be delivered, and of the next frame a pip completes (R134, R144). -/
  frame : Nat := 0
  completed : Nat := 0
  /-- R144: frames being recomputed, and complete frames held back behind them: FRAME_SEQ, pip, RECOMPUTED and POISONED
  flags, errors of the pip. -/
  missing : List Nat := []
  waiting : List (Nat × Nat × Nat × List (Int × Int)) := []
  /-- R145: frames that were in flight in a pip that failed without a spare. -/
  lost : List Nat := []
  /-- R145: the overlap, and the stages, are degraded ones. -/
  degraded : Bool := false
  degStages : Bool := false
  /-- R362: a unit failed without a spare while the steward was out; output waits for the degradation. -/
  held : Bool := false
  /-- R133: the next spectrum carries RESTART. -/
  restart : Bool := false
  /-- R74: the next spectrum carries CLOCK_GAP. -/
  clockGap : Bool := false
  /-- R139: averaging block. -/
  seen : Nat := 0
  summed : Nat := 0
  avgFlags : Nat := 0
  accSat : Bool := false
  acc : List Nat := []
  avgTerms : List Int := []
  firstDt : DT := 0
  firstSeq : Nat := 0
  avgInfo : FrameInfo := {}
  lastPip : Nat := 0
  /-- R139: FRAME_SEQ at which the first block under these settings may start. -/
  avgStart : Nat := 0
  traces : Table Trace := []
  /-- R157: spectra waiting for the bloom, oldest first, each with the pip that holds it. -/
  queue : List (Nat × Spectrum) := []
  /-- R157: spectra skipped for lag in the last second, oldest first: DT and FRAME_SEQ; DT of the last event. -/
  lags : List (DT × Nat) := []
  lagEvent : Option DT := none
  /-- R156: the bloom has served this personality in the running pass. -/
  served : Bool := false
  /-- R183: output stopped by a limit violation. -/
  limitStopped : Bool := false
  /-- R62: an armed member set these while the personality was halted, so its next start keeps them. -/
  keepFft : Bool := false
  keepWindow : Bool := false
  deriving DecidableEq, Repr

/-- State of a pip or a currant (R148, R274). -/
inductive UnitState where
  | off | spare | assigned | inTest | relieving | retired
  deriving DecidableEq, Repr

/-- A pip or a currant (R148, R274, R353). -/
structure Core where
  state : UnitState := .off
  personality : Nat := 0xF
  /-- R353: DT of its strike. -/
  strike : Option DT := none
  /-- R272, R274: kernel, 0xFF none. -/
  kernel : Nat := 0xFF
  deriving DecidableEq, Repr

/-- A bloom map (R150 to R164). -/
structure BloomMap where
  set : Bool := false
  cfg : BloomCfg := {}
  /-- R155: spectra from this frame start on are counted. -/
  since : DT := 0
  /-- Cells that are not 0: index row * COLUMNS + column, count. -/
  cells : Table Nat := []
  dtFirst : DT := 0
  dtLast : DT := 0
  lastSeq : Nat := 0
  log2N : Nat := 0
  spectra : Nat := 0
  skippedFlags : Nat := 0
  skippedLag : Nat := 0
  decays : Nat := 0
  lagged : Bool := false
  cellSat : Bool := false
  /-- R159: the decay after the last accepted spectrum has not been applied. -/
  owed : Bool := false
  /-- R160: a decay pass is due or running. -/
  decaying : Bool := false
  /-- R162: clears that fall due each at the first spectrum from its DT on, with their causes; a cause whose event waits
  for the first spectrum counted. -/
  clearDue : List (Nat × DT) := []
  clearedEvent : Option Nat := none
  /-- R164: SPECTRA at the last periodic snapshot. -/
  snapAt : Nat := 0
  deriving DecidableEq, Repr

/-! ## Triggers and capture (09) -/

/-- A trigger event (Table 9-1). -/
structure TrigEvent where
  source : Nat
  dt : DT
  onset : DT
  deriving DecidableEq, Repr

/-- A frequency mask with its state (R171 to R175). -/
structure Mask where
  cfg : MaskCfg
  violated : List Bool
  run : Nat
  onset : DT
  fired : Bool
  skipped : Nat
  deriving DecidableEq, Repr

/-- The time-domain condition with its state (R176). -/
structure TimeDomain where
  cfg : TdCfg
  violated : Bool
  run : Nat
  onset : DT
  fired : Bool
  skipped : Nat
  deriving DecidableEq, Repr

/-- A spectral change log with its state (R194, R195). -/
structure ChangeLog where
  cfg : ChangeLogCfg
  logged : List Int
  since : Nat
  key : Bool
  lost : Bool
  lastFlags : Option Nat
  deriving DecidableEq, Repr

/-- A trigger unit (R169). -/
structure TrigUnit where
  masks : Table (Option Mask) := []
  td : Option TimeDomain := none
  limit : Option LimitCfg := none
  log : Option ChangeLog := none
  seq : SeqCfg := {}
  armed : Bool := false
  armedAt : DT := 0
  /-- R179: current step and the DT of its entry, occurrences, and last DT of each input. -/
  step : Nat := 0
  entered : DT := 0
  count : Nat := 0
  seen : List (Nat × DT) := []
  /-- R180: delivered events not yet evaluated. -/
  events : List TrigEvent := []
  /-- R181: triggers since the last EV_TRIG, its DT. -/
  triggers : Nat := 0
  lastEvent : Option DT := none
  total : Nat := 0
  /-- R182: limit results. -/
  violations : Nat := 0
  limitFirst : Nat := 0
  limitEvent : Option DT := none
  limitSkipped : Nat := 0
  /-- R196: the last tested record was a violation. -/
  limitFailed : Bool := false
  /-- R175: masks are cleared and the log writes a keyframe at the first spectrum from each of these DTs on. -/
  clearFrom : List DT := []
  deriving DecidableEq, Repr

/-- The line log (R196): settings and, for each line, the DT last logged and the edges merged since. -/
structure LineLog where
  cfg : LineLogCfg := {}
  last : Table (DT × Nat) := []
  lost : Bool := false
  deriving DecidableEq, Repr

/-- One capture record (R186, R192). -/
structure Record where
  full : Bool := false
  flags : Nat := 0
  /-- Retained units, oldest first: represented instant and stored value. -/
  units : List (DT × Nat) := []
  index : List (DT × Nat) := []
  dtTrigger : DT := 0
  trigIndex : Nat := 0
  trigClass : Nat := 0xFF
  stages : Nat := 0
  shift : Nat := 0
  range : Nat := 0
  nco : Nat := 0
  deriving DecidableEq, Repr

/-- A capture unit (R184 to R192). -/
structure Capture where
  isSet : Bool := false
  cfg : CapCfg := {}
  /-- CAP.STATUS state: 0 idle, 1 filling pre, 2 post, 3 stopped. -/
  phase : Nat := 0
  armedAt : DT := 0
  segment : Nat := 0
  records : Table Record := []
  /-- The record being filled: units and index entries, newest first, units written since arming. -/
  units : List (DT × Nat) := []
  index : List (DT × Nat) := []
  written : Nat := 0
  trigger : Option (DT × Nat) := none
  /-- R185, R186: the trigger sample is there, units written since arming before it, and PRE'. -/
  trigSeen : Bool := false
  trigPos : Nat := 0
  preKept : Nat := 0
  pendingFlags : Nat := 0
  /-- R184: stored bytes of a unit, fixed at arming. -/
  unitLen : Nat := 4
  /-- Table 9-4: STAGES, OUT_SHIFT and F_NCO with the instant from which each holds, newest first. -/
  marks : List (DT × Nat × Nat × Nat) := []
  /-- R183: a limit violation ends the record with what is delivered before this DT. -/
  stopAt : Option DT := none
  missed : Nat := 0
  lastTrigger : DT := 0
  overwritten : Nat := 0
  deriving DecidableEq, Repr

/-! ## Generator and laser (10, 11) -/

/-- The play of a segment under way (R204, R206, R212). -/
structure Play where
  cfg : SegCfg
  /-- R212: what the on-die buffer holds of a resident segment, at its device addresses. -/
  held : Mem
  carriers : Table (Nat × Nat)
  bias : Int
  deriving DecidableEq, Repr

/-- A generator (R199 to R215). -/
structure Gen where
  running : Bool := false
  segments : Table (Option SegCfg) := []
  table : List SeqEntry := []
  startEntry : Nat := 0
  entry : Nat := 0
  /-- R209: what the latch point fixed: the next entry (0 played again, 1 entered anew), or none for a stop with its
  cause. -/
  latched : Option (Option Nat × Nat) := none
  segStart : DT := 0
  plays : Nat := 0
  loops : Table Nat := []
  /-- R208: pending bits, 16 * source + parameter. -/
  pending : List Nat := []
  epoch : Nat := 0
  epochDt : DT := 0
  epochEntry : Nat := 0
  played : List Nat := []
  underruns : Nat := 0
  /-- R214: the play under way is marked for underrun: DT of the first missing granule. -/
  missing : Option DT := none
  carriers : Table (Nat × Nat) := []
  bias : Int := 0
  /-- R212: cells of the on-die buffer, by resident segment. -/
  held : Table Mem := []
  /-- R204: the play under way, and the last 16 envelope samples of the lanes of the play before it. -/
  play : Option Play := none
  tail : List (List (Int × Int)) := []
  /-- R210: the marker byte at the output. -/
  markers : Nat := 0
  delayTk : Int := 0
  clip : Nat := 0
  lastIdle : Int := 0
  /-- R200: claimed for stimulus. -/
  stimulus : Bool := false
  /-- R215: stopped by a clock absence. -/
  gapped : Bool := false
  deriving DecidableEq, Repr

/-- The governor of a DAC (R234 to R236). -/
structure Governor where
  modcal : Option (Nat × List Nat) := none
  caps : Option LaserCaps := none
  armed : Bool := false
  /-- R236: trip latched; ACTION 0 has been given since. -/
  tripped : Bool := false
  disarmed : Bool := false
  deriving DecidableEq, Repr

/-- Laser pins and latch (R236, R388). -/
structure Laser where
  /-- Pin LASER_EN; spec low in reset. -/
  en : Bool := false
  /-- Pin LASER_PERMIT and the DT of its last change. -/
  permit : Bool := false
  permitAt : DT := 0
  /-- LASER.STATUS byte 3 and 4, DT of the last cut. -/
  trip : Nat := 0
  tripDac : Nat := 0
  cutAt : DT := 0
  dacs : Table Governor := []
  deriving DecidableEq, Repr

/-- Marker and trigger-output routing and pins (R210, R211, Table 10-5). -/
structure Route where
  markDac : Nat := 0
  trigDac : Nat := 0
  /-- spec 8. -/
  width : Nat := 8
  /-- Pins TRIG_OUT0 to 3. -/
  trigOut : Nat := 0
  deriving DecidableEq, Repr

/-! ## Fibres, currants, slow converter (11, 12, 13) -/

/-- A launch waiting for its trace (R223 to R225). -/
structure Launch where
  slot : Nat
  dt : DT
  epoch : Nat
  entry : Nat
  flags : Nat
  /-- R224: DT of the last launch that belongs to the trace. -/
  last : DT := 0
  /-- R225: shortest time from one of its launches to the slot's next, once that has come. -/
  interval : Option Nat := none
  /-- The settings in force at the launch. -/
  slotCfg : SlotCfg := {}
  grid : GridCfg := {}
  /-- R223, R224, R228: the slots launched, each with its t_L and settings; and those of the B launch of a pair. -/
  parts : List (Nat × DT × SlotCfg) := []
  partsB : List (Nat × DT × SlotCfg) := []
  deriving DecidableEq, Repr

/-- What DAS_PHASE hands over for one trace (R227, R230, R267): for each output position dp as a normalised mantissa, its CLASS,
and the quality bits [4] and [2:1] of its inputs. -/
structure TraceData where
  slot : Nat
  dp : List (Int × Int)
  cls : List Nat
  bits : List Nat
  deriving DecidableEq, Repr

/-- The phase state of a slot (R228, R269). -/
structure SlotPhase where
  /-- Positions at which the slot's previous trace was usable. -/
  usable : List Bool := []
  phi : List Int := []
  u : List Int := []
  b : List Int := []
  deriving DecidableEq, Repr

/-- R270: the filter state of one position, its last two inputs and outputs, and the window's sum. -/
structure BandTap where
  x1 : Int := 0
  x2 : Int := 0
  y1 : Int := 0
  y2 : Int := 0
  sum : Nat := 0
  deriving DecidableEq, Repr

/-- A fibre personality: DAS (R217 to R233) and DTS (R237 to R245). -/
structure Fibre where
  das : Bool := false
  receivers : Nat := 1
  degraded : Bool := false
  slots : Table SlotCfg := []
  grid : GridCfg := {}
  pmask : PmaskCfg := {}
  band : BandCfg := {}
  cal : FibreCal := {}
  pips : List Nat := []
  currants : List Nat := []
  launches : List Launch := []
  lastLaunch : Table DT := []
  /-- R224: A launch of a Golay slot that waits for its B. -/
  partner : Table (Option Launch) := []
  unpaired : Nat := 0
  traceSeq : Nat := 0
  lastTrace : Option DT := none
  /-- R225: SHORT_INTERVAL traces since the start, since the last event, the first of those, DT of that event. -/
  shortIntervals : Nat := 0
  shortSecond : Nat := 0
  shortFirst : DT := 0
  shortEvent : Option DT := none
  /-- R226, R272: finished traces that wait for an earlier launch, and whether each was recomputed. -/
  ready : List (TraceData × Bool) := []
  restart : Bool := false
  clockGap : Bool := false
  phases : Table SlotPhase := []
  /-- o(p, n - 1). -/
  output : List Int := []
  pmaskViolated : List Bool := []
  pmaskRun : Nat := 0
  pmaskOnset : DT := 0
  pmaskFired : Bool := false
  /-- R270: traces of the running window, its first launch and TRACE_SEQ, OR of flags, sum of DELTA_TK, positions
  with a quality bit. -/
  bandSeen : Nat := 0
  bandFirst : Option (Launch × Nat) := none
  bandFlags : Nat := 0
  bandLength : Nat := 0
  bandBad : List Nat := []
  /-- R270: filter state and window sum of each position. -/
  bandTaps : List BandTap := []
  dts : Bool := false
  dtsCfg : DtsCfg := {}
  /-- DTS: launches of the running stack, summed, first and last t_L, flags, sums by cell. -/
  stackSeen : Nat := 0
  stackSummed : Nat := 0
  stackFirst : DT := 0
  stackLast : DT := 0
  stackFlags : Nat := 0
  sumA : List Int := []
  sumS : List Int := []
  prevLaunch : Option DT := none
  stackSeq : Nat := 0
  leftOut : Nat := 0
  stackEnd : DT := 0
  tCoil : Nat := 0
  /-- R243: 1 stale, 2 no reference, 3 fresh. -/
  refState : Nat := 3
  /-- R362: a unit failed in a steward outage with no spare: nothing is launched until the degradation lands. -/
  held : Bool := false
  /-- R243: usable results since the start that a stack may still need: scan entry, DT and CODE. -/
  rtd : List (Nat × DT × Int) := []
  hopped : Bool := false
  /-- R245: a record waiting to reach its ring. -/
  record : Option (List Byte) := none
  /-- R261: an accumulator of the running stack has saturated; cleared with the kernel's next output. -/
  stackSat : Bool := false
  deriving DecidableEq, Repr

/-- What the slow converter is doing (R248, R252). -/
inductive SlowJob where
  | scan (entry : Nat)
  | urgent (e : ScanEntry) (ref : CmdRef)
  | impedance (exc : Nat)
  | selfTest (half : Bool)
  deriving DecidableEq, Repr

/-- The slow converter (R247 to R253). -/
structure Slow where
  table : List ScanEntry := []
  lineHz : Nat := 50
  ring : Nat := 0xFFFF
  scanning : Bool := false
  entry : Nat := 0
  repeatsDone : Nat := 0
  /-- The running action, its power-up has begun, and integration has begun. -/
  job : Option SlowJob := none
  /-- R248: DT at which the phase under way began: the action, its power-up, its integration. -/
  since : DT := 0
  poweredUp : Bool := false
  integrating : Bool := false
  /-- Flags fixed at the integration start. -/
  startFlags : Nat := 0
  urgents : List (ScanEntry × CmdRef) := []
  checksDue : List Nat := []
  selfTestsDue : List Bool := []
  lastGain : Option Nat := none
  lastOvr : Option DT := none
  seq : BitVec 16 := 0
  lost : Nat := 0
  lostFirst : DT := 0
  /-- R253: results of the entry being filled, and the DT of the first. -/
  partials : List (List Byte) := []
  partialFirst : DT := 0
  deriving DecidableEq, Repr

/-- An excitation output (R254 to R257). -/
structure Exc where
  cfg : ExcCfg := {}
  broken : Bool := false
  breakLatched : Bool := false
  /-- R257: the next impedance check. -/
  nextCheck : DT := 0
  lastC : Nat := 0
  lastG : Nat := 0
  lastCheck : DT := 0
  deriving DecidableEq, Repr

/-! ## DMA, memory (14, 15) -/

/-- A transfer in progress (R280, R287). -/
structure Transfer where
  /-- Pieces still to be issued: source space and address, destination space and address, bytes. -/
  pieces : List (Nat × Nat × Nat × Nat × Nat)
  burst : Nat
  req : Bool
  line : Nat
  /-- R287: it writes to host space, so a flush read ends it. -/
  flush : Bool := false
  deriving DecidableEq, Repr

/-- A DMA channel (R275 to R293). -/
structure Channel where
  isSet : Bool := false
  pf1 : Bool := false
  programSpace : Nat := 0
  doorbell : Nat := 0xFFFF
  lines : List Nat := []
  prodRings : List Nat := []
  consRings : List Nat := []
  hostBase : Nat := 0
  program : Nat := 0
  rate : Nat := 0
  /-- DMA.STATUS state: 0 idle, 1 running, 2 waiting, 3 parked, 4 stopped, 5 error. -/
  state : Nat := 0
  done : Bool := false
  kick : Bool := false
  cause : Nat := 0
  posSpace : Nat := 0
  pos : Nat := 0
  counters : Table (Option Nat) := []
  transfer : Option Transfer := none
  wait : Option U128 := none
  moved : Nat := 0
  remaining : Nat := 0
  /-- R277: bursts of the last 10 µs, and the last one: DT and bytes. -/
  recent : List (DT × Nat) := []
  /-- R290: a stop waits for the running transfer. -/
  stopRef : Option CmdRef := none
  /-- R293: arrived at this END by a repeated fetch, so NOTIFY is silent. -/
  refetch : Bool := false
  deriving DecidableEq, Repr

/-- DMA channels, request lines, semaphores. -/
structure Dma where
  channels : Table Channel := []
  /-- R285: requests not yet consumed; losses reported per line. -/
  lines : Table Nat := []
  lost : Table (Nat × DT) := []
  semaphores : Table Nat := []
  deriving DecidableEq, Repr

/-- An error log entry (Table 15-5). -/
structure LogEntry where
  dt : DT
  kind : Nat
  cls : Nat
  unit : Nat
  row : Nat
  column : Nat
  bank : Nat
  bit : Nat
  count : Nat
  addr : Nat
  read : Bool
  deriving DecidableEq, Repr

/-- The DRAM controller and the error log (R297 to R313). -/
structure MemCtl where
  /-- spec 0 after boot. -/
  point : Nat := 0
  /-- R306: a MEM.SET_FREQ in progress: target, command, DT taken, DT of step 1 when begun. -/
  change : Option (Nat × CmdRef × DT × Option DT) := none
  selfRefresh : Bool := false
  /-- R302: DT of the last request that a host or a channel made. -/
  lastRequest : DT := 0
  /-- spec 1,000 us. -/
  idleUs : Nat := 1000
  training : Bool := false
  lastTraining : DT := 0
  /-- R193: admitted readouts under way: RATE, what of it crosses PF1, and the DT at which they end. -/
  readouts : List (Nat × Nat × DT) := []
  /-- R308: device offsets of the 8-byte words that are poisoned. -/
  poisoned : List Nat := []
  /-- Where an uncorrectable word was reported, by its offset: channel, bank, row, column. -/
  places : Table (Nat × Nat × Nat × Nat) := []
  /-- R310: remapped rows: channel, bank, row. -/
  remap : List (Nat × Nat × Nat) := []
  /-- R310: correctable errors by row: reads with their DT. -/
  history : List ((Nat × Nat × Nat) × DT) := []
  log : List LogEntry := []
  logLost : Bool := false
  dramCe : Nat := 0
  dramUe : Nat := 0
  sramCe : Nat := 0
  sramUe : Nat := 0
  /-- R312: errors by SRAM row, and spare rows used by block and instance. -/
  sramHistory : List ((Nat × Nat × Nat) × DT) := []
  sparesUsed : Table Nat := []
  /-- R309: DT of the last EV_MEM_ERROR for correctable errors, by channel or block. -/
  ceEvent : Table DT := []
  /-- R301: refreshes issued. -/
  refreshes : Nat := 0
  lastRefresh : Option (Nat × Nat) := none
  scrubbed : Nat := 0
  deriving DecidableEq, Repr

/-! ## Links, display (16, 17) -/

/-- PCIe (R314 to R318) and MSI-X (R295, R296). -/
structure Pcie where
  link : Bool := false
  width : Nat := 8
  rate : Nat := 32
  /-- R316: WINDOW_BASE; spec 0. -/
  windowBase : Nat := 0
  /-- R317: PF1 has bus mastering and MSI-X enabled (DESIGN CHOICE, unsafe: log 46). -/
  pf1Enabled : Bool := true
  pf0D3 : Bool := false
  /-- R296: vectors 64 * function + v that are masked, pending, and messages sent. -/
  masked : List Nat := []
  pendingVecs : List Nat := []
  sent : Table Nat := []
  /-- R316, R307: AER uncorrectable non-fatal errors reported on PF0. -/
  aer : Nat := 0
  /-- The data of the last read the host or the board made; none for completer abort. -/
  readData : Option (List Byte) := some []
  /-- R73, R304: BAR4 accesses that the stalled DRAM holds, oldest first: address, bytes to read, bytes to write. -/
  stalled : List (Nat × Nat × List Byte) := []
  /-- Pin PCIE_WAKE_N driven (R374). -/
  wakeRequest : Bool := false
  deriving DecidableEq, Repr

/-- An Ethernet port (R319 to R331). -/
structure Port where
  mode : Nat := 0
  fec : Nat := 0
  options : Nat := 0
  mac : Nat := 0
  ipv4 : Nat := 0
  ipv6 : Nat := 0
  txDelay : Int := 0
  rxDelay : Int := 0
  up : Bool := false
  discardedDown : Nat := 0
  sent : Nat := 0
  rxDiscarded : Nat := 0
  /-- R326: stamps of PTP event messages, newest first, at most 16. -/
  ptpStamps : List DT := []
  /-- R321: payload of the last stream datagram sent. -/
  lastPayload : List Byte := []
  deriving DecidableEq, Repr

/-- The Ethernet control endpoint (R327 to R329). -/
structure Endpoint where
  port : Option Nat := none
  udp : Nat := 0
  peerIp : Nat := 0
  peerUdp : Nat := 0
  ring : Nat := 0
  /-- spec 0xFFFF_FFFF (R329). -/
  lastSeq : BitVec 32 := 0xFFFFFFFF
  /-- R328: command index range of the last accepted datagram. -/
  lastFirst : Nat := 0
  lastCount : Nat := 0
  /-- Datagrams sent to the peer: kind, SEQ where the spec states one, ring, first index, count. -/
  out : List (Nat × Option Nat × Nat × Nat × Nat) := []
  deriving DecidableEq, Repr

/-- The display (R332 to R344). -/
structure Display where
  mode : ModeCfg := {}
  layers : Table LayerCfg := []
  palette : List Nat := []
  /-- Pool offset and bytes (R338). -/
  pool : Option (Nat × Nat) := none
  psrMode : Nat := 0
  idleFrames : Nat := 2
  psrActive : Bool := false
  idleRun : Nat := 0
  link : Bool := false
  sink : Bool := false
  frame : Nat := 0
  frameDt : DT := 0
  late : Nat := 0
  underflowed : Nat := 0
  underflowEvent : Option DT := none
  /-- R342: pixels underflowed within the last second: when, layer, how many. -/
  underflowRun : List (DT × Nat × Nat) := []
  /-- R341: buffers replaced at the last landing: layer, base, LATE, frame. -/
  releases : List (Nat × Nat × Bool × Nat) := []
  /-- R343: a mode change that has landed and waits for its third frame: LATE, link training wanted. -/
  modeChange : Option (Bool × Bool) := none
  /-- R343: failed trainings; 3 means given up. -/
  retries : Nat := 0
  /-- R335: until the next frame start the link sends black (true, after a reconnection) or idle pattern (false, a frame that
  started during retraining). -/
  wait : Option Bool := none
  /-- R344: rectangles of the present frame that are sent as a selective update: X, Y, W, H. -/
  update : List (Nat × Nat × Nat × Nat) := []
  deriving DecidableEq, Repr

/-! ## Availability and power (18, 19) -/

/-- A fault record (Table 18-5). -/
structure FaultRecord where
  opened : DT
  closed : DT
  cls : Nat
  cause : Nat
  unit : Nat
  state : Nat
  outcome : Nat
  personality : Nat
  nest : Nat
  /-- The spare that took over, when one did. -/
  spare : Option Nat
  deriving DecidableEq, Repr

/-- Firmware hand-over in progress (R365, R366). -/
structure Handover where
  ref : CmdRef
  sec : Nat
  len : Nat
  /-- The new image, kept in Korsyn's DRAM area, and the copy of the running one. -/
  image : List Byte
  oldImage : Mem
  deriving DecidableEq, Repr

/-- The steward: whether Korsyn runs, outages, held events, hand-over (R360 to R366). -/
structure Steward where
  running : Bool := false
  /-- Cause and DT of the outage under way. -/
  outage : Option (Nat × DT) := none
  halted : Bool := false
  /-- R365, R372: Korsyn has stopped taking commands. -/
  closed : Bool := false
  /-- R46: the command ring served last; a number above every ring before the first. (DESIGN CHOICE, safe: log 71.) -/
  lastRing : Nat := 8192
  held : List Event := []
  heldLost : Bool := false
  /-- Restarts within the last 60 s, newest first (R363). -/
  restarts : List DT := []
  restartCount : Nat := 0
  handover : Option Handover := none
  /-- DT of READY. -/
  bootDt : DT := 0
  deriving DecidableEq, Repr

/-- Sparing, rotation and health (R345 to R363, Table 18-8). -/
structure Health where
  pips : Table Core := []
  currants : Table Core := []
  /-- R20; spec 2. -/
  spares : Nat := 2
  /-- R355: the first admission after boot has been made. -/
  admitted : Bool := false
  /-- R355: the tests of the first admission still run. -/
  firstTest : Bool := false
  /-- spec 21,600 s. -/
  pipPeriod : Nat := 21600
  curPeriod : Nat := 21600
  /-- 0.01 C; spec +95.00. -/
  tempWarn : Int := 9500
  /-- Sensors 0 core, 1 die A, 2 die B, 3 DRAM, 0.01 C. -/
  temps : Table Int := []
  tempLevel : Table Nat := []
  faults : List FaultRecord := []
  closedFaults : List FaultRecord := []
  pipRepairs : Nat := 0
  curRepairs : Nat := 0
  storms : Nat := 0
  nextPip : Nat := 0
  nextCurrant : Nat := 0
  /-- R345: the DT at which the next visit of each kind falls due. -/
  pipDue : DT := 0
  curDue : DT := 0
  dacsRetired : Nat := 0
  orxRetired : Nat := 0
  rfRetired : Nat := 0
  /-- Consecutive loop-back failures (R350). -/
  loopFails : Table Nat := []
  /-- R350: background gain correction of die A, B in 1/1000 dy. -/
  gainCorrection : Table Int := []
  /-- R359: personalities halted in order, not started since. -/
  haltedPers : List Nat := []
  /-- R359: personalities that halt in order at their next boundary: number, cause, from when. -/
  halting : List (Nat × Nat × DT) := []
  deriving DecidableEq, Repr

/-- Power states (R368 to R376) and the domains that are on. -/
structure PowerUnit where
  /-- After boot nothing is admitted: Ready (DEDUCED, unsafe: log 32). -/
  state : Power := .ready
  fabric : Bool := false
  /-- Converter die A, B. -/
  dies : Table Bool := []
  eth : Table Bool := []
  display : Bool := false
  /-- Domains whose start is under way. -/
  starting : List Domain := []
  wakeDt : DT := 0
  /-- R372: entry to this state has been ordered. -/
  entering : Option Power := none
  /-- R374: a source fired during entry. -/
  wakePending : Byte := 0
  wakeEdge : DT := 0
  deriving DecidableEq, Repr

/-- The whole block. -/
structure State where
  /-- DT, 64 bits (R6, R76); the queue of commands that wait is last. -/
  dt : DT := 0
  fuse : Fuses := {}
  stone : Stone := {}
  power : PowerUnit := {}
  steward : Steward := {}
  rings : Table Ring := []
  bunch : BunchUnit := {}
  clock : Clock := {}
  time : TimeBase := {}
  rf : Table RfChan := []
  orx : Table OrxChan := []
  ddc : Table DdcPath := []
  spec : Table Spectral := []
  bloom : Table BloomMap := []
  trig : Table TrigUnit := []
  lineLog : LineLog := {}
  /-- R177: DT of the last accepted edge of each TRIG_IN line. -/
  trigIn : Table (Option DT) := []
  cap : Table Capture := []
  gen : Table Gen := []
  route : Route := {}
  laser : Laser := {}
  fibre : Table Fibre := []
  slow : Slow := {}
  exc : Table Exc := []
  dma : Dma := {}
  memCtl : MemCtl := {}
  pcie : Pcie := {}
  port : Table Port := []
  endpoint : Endpoint := {}
  disp : Display := {}
  health : Health := {}
  /-- Host memory the device can reach; the model's own (DESIGN CHOICE, unsafe: log 2). -/
  host : Mem := []
  /-- Device DRAM by device offset (R297). -/
  dram : Mem := []
  /-- Steward SRAM by BAR2 offset (R315). -/
  sram : Mem := []
  /-- The model's own: the number of free values drawn so far (DESIGN CHOICE, safe: log 4). -/
  freeCount : Nat := 0
  /-- Commands that wait, first in, first out. -/
  pending : List Instr := []
  deriving DecidableEq, Repr

/-- Why a command could stop the machine. The spec gives every command of its table an effect or leaves it without
one, so no meaning raises this constructor: it is safe, and it is here because the interface asks for a type. -/
inductive Fault where
  /-- Raised by no meaning. Safe. -/
  | unreachable
  deriving DecidableEq, Repr

/-- Why a command could be refused by the model. -/
inductive Refusal where
  /-- Raised by an arm of exec that has no meaning yet, under the row's mnemonic. Safe: the machine stops. -/
  | notModelled (mnemonic : String)
  deriving DecidableEq, Repr

/-- The block with POR_N held low and nothing done yet (R30, R388): every field at its default above. (DESIGN CHOICE, unsafe: log 1.) -/
def State.reset : State := {}

end Sys2Proof.Machine
end

