-- ==== Sys2Proof/Machine/Table.lean ====
section
/-! DEFINITION. Reading and writing the canonical tables and memories of the state: a write keeps the numbers
rising and never lists a value equal to the default. -/

namespace Sys2Proof.Machine

/-- Entry k of a table; the default where it is not listed. -/
def tget {α : Type} (d : α) : Table α → Nat → α
  | [], _ => d
  | (i, v) :: rest, k => if i = k then v else tget d rest k

/-- List entry k with a value, before the numbers above it and in place of an entry k already listed. -/
def tlist {α : Type} : Table α → Nat → α → Table α
  | [], k, v => [(k, v)]
  | (i, w) :: rest, k, v =>
    if k < i then (k, v) :: (i, w) :: rest
    else if i = k then (k, v) :: rest
    else (i, w) :: tlist rest k v

/-- Set entry k of a table, keeping the canonical form: the default is not listed. -/
def tput {α : Type} [DecidableEq α] (d : α) (t : Table α) (k : Nat) (v : α) : Table α :=
  if v = d then t.filter (fun e => e.1 != k) else tlist t k v

/-- Change entry k of a table. -/
def tmod {α : Type} [DecidableEq α] (d : α) (t : Table α) (k : Nat) (f : α → α) : Table α :=
  tput d t k (f (tget d t k))

/-- The canonical form: numbers strictly rising and no default listed. -/
def twf {α : Type} [DecidableEq α] (d : α) : Table α → Bool
  | [] => true
  | [(_, v)] => decide (v ≠ d)
  | (i, v) :: (j, w) :: rest => decide (v ≠ d) && decide (i < j) && twf d ((j, w) :: rest)

/-- The canonical form of a memory. -/
abbrev Mem.wf (m : Mem) : Prop := twf (0 : Byte) m = true

/-- One byte of memory; a byte nothing has written reads 0 (R31, R32, R379; host memory: log 2). -/
def readByte (m : Mem) (a : Nat) : Byte := tget 0 m a

/-- Write one byte. -/
def writeByte (m : Mem) (a : Nat) (b : Byte) : Mem := tput 0 m a b

/-- Write consecutive bytes from an address up. -/
def writeBytes (m : Mem) (a : Nat) : List Byte → Mem
  | [] => m
  | b :: bs => writeBytes (writeByte m a b) (a + 1) bs

/-- Write listed bytes back, each at its own address. -/
def writeCells (m : Mem) (cells : Mem) : Mem := cells.foldl (fun m c => writeByte m c.1 c.2) m

/-- Read n consecutive bytes. -/
def readBytes (m : Mem) (a : Nat) : Nat → List Byte
  | 0 => []
  | n + 1 => readByte m a :: readBytes m (a + 1) n

/-- A little-endian number from bytes (R12). -/
def leNat : List Byte → Nat
  | [] => 0
  | b :: bs => b.toNat + 256 * leNat bs

/-- n bytes of memory as a little-endian number (R12). -/
def readLe (m : Mem) (a n : Nat) : Nat := leNat (readBytes m a n)

/-- The low n bytes of a number, least significant first (R12). -/
def leBytes : Nat → Nat → List Byte
  | 0, _ => []
  | n + 1, v => BitVec.ofNat 8 v :: leBytes n (v / 256)

/-- Two's complement of n bytes for a signed value. -/
def leInt (n : Nat) (v : Int) : List Byte := leBytes n (v % (2 ^ (8 * n) : Nat)).toNat

/-- A signed number from an unsigned field of the given number of bits. -/
def signed (bits v : Nat) : Int := if v < 2 ^ (bits - 1) then (v : Int) else (v : Int) - (2 ^ bits : Nat)

/-- Signed 16-bit values in host or device memory. -/
def readI16s (m : Mem) (a : Nat) : Nat → List Int
  | 0 => []
  | n + 1 => signed 16 (readLe m a 2) :: readI16s m (a + 2) n

/-- Unsigned 16-bit values in memory. -/
def readU16s (m : Mem) (a : Nat) : Nat → List Nat
  | 0 => []
  | n + 1 => readLe m a 2 :: readU16s m (a + 2) n

/-- Unsigned 32-bit values in memory. -/
def readU32s (m : Mem) (a : Nat) : Nat → List Nat
  | 0 => []
  | n + 1 => readLe m a 4 :: readU32s m (a + 4) n

/-- Zero bytes added until the length is a multiple of k. -/
def padZero (k : Nat) (bs : List Byte) : List Byte :=
  bs ++ List.replicate ((k - bs.length % k) % k) 0

/-- L16 values 0x8000 added until the length is a multiple of 64 bytes (R142, R168). -/
def padBelow (bs : List Byte) : List Byte :=
  bs ++ (List.replicate (((64 - bs.length % 64) % 64) / 2) [(0x00 : Byte), 0x80]).flatten

/-- Bit i of a number. -/
def bit (v i : Nat) : Bool := v / 2 ^ i % 2 == 1

/-- 1 or 0. -/
def b2n (b : Bool) : Nat := if b then 1 else 0

/-- Ceiling of a quotient. -/
def ceilDiv (a b : Nat) : Nat := (a + b - 1) / b

end Sys2Proof.Machine
end

