-- ==== Sys2Proof/Machine/Bits.lean ====
section
/-! DEFINITION. The rounding rules and the L16 scale (R8, R9, R87, R89, R131, R140), in exact integer arithmetic. -/

namespace Sys2Proof.Machine

/-- num / den rounded to nearest, ties away from zero (R9). -/
def roundAway (num : Int) (den : Nat) : Int :=
  if 0 ≤ num then (2 * num + den) / (2 * den) else -((2 * (-num) + den) / (2 * den))

/-- num / den rounded to nearest, ties to even (R111, R129, R140, R262). -/
def roundEven (num : Int) (den : Nat) : Int :=
  let q := num / (den : Int)
  let r := num % (den : Int)
  if 2 * r < den then q else if (den : Int) < 2 * r then q + 1 else if q % 2 = 0 then q else q + 1

/-- Saturation to [lo, hi]. -/
def clamp (lo hi v : Int) : Int := if v < lo then lo else if hi < v then hi else v

/-- The L16 code that stands for "below range" (R9). -/
def below : Int := -32768

/-- R9: a sum of L16 terms: below stays below, above saturates at 0x7FFF, under range reads 0x8000. -/
def l16Sat (v : Int) : Int := if 32767 < v then 32767 else if v < -32767 then below else v

/-- Floor of log2 of the positive rational num / den. -/
def floorLog2 (num den : Nat) : Int :=
  if den ≤ num then (Nat.log2 (num / den) : Int)
  else -((Nat.log2 (ceilDiv den num - 1) + 1 : Nat) : Int)

/-- R9: the L16 code of the power ratio num / den, correctly rounded: floor(256 log2 p + 1/2), computed as
floor(log2(2 p^512) / 2). Zero power reads 0x8000. -/
def l16OfPower (num den : Nat) : Int :=
  if num = 0 then below else l16Sat (floorLog2 (2 * num ^ 512) (den ^ 512) / 2)

/-- R8, R9: round(db * 256 / 3.0103) for a whole number of dB. -/
def codesOfDb (db : Int) : Int := roundAway (db * 2560000) 30103

/-- R87: nominal full scale of the range state (p, A) in L16 dym. -/
def fullScale (pad : Bool) (atten : Nat) : Int := codesOfDb (4 + atten + 20 * b2n pad)

/-- R89: compensation k between a range state and the reference state. -/
def compensation (pad : Bool) (atten : Nat) (padRef : Bool) (attenRef : Nat) : Int :=
  codesOfDb ((atten : Int) + 20 * b2n pad - attenRef - 20 * b2n padRef)

/-- Integer square root by bisection on bits, from bit n down. -/
def sqrtBits (v : Nat) : Nat → Nat → Nat
  | 0, r => if (r + 1) * (r + 1) ≤ v then r + 1 else r
  | n + 1, r => sqrtBits v n (if (r + 2 ^ (n + 1)) * (r + 2 ^ (n + 1)) ≤ v then r + 2 ^ (n + 1) else r)

/-- Floor of the square root. -/
def isqrt (v : Nat) : Nat := sqrtBits v (Nat.log2 v / 2 + 1) 0

/-- round(sqrt(num / den)): floor(sqrt(4 num / den) + 1) / 2. -/
def roundSqrt (num den : Nat) : Nat := (isqrt (4 * num / den) + 1) / 2

/-- Whether a DT lies at or after another in unsigned order (R6). -/
def dtLe (a b : DT) : Bool := decide (a.toNat ≤ b.toNat)

/-- DT difference b - a in ticks, 0 when b lies before a. -/
def dtSub (b a : DT) : Nat := b.toNat - a.toNat

/-- DT plus ticks, wrapping (R6). -/
def dtAdd (a : DT) (n : Nat) : DT := a + BitVec.ofNat 64 n

/-- Ticks in a millisecond, a microsecond and a second (R5). -/
def tkMs : Nat := 20480000
def tkUs : Nat := 20480
def tkS : Nat := 20480000000

/-- Add below a saturation limit. -/
def satAdd (limit a b : Nat) : Nat := min limit (a + b)

/-- Largest value of an unsigned 32-bit counter. -/
def u32max : Nat := 0xFFFFFFFF

end Sys2Proof.Machine
end

