-- ==== Sys2Proof/Machine/Ops.lean ====
section
/-! DEFINITION. The operations every command shares: time, access to the numbered parts, rings, events,
completions, memory by location, and the device reset. -/

namespace Sys2Proof.Machine

/-- What a meaning answers. -/
abbrev Out := Host.Outcome State Fault Refusal

/-! ## Time and free values -/

/-- R77: DT moves to the time a command carries and never back. (DESIGN CHOICE, safe: log 3.) -/
def advance (t : DT) (s : State) : State := if dtLe s.dt t then { s with dt := t } else s

/-- A fresh free value (DESIGN CHOICE, safe: log 4) and the state that has used it. -/
def draw (s : State) : Nat × State := (Config.freeValue s.freeCount, { s with freeCount := s.freeCount + 1 })

/-! ## Access to the numbered parts -/

def getRing (n : Nat) (s : State) : Ring := tget {} s.rings n
def modRing (n : Nat) (f : Ring → Ring) (s : State) : State := { s with rings := tmod {} s.rings n f }
def getBunch (n : Nat) (s : State) : Bunch := tget {} s.bunch.table n
def modBunch (n : Nat) (f : Bunch → Bunch) (s : State) : State :=
  { s with bunch := { s.bunch with table := tmod {} s.bunch.table n f } }
def getPll (n : Nat) (s : State) : Pll := tget {} s.clock.plls n
def modPll (n : Nat) (f : Pll → Pll) (s : State) : State :=
  { s with clock := { s.clock with plls := tmod {} s.clock.plls n f } }
def getRf (n : Nat) (s : State) : RfChan := tget {} s.rf n
def modRf (n : Nat) (f : RfChan → RfChan) (s : State) : State := { s with rf := tmod {} s.rf n f }
def getOrx (n : Nat) (s : State) : OrxChan := tget {} s.orx n
def modOrx (n : Nat) (f : OrxChan → OrxChan) (s : State) : State := { s with orx := tmod {} s.orx n f }
def getDdc (n : Nat) (s : State) : DdcPath := tget {} s.ddc n
def modDdc (n : Nat) (f : DdcPath → DdcPath) (s : State) : State := { s with ddc := tmod {} s.ddc n f }
def getSpec (n : Nat) (s : State) : Spectral := tget {} s.spec n
def modSpec (n : Nat) (f : Spectral → Spectral) (s : State) : State := { s with spec := tmod {} s.spec n f }
def getBloom (n : Nat) (s : State) : BloomMap := tget {} s.bloom n
def modBloom (n : Nat) (f : BloomMap → BloomMap) (s : State) : State := { s with bloom := tmod {} s.bloom n f }
def getTrig (n : Nat) (s : State) : TrigUnit := tget {} s.trig n
def modTrig (n : Nat) (f : TrigUnit → TrigUnit) (s : State) : State := { s with trig := tmod {} s.trig n f }
def getCap (n : Nat) (s : State) : Capture := tget {} s.cap n
def modCap (n : Nat) (f : Capture → Capture) (s : State) : State := { s with cap := tmod {} s.cap n f }
def getGen (n : Nat) (s : State) : Gen := tget {} s.gen n
def modGen (n : Nat) (f : Gen → Gen) (s : State) : State := { s with gen := tmod {} s.gen n f }
def getGov (n : Nat) (s : State) : Governor := tget {} s.laser.dacs n
def modGov (n : Nat) (f : Governor → Governor) (s : State) : State :=
  { s with laser := { s.laser with dacs := tmod {} s.laser.dacs n f } }
def getFibre (n : Nat) (s : State) : Fibre := tget {} s.fibre n
def modFibre (n : Nat) (f : Fibre → Fibre) (s : State) : State := { s with fibre := tmod {} s.fibre n f }
def getExc (n : Nat) (s : State) : Exc := tget {} s.exc n
def modExc (n : Nat) (f : Exc → Exc) (s : State) : State := { s with exc := tmod {} s.exc n f }
def getChan (n : Nat) (s : State) : Channel := tget {} s.dma.channels n
def modChan (n : Nat) (f : Channel → Channel) (s : State) : State :=
  { s with dma := { s.dma with channels := tmod {} s.dma.channels n f } }
def getPort (n : Nat) (s : State) : Port := tget {} s.port n
def modPort (n : Nat) (f : Port → Port) (s : State) : State := { s with port := tmod {} s.port n f }
def getPip (n : Nat) (s : State) : Core := tget {} s.health.pips n
def modPip (n : Nat) (f : Core → Core) (s : State) : State :=
  { s with health := { s.health with pips := tmod {} s.health.pips n f } }
def getCurrant (n : Nat) (s : State) : Core := tget {} s.health.currants n
def modCurrant (n : Nat) (f : Core → Core) (s : State) : State :=
  { s with health := { s.health with currants := tmod {} s.health.currants n f } }

/-- Fold a state change over a list. -/
def each {α : Type} (xs : List α) (f : α → State → State) (s : State) : State := xs.foldl (fun s x => f x s) s

/-! ## Memory by location -/

/-- R297, R308: the 8-byte words of DRAM that a write of [a, a + n) replaces whole are no longer poisoned. -/
def unpoison (a n : Nat) (s : State) : State :=
  { s with memCtl := { s.memCtl with poisoned := s.memCtl.poisoned.filter fun w => !(decide (a ≤ w) && decide (w + 8 ≤ a + n)) } }

/-- Store bytes where a ring or record of the given LOCATION lies (Table 2-15): 0 and 1 host, 2 DRAM, 3 SRAM. -/
def storeAt (location addr : Nat) (bytes : List Byte) (s : State) : State :=
  if location < 2 then { s with host := writeBytes s.host addr bytes }
  else if location = 2 then unpoison addr bytes.length { s with dram := writeBytes s.dram addr bytes }
  else { s with sram := writeBytes s.sram addr bytes }

/-- A record written to a host address. -/
def toHost (addr : Nat) (bytes : List Byte) (s : State) : State := storeAt 0 addr bytes s

/-- Memory of zero bytes in [a, a + n) removed: zeroing a range. -/
def zeroRange (a n : Nat) (m : Mem) : Mem := m.filter fun c => decide (c.1 < a) || decide (a + n ≤ c.1)

/-! ## MSI-X (R295, R296) -/

/-- Send a message on a vector of a function (0 PF0, 1 PF1): pending when masked; none while the link is down or
after an FLR of PF1 until it is enabled again. -/
def sendMsi (function vector : Nat) (s : State) : State :=
  let key := 64 * function + vector
  if s.pcie.masked.contains key then
    if s.pcie.pendingVecs.contains key then s
    else { s with pcie := { s.pcie with pendingVecs := s.pcie.pendingVecs ++ [key] } }
  else if s.pcie.link && (function == 0 || s.pcie.pf1Enabled) then
    { s with pcie := { s.pcie with sent := tmod 0 s.pcie.sent key (· + 1) } }
  else s

/-- R296: rings of kinds 0 to 2 signal PF0, data rings PF1. -/
def ringFunction (r : Ring) : Nat := if r.kind == .data then 1 else 0

/-- The ring's message goes out; the entries counted so far are signalled. -/
def signalRing (n : Nat) (s : State) : State :=
  let r := getRing n s
  sendMsi (ringFunction r) r.msix (modRing n (fun r => { r with unsignalled := 0 }) s)

/-! ## Rings (R43, R46, R295) -/

/-- 2^k entries. -/
def ringSize (r : Ring) : Nat := 2 ^ r.log2

/-- R43: entries held. -/
def ringHeld (r : Ring) : Nat := (r.prod - r.cons).toNat

/-- R30, R317: the ring's function sends no messages now; what falls due waits until it does. -/
def ringStalled (r : Ring) (s : State) : Bool := !(s.pcie.link && (ringFunction r == 0 || s.pcie.pf1Enabled))

/-- R30, R317: a ring in host memory can be reached; while it cannot, its producers find it full. (DEDUCED, unsafe: log 58.) -/
def ringReach (r : Ring) (s : State) : Bool := decide (1 < r.location) || !ringStalled r s

/-- Whether Shatia may write one more entry. -/
def ringRoom (r : Ring) (s : State) : Bool := r.created && !r.stopped && decide (ringHeld r < ringSize r) && ringReach r s

/-- PHASE of the entry at the producer index (Table 2-17). -/
def ringPhase (r : Ring) : Bool := r.prod.toNat / ringSize r % 2 == 0

/-- Address of the entry with a given free-running index. -/
def entryAddr (r : Ring) (index : Nat) : Nat := r.base + r.entrySize * (index % ringSize r)

/-- R328: entries of the endpoint's completion and event rings go to the peer as they are written (DEDUCED, unsafe: log 50). -/
def endpointSend (n first count : Nat) (s : State) : State :=
  let e := s.endpoint
  match e.port with
  | none => s
  | some p =>
    if n = e.ring + 1 ∨ n = e.ring + 2 then
      let kind := if n = e.ring + 1 then 2 else 3
      let s := modRing n (fun r => { r with cons := r.prod }) s
      if (getPort p s).up then modPort p (fun p => { p with sent := p.sent + 1 })
        { s with endpoint := { e with out := e.out ++ [(kind, none, n, first, count)] } } else s
    else s

/-- R295: count published entries and send the message that falls due by count. -/
def publishMany (n count : Nat) (s : State) : State :=
  let first := (getRing n s).prod.toNat
  let s := endpointSend n first count <| modRing n (fun r => { r with
    prod := r.prod + BitVec.ofNat 16 count,
    firstUnsignalled := if r.unsignalled = 0 then s.dt else r.firstUnsignalled,
    unsignalled := r.unsignalled + count,
    published := if r.stream.isSome then r.published ++ List.replicate count s.dt else r.published }) s
  let r := getRing n s
  if decide (max 1 r.modCount ≤ r.unsignalled) && !ringStalled r s then signalRing n s else s

/-- Write one entry at the producer index and publish it. The caller has checked that there is room. -/
def publish (n : Nat) (bytes : List Byte) (s : State) : State :=
  let r := getRing n s
  publishMany n 1 (storeAt r.location (entryAddr r r.prod.toNat) bytes s)

/-! ## Events (Table 2-19, R46, R47, R362) -/

/-- DATA from fields given by entry offset, size and value. -/
def evData (fields : List (Nat × Nat × Nat)) : Nat :=
  (fields.map fun f => f.2.2 % 256 ^ f.2.1 * 256 ^ (f.1 - 16)).sum

/-- A field value that is a signed number of the given bytes. -/
def enc (size : Nat) (v : Int) : Nat := (v % (256 ^ size : Nat)).toNat

/-- A counter of the given bytes that saturates. -/
def sat (size v : Nat) : Nat := min v (256 ^ size - 1)

/-- The 32 bytes of an event in a ring. -/
def eventBytes (e : Event) (phase lost : Bool) (seq : Nat) : List Byte :=
  leBytes 2 e.code ++ leBytes 1 (b2n phase + 2 * b2n lost) ++ leBytes 1 e.severity ++ leBytes 2 e.unit ++
    leBytes 2 seq ++ leBytes 8 e.dt.toNat ++ leBytes 16 e.data

/-- R46: an event reaches one event ring, or is discarded there and counted by SEQ and LOST. -/
def writeEvent (e : Event) (n : Nat) (s : State) : State :=
  let r := getRing n s
  if ringRoom r s then
    modRing n (fun r => { r with seq := r.seq + 1, lost := false })
      (publish n (eventBytes e (ringPhase r) r.lost r.seq.toNat) s)
  else modRing n (fun r => { r with seq := r.seq + 1, lost := true }) s

/-- R47: the event rings that take an event of this code. -/
def takesEvent (code : Nat) (r : Ring) : Bool :=
  r.created && r.kind == .event && (r.nsMask == 0 || bit r.nsMask (code / 256))

/-- R47: write an event to every event ring that takes its namespace. -/
def deliverEvent (e : Event) (s : State) : State :=
  each ((s.rings.filter fun p => takesEvent e.code p.2).map (·.1)) (writeEvent e) s

/-- Post an event: at once while Korsyn runs, held during a steward outage (R362), not at all before READY. -/
def postEvent (e : Event) (s : State) : State :=
  if s.steward.running then deliverEvent e s
  else if s.steward.outage.isSome then
    if s.steward.held.length < 64 then { s with steward := { s.steward with held := s.steward.held ++ [e] } }
    else { s with steward := { s.steward with heldLost := true } }
  else s

/-- An event that occurs now; UNIT is the instance it names, or 0xFFFF (DESIGN CHOICE, unsafe: log 45). -/
def event (code severity unit : Nat) (fields : List (Nat × Nat × Nat)) (s : State) : State :=
  postEvent { code := code, severity := severity, unit := unit, dt := s.dt, data := evData fields } s

/-- An event with a DT of its own. -/
def eventAt (dt : DT) (code severity unit : Nat) (fields : List (Nat × Nat × Nat)) (s : State) : State :=
  postEvent { code := code, severity := severity, unit := unit, dt := dt, data := evData fields } s

/-! ## Completions (R46, Tables 2-17 and 2-18) -/

/-- Status codes of Table 2-18. -/
def stOk : Nat := 0
def stAbsent : Nat := 1
def stBusy : Nat := 2
def stConflict : Nat := 3
def stRefused : Nat := 4
def stLate : Nat := 5
def stBadArg : Nat := 6
def stNoSpare : Nat := 7
def stDenied : Nat := 8
def stFault : Nat := 9

/-- The 16 bytes of a completion. -/
def completionBytes (ref : CmdRef) (d : Done) (phase : Bool) : List Byte :=
  leBytes 4 ref.tag ++ leBytes 2 ref.opcode ++ leBytes 1 d.status ++ leBytes 1 d.reason ++
    leBytes 4 d.result ++ leBytes 2 ref.index ++ leBytes 1 (b2n phase) ++ leBytes 1 0

/-- R50: the one-member bunch of a direct command that has landed or aborted becomes FREE when the completion of the command
is posted. -/
def freeDirect (ref : CmdRef) (s : State) : State :=
  let gone := fun (b : Bunch) => decide (b.direct = some ref) && (b.state == .aborted || b.members.all (·.landed))
  { s with bunch := { s.bunch with table := s.bunch.table.filter fun b => !gone b.2 } }

/-- R46: completions of a command ring leave in ring order; one that finds its completion ring full waits. A quiet
command that ends with OK writes none (Table 2-16). -/
def flushCompletions (n : Nat) : Nat → State → State
  | 0, s => s
  | fuel + 1, s =>
    let r := getRing n s
    if !s.steward.running then s
    else match r.inflight with
    | ⟨ref, some d⟩ :: rest =>
      let pop := fun s => freeDirect ref (modRing n (fun r => { r with inflight := rest }) s)
      if d.status = 0 ∧ ref.quiet = true then flushCompletions n fuel (pop s)
      else
        let q := getRing r.pair s
        if ringRoom q s then
          flushCompletions n fuel (publish r.pair (completionBytes ref d (ringPhase q)) (pop s))
        else s
    | _ => s

/-- Mark a taken command as completed. -/
def markDone (ref : CmdRef) (d : Done) : List Inflight → List Inflight
  | [] => []
  | i :: rest => if i.ref = ref ∧ i.outcome = none then { i with outcome := some d } :: rest
    else i :: markDone ref d rest

/-- Complete a command. What ends while the steward is out completes after its restart (R361). -/
def complete (ref : CmdRef) (d : Done) (s : State) : State :=
  if !s.steward.running then s
  else
  let s := modRing ref.ring (fun r => { r with inflight := markDone ref d r.inflight }) s
  flushCompletions ref.ring (getRing ref.ring s).inflight.length s

/-- Complete with OK and a RESULT. -/
def ok (ref : CmdRef) (result : Nat) (s : State) : State := complete ref { status := stOk, result := result } s

/-- Complete with a status and a REASON. -/
def fail (ref : CmdRef) (status reason : Nat) (s : State) : State :=
  complete ref { status := status, reason := reason } s

/-- Complete a command if there is one waiting. -/
def completeOpt (ref : Option CmdRef) (d : Done) (s : State) : State :=
  match ref with
  | some r => complete r d s
  | none => s

/-- After the host has freed entries of a completion ring, the completions that wait for it leave. -/
def flushPaired (pair : Nat) (s : State) : State :=
  each ((s.rings.filter fun p => p.2.created && p.2.kind == .command && p.2.pair == pair).map (·.1))
    (fun n s => flushCompletions n (getRing n s).inflight.length s) s

/-- R30, R317: the link or PF1 is back: messages that fell due meanwhile go out, and completions that waited leave. -/
def resumeRings (s : State) : State :=
  let s := each ((s.rings.filter fun p => p.2.created && decide (0 < p.2.unsignalled) && decide (max 1 p.2.modCount ≤ p.2.unsignalled) &&
    !ringStalled p.2 s).map (·.1)) signalRing s
  each ((s.rings.filter fun p => p.2.created && p.2.kind == .command).map (·.1))
    (fun n s => flushCompletions n (getRing n s).inflight.length s) s

/-! ## Presence (R1, R3) -/

def rfPresent (n : Nat) (s : State) : Bool := decide (n < 4) && bit s.fuse.rf n
def orxPresent (n : Nat) (s : State) : Bool := decide (n < 4) && bit s.fuse.orx n
def dacPresent (n : Nat) (s : State) : Bool := decide (n < 2) && bit s.fuse.dacs n
def pipPresent (n : Nat) (s : State) : Bool := decide (n < 36) && bit s.fuse.pips n
def currantPresent (n : Nat) (s : State) : Bool := decide (n < 18) && bit s.fuse.currants n

/-- Present and not retired (R20, R48). -/
def rfHealthy (n : Nat) (s : State) : Bool := rfPresent n s && !bit s.health.rfRetired n
def orxHealthy (n : Nat) (s : State) : Bool := orxPresent n s && !bit s.health.orxRetired n
def dacHealthy (n : Nat) (s : State) : Bool := dacPresent n s && !bit s.health.dacsRetired n
def pipHealthy (n : Nat) (s : State) : Bool := pipPresent n s && (getPip n s).state != .retired
def currantHealthy (n : Nat) (s : State) : Bool := currantPresent n s && (getCurrant n s).state != .retired

/-- R14, R16: a fibre is there when an optical channel of its die is. -/
def fibrePresent (f : Nat) (s : State) : Bool := orxPresent (2 * f) s || orxPresent (2 * f + 1) s

/-- H of R20, and its like for currants. -/
def pipsHealthy (s : State) : Nat := ((List.range 36).filter fun n => pipHealthy n s).length
def currantsHealthy (s : State) : Nat := ((List.range 18).filter fun n => currantHealthy n s).length

/-- Bytes of DRAM fitted and usable (R1, R297). -/
def dramFitted (s : State) : Nat := 16 * 2 ^ (s.fuse.dram - 1) * 2 ^ 30
def dramUsable (s : State) : Nat := dramFitted s / 8 * 7

/-- R26: the end of what the host may reach: usable capacity without Korsyn's 512 MiB. -/
def hostDram (s : State) : Nat := dramUsable s - 536870912

/-! ## Laser and reset (R379, R388, R396) -/

/-- LASER_EN changes: launches that have not yet happened will find it so (R225 LASER_OFF, R239). -/
def laserSwitch (on : Bool) (s : State) : State :=
  let mark := fun (l : Launch) =>
    if dtLe s.dt l.dt then { l with flags := if on then l.flags &&& 0xFFFD else l.flags ||| 2 } else l
  each [0, 1] (fun f => modFibre f (fun f => { f with launches := f.launches.map mark }))
    { s with laser := { s.laser with en := on } }

/-- Drop LASER_EN and remember when (R236). -/
def laserCut (s : State) : State :=
  if s.laser.en then laserSwitch false { s with laser := { s.laser with cutAt := s.dt } } else s

/-- The life-cycle state the fuses give (R377): SERVICE is never fused. -/
def fusedLifeCycle (s : State) : LifeCycle := s.fuse.lifeCycle

/-- Table 19-5: what the key slot reads for a fused state. -/
def keySlotOf (l : LifeCycle) : KeySlot :=
  match l with
  | .manufacture => .empty
  | .retirn | .retired => .zeroised
  | _ => .held

/-- A device reset (R30, R379, R396): everything outside the stone domain takes its reset value, both memories are
zeroed, and the sequence of Table 2-2 begins at POWER or at WIPE_SRAM; that of a RETIRED part begins, and ends, at POWER
(R39, R396). What stays: DT, fuses, host memory, the PCIe link, the stone registers, pins driven from outside, a reset
hold (R385, R392: it ends by its own event), and the waiting commands. ALIGNED is cleared. (DESIGN CHOICE, unsafe: log 72.) -/
def deviceReset (fromPower : Bool) (s : State) : State :=
  let lc := fusedLifeCycle s
  let fresh := fromPower || lc == .retired || s.stone.hold != .none
  { State.reset with
    dt := s.dt
    fuse := s.fuse
    host := s.host
    freeCount := s.freeCount
    pending := s.pending
    pcie := { s.pcie with windowBase := 0, stalled := [] }
    clock := { refOk := s.clock.refOk, fifths := s.clock.fifths }
    laser := { permit := s.laser.permit, permitAt := s.laser.permitAt }
    disp := { sink := s.disp.sink }
    stone := { s.stone with
      stage := if fresh then .power else .wipeSram
      src := .none, error := 0, ifaceLevel := 0, dramWiped := false, sramWiped := false
      fusesValid := !fresh
      xtalB := !fresh
      lifeCycle := lc
      idKey := if fresh then s.stone.idKey else if keySlotOf lc = .zeroised then .zeroised else s.stone.idKey
      scanEn := !fresh && lc == .retirn
      nonce := none, seqStart := if s.stone.hold = .none then s.dt else s.stone.seqStart, imageLen := 0, runSec := 0, dramFill := false
      restoring := false } }

end Sys2Proof.Machine
end

