-- ==== Sys2Proof/Machine/Pll.lean ====
section
/-! DEFINITION. The lock of an ADPLL with its hop cache (R66, R70). -/

namespace Sys2Proof.Machine

/-- Die temperature in 0.01 C, as the core sensor reads it. (PRESUMED, unsafe: log 67.) -/
def dieTemp (s : State) : Int := tget 2500 s.health.temps 0

/-- R66: an entry of the cache serves a hop for a reference and a target at this temperature. -/
def hopFits (xtal : Bool) (target : Nat) (temp : Int) (e : HopEntry) : Bool :=
  e.xtal == xtal && e.target == target && decide (e.centi - temp ≤ 1000) && decide (temp - e.centi ≤ 1000)

/-- R66: of the entries that serve, the one stored nearest the present temperature. -/
def hopEntry (c : Pll) (xtal : Bool) (temp : Int) : Option HopEntry :=
  (c.cache.filter (hopFits xtal c.target temp)).foldl (fun best e => match best with
    | none => some e
    | some b => if (e.centi - temp).natAbs < (b.centi - temp).natAbs then some e else some b) none

/-- R66: a lock to the reference in use: by hop when mode CACHE has an entry, otherwise by band search, which writes
the cache. Recently used entries stand first. -/
def pllLock (n : Nat) (s : State) : State :=
  let temp := dieTemp s
  modPll n (fun c =>
    if c.hopNext then { c with locked := true, stopped := false, hop := true, hopNext := false }
    else
    match (if c.cacheMode then hopEntry c c.xtal temp else none) with
    | some e => { c with locked := true, stopped := false, hop := true, cache := e :: c.cache.erase e }
    | none =>
      let e : HopEntry := { xtal := c.xtal, target := c.target, centi := temp }
      { c with locked := true, stopped := false, hop := false
               cache := (e :: c.cache.filter fun o => !hopFits c.xtal c.target temp o).take 16 }) s

/-- R68, R69: the ADPLL begins to lock to a frequency (a domain start of Table 19-2, a DRAM point change, R72): its
output is gated, and its tree runs on bypass. During an absence the lock under way takes the new frequency. -/
def pllBegin (n target : Nat) (s : State) : State :=
  let c := getPll n s
  if c.absent.isSome then modPll n (fun c => { c with target := target }) s
  else if c.locked && c.target == target then s
  else modPll n (fun c => { c with target := target, locked := false, stopped := false, bypass := n != 0, relocking := true }) s

/-- R77: at a lock of ADPLL-S, DT steps forward by 0 to 1,023 tk; not at all while ALIGNED is kept. -/
def dtStep (step : Nat) (s : State) : State := if s.clock.aligned then s else { s with dt := dtAdd s.dt (step % 1024) }

/-- The event that ends a start or a change is there (a domain has started, a DFS sequence is over): the ADPLL has
locked, and its output has returned. The step of DT is measured by the hardware (DESIGN CHOICE, safe: log 4). A lock to
end an absence has events of its own. -/
def pllRun (n target : Nat) (s : State) : State :=
  let s := pllBegin n target s
  let c := getPll n s
  if c.absent.isSome then s
  else
    let s := if c.locked then s
      else
        let s := pllLock n s
        if n = 0 then let v := draw s; dtStep v.1 v.2 else s
    modPll n (fun c => { c with bypass := false, relocking := false }) s

/-- The ADPLL is stopped. -/
def pllStop (n : Nat) (s : State) : State :=
  modPll n (fun c => { c with locked := false, stopped := true, bypass := false, absent := none, relocking := false, hopNext := false }) s

end Sys2Proof.Machine
end

