-- ==== Sys2Proof/Machine/Numeric.lean ====
section
/-! DEFINITION. The arithmetic of the data plane, in exact integers: the gain of R89, the mixer and the half-band filters of
R106 to R111, the windows and the transform of R129 to R131, the correlation of R146. -/

namespace Sys2Proof.Machine

/-! ## The unit circle -/

/-- One, in the units of the circle's points. -/
def unitOne : Int := 2 ^ 80

/-- Product of complex numbers, and of two points of the circle in its units. -/
def cmul (a b : Int × Int) : Int × Int := (a.1 * b.1 - a.2 * b.2, a.1 * b.2 + a.2 * b.1)
def circMul (a b : Int × Int) : Int × Int := let z := cmul a b; (roundEven z.1 (2 ^ 80), roundEven z.2 (2 ^ 80))

/-- cos and sin of 2 pi / 2^j, by halving the angle, in units of 2^-80. (DEDUCED, unsafe: log 81.) -/
def unitRoot : Nat → Int × Int
  | 0 => (unitOne, 0)
  | 1 => (-unitOne, 0)
  | 2 => (0, unitOne)
  | j + 3 =>
    let z := unitRoot (j + 2)
    let c : Int := isqrt ((unitOne + z.1).toNat * 2 ^ 79)
    (c, roundEven (z.2 * unitOne) (2 * c).toNat)

/-- cos and sin of 2 pi i / 2^l: the product of the roots that the bits of i name. -/
def circle (l i : Nat) : Int × Int :=
  ((List.range l).filter fun b => i.testBit b).foldl (fun z b => circMul z (unitRoot (l - b))) (unitOne, 0)

/-- A bounded error of a free value. -/
def bounded (limit : Int) (e : Int × Int) : Int × Int := (clamp (-limit) limit e.1, clamp (-limit) limit e.2)

/-! ## Digital gain (R89) -/

/-- Largest r with r^512 at most v, bit by bit from bit n down. -/
def root512 (v : Nat) : Nat → Nat → Nat
  | 0, r => if (r + 1) ^ 512 ≤ v then r + 1 else r
  | n + 1, r => root512 v n (if (r + 2 ^ (n + 1)) ^ 512 ≤ v then r + 2 ^ (n + 1) else r)

/-- Floor of a 2^(k / 512). -/
def gainFloor (a : Nat) (k : Int) : Nat :=
  root512 (if 0 ≤ k then a ^ 512 * 2 ^ k.toNat else a ^ 512 / 2 ^ (-k).toNat) 20 0

/-- R89: a code times 2^(k / 512), as a 20-bit signed word; how an inexact product is rounded is free (DESIGN CHOICE, safe: log 80). -/
def gained (code k : Int) : Int :=
  if k = 0 then code
  else
    let a := gainFloor code.natAbs k
    let v : Int := if Config.gainUp code k && decide (code ≠ 0) then a + 1 else a
    clamp (-(2 ^ 19)) (2 ^ 19 - 1) (if code < 0 then -v else v)

/-! ## Mixer and half-band chain (R106, R109 to R111, R119, R122) -/

/-- R106: cos and sin of the mixer for the upper 20 bits of acc, in units of 2^-30: exact but for a bounded error, which keeps
its spurs 110 dB down (DESIGN CHOICE, safe: log 80). -/
def mixerPoint (phase : Nat) : Int × Int :=
  let z := circle 20 phase
  let e := bounded 1024 (Config.mixerError phase)
  (roundEven z.1 (2 ^ 50) + e.1, roundEven z.2 (2 ^ 50) + e.2)

/-- R106: the phase accumulator at an index of the path's sample clock. -/
def mixerAcc (f phi index : Nat) : Nat := (f * index + phi) % 2 ^ 48

/-- R106: a sample times exp(-j 2 pi acc / 2^48), in units of 2^-30. -/
def mixed (sample : Int) (acc : Nat) : Int × Int :=
  let z := mixerPoint (acc / 2 ^ 28)
  (sample * z.1, -(sample * z.2))

/-- The taps of a linear-phase half-band filter of the given half length, in units of 2^-24: the centre is 1/2, the other even
offsets are 0, the odd ones are the part's own (DESIGN CHOICE, safe: log 80). -/
def halfBandTaps (half : Nat) (tap : Nat → Int) : List Int :=
  (List.range (2 * half + 1)).map fun i =>
    let o := ((i : Int) - half).natAbs
    if o = 0 then 2 ^ 23 else if o % 2 = 0 then 0 else tap o

/-- R109: the first stage and the further stages. -/
def firstTaps : List Int := halfBandTaps 31 Config.tap63
def stageTaps : List Int := halfBandTaps 23 Config.tap47

/-- The taps against the samples that stand at the head of a list. -/
def dot (taps : List Int) (xs : List (Int × Int)) : Int × Int :=
  ((taps.zipWith (fun c x => c * x.1) xs).sum, (taps.zipWith (fun c x => c * x.2) xs).sum)

/-- One stage that halves the rate: so many outputs. -/
def decimate (taps : List Int) : Nat → List (Int × Int) → List (Int × Int)
  | 0, _ => []
  | n + 1, xs => dot taps xs :: decimate taps n (xs.drop 2)

/-- Inputs a run of stages needs for so many outputs. -/
def stageInputs : Nat → Nat → Nat
  | 0, count => count
  | n + 1, count => 2 * (stageInputs n count - 1) + 47

/-- R110: the further stages, for so many outputs. -/
def stages : Nat → Nat → List (Int × Int) → List (Int × Int)
  | 0, _, xs => xs
  | n + 1, count, xs => stages n count (decimate stageTaps (stageInputs n count) xs)

/-- R109, R110: the chain of n stages behind the first, from mixed samples, in units of 2^-(30 + 24 (n + 1)). -/
def chain (n count : Nat) (xs : List (Int × Int)) : List (Int × Int) :=
  stages n count (decimate firstTaps (stageInputs n count) xs)

/-- R111: a scaled output, rounded to nearest with ties to even: gain times v / 2^scale. -/
def scaled (gain : Int) (scale : Nat) (v : Int × Int) : Int × Int :=
  (roundEven (gain * v.1) (2 ^ scale), roundEven (gain * v.2) (2 ^ scale))

/-! ## Windows and transform (R129 to R131, R144) -/

/-- Table 7-1: the coefficients in units of 10^-5. -/
def windowCoefs (code : Nat) : List Int :=
  match code with
  | 0 => [100000]
  | 1 => [50000, 50000]
  | 2 => [54000, 46000]
  | 3 => [35875, 48829, 14128, 1168]
  | _ => [100000, 193000, 129000, 38800, 2800]

/-- R129: sample i of the window of 2^l samples as stored, in units of 2^-22: the sum over its largest value, which is the sum
of the coefficients. -/
def windowSample (code l i : Nat) : Int :=
  let a := windowCoefs code
  let w := (a.zipIdx.map fun c => (if c.2 % 2 = 0 then c.1 else -c.1) * (circle l (c.2 * i % 2 ^ l)).1).sum
  roundEven (w * 2 ^ 22) (a.sum * unitOne).toNat

/-- The stored window. -/
def storedWindow (code l : Nat) : List Int := (List.range (2 ^ l)).map (windowSample code l)

/-- R130: X_k of a windowed frame of 2^l samples for all bins, in units of 2^-80 of theirs. -/
def transform (l : Nat) (xs : List (Int × Int)) : List (Int × Int) :=
  (List.range (2 ^ l)).map fun k =>
    let terms := xs.zipIdx.map fun x =>
      let z := circle l ((((k : Int) - 2 ^ (l - 1)) * x.2) % 2 ^ l).toNat
      cmul x.1 (z.1, -z.2)
    ((terms.map (·.1)).sum, (terms.map (·.2)).sum)

/-! ## Angles (R268) -/

/-- The bits of the angle of a value in the upper half plane, in units of 2 pi / 2^16, from bit n down. -/
def angleBits (z : Int × Int) : Nat → Nat → Nat
  | 0, r => r
  | n + 1, r =>
    let u := circle 16 (r + 2 ^ n)
    angleBits z n (if 0 ≤ u.1 * z.2 - u.2 * z.1 then r + 2 ^ n else r)

/-- Floor of the angle of a value in [0, 2 pi) in units of 2 pi / 2^16. -/
def angleFloor (z : Int × Int) : Nat :=
  if z.2 < 0 ∨ (z.2 = 0 ∧ z.1 < 0) then 2 ^ 15 + angleBits (-z.1, -z.2) 15 0 else angleBits z 15 0

/-- Energy of a list of complex values. -/
def energy (xs : List (Int × Int)) : Nat := (xs.map fun x => x.1.natAbs ^ 2 + x.2.natAbs ^ 2).sum

/-- The largest component. -/
def peakOf (xs : List (Int × Int)) : Nat := (xs.map fun x => max x.1.natAbs x.2.natAbs).foldl max 0

/-- The block exponent with which every component, its rounding noise included, fits a signed mantissa of 24 bits. -/
def blockExponent (xs : List (Int × Int)) : Nat := Nat.log2 (peakOf xs + peakOf xs / 2 ^ 20) - 22

/-- R131: 24-bit mantissas under one block exponent. The noise of the transform is free, but at least 40 dy below the largest
bin: at most 2 units beside the rounding (DESIGN CHOICE, safe: log 80). -/
def blockFloat (noise : Nat → Int × Int) (xs : List (Int × Int)) : List (Int × Int) × Nat :=
  let e := blockExponent xs
  if peakOf xs = 0 then (xs, 0)
  else
    (xs.zipIdx.map fun x =>
      let n := bounded 2 (noise x.2)
      (roundEven x.1.1 (2 ^ e) + n.1, roundEven x.1.2 (2 ^ e) + n.2), e)

/-- What a pip hands over for one frame at full precision (R130, R131, R144): bin k has the normalised power
|X_k / (N CG)|^2 = power[k] / den in squared DDC output units; et, ef and eFull are E_t, E_f and E_fs in one common unit. -/
structure FrameData where
  power : List Nat
  den : Nat
  et : Nat
  ef : Nat
  eFull : Nat
  deriving DecidableEq, Repr

/-- R129 to R131, R144: a frame of 2^l samples under a window. What a pip at fault adds to X_k, in units of 2^-22, is in upset.
(DESIGN CHOICE, safe: log 80.) -/
def frameData (code l : Nat) (noise : Nat → Int × Int) (upset : List (Int × Int)) (xs : List (Int × Int)) : FrameData :=
  let w := storedWindow code l
  let wx := xs.zipWith (fun x v => (v * x.1, v * x.2)) w
  let bad := (transform l wx).zipIdx.map fun x =>
    let u := upset.getD x.2 (0, 0)
    (x.1.1 + u.1 * unitOne, x.1.2 + u.2 * unitOne)
  let b := blockFloat noise bad
  { power := b.1.map fun x => (x.1.natAbs ^ 2 + x.2.natAbs ^ 2) * 4 ^ b.2
    den := (w.sum.natAbs * 2 ^ 80) ^ 2
    et := 2 ^ l * energy wx * 2 ^ 160
    ef := energy bad
    eFull := 2 ^ l * energy (w.map fun v => (v * 32768, 0)) * 2 ^ 160 }

/-- R141: a frame whose replay data were lost reads zero power in every bin. -/
def zeroFrame (l : Nat) : FrameData := { power := List.replicate (2 ^ l) 0, den := 1, et := 0, ef := 0, eFull := 0 }

/-- R144: Parseval's relation fails. -/
def parsevalFails (f : FrameData) : Bool :=
  decide (2 ^ 16 * f.et + f.eFull < ((f.ef : Int) - f.et).natAbs * 2 ^ 30)

end Sys2Proof.Machine
end

