-- ==== Sys2Proof/Machine/Operands.lean ====
section
/-! DEFINITION. The command entry (Table 2-16): its fields, the checks every command shares (R13, R42, R398), and
taking a command from its ring (R46). -/

namespace Sys2Proof.Machine

/-- Field of a given size at a byte offset of the entry, little-endian (R12). -/
def fld (e : Entry) (off size : Nat) : Nat := e.toNat / 256 ^ off % 256 ^ size

/-- A signed field. -/
def fldInt (e : Entry) (off size : Nat) : Int := signed (8 * size) (fld e off size)

/-- A taken command as its meaning sees it. -/
structure Ctx where
  ref : CmdRef
  master : Master
  t : DT
  e : Entry
  deriving DecidableEq, Repr

def Ctx.opcode (c : Ctx) : Nat := fld c.e 0 2
def Ctx.inBunch (c : Ctx) : Bool := bit (fld c.e 2 2) 0
def Ctx.bunchId (c : Ctx) : Nat := fld c.e 8 2
def Ctx.unit (c : Ctx) : Nat := fld c.e 10 2
/-- Unsigned fields of 1, 2, 4 and 8 bytes. -/
def Ctx.u8 (c : Ctx) (off : Nat) : Nat := fld c.e off 1
def Ctx.u16 (c : Ctx) (off : Nat) : Nat := fld c.e off 2
def Ctx.u32 (c : Ctx) (off : Nat) : Nat := fld c.e off 4
def Ctx.u64 (c : Ctx) (off : Nat) : Nat := fld c.e off 8
/-- Signed fields. -/
def Ctx.i16 (c : Ctx) (off : Nat) : Int := fldInt c.e off 2
def Ctx.i32 (c : Ctx) (off : Nat) : Int := fldInt c.e off 4
/-- An 8-byte field as a DT. -/
def Ctx.dt (c : Ctx) (off : Nat) : DT := BitVec.ofNat 64 (c.u64 off)

/-- A list of checks: an offset, and whether the byte or field there is wrong. -/
abbrev Checks := List (Nat × Bool)

/-- R398: the lowest offset that is wrong. (DEDUCED, unsafe: log 16.) -/
def badOffset (cs : Checks) : Option Nat :=
  cs.foldl (fun best c => if c.2 then some (match best with | some b => min b c.1 | none => c.1) else best) none

/-- R13: reserved bytes from one offset up to another. -/
def reserved (e : Entry) (first last : Nat) : Checks :=
  (List.range (last - first)).map fun i => (first + i, fld e (first + i) 1 != 0)

/-- R398: reserved bits of a field, reported at the byte that holds them: size bytes, bits that may be set. -/
def reservedBits (e : Entry) (off size allowed : Nat) : Checks :=
  (List.range size).map fun i => (off + i, fld e (off + i) 1 != fld e (off + i) 1 &&& (allowed / 256 ^ i % 256))

/-- What the UNIT field of a command must hold: 0xFFFF, or a number below a bound. -/
inductive UnitRule where
  | none
  | below (n : Nat)
  | free
  deriving DecidableEq, Repr

/-- Whether a UNIT breaks its rule. (DEDUCED, safe: log 15.) -/
def unitWrong (r : UnitRule) (unit : Nat) : Bool :=
  match r with
  | .none => unit != 0xFFFF
  | .below n => decide (n ≤ unit)
  | .free => false

/-- The checks on the envelope (Table 2-16): reserved FLAGS, FLAGS[0] on a command that is no bunch member (DEDUCED, safe: log 12),
BUNCH_ID, UNIT and bytes 12 to 15. -/
def envelope (member : Bool) (r : UnitRule) (c : Ctx) : Checks :=
  [(2, fld c.e 2 1 / 4 != 0 || (c.inBunch && !member)), (3, fld c.e 3 1 != 0),
   (8, !c.inBunch && c.bunchId != 0xFFFF), (10, unitWrong r c.unit)] ++ reserved c.e 12 16

/-- R46: whether Korsyn could take a command of a ring: it runs and takes commands, the ring is a created command
ring that holds one, host memory can be reached where it lies there (R30), and its completion ring is not full. -/
def takeable (n : Nat) (s : State) : Bool :=
  let r := getRing n s
  s.steward.running && !s.steward.closed && r.created && r.kind == .command && !r.stopped && (r.location != 0 || s.pcie.link) &&
    decide (r.prod ≠ r.cons) && ringRoom (getRing r.pair s) s

/-- R46: the command rings in the order in which Korsyn's passes visit them after the ring served last. -/
def servedNext (s : State) : Option Nat :=
  let due := (s.rings.map (·.1)).filter fun n => takeable n s
  (due.find? fun n => decide (s.steward.lastRing < n)).or due.head?

/-- R46: Korsyn takes the next command of a ring when the round-robin comes to it. (DEDUCED, safe: log 71.) -/
def canTake (n : Nat) (s : State) : Bool := takeable n s && servedNext s == some n

/-- R46: the round-robin stands at a ring. -/
def served (n : Nat) (s : State) : State := { s with steward := { s.steward with lastRing := n } }

/-- Take a command of opcode op from its ring and hand it on; an entry with another opcode completes with BADARG,
REASON 0 (R42). With nothing to take, only time passes (DESIGN CHOICE, unsafe: log 9). -/
def takeCommand (op : Nat) (go : Ctx → State → State) (c : Cmd) (s : State) : State :=
  let s := advance c.t s
  if canTake c.ring s then
    let r := getRing c.ring s
    let ref : CmdRef := { ring := c.ring, index := r.cons.toNat, tag := fld c.entry 4 4,
                          opcode := fld c.entry 0 2, quiet := bit (fld c.entry 2 2) 1 }
    let s := modRing c.ring (fun r => { r with cons := r.cons + 1, inflight := r.inflight ++ [⟨ref, none⟩] }) (served c.ring s)
    if fld c.entry 0 2 = op then go { ref := ref, master := r.master, t := s.dt, e := c.entry } s
    else fail ref stBadArg 0 s
  else s

/-- A command that is no bunch member: its own checks join the envelope's, and the lowest wrong offset is the REASON. (DEDUCED, unsafe: log 13.) -/
def plainCommand (op : Nat) (r : UnitRule) (wrong : Ctx → State → Checks) (go : Ctx → State → State)
    (c : Cmd) (s : State) : State :=
  takeCommand op (fun x s =>
    match badOffset (envelope false r x ++ wrong x s) with
    | some off => fail x.ref stBadArg off s
    | none => go x s) c s

/-- The REASON that names a master (Table 2-18). -/
def masterCode : Master → Nat
  | .pf0 => 1
  | .ethernet => 2
  | .scheduled => 3

/-- The code of LC_STATE.STATE (Table 2-8). -/
def lcCode : LifeCycle → Nat
  | .manufacture => 0
  | .secured => 1
  | .service => 2
  | .retirn => 3
  | .retired => 4

/-- A command that only PF0 may send completes with DENIED from elsewhere (R328, R364, R371). -/
def pf0Only (go : Ctx → State → State) (x : Ctx) (s : State) : State :=
  if x.master = .pf0 then go x s else fail x.ref stDenied (lcCode s.stone.lifeCycle) s

end Sys2Proof.Machine
end

