-- ==== Sys2Proof/Machine/Rf.lean ====
section
/-! DEFINITION. The RF channels (05_rf_front_end.md): range state, pad endurance, groups and their flags, slice
rotation. -/

namespace Sys2Proof.Machine

/-! ## Clocks the data plane needs (R73) -/

/-- An ADPLL's gated output serves its tree: it has locked and its output has returned (R68). -/
def pllServes (n : Nat) (s : State) : Bool := (getPll n s).locked && (getPll n s).absent.isNone && !(getPll n s).relocking

/-- R73: groups are produced and processed only while ADPLL-S and ADPLL-F are not absent. A hop of ADPLL-F to another
point (R72) is no absence: Korsyn discards the one trace that spans it. -/
def planeRuns (s : State) : Bool := pllServes 0 s && !(getPll 1 s).stopped && (getPll 1 s).absent.isNone

/-- R73: ADPLL-S or ADPLL-F is absent. -/
def planeAbsent (s : State) : Bool := (getPll 0 s).absent.isSome || (getPll 1 s).absent.isSome

/-! ## Range state (R87 to R92) -/

/-- R89: the compensation in force on a channel. -/
def rfK (c : RfChan) : Int := compensation c.pad c.atten c.padRef c.attenRef

/-- Table 5-7: range state byte, [5] pad, [4:0] attenuation. -/
def rangeByte (pad : Bool) (atten : Nat) : Nat := atten % 32 + 32 * b2n pad

/-- Range state byte of a channel, 256 times that of its reference added. -/
def rangeWord (c : RfChan) : Nat := rangeByte c.pad c.atten + 256 * rangeByte c.padRef c.attenRef

/-- The range word in force on a channel at a DT, and its two bytes. -/
def rangeWordAt (ch t : Nat) (s : State) : Nat :=
  match (getRf ch s).history.find? fun e => decide (e.1.toNat ≤ t) with
  | some e => e.2
  | none => rangeWord (getRf ch s)
def rangeAt (ch t : Nat) (s : State) : Nat := rangeWordAt ch t s % 256
def refAt (ch t : Nat) (s : State) : Nat := rangeWordAt ch t s / 256

/-- R87: full scale of a range state byte. -/
def byteScale (b : Nat) : Int := fullScale (bit b 5) (b % 32)

/-- The range state of a channel that holds from now on. -/
def rangeNote (ch : Nat) (s : State) : State :=
  modRf ch (fun c => { c with history := (s.dt, rangeWord c) :: c.history.take 255 }) s

/-- R105: the user delay of a channel at a DT. -/
def delayAt (ch t : Nat) (s : State) : Int :=
  match (getRf ch s).delays.find? fun e => decide (e.1.toNat ≤ t) with
  | some e => e.2
  | none => (getRf ch s).delayTk

/-- R105: the port-referred DT. (PRESUMED, safe: log 5.) -/
def portDt (ch : Nat) (t : Nat) (s : State) : DT :=
  BitVec.ofInt 64 ((t : Int) - Config.factoryDelay ch - delayAt ch t s)

/-- R93: the burned OTP bits 1 to 100 of a channel, how many they are, and the floor they stand for. -/
def otpBurned (ch k : Nat) (s : State) : Bool := bit (tget 0 s.fuse.padBits ch) (k - 1)
def otpBits (ch : Nat) (s : State) : Nat := ((List.range 100).filter fun i => otpBurned ch (i + 1) s).length
def otpFloor (ch : Nat) (s : State) : Nat := otpBits ch s * 10000000

/-- R93: a count at a whole multiple k x 10^7 makes the burn of bit k due, unless it is burned. -/
def burnDue (ch : Nat) (s : State) : State :=
  let n := (getRf ch s).padCount
  let k := n / 10000000
  if n % 10000000 == 0 && decide (1 ≤ k) && decide (k ≤ 100) && !otpBurned ch k s then
    modRf ch (fun c => { c with burning := true, burnBit := k }) s
  else s

/-- R93, R95: one pad change is counted; a count that passes a wear threshold posts EV_RF_PAD_WEAR (DESIGN CHOICE, unsafe:
log 14). -/
def padChange (ch : Nat) (s : State) : State :=
  let n := (getRf ch s).padCount + 1
  let s := burnDue ch (modRf ch (fun c => { c with pad := !c.pad, padCount := n, padMoved := true }) s)
  if n = 900000001 ∨ (900000000 < n ∧ n % 10000000 = 0) then
    event 0x0602 (if n < 1000000000 then 1 else 2) ch [(16, 8, n), (24, 1, otpBits ch s)] s
  else s

/-- R88, R90 to R92: an RF.SET_RANGE takes effect at the group that starts now; one that leaves the pad unchanged where it
was staged leaves it here. On a channel without a personality it is held as the power-up state. RANGING follows when the
attenuation or k changes, PAD_SETTLE when the pad does. -/
def rangeLand (ch : Nat) (pad : Bool) (atten : Nat) (setRef moves : Bool) (s : State) : State :=
  let c := getRf ch s
  if c.powered && !c.returnPending then
    let move := moves && c.pad != pad
    let s := if move then padChange ch s else s
    let c' : RfChan := { getRf ch s with
      pad := if moves then pad else c.pad, atten := atten
      padRef := if setRef then pad else c.padRef
      attenRef := if setRef then atten else c.attenRef }
    let step := c.atten != atten || rfK c != rfK c'
    let later := fun (old : DT) (n : Nat) => if dtLe (dtAdd s.dt n) old then old else dtAdd s.dt n
    rangeNote ch <| modRf ch (fun _ => { c' with
      rangingUntil := if move then later c.rangingUntil 1228800
                      else if step then later c.rangingUntil 128 else c.rangingUntil
      settleUntil := if move then dtAdd s.dt 1228800 else c.settleUntil }) s
  else modRf ch (fun c => { c with held := some (pad, atten) }) s

/-- R92, R93: whether a range member may land now: one that moves the pad waits for the settling interval and for an
OTP burn. -/
def rangeMayLand (ch : Nat) (moves : Bool) (s : State) : Bool :=
  let c := getRf ch s
  !c.powered || c.returnPending || !moves || (dtLe c.settleUntil s.dt && !c.burning)

/-- R91, R93: the pad of a powered channel moves to a state, and settles. -/
def padMove (ch : Nat) (s : State) : State :=
  let s := padChange ch s
  modRf ch (fun c => { c with rangingUntil := dtAdd s.dt 1228800, settleUntil := dtAdd s.dt 1228800 }) s

/-- R88, R89, R96, R117: channel power-up when its personality is admitted: the held state or (1, 31), which becomes
the reference; 256 invalid groups; slice rotation afresh, the slices that are left in ascending order. A pad move waits for
an OTP burn that is due or running; a channel that waits for one to power down stays up. (DESIGN CHOICE, unsafe: logs 14, 79.) -/
def rfPowerUp (ch : Nat) (s : State) : State :=
  let c := getRf ch s
  if c.powered && !c.returnPending then s
  else
    let st := c.held.getD (true, 31)
    let move := c.pad != st.1
    let s := if move && !c.burning then padMove ch s else s
    rangeNote ch <| modRf ch (fun c => { c with
      powered := true, pad := if move && c.burning then c.pad else st.1, atten := st.2, padRef := st.1, attenRef := st.2
      held := none, padTarget := if move && c.burning then some st.1 else none
      invalidLeft := 256, recovery := 0, overdrive := false, overdriveUntil := 0, swapDue := 0, input := []
      positions := (List.range 17).filter fun i => decide (i < 16) && !c.retired.contains i || i == 16 && c.retired.any (· < 16)
      spare := if c.retired.isEmpty then some 16 else none
      nextPos := 0, returnPending := false, flagged := [] }) s

/-- The pad rests at p = 1 and the channel is unpowered (R88). -/
def rfPowerDown (ch : Nat) (s : State) : State :=
  modRf ch (fun c => { c with powered := false, atten := 31, padRef := true, attenRef := 31, held := none,
                              padTarget := none, returnPending := false }) s

/-- R88: the range state returns to (1, 31) when the personality stops; the pad moves back, counted, before
power-down, and waits for an OTP burn. -/
def rfStop (ch : Nat) (s : State) : State :=
  let c := getRf ch s
  if !c.powered then modRf ch (fun c => { c with held := none }) s
  else if c.pad then rfPowerDown ch s
  else if c.burning then modRf ch (fun c => { c with returnPending := true, atten := 31, held := none, padTarget := none }) s
  else rfPowerDown ch (padChange ch s)

/-! ## Groups (R98 to R103) -/

/-- RF0 with RF1, RF2 with RF3 (R14). -/
def partner (ch : Nat) : Nat := if ch % 2 = 0 then ch + 1 else ch - 1

/-- Group flags as the model lists them: Table 5-5 bits 6 OVR, 8 RANGING, 9 PAD_SETTLE, and bit 10 for VALID = 0. -/
def gOvr : Nat := 6
def gRanging : Nat := 8
def gSettle : Nat := 9
def gInvalid : Nat := 10

/-- For how many ticks the groups behind are kept: the longest support and delay of a down-converter path (Table 6-1). -/
def keptTicks : Nat := 16777216

/-- A channel has a group with the given flag whose first sample lies in [from, to]. -/
def hasFlag (flagged : List (DT × Nat)) (b : Nat) (lo hi : Nat) : Bool :=
  flagged.any fun g => bit g.2 b && decide (lo ≤ g.1.toNat) && decide (g.1.toNat ≤ hi)

/-- R101: NEIGHBOUR_OVR of the group at a DT: the partner overloaded among groups n - 31 to n. -/
def neighbourAt (ch : Nat) (t : Nat) (s : State) : Bool := hasFlag (getRf (partner ch) s).flagged gOvr (t - 1984) t

/-- Index of the last clipped sample of a group (R99). -/
def lastClip (codes : List Int) : Option Nat :=
  (codes.zipIdx.filter fun p => p.1 == 2047 || p.1 == -2048).getLast?.map (·.2)

/-- Samples of the 31-sample recovery left after a group of the given length (R99). -/
def recoveryAfter (len : Nat) (codes : List Int) (before : Nat) : Nat :=
  match lastClip codes with
  | some i => i + 31 - (len - 1)
  | none => before - len

/-- Sideband of Table 5-5. -/
def sidebandWord (atten : Nat) (pad ovr neighbour ranging settle valid : Bool) : Nat :=
  atten % 32 + 32 * b2n pad + 64 * b2n ovr + 128 * b2n neighbour + 256 * b2n ranging + 512 * b2n settle + 1024 * b2n valid

/-- R103: the group at a DT carries OVR: the overload event at the first OVR group after a quiet second. -/
def overloadReport (ch : Nat) (t : DT) (s : State) : State :=
  let c := getRf ch s
  let quiet := match c.lastOvr with
    | none => true
    | some d => decide (tkS ≤ dtSub t d)
  let s' := modRf ch (fun c => { c with lastOvr := some t, ovrRun := if quiet then 1 else c.ovrRun + 1,
                                        ovrGroups := satAdd (2 ^ 64 - 1) c.ovrGroups 1 }) s
  if quiet then event 0x0601 1 ch [(16, 8, t.toNat), (24, 4, sat 4 c.ovrRun)] s' else s'

/-- R99 to R101: the last group of a channel carries OVR: its sideband, its entry among the flagged groups, and the
partner's group at the same DT. -/
def markOvr (ch : Nat) (t : DT) (s : State) : State :=
  let s := modRf ch (fun c => { c with
    sideband := c.sideband ||| 0x40
    flagged := match c.flagged with
      | g :: rest => if g.1 = t then (t, g.2 ||| 64) :: rest else (t, 64) :: g :: rest
      | [] => [(t, 64)] }) s
  if (getRf (partner ch) s).lastGroup = some t then
    modRf (partner ch) (fun c => { c with sideband := c.sideband ||| 0x80 }) s
  else s

/-- R89, R98 to R103: the group that starts now arrives with its codes; its samples are scaled by the compensation in force,
its sideband is formed and its flags kept for the down-converter. -/
def groupArrive (ch : Nat) (codes : List Int) (s : State) : State :=
  let c := getRf ch s
  let ovr := (lastClip codes).isSome || decide (0 < c.recovery) || c.overdrive || decide (s.dt.toNat < c.overdriveUntil.toNat)
  let ranging := decide (s.dt.toNat < c.rangingUntil.toNat)
  let settle := decide (s.dt.toNat < c.settleUntil.toNat)
  let valid := c.invalidLeft == 0
  let word := sidebandWord c.atten c.pad ovr (neighbourAt ch s.dt.toNat s) ranging settle valid
  let dirty := ovr || ranging || settle || !valid
  let mark := 64 * b2n ovr + 256 * b2n ranging + 512 * b2n settle + 1024 * b2n (!valid)
  let keep := c.flagged.filter fun g => decide (s.dt.toNat ≤ g.1.toNat + keptTicks)
  let s := modRf ch (fun c => { c with
    recovery := recoveryAfter 64 codes c.recovery, invalidLeft := c.invalidLeft - 1
    swapDue := if c.invalidLeft = 1 ∧ c.swapDue = 0 then dtAdd s.dt (2 * tkS) else c.swapDue
    sideband := BitVec.ofNat 16 word, lastGroup := some s.dt
    input := (s.dt, codes.map fun v => gained v (rfK c)) :: c.input.filter fun g => decide (s.dt.toNat ≤ g.1.toNat + keptTicks)
    flagged := if dirty then (s.dt, mark) :: keep else keep }) s
  if ovr then overloadReport ch s.dt (markOvr ch s.dt s) else s

/-! ## Slice rotation (R96, R97) -/

/-- R96: the spare takes the next position and the slice it replaces becomes the spare. -/
def sliceRotate (c : RfChan) : RfChan :=
  match c.spare with
  | some sp => { c with positions := c.positions.set c.nextPos sp, spare := c.positions[c.nextPos]?,
                        nextPos := (c.nextPos + 1) % 16, swapDue := dtAdd c.swapDue (2 * tkS) }
  | none => c

end Sys2Proof.Machine
end

