-- ==== Sys2Proof/Machine/Chain.lean ====
section
/-! DEFINITION. The down-converter paths (06_downconversion_filters.md): their chains, outputs, validity and flags. -/

namespace Sys2Proof.Machine

/-! ## Settings (R109 to R122) -/

/-- Table 6-2: n of a preset code. -/
def presetStages (code : Nat) : Nat := if code = 0x80 then 0 else 2 * (code - 0x80)

/-- DECIM names single-cycle settling. -/
def isScs (decim : Nat) : Bool := decide (0xC0 ≤ decim) && decide (decim ≤ 0xCA)

/-- n of a chain path (Table 6-5). -/
def stagesOf (decim : Nat) : Nat := if decide (0x80 ≤ decim) then presetStages decim else decim

/-- STAGES of Table 6-3: n, or j in single-cycle settling. -/
def stageField (decim : Nat) : Nat := if isScs decim then decim - 0xC0 else stagesOf decim

/-- Whether a path number is an optical slot path (R122). -/
def isSlotPath (path : Nat) : Bool := decide (16 ≤ path)

/-- Output period P in tk (R110, R119, R122). -/
def outPeriod (path decim : Nat) : Nat :=
  if isSlotPath path then 64 else if isScs decim then 64 * 2 ^ (decim - 0xC0) else 2 ^ (stagesOf decim + 1)

/-- Half support h in tk (R110); on slot paths the 353 input samples of n = 3 at 4 tk each, which gives the counts 45
and 23 of R122. -/
def halfSupport (path decim : Nat) : Nat :=
  if isSlotPath path then 1412 else if isScs decim then 0 else 31 + 46 * (2 ^ stagesOf decim - 1)

/-- R110, R119, R122: ticks from an output's instant to the DT at which it leaves. -/
def outDelay (path decim : Nat) : Nat :=
  if isSlotPath path then 1536
  else if isScs decim then 289 + outPeriod path decim
  else 320 + 46 * (2 ^ stagesOf decim - 1)

/-- Outputs marked invalid after a change and after a start (R115, R116, R120, R122). -/
def invalidAfterChange (path decim : Nat) : Nat :=
  if isScs decim then 1 else ceilDiv (2 * halfSupport path decim) (outPeriod path decim)
def invalidAfterStart (path decim : Nat) : Nat :=
  if isScs decim then 0 else ceilDiv (halfSupport path decim) (outPeriod path decim)

/-- First grid instant at or after a DT. -/
def gridUp (x p : Nat) : Nat := ceilDiv x p * p

/-- R115, R120: the run of outputs marked after a change at input sample c. -/
def changeRun (path decim c : Nat) : List (DT × DT) :=
  let p := outPeriod path decim
  if isScs decim then
    if c % p = 0 then [] else [(BitVec.ofNat 64 (c / p * p), BitVec.ofNat 64 (c / p * p + p))]
  else
    let a := gridUp (c - halfSupport path decim) p
    [(BitVec.ofNat 64 a, BitVec.ofNat 64 (a + p * invalidAfterChange path decim))]

/-- R113, R116: a start at input sample c: the group grid, and the outputs that are marked; those of the first group from
before c are marked too. (DESIGN CHOICE, safe: log 82.) -/
def startRun (path decim c : Nat) : DT × List (DT × DT) :=
  let p := outPeriod path decim
  let g := gridUp c p / (64 * p) * (64 * p)
  let a := gridUp c p + p * invalidAfterStart path decim
  (BitVec.ofNat 64 g, if g < a then [(BitVec.ofNat 64 g, BitVec.ofNat 64 a)] else [])

/-- R126, R133: the first output group that starts at or after a DT. -/
def groupFrom (path decim : Nat) (dt : DT) : DT := dtAdd 0 (gridUp dt.toNat (64 * outPeriod path decim))

/-! ## Chains (R110, R116) -/

/-- The chain that works on the samples that come in. -/
def chainNow (d : DdcPath) : DdcChain :=
  { decim := d.decim, sets := d.sets, first := d.first, stop := dtAdd 0 (2 ^ 64 - 1), nextGroup := d.nextGroup, invalid := d.invalid }

/-- The chain whose outputs leave next: the oldest, so that the stream stays in order (R116). (DESIGN CHOICE, unsafe: log 82.) -/
def chainOut (d : DdcPath) : DdcChain := (d.old.getLast?).getD (chainNow d)

/-- A path starts at the sample of DT c with its settings: the chain is emptied. What the chain before it still has to give
is completed where samples go on (R116). -/
def pathStart (c : DT) (goOn : Bool) (d : DdcPath) (path : Nat) : DdcPath :=
  let r := startRun path d.decim c.toNat
  { d with enable := true, nextGroup := r.1, invalid := r.2, sets := [(c, d.f, d.phi, d.outShift)], first := c
           old := if goOn then d.old else [] }

/-- R116: the chain as it stands joins those that are completed, up to the DT of a start. -/
def chainLeft (c : DT) (d : DdcPath) : DdcPath :=
  if d.enable && decide (d.nextGroup.toNat < c.toNat) then
    { d with old := { chainNow d with stop := c, invalid := d.invalid ++ [(c, dtAdd 0 (2 ^ 64 - 1))] } :: d.old }
  else d

/-- R107, R115, R116: DDC.SET lands: a start, a change, or a stop. -/
def ddcLand (path f phi decim shift : Nat) (enable : Bool) (s : State) : State :=
  modDdc path (fun d =>
    let d' := { d with f := f, phi := phi, decim := decim, outShift := shift, enable := enable }
    if !enable then { d' with old := [] }
    else if !d.enable || outPeriod path d.decim != outPeriod path decim || isScs d.decim != isScs decim then
      pathStart s.dt true { d' with old := (chainLeft s.dt d).old } path
    else if d.f != f || d.phi != phi || d.outShift != shift then
      { d' with invalid := d.invalid ++ changeRun path decim s.dt.toNat, sets := (s.dt, f, phi, shift) :: d.sets }
    else d') s

/-! ## Inputs and outputs (R106 to R111, R119, R122) -/

/-- Ticks between the samples of a path's input. -/
def inputStep (path : Nat) : Nat := if isSlotPath path then 4 else 1

/-- The input groups of a path, newest first (R89, R218). -/
def pathInput (path : Nat) (s : State) : List (DT × List Int) :=
  if isSlotPath path then (getOrx ((path - 16) / 8) s).input else (getRf path s).input

/-- The settings in force at a DT: F, phase offset, OUT_SHIFT. -/
def setAt (sets : List (DT × Nat × Nat × Nat)) (d : Nat) : Nat × Nat × Nat :=
  match sets.find? fun e => decide (e.1.toNat ≤ d) with
  | some e => e.2
  | none => (sets.getLast?.map (·.2)).getD (0, 0, 0)

/-- R106, R107, R116: the mixed sample at a DT: nothing from before the start of the chain. -/
def mixedAt (path : Nat) (input : List (DT × List Int)) (c : DdcChain) (d : Int) : Int × Int :=
  if d < c.first.toNat then (0, 0)
  else
    let t := d.toNat
    let x := match input.find? fun g => decide (g.1.toNat ≤ t) with
      | some g => g.2.getD ((t - g.1.toNat) / inputStep path) 0
      | none => 0
    let v := setAt c.sets t
    mixed x (mixerAcc v.1 v.2.1 (t / inputStep path))

/-- R109 to R111, R119, R122: the outputs of a chain from an instant on, before saturation. A sine at full scale of 2,048 codes,
8,192 on an optical path, gives magnitude 16,384. (PRESUMED for the optical paths, unsafe: log 80.) -/
def chainOutputs (path : Nat) (c : DdcChain) (t count : Nat) (s : State) : List (Int × Int) :=
  let p := outPeriod path c.decim
  let step := inputStep path
  let input := pathInput path s
  let at_ := fun (d : Int) => mixedAt path input c d
  let shift := fun (i : Nat) => (setAt c.sets (t + i * p)).2.2
  if isScs c.decim && !isSlotPath path then
    (List.range count).map fun i =>
      let xs := (List.range p).map fun j => at_ ((t + i * p + j : Nat) : Int)
      scaled 16 (30 + Nat.log2 p + shift i) ((xs.map (·.1)).sum, (xs.map (·.2)).sum)
  else
    let n := if isSlotPath path then 3 else stagesOf c.decim
    let h := halfSupport path c.decim
    let xs := (List.range (((count - 1) * p + 2 * h) / step + 1)).map fun j => at_ ((t : Int) - h + (step * j : Nat))
    (chain n count xs).zipIdx.map fun v =>
      scaled (if isSlotPath path then 4 else 16) (30 + 24 * (n + 1) + shift v.2) v.1

/-! ## Flags and validity (R111, R114 to R117) -/

/-- R114: the input instants an output at t is made of: its support, or its block. -/
def supportOf (path decim t : Nat) : Nat × Nat :=
  if isScs decim && !isSlotPath path then (t, t + outPeriod path decim - 1)
  else (t - halfSupport path decim, t + halfSupport path decim)

/-- R114, Table 6-3: FLAGS [3:0] of the output at instant t. -/
def outputFlags (path decim t : Nat) (s : State) : Nat :=
  let r := supportOf path decim t
  if isSlotPath path then b2n (hasFlag (getOrx ((path - 16) / 8) s).flagged gOvr (r.1 - 63) r.2)
  else
    let fl := (getRf path s).flagged
    b2n (hasFlag fl gOvr (r.1 - 63) r.2) + 2 * b2n (hasFlag (getRf (partner path) s).flagged gOvr (r.1 - 63 - 1984) r.2)
      + 4 * b2n (hasFlag fl gRanging (r.1 - 63) r.2) + 8 * b2n (hasFlag fl gSettle (r.1 - 63) r.2)

/-- R115 to R117: VALID of the output at instant t of a chain. -/
def outputValid (path : Nat) (c : DdcChain) (t : Nat) (s : State) : Bool :=
  let r := supportOf path c.decim t
  let fl := if isSlotPath path then (getOrx ((path - 16) / 8) s).flagged else (getRf path s).flagged
  !(c.invalid.any fun r => decide (r.1.toNat ≤ t) && decide (t < r.2.toNat)) && !hasFlag fl gInvalid (r.1 - 63) r.2

/-- R111: a component beyond the limit saturates. -/
def satComponent (v : Int) : Int := clamp (-32767) 32767 v
def satSample (q : Int × Int) : Int × Int := (satComponent q.1, satComponent q.2)

/-- A stored sample of 16 + 16 bits. -/
def sampleWord (q : Int × Int) : Nat := enc 2 (satComponent q.1) + 65536 * enc 2 (satComponent q.2)

/-- R124: power of an output in units of 2^-28. -/
def outputPower (s : Nat) (q : Int × Int) : Nat :=
  ((satComponent q.1).natAbs ^ 2 + (satComponent q.2).natAbs ^ 2) * 4 ^ s

/-- The instants of the group a chain gives next. -/
def groupTimes (path : Nat) (c : DdcChain) : List Nat :=
  (List.range 64).map fun i => c.nextGroup.toNat + i * outPeriod path c.decim

/-- R113, R114: the group a chain gives next, with its outputs and sideband facts; OUT_SHIFT and F as the last output has them
(DESIGN CHOICE, unsafe: log 82). -/
def groupInfo (path : Nat) (c : DdcChain) (s : State) : GroupInfo :=
  let ts := groupTimes path c
  let raw := chainOutputs path c c.nextGroup.toNat 64 s
  let last := setAt c.sets (ts.getLast?.getD 0)
  let fl := ts.foldl (fun a t => a ||| outputFlags path c.decim t s) 0
  { dt := c.nextGroup
    flags := fl + 16 * b2n (raw.any fun q => satSample q != q) + 32 * b2n (isScs c.decim)
    valid := (ts.zipIdx.map fun q => if outputValid path c q.1 s then 2 ^ q.2 else 0).sum
    range := if isSlotPath path then 0 else rangeAt path c.nextGroup.toNat s
    ref := if isSlotPath path then 0 else refAt path c.nextGroup.toNat s
    decim := c.decim, shift := last.2.2, f := last.1, samples := raw.map satSample }

/-- R116: a chain delivers the outputs from its start up to that of the next. -/
def delivers (c : DdcChain) (t : Nat) : Bool := decide (c.first.toNat ≤ t) && decide (t < c.stop.toNat)

/-- R124: what the detectors see of a group: instant, power, flags, VALID. -/
def detectorInput (path : Nat) (c : DdcChain) (g : GroupInfo) (s : State) : List (DT × Nat × Nat × Bool) :=
  ((g.samples.zip (groupTimes path c)).zipIdx.filter fun q => delivers c q.1.2).map fun q =>
    (BitVec.ofNat 64 q.1.2, outputPower (setAt c.sets q.1.2).2.2 q.1.1,
      outputFlags path c.decim q.1.2 s + 16 * b2n (bit g.flags 4), bit g.valid q.2)

/-- R124: an output joins the windows that wait: the first starts at a multiple of 2^w P, and none spans a start. -/
def windowPush (w p : Nat) (q : List (DT × Nat × Nat × Bool)) (o : DT × Nat × Nat × Bool) : List (DT × Nat × Nat × Bool) :=
  let fresh := if o.1.toNat % (2 ^ w * p) = 0 then [o] else []
  match q with
  | [] => fresh
  | h :: _ => if h.1.toNat + q.length * p = o.1.toNat then q ++ [o] else fresh

/-- R113, R116: a path's next group has left: a chain from before a start ends with the group that reaches it. -/
def chainStep (path : Nat) (d : DdcPath) : DdcPath :=
  let c := chainOut d
  let next := dtAdd c.nextGroup (64 * outPeriod path c.decim)
  let left := c.invalid.filter fun r => decide (next.toNat < r.2.toNat)
  if d.old = [] then { d with nextGroup := next, invalid := left }
  else if c.stop.toNat ≤ next.toNat then { d with old := d.old.dropLast }
  else { d with old := d.old.dropLast ++ [{ c with nextGroup := next, invalid := left }] }

/-- R113: the group is recorded, fed to the detectors, and the path moves on to the next. -/
def groupOut (path : Nat) (s : State) : State :=
  let c := chainOut (getDdc path s)
  let g := groupInfo path c s
  let outs := detectorInput path c g s
  modDdc path (fun d => { chainStep path d with
    groups := g :: d.groups.take 32767
    detQueue := if d.detEnable = 0 then []
      else outs.foldl (windowPush d.log2Win (outPeriod path c.decim)) d.detQueue }) s

end Sys2Proof.Machine
end

