-- ==== Sys2Proof/Machine/Flags.lean ====
section
/-! DEFINITION. The flags of spectra, traces and captures as they follow from the groups below them (Tables 6-3, 7-4,
9-6, 11-6). -/

namespace Sys2Proof.Machine

/-- R141: flags [4:0] of a frame from its output groups: OVERLOAD from OVR or DDC_SAT, NEIGHBOUR_OVR, RANGING,
PAD_SETTLE, and INVALID from any output that is not valid. -/
def groupFlags (gs : List GroupInfo) : Nat :=
  let any := fun b => gs.any fun g => bit g.flags b
  b2n (any 0 || any 4) + 2 * b2n (any 1) + 4 * b2n (any 2) + 8 * b2n (any 3) +
    16 * b2n (gs.any fun g => g.valid != 2 ^ 64 - 1)

/-- R141: a spectrum is trustworthy exactly when FLAGS[7:0] are zero. -/
def trustworthy (flags : Nat) : Bool := flags % 256 == 0

end Sys2Proof.Machine
end

