-- ==== Sys2Proof/Machine/Streams.lean ====
section
/-! DEFINITION. How a data-plane producer writes records and entries into a data ring, drops them when there is no
room (R143, R330), and how sources raise request lines (R285). -/

namespace Sys2Proof.Machine

/-- Cut bytes into pieces of k bytes. -/
def chunks (k : Nat) : Nat → List Byte → List (List Byte)
  | 0, _ => []
  | _ + 1, [] => []
  | n + 1, bs => bs.take k :: chunks k n (bs.drop k)

/-- R330: EV_STREAM_DROP counts every drop of the ring since the previous one. -/
def reportDrops (n : Nat) (s : State) : State :=
  let r := getRing n s
  modRing n (fun r => { r with drops := 0, dropEvent := some s.dt })
    (event 0x1602 1 0xFFFF [(16, 2, n), (18, 1, r.dropCause), (20, 4, sat 4 r.drops), (24, 8, r.dropFirst.toNat)] s)

/-- R330: a drop is counted; the event comes at once when none was posted in the preceding second. -/
def drop (n cause : Nat) (s : State) : State :=
  let s := modRing n (fun r => if r.drops = 0 then { r with drops := 1, dropCause := cause, dropFirst := s.dt }
                               else { r with drops := r.drops + 1 }) s
  match (getRing n s).dropEvent with
  | some d => if tkS ≤ dtSub s.dt d then reportDrops n s else s
  | none => reportDrops n s

/-- Entries a record of this length takes (R143). -/
def entriesOf (r : Ring) (len : Nat) : Nat := max 1 (ceilDiv len r.entrySize)

/-- Whether a ring has room for so many entries. -/
def roomFor (r : Ring) (entries : Nat) (s : State) : Bool :=
  r.created && !r.stopped && decide (ringHeld r + entries ≤ ringSize r) && ringReach r s

/-- R143, R330: a record starts at an entry boundary and goes on in the following entries; without room for all of it
the whole record is dropped. No ring named, nothing written. -/
def writeRecord (n : Nat) (bytes : List Byte) (s : State) : State :=
  let r := getRing n s
  if n = 0xFFFF ∨ r.created = false then s
  else
    let k := entriesOf r bytes.length
    if roomFor r k s then
      let s := each (chunks r.entrySize k bytes).zipIdx
        (fun c s => storeAt r.location (entryAddr r (r.prod.toNat + c.2)) c.1 s) s
      publishMany n k s
    else drop n 1 s

/-- R285: requests raised on a line; those beyond 65,535 are lost and reported with EV_DMA_REQ_LOST. -/
def raiseLine (line count : Nat) (s : State) : State :=
  let have_ := tget 0 s.dma.lines line
  let lost := have_ + count - 65535
  let s := { s with dma := { s.dma with lines := tput 0 s.dma.lines line (min 65535 (have_ + count)) } }
  if lost = 0 then s
  else
    let old := tget (0, 0) s.dma.lost line
    let first := if old.1 = 0 then s.dt else old.2
    let s := { s with dma := { s.dma with lost := tput (0, 0) s.dma.lost line (old.1 + lost, first) } }
    event 0x1404 1 0xFFFF [(16, 2, line), (20, 4, sat 4 (old.1 + lost)), (24, 8, first.toNat)] s

end Sys2Proof.Machine
end

