-- ==== Sys2Proof/Machine/Spectra.lean ====
section
/-! DEFINITION. From a pip's frame to spectra, averaged records and traces (07_spectral_tiles.md,
08_bloom_and_traces.md R165 to R168). -/

namespace Sys2Proof.Machine

/-- Outputs in a frame (R126). -/
def frameLen (c : FftCfg) : Nat := 2 ^ c.log2N

/-- R126: the hop at overlap 0, 25, 50, 75 %. -/
def hopLen (c : FftCfg) : Nat := frameLen c - frameLen c * c.overlap / 4

/-- R126: t_m of the personality's grid. -/
def frameStart (p m : Nat) (s : State) : Nat :=
  let x := getSpec p s
  x.t0.toNat + m * hopLen x.fft * outPeriod p x.decim

/-- R128: first span bin and count. -/
def spanBins (n : Nat) : Nat × Nat := (7 * n / 64, 25 * n / 32)

/-- The bins a selection names: its own, or the span bins. -/
def selected (c : FftCfg) : Nat × Nat := c.bins.getD (spanBins (frameLen c))

/-- Resolved first bin of a trace or map (R151, R165). -/
def firstBinOf (n : Nat) (first : Option Nat) : Nat := first.getD (spanBins n).1

/-- R151: the geometry fits N. -/
def binsFit (n : Nat) (first : Option Nat) (count : Nat) : Bool :=
  match first with
  | none => count == (spanBins n).2
  | some f => decide (f + count ≤ n)

/-- R10, R128: NCO-word frequency of bin k of a frame. -/
def binFreq (p : Nat) (i : FrameInfo) (k : Nat) (s : State) : Int :=
  let n := frameLen (getSpec p s).fft
  (i.f : Int) + ((k : Int) - n / 2) * ((2 ^ 48 / (outPeriod p i.decim * n) : Nat) : Int)

/-- R104: the user table at a frequency, linear between points, its end points outside; rounded as R9 (DESIGN CHOICE, unsafe: log 20). -/
def userTab (c : RfChan) (f : Int) : Int :=
  match c.userTable with
  | [] => 0
  | v :: _ =>
    let x := f - c.fStart
    if x ≤ 0 ∨ c.fStep = 0 then v
    else
      let i := (x / (c.fStep : Int)).toNat
      match c.userTable[i]?, c.userTable[i + 1]? with
      | some a, some b => roundAway (a * c.fStep + (b - a) * (x - (i : Int) * c.fStep)) c.fStep
      | some a, none => a
      | none, _ => c.userTable.getLast?.getD 0

/-- R104: the sum of the calibration terms of bin k of a frame: full scale of the reference that its samples were scaled to,
flatness of its range state, and the user's terms. (PRESUMED, safe: log 5.) -/
def calTerms (p : Nat) (i : FrameInfo) (k : Nat) (s : State) : Int :=
  let c := getRf p s
  byteScale i.ref + Config.flatFactory p i.range (binFreq p i k s).toNat + c.userOff + userTab c (binFreq p i k s)

/-- R9, R104: a raw level with terms added; below range stays below. -/
def addTerms (raw terms : Int) : Int := if raw = below then below else l16Sat (raw + terms)

/-- R130, R131: raw level of a power in squared DDC output units. -/
def rawLevel (num den shift : Nat) : Int := l16OfPower (num * 4 ^ shift) (den * 2 ^ 28)

/-- R140: q of one bin. -/
def quantised (num den : Nat) : Nat := (roundEven (num * 2 ^ 18 : Nat) den).toNat

/-- R140: an accumulator that saturates. -/
def acc64 : Nat := 2 ^ 64 - 1

/-! ## Record headers (Tables 7-5, 8-4) -/

/-- A record: header fields in order, then values, padded with 0x8000. -/
def l16Record (header : List Byte) (values : List Int) : List Byte :=
  padBelow (header ++ (values.map (leInt 2)).flatten)

/-- REC_LEN of a record with so many L16 values (R142). -/
def recLen (values : Nat) : Nat := (64 + 2 * values + 63) / 64 * 64

/-- Table 7-5. -/
def spectrumRecord (p : Nat) (c : FftCfg) (i : FrameInfo) (dt : DT) (seq flags count pip : Nat) (values : List Int) :
    List Byte :=
  l16Record (leBytes 2 1 ++ leBytes 1 p ++ leBytes 1 c.log2N ++ leBytes 4 (recLen values.length) ++
    leBytes 8 dt.toNat ++ leBytes 8 seq ++ leBytes 4 flags ++ leBytes 4 (selected c).1 ++ leBytes 4 values.length ++
    leBytes 1 i.window ++ leBytes 1 c.overlap ++ leBytes 1 (stagesOf i.decim) ++ leBytes 1 i.range ++
    leBytes 4 count ++ leBytes 8 i.f ++ leBytes 1 pip ++ leBytes 11 0) values

/-- Table 8-4. -/
def traceRecordBytes (p i : Nat) (tr : Trace) (flags : Nat) (values : List Int) (s : State) : List Byte :=
  let x := getSpec p s
  l16Record (leBytes 2 3 ++ leBytes 1 p ++ leBytes 1 i ++ leBytes 4 (recLen values.length) ++
    leBytes 8 (portDt p tr.firstDt.toNat s).toNat ++ leBytes 8 tr.firstSeq ++ leBytes 4 flags ++
    leBytes 4 (firstBinOf (frameLen x.fft) tr.cfg.firstBin) ++ leBytes 2 tr.cfg.points ++ leBytes 1 tr.cfg.bpp ++
    leBytes 1 tr.cfg.detector ++ leBytes 4 tr.summed ++ leBytes 1 x.fft.log2N ++ leBytes 1 tr.info.window ++
    leBytes 1 (stagesOf tr.info.decim) ++ leBytes 1 tr.info.range ++ leBytes 1 (b2n tr.cfg.hold) ++ leBytes 3 0 ++
    leBytes 8 tr.info.f ++ leBytes 8 0) values

/-! ## Averaging (R139, R140) -/

/-- Flags of a block: the OR of the frames summed, EXCLUDED when fewer than all, INVALID when none, ACC_SAT. -/
def blockFlags (flags summed wanted : Nat) (accSat : Bool) : Nat :=
  flags ||| 16 * b2n (summed == 0) ||| 32 * b2n accSat ||| 4096 * b2n (decide (summed < wanted))

/-- R140: the value of one averaged bin. -/
def averagedLevel (sum count shift : Nat) (terms : Int) : Int :=
  addTerms (l16OfPower ((roundEven (sum * 2 ^ 16 : Nat) count).toNat * 4 ^ shift) (2 ^ 62)) terms

/-- R139: end the running block of the record path and write its record; the record and its DT are handed back for
captures of records. -/
def endAverage (p : Nat) (s : State) : Option (DT × List Byte) × State :=
  let x := getSpec p s
  if x.seen = 0 then (none, s)
  else
    let r := selected x.fft
    let values := (List.range r.2).map fun i =>
      let k := r.1 + i
      if x.summed = 0 then below
      else averagedLevel (x.acc.getD k 0) x.summed x.avgInfo.shift (x.avgTerms.getD k 0)
    let flags := blockFlags x.avgFlags x.summed x.fft.avg x.accSat
    let bytes := spectrumRecord p x.fft x.avgInfo (portDt p x.firstDt.toNat s) x.firstSeq flags x.summed x.lastPip values
    let s := if x.limitStopped then s else writeRecord x.fft.ring bytes s
    (if x.limitStopped then none else some (x.firstDt, bytes),
     modSpec p (fun x => { x with seen := 0, summed := 0, avgFlags := 0, accSat := false, acc := [], avgTerms := [] }) s)

/-- R139: blocks start at multiples of V of the grid, lost frames counted: the running block is over when the next frame
belongs to another. -/
def averageDue (x : Spectral) : Bool :=
  decide (0 < x.seen) && decide (x.frame / max 1 x.fft.avg ≠ x.firstSeq / max 1 x.fft.avg)

/-- R139, R166: the first multiple of a block length at or after a frame. -/
def blockStart (frame len : Nat) : Nat := gridUp frame (max 1 len)

/-- R139, R140: one frame enters the running block; before the first block of the settings none runs. -/
def averageAdd (p pip : Nat) (sp : Spectrum) (f : FrameData) (i : FrameInfo) (terms : List Int) (s : State) : State :=
  modSpec p (fun x =>
    if sp.seq < x.avgStart then x else
    let x := if x.seen = 0 then { x with firstDt := sp.dt, firstSeq := sp.seq, avgInfo := i } else x
    let x := { x with seen := x.seen + 1 }
    if sp.flags % 65536 &&& x.fft.exclude ≠ 0 then x
    else
      let q := f.power.map fun v => quantised v f.den
      let sums := if x.summed = 0 then q else x.acc.zipWith (· + ·) q
      { x with
        acc := sums.map (min acc64)
        accSat := x.accSat || sums.any (fun v => decide (acc64 < v))
        avgTerms := if x.summed = 0 then terms else x.avgTerms
        avgInfo := if x.summed = 0 then i else x.avgInfo
        summed := x.summed + 1, avgFlags := x.avgFlags ||| sp.flags, lastPip := pip }) s

/-! ## Trace detectors (R165 to R168) -/

/-- The bins of point i of a trace. -/
def bucket (first bpp i : Nat) : List Nat := (List.range bpp).map fun j => first + i * bpp + j

/-- Larger of two levels, and smaller; 0x8000 is the lowest value. -/
def maxOf (vs : List Int) : Int := vs.foldl max below
def minOf (vs : List Int) : Int := match vs with
  | [] => below
  | v :: rest => rest.foldl min v

/-- What one frame adds to the accumulators of a detector: per point for 1, 2, 3 and 7, per bin for 4 to 6. -/
def traceAdds (c : TraceCfg) (first shiftDen : Nat) (f : FrameData) (v : List Int) : List Int :=
  let lv := fun k => v.getD k below
  let q := fun k => quantised (f.power.getD k 0) f.den
  let bins := (List.range (c.points * c.bpp)).map (first + ·)
  let points := List.range c.points
  match c.detector with
  | 1 => points.map fun i => maxOf ((bucket first c.bpp i).map lv)
  | 2 => points.map fun i => minOf ((bucket first c.bpp i).map lv)
  | 3 => points.map fun i => lv (first + i * c.bpp + c.bpp / 2)
  | 4 => bins.map fun k => (q k : Int)
  | 5 => bins.map fun k => if lv k = below then -32767 else lv k
  | 6 => bins.map fun k => (roundSqrt (f.power.getD k 0 * shiftDen) f.den : Int)
  | 7 => points.map fun i => (((bucket first c.bpp i).map q).sum : Int)
  | _ => []

/-- Combine the accumulators with what a frame adds. -/
def traceCombine (c : TraceCfg) (old new : List Int) : List Int :=
  if old = [] then new
  else match c.detector with
    | 1 => old.zipWith max new
    | 2 => old.zipWith min new
    | 3 => new
    | _ => old.zipWith (· + ·) new

/-- R166, R167: one frame enters a trace block. -/
def traceAdd (p i : Nat) (sp : Spectrum) (f : FrameData) (info : FrameInfo) (terms : List Int) (s : State) : State :=
  modSpec p (fun x => { x with traces := tmod {} x.traces i (fun tr =>
    if tr.cfg.detector = 0 ∨ (sp.seq < tr.start ∧ tr.cfg.hold = false) then tr
    else
      let tr := if tr.seen = 0 then { tr with firstDt := sp.dt, firstSeq := sp.seq, info := info } else tr
      let tr := { tr with seen := tr.seen + 1 }
      if sp.flags % 65536 &&& tr.cfg.exclude ≠ 0 ∨ bit sp.flags 7 = true then tr
      else
        let n := frameLen x.fft
        let sums := traceCombine tr.cfg tr.acc (traceAdds tr.cfg (firstBinOf n tr.cfg.firstBin) (2 ^ 32) f sp.levels)
        let linear := tr.cfg.detector = 4 ∨ tr.cfg.detector = 7
        { tr with
          acc := if linear then sums.map (fun v => min (acc64 : Int) v) else sums
          accSat := tr.accSat || (decide linear && sums.any (fun v => decide ((acc64 : Int) < v)))
          terms := if tr.summed = 0 then terms else tr.terms
          info := if tr.summed = 0 then info else tr.info
          summed := tr.summed + 1, flags := tr.flags ||| sp.flags }) }) s

/-- Table 8-3: the points of a block. -/
def tracePoints (tr : Trace) (n shift : Nat) : List Int :=
  let c := tr.cfg
  let first := firstBinOf n c.firstBin
  let term := fun k => tr.terms.getD k 0
  let a := fun j => tr.acc.getD j 0
  (List.range c.points).map fun i =>
    let js := (List.range c.bpp).map fun j => i * c.bpp + j
    if tr.summed = 0 then below
    else match c.detector with
      | 4 => maxOf (js.map fun j => averagedLevel (a j).toNat tr.summed shift (term (first + j)))
      | 5 => maxOf (js.map fun j => roundAway (a j) tr.summed)
      | 6 => maxOf (js.map fun j =>
          addTerms (l16OfPower ((a j).toNat ^ 2 * 4 ^ shift) (tr.summed ^ 2 * 2 ^ 60)) (term (first + j)))
      | 7 => averagedLevel (a i).toNat (tr.summed * c.bpp) shift (term (first + i * c.bpp + c.bpp / 2))
      | _ => a i

/-- R166: the block's record is written and the block restarts; held values stay. The points are handed back for the
limit test. -/
def endTrace (p i : Nat) (s : State) : List Int × Nat × State :=
  let x := getSpec p s
  let tr := tget {} x.traces i
  let values := tracePoints tr (frameLen x.fft) tr.info.shift
  let flags := blockFlags tr.flags tr.summed tr.cfg.interval tr.accSat
  let s := if x.limitStopped then s else writeRecord tr.cfg.ring (traceRecordBytes p i tr flags values s) s
  (values, flags, modSpec p (fun x => { x with traces := tmod {} x.traces i (fun tr =>
    { tr with seen := 0, summed := 0, flags := 0, accSat := false
              acc := if tr.cfg.hold then tr.acc else [], terms := if tr.cfg.hold then tr.terms else [] }) }) s)

/-- R166: a trace's block has its INTERVAL frames. -/
def traceDue (x : Spectral) (tr : Trace) : Bool :=
  decide (0 < tr.seen) && decide (x.frame / max 1 tr.cfg.interval ≠ tr.firstSeq / max 1 tr.cfg.interval)

/-! ## Spectra (R132, R141) -/

/-- R104, R130, R131: the bin levels of a frame. -/
def binLevels (p : Nat) (f : FrameData) (i : FrameInfo) (s : State) : List Int :=
  f.power.zipIdx.map fun v => addTerms (rawLevel v.1 f.den i.shift) (calTerms p i v.2 s)

/-- R126: the DT after the last output of frame m. -/
def frameEnd (p m : Nat) (s : State) : Nat :=
  let x := getSpec p s
  frameStart p m s + frameLen x.fft * outPeriod p x.decim

/-- The output groups of a frame, newest first (R113, R126). -/
def frameGroups (p m : Nat) (s : State) : List GroupInfo :=
  let x := getSpec p s
  (getDdc p s).groups.filter fun g =>
    g.decim == x.decim && decide (frameStart p m s ≤ g.dt.toNat) && decide (g.dt.toNat < frameEnd p m s)

/-- R133: the frame is complete before the start that ends its grid. -/
def frameCovered (p m : Nat) (s : State) : Bool :=
  match (getSpec p s).starts with
  | [] => true
  | c :: _ => decide (frameEnd p m s ≤ c.1.toNat)

/-- The output groups of frame m have all left the down-converter (R126). -/
def frameComplete (p m : Nat) (s : State) : Bool :=
  frameCovered p m s && decide (64 * (frameGroups p m s).length = frameLen (getSpec p s).fft)

/-- R126, R130, R144: what the pip of frame m makes of its outputs under the window in force. -/
def frameDataOf (p m : Nat) (upset : List (Int × Int)) (s : State) : FrameData :=
  let x := getSpec p s
  frameData x.window x.fft.log2N (Config.transformNoise p (frameStart p m s)) upset
    ((frameGroups p m s).reverse.map (·.samples)).flatten

/-- What the first output group of a frame says of it. -/
def frameInfo (p m : Nat) (s : State) : FrameInfo :=
  let x := getSpec p s
  match (frameGroups p m s).getLast? with
  | some g => { range := g.range, ref := g.ref, shift := g.shift, f := g.f, decim := g.decim, window := x.window }
  | none => { decim := x.decim, window := x.window }

/-- R127: the pip that computes frame m. -/
def pipOf (x : Spectral) (m : Nat) : Nat := x.pips.getD (m % max 1 x.pips.length) 0

/-- The spectrum of frame m with all its flags (Table 7-4). -/
def spectrumOf (p m : Nat) (f : FrameData) (extra : Nat) (s : State) : Spectrum :=
  let x := getSpec p s
  let levels := binLevels p f (frameInfo p m s) s
  let flags := groupFlags (frameGroups p m s) ||| 64 * b2n (levels.contains 32767) ||| extra
    ||| 512 * b2n (x.degraded || x.degStages) ||| 1024 * b2n x.restart ||| 2048 * b2n x.clockGap
  { dt := BitVec.ofNat 64 (frameStart p m s), seq := m, flags := flags, levels := levels }

end Sys2Proof.Machine
end

