-- ==== Sys2Proof/Machine/Bloom.lean ====
section
/-! DEFINITION. The bloom maps (08_bloom_and_traces.md, R150 to R164). -/

namespace Sys2Proof.Machine

/-- R150: blocks of 65,536 cells a map occupies. -/
def mapBlocks (c : BloomCfg) : Nat := ceilDiv (c.columns * c.rows) 65536

/-- R150: blocks held by the maps other than the one named. -/
def blocksHeld (except : Nat) (s : State) : Nat :=
  (((List.range 4).filter fun m => m != except && (getBloom m s).set).map fun m => mapBlocks (getBloom m s).cfg).sum

/-- R152: the row of a level. -/
def rowOf (c : BloomCfg) (v : Int) : Nat :=
  if v = below then c.rows - 1
  else (clamp 0 ((c.rows : Int) - 1) ((c.rowTop - v) / (c.rowStep : Int))).toNat

/-- R161: a clear zeroes the cells, the counters and CELL_SAT. -/
def clearMap (m : BloomMap) : BloomMap :=
  { m with cells := [], spectra := 0, skippedFlags := 0, skippedLag := 0, decays := 0, lagged := false, owed := false
           cellSat := false, snapAt := 0, dtFirst := 0, dtLast := 0, lastSeq := 0 }

/-- R154: whether a map accepts a spectrum. -/
def mapAccepts (c : BloomCfg) (flags : Nat) : Bool :=
  !bit flags 3 && !bit flags 7 && (flags % 65536 &&& c.exclude == 0)

/-- R153: the cells after one increment, and whether it was lost at 65,535. -/
def bump (cell : Nat) (cells : Table Nat × Bool) : Table Nat × Bool :=
  if tget 0 cells.1 cell < 65535 then (tmod 0 cells.1 cell (· + 1), cells.2) else (cells.1, true)

/-- R151 to R153: every bin the map counts adds 1 to its cell. -/
def countSpectrum (c : BloomCfg) (n : Nat) (levels : List Int) (cells : Table Nat) : Table Nat × Bool :=
  let first := firstBinOf n c.firstBin
  ((List.range (c.columns * c.bpc)).map fun j => rowOf c (levels.getD (first + j) below) * c.columns + j / c.bpc).foldl
    (fun acc cell => bump cell acc) (cells, false)

/-- R162: clears of a map that fall due at a spectrum. -/
def clearsDue (dt : DT) (m : BloomMap) : List (Nat × DT) := m.clearDue.filter fun c => dtLe c.2 dt

/-- R162, Table 15-6: a map whose clear has fallen due (cause 0: an uncorrectable error, which posts no EV_BLOOM_CLEARED) is cleared before it sees the first spectrum under the new settings. -/
def clearIfDue (sp : Spectrum) (m : BloomMap) : BloomMap :=
  let due := clearsDue sp.dt m
  if due = [] then m
  else { clearMap m with clearDue := m.clearDue.filter fun c => !due.contains c
                         clearedEvent := (due.reverse.find? fun c => c.1 != 0).map (·.1) }

/-- R153, R154, R159: one map takes or skips one spectrum. -/
def mapIngest (k : Nat) (sp : Spectrum) (log2N : Nat) (s : State) : State :=
  let s := modBloom k (clearIfDue sp) s
  let m := getBloom k s
  if !dtLe m.since sp.dt then s
  else if mapAccepts m.cfg sp.flags then
    let r := countSpectrum m.cfg (2 ^ log2N) sp.levels m.cells
    let s := modBloom k (fun m => { m with
      cells := r.1, cellSat := m.cellSat || r.2, spectra := m.spectra + 1
      dtFirst := if m.spectra = 0 then sp.dt else m.dtFirst, dtLast := sp.dt, lastSeq := sp.seq, log2N := log2N
      owed := m.cfg.decayK != 0 && (m.spectra + 1) % m.cfg.decayK == 0
      decaying := m.decaying || (m.cfg.decayK != 0 && (m.spectra + 1) % m.cfg.decayK == 0)
      clearedEvent := none }) s
    let s := match m.clearedEvent with
      | some cause => event 0x0A03 0 k [(16, 1, k), (17, 1, cause), (24, 8, sp.seq)] s
      | none => s
    if r.2 && !m.cellSat then event 0x0A02 0 k [(16, 1, k), (24, 8, sp.seq)] s else s
  else modBloom k (fun m => { m with skippedFlags := m.skippedFlags + 1 }) s

/-- The maps of a personality. -/
def mapsOf (p : Nat) (s : State) : List Nat :=
  (List.range 4).filter fun k => (getBloom k s).set && (getBloom k s).cfg.personality == p

/-- R157: a completed spectrum joins its pip's queue, or is skipped for every map of the personality. -/
def bloomOffer (p pip : Nat) (sp : Spectrum) (s : State) : State :=
  let maps := mapsOf p s
  if maps = [] then s
  else
    let x := getSpec p s
    if (x.queue.filter fun e => e.1 == pip).length < 8 then
      modSpec p (fun x => { x with queue := x.queue ++ [(pip, sp)] }) s
    else
      let s := each maps (fun k => modBloom k (fun m => { m with skippedLag := m.skippedLag + 1, lagged := true })) s
      let s := modSpec p (fun x => { x with
        lags := (x.lags.filter fun e => decide (dtSub s.dt e.1 < tkS)) ++ [(s.dt, sp.seq)] }) s
      let x := getSpec p s
      let due := match x.lagEvent with
        | none => true
        | some d => decide (tkS ≤ dtSub s.dt d)
      if due then
        modSpec p (fun x => { x with lagEvent := some s.dt })
          (event 0x0A01 1 p [(16, 1, p), (20, 4, sat 4 x.lags.length), (24, 8, (x.lags.head?.map (·.2)).getD 0)] s)
      else s

/-- R159: the decay of every cell. -/
def decayCells (g : Nat) (cells : Table Nat) : Table Nat :=
  (cells.map fun c => (c.1, c.2 * g / 65536)).filter fun c => c.2 != 0

/-- R159, R161: a decay that is due is applied. -/
def settleDecay (m : BloomMap) : BloomMap :=
  if m.owed then { m with cells := decayCells m.cfg.gain m.cells, decays := m.decays + 1, owed := false } else m

/-- REC_LEN of a snapshot (R163). -/
def snapshotLen (c : BloomCfg) : Nat := (64 + 2 * c.rows * c.columns + 63) / 64 * 64

/-- R163, Table 8-1: a snapshot of a map. -/
def snapshotBytes (k : Nat) (cleared : Bool) (s : State) : List Byte :=
  let m := getBloom k s
  let c := m.cfg
  padZero 64 (leBytes 2 2 ++ leBytes 1 k ++ leBytes 1 c.personality ++ leBytes 4 (snapshotLen c) ++
    leBytes 8 m.dtFirst.toNat ++ leBytes 8 m.dtLast.toNat ++ leBytes 8 m.lastSeq ++ leBytes 4 (sat 4 m.spectra) ++
    leBytes 4 (sat 4 m.skippedFlags) ++ leBytes 4 (sat 4 m.skippedLag) ++ leBytes 2 c.columns ++ leBytes 2 c.rows ++
    leBytes 4 (firstBinOf (2 ^ (if m.spectra = 0 then (getSpec c.personality s).fft.log2N else m.log2N)) c.firstBin) ++ leInt 2 c.rowTop ++ leBytes 1 (c.rowStep - 1) ++
    leBytes 1 c.bpc ++ leBytes 4 (sat 4 m.decays) ++
    leBytes 1 (b2n m.lagged + 2 * b2n m.cellSat + 4 * b2n cleared) ++ leBytes 1 m.log2N ++ leBytes 2 0 ++
    ((List.range (c.rows * c.columns)).map fun i => leBytes 2 (tget 0 m.cells i)).flatten)

/-- R164: a periodic snapshot is due at this boundary. -/
def snapshotDue (m : BloomMap) : Bool :=
  m.set && m.cfg.snapRing != 0xFFFF && m.cfg.snapSpectra != 0 && decide (0 < m.spectra) &&
    m.spectra % m.cfg.snapSpectra == 0 && m.snapAt != m.spectra

/-- R161: what is due on a map at this boundary comes first: the decay after the preceding spectrum, then the periodic
snapshot, which says whether a clear follows. -/
def mapBoundary (k : Nat) (cleared : Bool) (s : State) : State :=
  let s := modBloom k settleDecay s
  if snapshotDue (getBloom k s) then
    let s := modBloom k (fun m => { m with snapAt := m.spectra }) s
    writeRecord (getBloom k s).cfg.snapRing (snapshotBytes k cleared s) s
  else s

/-- R162: the geometry, or the personality, of a map changes. -/
def sameGeometry (m : BloomMap) (c : BloomCfg) : Bool :=
  m.set && m.cfg.personality == c.personality && m.cfg.columns == c.columns && m.cfg.rows == c.rows &&
    m.cfg.bpc == c.bpc && m.cfg.firstBin == c.firstBin && m.cfg.rowTop == c.rowTop && m.cfg.rowStep == c.rowStep

/-- R151, R155, R161, R164: BLOOM.SET lands at t: what is due there first, then the new settings, which clear the map when
the geometry changes. -/
def bloomLand (k : Nat) (c : BloomCfg) (t : DT) (s : State) : State :=
  let same := sameGeometry (getBloom k s) c
  modBloom k (fun m =>
    let m' := if same then m else { clearMap m with clearDue := [], clearedEvent := none, decaying := false }
    { m' with set := true, cfg := c, since := t }) (mapBoundary k (!same) s)

/-- R161: BLOOM.CLEAR lands. -/
def bloomClearLand (k : Nat) (s : State) : State := modBloom k clearMap (mapBoundary k true s)

/-- R162: the maps of a personality whose settings changed are cleared at the first spectrum from now on. -/
def mapsClearDue (p cause : Nat) (since : DT) (s : State) : State :=
  each (mapsOf p s) (fun k => modBloom k (fun m =>
    if m.cfg.keepOnChange then m else { m with clearDue := m.clearDue ++ [(cause, since)] })) s

end Sys2Proof.Machine
end

