-- ==== Sys2Proof/Machine/Trigger.lean ====
section
/-! DEFINITION. Masks, time-domain conditions, the sequencer, limit tests and the two logs (09_trigger_and_capture.md,
R169 to R183, R194 to R196). -/

namespace Sys2Proof.Machine

/-! ## Packed logs (R195, R196) -/

/-- Entries of a ring that are full once these bytes follow what is being filled. -/
def fullEntries (r : Ring) (bytes : List Byte) : Nat := (r.filling.length + bytes.length) / r.entrySize

/-- Whether a packed log entry finds room. -/
def packRoom (n : Nat) (bytes : List Byte) (s : State) : Bool :=
  let r := getRing n s
  n != 0xFFFF && r.created && !r.stopped && decide (ringHeld r + fullEntries r bytes ≤ ringSize r) &&
    (fullEntries r bytes == 0 || ringReach r s)

/-- R195: bytes are packed into ring entries; an entry is published when it is full. The caller has checked room. (DEDUCED, unsafe: log 60.) -/
def packBytes (n : Nat) (bytes : List Byte) (s : State) : State :=
  let r := getRing n s
  let all := r.filling ++ bytes
  let k := fullEntries r bytes
  let s := each (chunks r.entrySize k all) (fun c s => publish n c s) s
  modRing n (fun r => { r with filling := all.drop (k * r.entrySize) }) s

/-- R196: an edge of a logged line. -/
def lineLog (code edge data : Nat) (dt : DT) (s : State) : State :=
  let l := s.lineLog
  if l.cfg.ring = 0xFFFF ∨ bit l.cfg.lines code = false then s
  else
    let last := tget (0, 0) l.last code
    if last.1 ≠ 0 ∧ dt.toNat < last.1.toNat + l.cfg.minGap then
      { s with lineLog := { l with last := tput (0, 0) l.last code (last.1, last.2 + 1) } }
    else
      let d := if code < 0x14 then last.2 else data
      let bytes := leBytes 8 dt.toNat ++ leBytes 1 code ++ leBytes 1 edge ++ leBytes 1 (b2n l.lost) ++ leBytes 1 0 ++
        leBytes 4 d
      if packRoom l.cfg.ring bytes s then
        packBytes l.cfg.ring bytes { s with lineLog := { l with last := tput (0, 0) l.last code (dt, 0), lost := false } }
      else { s with lineLog := { l with lost := true } }

/-! ## Delivery of events (R170, R177, R178) -/

/-- An event reaches every armed trigger unit that names its source. -/
def deliverTrig (source : Nat) (dt onset : DT) (s : State) : State :=
  each (List.range 6) (fun p s =>
    if (getTrig p s).armed && (getTrig p s).seq.inputs.contains source then
      modTrig p (fun u => { u with events := u.events ++ [{ source := source, dt := dt, onset := onset }] }) s
    else s) s

/-- Source codes (Table 9-1). -/
def srcMask (p i : Nat) : Nat := 0x100 + 4 * p + i
def srcTd (p : Nat) : Nat := 0x200 + p
def srcTrigIn (line : Nat) : Nat := 0x300 + line
def srcSegment (dac : Nat) : Nat := 0x400 + dac
def srcPmask (f : Nat) : Nat := 0x500 + f
def srcSeq (p : Nat) : Nat := 0x600 + p
def srcLimit (p : Nat) : Nat := 0x700 + p

/-! ## Masks (R171 to R174) -/

/-- R172: one point's violation after its test. -/
def pointViolated (senseBelow : Bool) (level hyst v : Int) (was : Bool) : Bool :=
  if senseBelow then level != below && (decide (v < level) || (was && decide (v < level + hyst)))
  else level != 32767 && (decide (level < v) || (was && decide (level - hyst < v)))

/-- R171, R172: the violation of every point after a spectrum. -/
def maskPoints (c : MaskCfg) (n : Nat) (levels : List Int) (was : List Bool) : List Bool :=
  let first := firstBinOf n c.firstBin
  (List.range c.points).map fun i =>
    let vs := (bucket first c.bpp i).map fun k => levels.getD k below
    pointViolated c.below (c.levels.getD i 32767) c.hyst (if c.below then minOf vs else maxOf vs) (was.getD i false)

/-- R174: RESTART or CLOCK_GAP first clears the mask. -/
def maskClear (m : Mask) : Mask := { m with violated := [], run := 0, onset := 0, fired := false }

/-- R173: a run after a spectrum that meets the mask or not: run, onset, fired, and whether it fires now. -/
def runStep (meets : Bool) (wanted run : Nat) (onset dt : DT) (fired : Bool) : Nat × DT × Bool × Bool :=
  if meets then
    let on := if run = 0 then dt else onset
    (run + 1, on, fired || decide (wanted ≤ run + 1), !fired && decide (wanted ≤ run + 1))
  else (0, 0, false, false)

/-- R171 to R174: a spectrum reaches one mask. -/
def maskTest (p i : Nat) (sp : Spectrum) (s : State) : State :=
  match tget none (getTrig p s).masks i with
  | none => s
  | some m =>
    let n := frameLen (getSpec p s).fft
    let m := if bit sp.flags 10 || bit sp.flags 11 then maskClear m else m
    let put := fun (m : Mask) => modTrig p (fun u => { u with masks := tput none u.masks i (some m) }) s
    if !m.cfg.enable then put m
    else if sp.flags % 65536 &&& m.cfg.ignore ≠ 0 ∨ binsFit n m.cfg.firstBin (m.cfg.points * m.cfg.bpp) = false then
      put { m with skipped := m.skipped + 1 }
    else
      let vs := maskPoints m.cfg n sp.levels m.violated
      let r := runStep (decide (m.cfg.minPoints ≤ (vs.filter id).length)) m.cfg.minSpectra m.run m.onset sp.dt m.fired
      let s := put { m with violated := vs, run := r.1, onset := r.2.1, fired := r.2.2.1 }
      if r.2.2.2 then deliverTrig (srcMask p i) sp.dt r.2.1 s else s

/-! ## Time domain (R176) -/

/-- R176: a detector window reaches the time-domain condition of the path's personality: values peak, RMS, envelope in
raw dy, port terms, record flags, EMPTY, window end. -/
def tdTest (p path : Nat) (values : List Int) (terms : Int) (flags : Nat) (empty : Bool) (windowEnd : DT) (s : State) : State :=
  match (getTrig p s).td with
  | none => s
  | some t =>
    let put := fun (t : TimeDomain) => modTrig p (fun u => { u with td := some t }) s
    if !t.cfg.enable || t.cfg.path != path || empty then s
    else if flags % 64 &&& t.cfg.ignore ≠ 0 then put { t with skipped := t.skipped + 1 }
    else
      let v := addTerms (values.getD t.cfg.detector below) terms
      let meets := pointViolated t.cfg.below t.cfg.level t.cfg.hyst v t.violated
      let r := runStep meets t.cfg.minWindows t.run t.onset windowEnd t.fired
      let s := put { t with violated := meets, run := r.1, onset := r.2.1, fired := r.2.2.1 }
      if r.2.2.2 then deliverTrig (srcTd p) windowEnd r.2.1 s else s

/-! ## Change log (R194, R195) -/

/-- Table 9-6: an entry of the spectral change log. -/
def changeEntry (p kind : Nat) (lost : Bool) (sp : Spectrum) (dt : DT) (points : List (Nat × Int)) : List Byte :=
  let body := leBytes 2 5 ++ leBytes 1 p ++ leBytes 1 (kind + 4 * b2n lost) ++ leBytes 2 points.length ++
    leBytes 2 sp.flags ++ leBytes 8 dt.toNat ++ (points.map fun q => leBytes 2 q.1 ++ leInt 2 q.2).flatten
  body ++ List.replicate ((16 - body.length % 16) % 16) 0xFF

/-- R195: an entry is packed, or dropped so that the next is a keyframe with LOST. -/
def logWrite (p : Nat) (bytes : List Byte) (l : ChangeLog) (s : State) : State :=
  if packRoom l.cfg.ring bytes s then
    packBytes l.cfg.ring bytes (modTrig p (fun u => { u with log := some { l with lost := false } }) s)
  else modTrig p (fun u => { u with log := some { l with lost := true, key := true } }) s

/-- R194, R195: a spectrum reaches the change log. -/
def logTest (p : Nat) (sp : Spectrum) (s : State) : State :=
  match (getTrig p s).log with
  | none => s
  | some l =>
    if !l.cfg.enable || (getSpec p s).limitStopped then s
    else
      let fl := sp.flags % 65536
      let dt := portDt p sp.dt.toNat s
      let changed := match l.lastFlags with
        | some f => f != fl
        | none => false
      let l := { l with key := l.key || bit fl 10 || bit fl 11, lastFlags := some fl }
      let s := modTrig p (fun u => { u with log := some l }) s
      let s := if changed then logWrite p (changeEntry p 2 l.lost sp dt []) l s else s
      match (getTrig p s).log with
      | none => s
      | some l =>
        if fl &&& l.cfg.ignore ≠ 0 then s
        else
          let n := frameLen (getSpec p s).fft
          let first := firstBinOf n l.cfg.firstBin
          let us := (List.range l.cfg.points).map fun i =>
            maxOf ((bucket first l.cfg.bpp i).map fun k => sp.levels.getD k below)
          let key := l.key || (l.cfg.keyframe != 0 && decide (l.cfg.keyframe ≤ l.since))
          let listed := us.zipIdx.filter fun q =>
            key || decide ((l.cfg.thresh : Int) < (q.1 - l.logged.getD q.2 below).natAbs)
          let l' : ChangeLog := { l with
            logged := us.zipIdx.map fun q => if listed.contains q then q.1 else l.logged.getD q.2 below
            since := if key then 1 else l.since + 1, key := false }
          if listed = [] then modTrig p (fun u => { u with log := some l' }) s
          else logWrite p (changeEntry p (b2n key) l.lost sp dt (listed.map fun q => (q.2, q.1))) l' s

/-! ## Limit tests (R182) -/

/-- Failing points of a trace record. -/
def limitFails (c : LimitCfg) (values : List Int) : Nat :=
  (values.zipIdx.filter fun q =>
    (c.upper.getD q.2 32767 != 32767 && decide (c.upper.getD q.2 32767 < q.1)) ||
    (c.lower.getD q.2 below != below && decide (q.1 < c.lower.getD q.2 below))).length

end Sys2Proof.Machine
end

