-- ==== Sys2Proof/Machine/Capture.lean ====
section
/-! DEFINITION. Capture units (09_trigger_and_capture.md, R184 to R193). -/

namespace Sys2Proof.Machine

/-- REC_LEN of the spectrum records of a personality as set now (R142, R184). -/
def specRecLen (p : Nat) (s : State) : Nat := recLen (selected (getSpec p s).fft).2

/-- Table 9-2: stored bytes of a unit. -/
def unitBytes (c : CapCfg) (s : State) : Nat :=
  if c.kind = 0 then 4 else if c.kind = 1 then 96 else specRecLen c.source s

/-- C of R184: units of a length that a segment holds, as staged and as armed. -/
def segmentUnits (c : CapCfg) (len : Nat) : Nat := c.bufSize / max 1 c.segments / max 1 len
def capUnits (c : CapCfg) (s : State) : Nat := segmentUnits c (unitBytes c s)
def capRoom (k : Capture) : Nat := segmentUnits k.cfg k.unitLen

/-- Unit period of the source in tk: P, 64, or V * H * P (R187). -/
def unitPeriod (c : CapCfg) (s : State) : Nat :=
  if c.kind = 0 then outPeriod c.source (getDdc c.source s).decim
  else if c.kind = 1 then 64
  else (getSpec c.source s).fft.avg * hopLen (getSpec c.source s).fft * outPeriod c.source (getDdc c.source s).decim

/-- R190: entries the index holds. -/
def indexRoom (c : CapCfg) : Nat := (if c.indexSize = 0 then c.bufSize / 256 else c.indexSize) / 24

/-- Post-trigger units written so far, the trigger sample first (R186). -/
def postCount (k : Capture) : Nat := k.written - k.trigPos

/-- R186: the record has its POST units. -/
def postDone (k : Capture) : Bool := k.trigSeen && decide (k.cfg.post ≤ postCount k)

/-- Units at or after a trigger's DT that have been written: those still kept, or, when the oldest kept lies after it, what
its distance from the newest makes them (R187). -/
def unitsSince (period : Nat) (dt : DT) (c : Capture) : Nat :=
  let kept := (c.units.filter fun u => dtLe dt u.1).length
  match c.units.head? with
  | some u => if kept = c.units.length ∧ kept < c.written ∧ dtLe dt u.1 then max kept (dtSub u.1 dt / max 1 period + 1) else kept
  | none => 0

/-- R185 to R187: a trigger starts the post phase: the trigger sample is the first unit at or after its DT, which may be
one still to come, and PRE' the units before it that are still kept, up to PRE. -/
def capTrigger (k : Nat) (dt : DT) (cls : Nat) (flags : Nat) (s : State) : State :=
  modCap k (fun c =>
    if c.phase = 1 ∧ dtLe c.armedAt dt = true then
      let post := unitsSince (unitPeriod c.cfg s) dt c
      { c with phase := 2, trigger := some (dt, cls), trigSeen := decide (0 < post), trigPos := c.written - post
               preKept := min c.cfg.pre (c.units.length - post)
               pendingFlags := c.pendingFlags ||| flags, lastTrigger := dt }
    else if c.phase = 2 then { c with missed := c.missed + 1, lastTrigger := dt }
    else c) s

/-- R186: flags and TRIG_INDEX of a record that ends with so many post units. -/
def recordFlags (pre preKept post cap : Nat) : Nat :=
  b2n (decide (cap < preKept + post)) + 2 * b2n (decide (cap < post)) + 4 * b2n (decide (preKept < pre))
def trigIndex (preKept post cap : Nat) : Nat :=
  if cap < post then 2 ^ 64 - 1 else preKept - (preKept + post - cap)

/-- Stages, shift and NCO word of a record that starts with the unit at an instant (Table 9-4). -/
def capMark (k : Capture) (first : DT) : Nat × Nat × Nat :=
  match k.marks.find? fun m => dtLe m.1 first with
  | some m => m.2
  | none => (k.marks.getLast?.map (·.2)).getD (0, 0, 0)

/-- Range state of the first retained group; 0 on slot paths (Table 9-4). -/
def capRange (c : CapCfg) (first : Nat) (s : State) : Nat := if isSlotPath c.source && c.kind == 0 then 0 else rangeAt c.source first s

/-- The record a capture leaves when it ends now with extra flags (R186, R191). -/
def capRecord (k extra : Nat) (s : State) : Record :=
  let c := getCap k s
  let cap := capRoom c
  match c.trigger with
  | some (dt, cls) =>
    let post := if c.trigSeen then min (postCount c) c.cfg.post else 0
    let pre := if c.trigSeen then c.preKept else min c.cfg.pre c.units.length
    let keep := (c.units.drop (if c.trigSeen then postCount c - post else 0)).take (min cap (pre + post))
    let first := (keep.getLast?.map (·.1)).getD 0
    let mark := capMark c first
    { full := true
      flags := recordFlags c.cfg.pre pre post cap ||| c.pendingFlags ||| extra
      units := keep.reverse
      index := (c.index.filter fun e => keep.any fun u => decide (u.1.toNat < e.1.toNat + 64 * unitPeriod c.cfg s)).reverse
      dtTrigger := dt, trigIndex := if c.trigSeen then trigIndex pre post cap else 2 ^ 64 - 1, trigClass := cls
      stages := mark.1, shift := mark.2.1, range := capRange c.cfg first.toNat s, nco := mark.2.2 }
  | none =>
    let first := (c.units.getLast?.map (·.1)).getD 0
    let mark := capMark c first
    { full := true, flags := 2 ||| c.pendingFlags ||| extra, units := (c.units.take cap).reverse
      index := c.index.reverse, dtTrigger := 0, trigIndex := 2 ^ 64 - 1, trigClass := 0xFF
      stages := mark.1, shift := mark.2.1, range := capRange c.cfg first.toNat s, nco := mark.2.2 }

/-- R188: what follows a record: the capture stops, or the next segment fills. -/
def capNext (c : Capture) (dt : DT) (goOn : Bool) : Capture :=
  let clear : Capture := { c with units := [], index := [], written := 0, trigger := none, trigSeen := false
                                  trigPos := 0, preKept := 0, pendingFlags := 0, stopAt := none }
  let next := c.segment + 1
  if !goOn || c.cfg.mode = 0 || (c.cfg.mode = 1 && decide (c.cfg.segments ≤ next)) then { clear with phase := 3 }
  else { clear with phase := 1, segment := next % max 1 c.cfg.segments, armedAt := dt }

/-- The running record of a capture ends now: it is kept, EV_CAP_DONE is posted, and the capture stops or goes on. -/
def capEnd (k extra : Nat) (goOn : Bool) (s : State) : State :=
  let c := getCap k s
  if c.phase = 1 ∨ c.phase = 2 then
    let r := capRecord k extra s
    let endDt := (r.units.getLast?.map (·.1)).getD s.dt
    let s := modCap k (fun c => capNext { c with records := tput {} c.records c.segment r } endDt goOn) s
    eventAt endDt 0x0C01 0 k [(16, 1, k), (17, 1, c.segment), (18, 2, r.flags), (24, 8, r.units.length)] s
  else s

/-- R191: STOPPED, OVERFLOW and CLOCK_GAP flags of Table 9-4. -/
def capStopped : Nat := 128
def capOverflow : Nat := 32
def capForced : Nat := 256
def capGap : Nat := 512

/-- R189: a unit about to be overwritten goes to the spill ring, or is lost with SPILL_LAG. -/
def capSpill (k : Nat) (u : DT × Nat) (s : State) : State :=
  let c := getCap k s
  if c.cfg.spillRing = 0xFFFF then modCap k (fun c => { c with overwritten := c.overwritten + 1 }) s
  else
    let bytes := leBytes c.unitLen u.2
    if packRoom c.cfg.spillRing bytes s then
      packBytes c.cfg.spillRing bytes (modCap k (fun c => { c with pendingFlags := c.pendingFlags ||| 8 }) s)
    else modCap k (fun c => { c with overwritten := c.overwritten + 1, pendingFlags := c.pendingFlags ||| 0x11 }) s

/-- R185: a unit at or after the trigger's DT is the trigger sample when none before it was. -/
def trigHere (c : Capture) (dt : DT) : Bool :=
  !c.trigSeen && (match c.trigger with
    | some t => dtLe t.1 dt
    | none => false)

/-- R183: the record takes nothing that is delivered at or after the DT that a limit violation set. -/
def capCut (c : Capture) (s : State) : Bool := c.stopAt.any fun d => dtLe d s.dt

/-- R185, R186, R189: one unit enters the segment being filled; once the record has its POST units it takes no more. -/
def capFeed (k : Nat) (u : DT × Nat) (s : State) : State :=
  let c := getCap k s
  if (c.phase = 1 ∨ c.phase = 2) ∧ postDone c = false ∧ dtLe c.armedAt u.1 = true ∧ capCut c s = false then
    let cap := capRoom c
    let s := match c.units.getLast? with
      | some old => if cap ≤ c.units.length then capSpill k old s else s
      | none => s
    modCap k (fun c => { c with
      units := (u :: c.units).take cap, written := c.written + 1
      trigSeen := c.trigSeen || trigHere c u.1
      trigPos := if trigHere c u.1 then c.written else c.trigPos
      preKept := if trigHere c u.1 then min c.cfg.pre c.units.length else c.preKept }) s
  else s

/-- R190: entries of a capture's index whose groups are not overwritten; span is the time of a group. -/
def indexKept (span : Nat) (c : Capture) : List (DT × Nat) :=
  if c.units.length < capRoom c then c.index
  else c.index.filter fun e => c.units.any fun u => decide (u.1.toNat < e.1.toNat + span)

/-- R190: the sideband of a group that is not clean joins the index, in the place of one of the same group. A full index
stops accepting entries. -/
def capIndex (k : Nat) (dt : DT) (entry : Nat) (s : State) : State :=
  modCap k (fun c =>
    let kept := indexKept (64 * unitPeriod c.cfg s) c
    if c.phase ≠ 1 ∧ c.phase ≠ 2 then c
    else if c.index.any fun e => e.1 == dt then { c with index := c.index.map fun e => if e.1 = dt then (dt, entry) else e }
    else if bit c.pendingFlags 6 = false ∧ kept.length < indexRoom c.cfg then { c with index := (dt, entry) :: kept }
    else { c with pendingFlags := c.pendingFlags ||| 64 }) s

/-- Table 9-4: the settings from a unit on. -/
def capNote (k : Nat) (dt : DT) (m : Nat × Nat × Nat) (s : State) : State :=
  modCap k (fun c => if (c.marks.head?.map (·.2)) = some m then c else { c with marks := (dt, m) :: c.marks.take 255 }) s

/-- Captures that take a source and are armed. -/
def capsOf (kind source : Nat) (s : State) : List Nat :=
  (List.range 16).filter fun k => (getCap k s).isSet && (getCap k s).cfg.kind == kind && (getCap k s).cfg.source == source

/-- Table 6-3 as one number. -/
def groupSideband (g : GroupInfo) (decim shift : Nat) : Nat :=
  leNat (leBytes 8 g.dt.toNat ++ leBytes 8 g.valid ++ leBytes 1 g.flags ++ leBytes 1 (stageField decim) ++ leBytes 1 shift)

/-- R190: a DDC group that is not clean. -/
def groupDirty (g : GroupInfo) : Bool := g.valid != 2 ^ 64 - 1 || g.flags != 0

/-- KIND 0: the outputs of a path's next DDC group reach the captures of the path. -/
def capDdcGroup (path : Nat) (s : State) : State :=
  let c := chainOut (getDdc path s)
  let g := groupInfo path c s
  let outs := (g.samples.zip (groupTimes path c)).filter fun q => delivers c q.2
  each (capsOf 0 path s) (fun k s =>
    let s := capNote k g.dt (stageField g.decim, g.shift, g.f) s
    let s := if groupDirty g then capIndex k g.dt (groupSideband g g.decim g.shift) s else s
    each outs (fun q => capFeed k (dtAdd 0 q.2, sampleWord q.1)) s) s

/-- Two 12-bit codes in each 24-bit word, the earlier in [11:0] (Table 9-2). -/
def rawGroup : List Int → Nat
  | [] => 0
  | v :: rest => (v % 4096).toNat + 4096 * rawGroup rest

/-- R190: the sideband of the raw group of a channel at a DT, as it stands now, when it is not clean. -/
def capRawIndex (ch : Nat) (dt : DT) (s : State) : State :=
  let w := (getRf ch s).sideband.toNat
  if (getRf ch s).lastGroup = some dt ∧ (w / 64 % 16 ≠ 0 ∨ bit w 10 = false) then
    each (capsOf 1 ch s) (fun k => capIndex k dt (leNat (leBytes 8 dt.toNat ++ leBytes 2 w))) s
  else s

/-- KIND 1: a raw RF group reaches the captures of its channel; an OVR group changes the entry of its partner's group of the
same DT (R101). -/
def capRawGroup (ch : Nat) (codes : List Int) (s : State) : State :=
  let s := capRawIndex (partner ch) s.dt (capRawIndex ch s.dt s)
  each (capsOf 1 ch s) (fun k => capFeed k (s.dt, rawGroup codes)) s

/-- KIND 2: a spectrum record reaches the captures of its personality; t_m decides (R185). -/
def capSpectrum (p f : Nat) (dt : DT) (bytes : List Byte) (s : State) : State :=
  each (capsOf 2 p s) (fun k s => capFeed k (dt, leNat bytes) (capNote k dt (0, 0, f) s)) s

/-- R192, Table 9-4: the bytes of a record. -/
def capBytes (k : Nat) (r : Record) (s : State) : List Byte :=
  let c := (getCap k s).cfg
  let body := (r.units.map fun u => leBytes (getCap k s).unitLen u.2).flatten ++ (r.index.map fun e => leBytes 24 e.2).flatten
  let len := ceilDiv (64 + body.length) 64 * 64
  let first := (r.units.head?.map (·.1.toNat)).getD 0
  let port := if c.kind = 0 ∧ isSlotPath c.source = true then BitVec.ofNat 64 first else portDt c.source first s
  padZero 64 (leBytes 2 4 ++ leBytes 1 k ++ leBytes 1 c.kind ++ leBytes 2 c.source ++ leBytes 2 r.flags ++
    leBytes 8 len ++ leBytes 8 port.toNat ++ leBytes 8 r.dtTrigger.toNat ++ leBytes 8 r.units.length ++
    leBytes 8 r.trigIndex ++ leBytes 4 r.index.length ++ leBytes 1 r.stages ++ leBytes 1 r.shift ++
    leBytes 1 r.range ++ leBytes 1 r.trigClass ++ leBytes 8 r.nco ++ body)

/-- R188: CAP.ARM lands. -/
def capArmLand (k : Nat) (arm : Bool) (s : State) : State :=
  let c := getCap k s
  if arm then
    if c.phase = 1 ∨ c.phase = 2 then s
    else modCap k (fun c => { c with phase := 1, armedAt := s.dt, segment := 0, records := [], units := [], index := []
                                     written := 0, trigger := none, trigSeen := false, trigPos := 0, preKept := 0
                                     pendingFlags := c.pendingFlags &&& capGap, stopAt := none
                                     unitLen := unitBytes c.cfg s, marks := [], missed := 0, overwritten := 0 }) s
  else if c.phase = 2 then capEnd k capStopped false s
  else modCap k (fun c => { c with phase := 0, units := [], index := [], written := 0, pendingFlags := c.pendingFlags &&& capGap }) s

/-- R183, R359: the captures bound to a personality by their source (R17). -/
def capsOfPersonality (p : Nat) (s : State) : List Nat :=
  (List.range 16).filter fun k =>
    let c := getCap k s
    c.isSet && (if c.cfg.kind = 0 then (if isSlotPath c.cfg.source then 4 + (c.cfg.source - 16) / 16 else c.cfg.source) == p
                else c.cfg.source == p)

/-- R74, R192: a clock absence ends the running record; the next record of the capture carries CLOCK_GAP, be
it armed or not, and what was retained before the absence is no part of it. -/
def capGapAt (k : Nat) (s : State) : State :=
  let s := if (getCap k s).phase = 2 then capEnd k 0 true s else s
  modCap k (fun c => if !c.isSet then c else { c with
    units := [], index := [], written := 0, pendingFlags := c.pendingFlags ||| capGap }) s

/-- End the armed captures of a list with a flag. -/
def capsStop (ks : List Nat) (flag : Nat) (s : State) : State := each ks (fun k => capEnd k flag false) s

/-- R183: the captures of a list end with what is delivered before a DT. -/
def capsStopAt (ks : List Nat) (dt : DT) (s : State) : State :=
  if dtLe dt s.dt then capsStop ks capStopped s else each ks (fun k => modCap k (fun c => { c with stopAt := some dt })) s

end Sys2Proof.Machine
end

