-- ==== Sys2Proof/Machine/Generator.lean ====
section
/-! DEFINITION. The probe and stimulus generator (10_probe_and_stimulus_generator.md) and the optical energy governor
(11_distributed_acoustic_sensing.md, R234 to R236). -/

namespace Sys2Proof.Machine

/-! ## Ownership (R16, R200) -/

/-- R16: a fibre personality runs. -/
def fibreRuns (f : Nat) (s : State) : Bool := (getFibre f s).das || (getFibre f s).dts

/-- R216: the DAC is present and its fibre owns it. -/
def dacOwned (d : Nat) (s : State) : Bool := dacPresent d s && decide (d < 2) && fibreRuns d s

/-! ## The sequence (R207 to R209) -/

/-- Where a walk of the table stands: entry, plays done of it, loop counters. -/
structure Walk where
  entry : Nat
  plays : Nat
  loops : Table Nat
  deriving DecidableEq, Repr

/-- R209: what follows a play, given whether STOP_COND and JUMP_COND are pending: the next play (0 again, 1 anew), or
none for a stop with its cause. -/
def follow (tbl : List SeqEntry) (w : Walk) (stop jump : Bool) : Option (Walk × Nat) × Nat :=
  match tbl[w.entry]? with
  | none => (none, 1)
  | some e =>
    let enter := fun (k : Nat) (loops : Table Nat) => (some ({ entry := k, plays := 1, loops := loops }, 1), 0)
    if stop then (none, 2)
    else if jump then enter e.jumpTo (tput 0 w.loops w.entry 0)
    else if e.repeats = 0 ∨ w.plays < e.repeats then
      (some ({ w with plays := if e.repeats = 0 then w.plays else w.plays + 1 }, 0), 0)
    else if tget 0 w.loops w.entry < e.loopCount then enter e.loopTo (tmod 0 w.loops w.entry (· + 1))
    else
      let loops := tput 0 w.loops w.entry 0
      if bit e.flags 8 ∨ (e.next = 0xFFFF ∧ w.entry + 1 = tbl.length) then (none, 1)
      else enter (if e.next = 0xFFFF then w.entry + 1 else e.next) loops

/-- Table 10-3: the pending bit a condition tests; none for source 0. -/
def condBit (cond : Nat) : Option Nat := if cond % 16 = 0 then none else some (16 * (cond % 16) + cond / 16)

/-- R208: a condition is pending. -/
def condPending (g : Gen) (cond : Nat) : Bool :=
  match condBit cond with
  | some b => g.pending.contains b
  | none => false

/-- The segment an entry plays. -/
def segOf (g : Gen) (entry : Nat) : Option SegCfg :=
  match g.table[entry]? with
  | some e => tget none g.segments e.segment
  | none => none

/-- Length of an entry's play in tk: granules of 128 tk. -/
def playTk (g : Gen) (entry : Nat) : Nat :=
  match segOf g entry with
  | some c => 128 * c.length
  | none => 0

/-- DT at which the current play ends; what lands there changes the next play. -/
def playEnd (g : Gen) : DT := dtAdd g.segStart (match g.play with
  | some p => 128 * p.cfg.length
  | none => 0)

/-- The granule of the play under way that a DT falls into. (DESIGN CHOICE, unsafe: log 21.) -/
def granuleStart (g : Gen) (t : DT) : DT := dtAdd g.segStart (dtSub t g.segStart / 128 * 128)

/-- Table 10-1: bytes of a granule. -/
def granuleBytes (c : SegCfg) : Nat := if c.carrier then 8 * c.lanes + 64 else 192

/-- R212: the cells of DRAM that the on-die buffer takes for a resident segment. -/
def heldCells (m : Mem) (c : SegCfg) : Mem :=
  if c.resident then m.filter fun x => decide (c.addr ≤ x.1) && decide (x.1 < c.addr + c.length * granuleBytes c) else []

/-- The play an entry makes with the segments, carriers and bias in force. -/
def playOf (g : Gen) (entry : Nat) : Option Play :=
  match segOf g entry with
  | some c => some { cfg := c, held := tget [] g.held ((g.table[entry]?.map (·.segment)).getD 0), carriers := g.carriers, bias := g.bias }
  | none => none

/-- R212: where the samples of a play are read: the buffer for a resident segment, else DRAM. -/
def playMem (p : Play) (dram : Mem) : Mem := if p.cfg.resident then p.held else dram

/-! ## Samples (R203 to R206, R210) -/

/-- Address of the granule of a sample. -/
def granuleAt (c : SegCfg) (i : Nat) : Nat := c.addr + i / 64 * granuleBytes c

/-- Table 10-1: envelope sample j of a lane; zero for a lane the segment lacks (R204). -/
def laneSample (dram : Mem) (p : Play) (j l : Nat) : Int × Int :=
  if p.cfg.carrier = true ∧ l < p.cfg.lanes ∧ j < 2 * p.cfg.length then
    let a := granuleAt p.cfg (32 * j) + 4 * (j % 2 * p.cfg.lanes + l)
    (signed 16 (readLe (playMem p dram) a 2), signed 16 (readLe (playMem p dram) (a + 2) 2))
  else (0, 0)

/-- R204: the envelope of a lane runs on across the boundaries of the play. -/
def envelopeAt (dram : Mem) (g : Gen) (p : Play) (next : Option Play) (j : Int) (l : Nat) : Int × Int :=
  if j < 0 then (if -16 ≤ j then (g.tail.getD (16 + j).toNat []).getD l (0, 0) else (0, 0))
  else if j.toNat < 2 * p.cfg.length then laneSample dram p j.toNat l
  else match next with
    | some q => laneSample dram q (j.toNat - 2 * p.cfg.length) l
    | none => (0, 0)

/-- R204: the envelope of a lane at DAC sample i, from 16 envelope samples (1,024 tk) to each side, in units of 2^-24. -/
def envelopeNear (dram : Mem) (g : Gen) (p : Play) (next : Option Play) (i l : Nat) : Int × Int :=
  let terms := (List.range 33).map fun o =>
    let j : Int := (i / 32 : Nat) + (o : Int) - 16
    let away := (2 * (i : Int) - 64 * j).natAbs
    let c : Int := if away ≤ 1024 then Config.envelopeTap away else 0
    let e := envelopeAt dram g p next j l
    (c * e.1, c * e.2)
  ((terms.map (·.1)).sum, (terms.map (·.2)).sum)

/-- R204, R206: the code of DAC sample i of a play before it saturates. -/
def codeOf (dram : Mem) (g : Gen) (p : Play) (next : Option Play) (i : Nat) : Int :=
  if p.cfg.carrier then
    let lanes := (List.range p.cfg.lanes).map fun l =>
      let k := tget (0, 0) p.carriers l
      let z := circle 48 (mixerAcc k.1 k.2 (dtAdd g.segStart (2 * i)).toNat)
      let e := envelopeNear dram g p next i l
      e.1 * z.1 - e.2 * z.2
    roundEven (p.bias * 2 ^ 106 + lanes.sum) (2 ^ 106)
  else signed 16 (readLe (playMem p dram) (granuleAt p.cfg i + 2 * (i % 64)) 2) / 4

/-- R201, R204: sat14. -/
def sat14 (v : Int) : Int := clamp (-8192) 8191 v

/-- R203: the marker byte of DAC sample i. -/
def markerByte (dram : Mem) (p : Play) (i : Nat) : Nat :=
  readLe (playMem p dram) (granuleAt p.cfg i + granuleBytes p.cfg - 64 + i % 64) 1

/-- R205, R214: the sample is replaced by IDLE, with the markers at 0. -/
def sampleIdle (g : Gen) (i : Nat) : Bool := match g.missing with
  | some m => dtLe m (dtAdd g.segStart (2 * i))
  | none => false

/-- R201, R205: the code and the marker byte at the output of a DAC at sample i of its play. -/
def dacOut (d : Nat) (next : Option Play) (i : Nat) (s : State) : Int × Nat :=
  let g := getGen d s
  match g.play with
  | some p => if sampleIdle g i then (p.cfg.idle, 0) else (sat14 (codeOf s.dram g p next i), markerByte s.dram p i)
  | none => (g.lastIdle, 0)

/-- R210, R196: the marker byte of a DAC changes: an edge on each line routed to it. -/
def markersTo (d new : Nat) (dt : DT) (s : State) : State :=
  let old := (getGen d s).markers
  let s := each ((List.range 8).filter fun m => (bit s.route.markDac m == (d == 1)) && (bit old m != bit new m))
    (fun m => lineLog m (b2n (bit new m)) 0 dt) s
  modGen d (fun g => { g with markers := new }) s

/-- R204, R210: one sample has left: the markers follow it, and CLIP_SAMPLES counts it if it saturated. -/
def sampleOut (d : Nat) (next : Option Play) (i : Nat) (s : State) : State :=
  let g := getGen d s
  let clipped := match g.play with
    | some p => !sampleIdle g i && decide (sat14 (codeOf s.dram g p next i) ≠ codeOf s.dram g p next i)
    | none => false
  modGen d (fun g => { g with clip := g.clip + b2n clipped })
    (markersTo d (dacOut d next i s).2 (dtAdd g.segStart (2 * i)) s)

/-- Samples of the play under way that have left by now. -/
def samplesOut (g : Gen) (now : DT) : Nat := match g.play with
  | some p => if dtLe g.segStart now then min (64 * p.cfg.length) (ceilDiv (dtSub now g.segStart) 2) else 0
  | none => 0

/-- The play under way ends here; its samples are out, and its last envelope samples stand for the next one. -/
def playOut (d : Nat) (next : Option Play) (s : State) : State :=
  let g := getGen d s
  let s := each (List.range (samplesOut g s.dt)) (sampleOut d next) s
  modGen d (fun x => { x with
    play := none
    tail := match g.play with
      | some p => if g.missing.isSome then [] else (List.range 16).map fun k =>
          (List.range 8).map fun l => laneSample s.dram p (2 * p.cfg.length + k - 16) l
      | none => [] }) s

/-- Resident and streamed segments of a generator (R212): a segment is streamed when the table plays it and it is not
resident. -/
def residentBytes (g : Gen) : Nat :=
  (g.segments.map fun e => match e.2 with
    | some c => if c.resident then c.length * granuleBytes c else 0
    | none => 0).sum
def streamed (g : Gen) : List SegCfg :=
  (g.table.filterMap fun e => tget none g.segments e.segment).filter fun c => !c.resident

/-- R213: refill charge in B/s. -/
def refillCharge (g : Gen) : Nat := ((streamed g).map granuleBytes).foldl max 0 * 160000000

/-- R212: the resident segments fit, with 512 KiB left for the FIFO when any segment is streamed. -/
def bufferFits (g : Gen) : Bool :=
  decide (residentBytes g + (if streamed g = [] then 0 else 524288) ≤ 4194304)

/-- R212: JUMP_TO targets of entries with a JUMP_COND, and RESUME entries, are resident. -/
def residencyHolds (g : Gen) : Bool :=
  let resident := fun k => match segOf g k with
    | some c => c.resident
    | none => true
  g.table.zipIdx.all fun e =>
    (condBit e.1.jumpCond == none || resident e.1.jumpTo) && (!bit e.1.flags 0 || resident e.2)

/-! ## Governor (R234, R235) -/

/-- R234: transmission of a code times 65,535 * 4,032, exactly: 257 points, the last at +8,191. -/
def transfer (table : List Nat) (code : Int) : Nat :=
  let x := (clamp (-8192) 8191 code + 8192).toNat
  let j := x / 64
  let r := x % 64
  let a := table.getD j 0
  let b := table.getD (j + 1) 0
  let w := if j = 255 then 64 * r else 63 * r
  a * (4032 - w) + b * w

/-- The largest transmission over a range of codes. -/
def transferMax (table : List Nat) (lo hi : Int) : Nat :=
  ((List.range ((clamp (-8192) 8191 hi - clamp (-8192) 8191 lo).toNat + 1)).map fun i =>
    transfer table (clamp (-8192) 8191 lo + i)).foldl max 0

/-- Magnitude of an envelope sample, rounded up. (DEDUCED, unsafe: log 64.) -/
def envMag (m : Mem) (a : Nat) : Nat :=
  let v := (signed 16 (readLe m a 2)).natAbs ^ 2 + (signed 16 (readLe m (a + 2) 2)).natAbs ^ 2
  let r := isqrt v
  if r * r = v then r else r + 1

/-- R235: the transmission that counts for each DAC sample of a segment: direct samples at their code, carrier samples
at the largest over the codes they can reach. -/
def segPower (table : List Nat) (p : Play) (dram : Mem) : List Nat :=
  let c := p.cfg
  let m := playMem p dram
  ((List.range c.length).map fun g =>
    let a := c.addr + g * granuleBytes c
    if c.carrier then
      ([0, 1].map fun e =>
        let reach := ((List.range c.lanes).map fun l => envMag m (a + 4 * (e * c.lanes + l))).sum
        List.replicate 32 (transferMax table (p.bias - ceilDiv reach 4) (p.bias + ceilDiv reach 4))).flatten
    else (List.range 64).map fun i => transfer table (signed 16 (readLe m (a + 2 * i) 2) / 4)).flatten

/-- The plays that can follow a play (R235): every condition may hold or not. -/
def followAll (tbl : List SeqEntry) (w : Walk) : List (Option Walk) :=
  match tbl[w.entry]? with
  | none => [none]
  | some e =>
    let base := (follow tbl w false false).1.map (·.1)
    [base] ++ (if condBit e.jumpCond = none then [] else [(follow tbl w false true).1.map (·.1)]) ++
      (if condBit e.stopCond = none then [] else [none])

/-- Every play state a set of starts can reach. -/
def reachable (tbl : List SeqEntry) : Nat → List Walk → List Walk → List Walk
  | 0, _, seen => seen
  | _ + 1, [], seen => seen
  | n + 1, w :: rest, seen =>
    if seen.contains w then reachable tbl n rest seen
    else reachable tbl n ((followAll tbl w).filterMap id ++ rest) (w :: seen)

/-- The largest sum over the next n samples that begin with a play at a given state, each play at least 1,024 samples
long, so that n + 1 plays suffice. -/
def windowMax (tbl : List SeqEntry) (power : Nat → List Nat) (idle : Nat) : Nat → Nat → Option Walk → Nat
  | 0, _, _ => 0
  | _ + 1, n, none => n * idle
  | k + 1, n, some w =>
    let p := power w.entry
    if n ≤ p.length ∨ p = [] then (p.take n).sum
    else p.sum + (((followAll tbl w).map fun v => windowMax tbl power idle k (n - p.length) v).foldl max 0)

/-- R235: the largest sum over any window of n samples of any walk. -/
def worstWindow (g : Gen) (table : List Nat) (m : Mem) (n : Nat) : Nat :=
  let power := fun k => match playOf g k with
    | some p => segPower table p m
    | none => []
  let starts := [g.startEntry] ++ (g.table.zipIdx.filterMap fun e => if bit e.1.flags 0 then some e.2 else none) ++
    (g.table.filterMap fun e => if condBit e.jumpCond = none then none else some e.jumpTo)
  let states := reachable g.table (2 ^ 80) (starts.map fun k => { entry := k, plays := 1, loops := [] }) []
  (states.map fun w =>
    let p := power w.entry
    let idle := match segOf g w.entry with
      | some c => transfer table c.idle
      | none => 0
    ((List.range p.length).map fun i =>
      let here := (p.drop i).take n
      if here.length = n then here.sum
      else here.sum + (((followAll g.table w).map fun v =>
        windowMax g.table power idle (n + 1) (n - here.length) v).foldl max 0)).foldl max 0).foldl max 0

/-- R235, Table 11-5: why the governor refuses what a generator could play; none when each measure is at most 0.99 of
its cap, or when nothing is loaded (DESIGN CHOICE, unsafe: log 22). -/
def governorRefuses (d : Nat) (s : State) : Option Nat :=
  let g := getGen d s
  if g.table = [] then none
  else match (getGov d s).modcal, (getGov d s).caps with
    | some (pRef, table), some c =>
      let unit := 65535 * 4032
      let peak := worstWindow g table s.dram 1
      let pulse := worstWindow g table s.dram (c.pulseWindow / 2)
      let avg := worstWindow g table s.dram (c.avgWindow / 2)
      if 99 * c.peak * unit < 100 * peak * pRef then some 0x10
      else if 99 * c.pulse * unit * 10 ^ 14 < 100 * pulse * pRef * 9765625 then some 0x11
      else if 99 * c.avg * unit * c.avgWindow < 100 * avg * pRef * 2 then some 0x12
      else none
    | _, _ => some 0x13

/-! ## LASER_EN (R236) -/

/-- R236: whether LASER_EN rises at a segment start now. -/
def laserMayRise (s : State) : Bool :=
  let owned := [0, 1].filter fun d => dacOwned d s
  !owned.isEmpty && (owned.all fun d => (getGov d s).armed && !(getGov d s).tripped) && s.laser.permit &&
    decide (10 * tkMs ≤ dtSub s.dt s.laser.permitAt) && planeRuns s

/-- At a segment start of an owned DAC, LASER_EN rises when nothing holds it. -/
def laserRise (d : Nat) (s : State) : State :=
  if dacOwned d s && !s.laser.en && laserMayRise s then laserSwitch true s else s

/-- R236, Table 11-6: a trip is latched for a DAC and cuts the laser: 1 peak, 2 pulse, 3 average, 4 permit. -/
def laserTrip (measure d : Nat) (s : State) : State :=
  let s := laserCut s
  let s := { s with laser := { s.laser with trip := measure, tripDac := d } }
  each [0, 1] (fun k s =>
    if dacOwned k s && (k == d || measure == 4) then modGov k (fun g => { g with tripped := true, disarmed := false }) s
    else s) s

/-- R236: LASER.ARM lands; a latched trip is cleared by ACTION 0 followed by ACTION 1. -/
def laserArmLand (d : Nat) (arm : Bool) (s : State) : State :=
  if arm then
    let s := modGov d (fun g => { g with armed := true, tripped := g.tripped && !g.disarmed, disarmed := false }) s
    if (getGov 0 s).tripped || (getGov 1 s).tripped then s
    else { s with laser := { s.laser with trip := 0, tripDac := 0 } }
  else
    let s := modGov d (fun g => { g with armed := false, disarmed := g.tripped }) s
    if dacOwned d s then laserCut s else s

/-! ## Playing (R208 to R215) -/

/-- R211: the pulse, the trigger event and the line log entry of one TRIG_OUT line. -/
def trigOutPulse (entry : Nat) (d line : Nat) (s : State) : State :=
  if (bit s.route.trigDac line) == (d == 1) then
    let edge := dtAdd 0 (ceilDiv s.dt.toNat 16 * 16)
    lineLog (0x18 + line) 2 entry edge
      { s with route := { s.route with trigOut := s.route.trigOut ||| 2 ^ line } }
  else s

/-- R211: an epoch starts: the generator counts it. -/
def epochStart (d entry : Nat) (s : State) : State :=
  modGen d (fun g => { g with epoch := g.epoch + 1, epochDt := s.dt, epochEntry := entry }) s

/-- R211: what a segment start does at its DT: TRIG_OUT pulses, the trigger event and its request line, the epoch. The
entry acts at every play with EVERY, else when it is entered. -/
def segmentMarks (d entry : Nat) (entered : Bool) (s : State) : State :=
  match (getGen d s).table[entry]? with
  | none => s
  | some e =>
    if entered || bit e.flags 3 then
      let s := each ((List.range 4).filter fun i => bit e.flags (4 + i)) (trigOutPulse entry d) s
      let s := if bit e.flags 2 then raiseLine (130 + d) 1 (deliverTrig (srcSegment d) s.dt s.dt s) else s
      if bit e.flags 1 then epochStart d entry s else s
    else s

/-- R209: a play of an entry begins at a DT. -/
def playBegin (d : Nat) (start : DT) (w : Walk) (entered : Bool) (s : State) : State :=
  let s := modGen d (fun g => { g with
    running := true, entry := w.entry, plays := w.plays, loops := w.loops, latched := none, segStart := start
    missing := none, play := playOf g w.entry
    played := if g.played.contains w.entry then g.played else g.played ++ [w.entry]
    lastIdle := match segOf g w.entry with
      | some c => c.idle
      | none => g.lastIdle }) s
  laserRise d (segmentMarks d w.entry entered s)

/-- R7, R78: the first DAC sample at or after now: a multiple of 2 tk. -/
def dacSample (s : State) : DT := dtAdd 0 (ceilDiv s.dt.toNat 2 * 2)

/-- R208: a start lands: pending bits cleared, counters reset, epochs counted from here. -/
def genBegin (d entry : Nat) (s : State) : State :=
  let s := modGen d (fun g => { g with pending := [], epoch := 0, played := [], gapped := false, tail := []
                                       stimulus := g.stimulus || !fibreRuns d s }) s
  playBegin d (dacSample s) { entry := entry, plays := 1, loops := [] } true s

/-- R205, R209: the sequence stops: IDLE from now on; EV_GEN_STOPPED. -/
def genEnd (d cause : Nat) (s : State) : State :=
  let g := getGen d s
  if g.running then
    let s := markersTo d 0 s.dt (playOut d none s)
    let s := modGen d (fun g => { g with running := false, tail := [], latched := none, pending := []
                                         stimulus := g.stimulus && decide (cause ≠ 3) }) s
    event 0x0D02 0 d [(16, 1, d), (17, 1, cause), (18, 2, g.entry), (24, 8, (if cause = 4 then g.missing.getD s.dt else s.dt).toNat)] s
  else s

/-- R209: the latch point: what follows is fixed, and the bit a stop or a jump acts on is consumed. -/
def genLatch (d : Nat) (s : State) : State :=
  let g := getGen d s
  match g.table[g.entry]? with
  | none => s
  | some e =>
    let stop := condPending g e.stopCond
    let jump := !stop && condPending g e.jumpCond
    let used := if stop then condBit e.stopCond else if jump then condBit e.jumpCond else none
    let r := follow g.table { entry := g.entry, plays := g.plays, loops := g.loops } stop jump
    modGen d (fun g => { g with
      latched := some (r.1.map (·.1.entry), match r.1 with
        | some (_, k) => k
        | none => r.2)
      plays := match r.1 with
        | some (w, _) => w.plays
        | none => g.plays
      loops := match r.1 with
        | some (w, _) => w.loops
        | none => g.loops
      pending := match used with
        | some b => g.pending.filter (· != b)
        | none => g.pending }) s

/-- R209: the latch point of the play under way has come. -/
def latchDue (d : Nat) (s : State) : State :=
  let g := getGen d s
  if g.running = true ∧ g.latched = none ∧ dtLe (playEnd g) (dtAdd s.dt 512) = true then genLatch d s else s

/-- R208, R209: a request is delivered to a generator; from the latch point on it counts for the next play. -/
def genPend (b d : Nat) (s : State) : State :=
  modGen d (fun g => if g.running && !g.pending.contains b then { g with pending := g.pending ++ [b] } else g) (latchDue d s)

/-- R208: a request is delivered to both generators. -/
def genRequest (source param : Nat) (s : State) : State := each [0, 1] (genPend (16 * source + param)) s

/-- R214: the first RESUME entry after an entry, in ascending index order and wrapping past the table's end. -/
def resumeEntry (g : Gen) (after : Nat) : Option Nat :=
  let n := g.table.length
  ((List.range n).map fun i => (after + 1 + i) % max 1 n).find? fun k => match g.table[k]? with
    | some e => bit e.flags 0
    | none => false

/-- R214, R215: what is launched in the epoch under way carries UNDERRUN, the A launches that wait for their B included. -/
def markEpoch (d : Nat) (s : State) : State :=
  let e := (getGen d s).epoch
  let mark := fun (l : Launch) => if l.epoch = e then { l with flags := l.flags ||| 1 } else l
  modFibre d (fun f => { f with launches := f.launches.map mark, partner := f.partner.map fun p => (p.1, p.2.map mark) }) s

/-- R214: the epoch under way is marked from the granule that is missing. -/
def markUnderrun (d : Nat) (s : State) : State :=
  markEpoch d (modGen d (fun g => { g with missing := some (granuleStart g s.dt) }) s)

/-- R214: the stream underran: IDLE to the end of the play, then the resume entry, or a stop. -/
def genUnderrun (d : Nat) (s : State) : State :=
  let g := getGen d s
  if g.running then
    let r := resumeEntry g g.entry
    let s := markUnderrun d (modGen d (fun g => { g with
      underruns := g.underruns + 1, plays := 1, loops := []
      latched := some (r, if r.isSome then 1 else 4) }) s)
    event 0x0D01 2 d [(16, 1, d), (18, 2, g.entry), (20, 2, r.getD 0xFFFF), (24, 8, (granuleStart g s.dt).toNat)] s
  else s

/-- R215, R73: a clock absence stops the output; it waits for the restart. The epoch it falls into is marked, be the
generator stopped or not. -/
def genGap (d : Nat) (s : State) : State :=
  let g := getGen d s
  if g.running then
    let s := modGen d (fun g => { g with gapped := true }) (markUnderrun d s)
    genEnd d 5 s
  else markEpoch d s

/-- GEN.START lands with ACTION 1, or GEN.LOAD on a running generator: at a segment boundary the next play is the
entry named; a stopped generator begins at once. -/
def genStartLand (d entry : Nat) (s : State) : State :=
  if (getGen d s).running then
    modGen d (fun g => { g with latched := some (some entry, 1), plays := 1, loops := [], pending := [], epoch := 0 }) s
  else genBegin d entry s

/-- GEN.START lands with ACTION 0. -/
def genStopLand (d : Nat) (s : State) : State :=
  if (getGen d s).running then modGen d (fun g => { g with latched := some (none, 3) }) s
  else modGen d (fun g => { g with stimulus := false, gapped := false }) s

/-- GEN.LOAD lands (Table 10-5): the new table; a running generator plays START_ENTRY from the next segment start. -/
def genLoadLand (d : Nat) (entries : List SeqEntry) (start : Nat) (s : State) : State :=
  modGen d (fun g => { g with
    table := entries, startEntry := start, plays := 1, loops := []
    latched := if g.running then some (some start, 1) else g.latched }) s

/-- R209, R211: the play ends and what was latched follows: the next segment starts, or the sequence stops. -/
def genAdvance (d : Nat) (s : State) : State :=
  let s := if (getGen d s).latched.isNone then genLatch d s else s
  let g := getGen d s
  match g.latched with
  | some (some e, k) =>
    playBegin d (playEnd g) { entry := e, plays := g.plays, loops := g.loops } (k == 1) (playOut d (playOf g e) s)
  | some (none, cause) => genEnd d cause s
  | none => s

end Sys2Proof.Machine
end

