-- ==== Sys2Proof/Machine/Fibre.lean ====
section
/-! DEFINITION. The fibre personalities: DAS launches, traces, grid, phase and records, position mask and band energy
(11_distributed_acoustic_sensing.md, 13_fibre_cores.md R270), DTS launches and stacks (12_temperature_and_reference_sensing.md
R237 to R245). -/

namespace Sys2Proof.Machine

/-! ## Cells (R11, R226, R227) -/

/-- R226: C0 = ceil(D_FIX / 64). -/
def cellZero (c : FibreCal) : Nat := ceilDiv c.dFix 64

/-- R227: LAST. -/
def lastCell (g : GridCfg) : Nat := g.firstCell + g.positions * g.step - 1 + g.gauge

/-- R221: length l of a slot's code in envelope samples. -/
def codeLen (c : SlotCfg) : Nat := if c.golay then 2 ^ c.length * c.chip else c.length

/-- R225: I_min and I_full. -/
def intervalMin (c : FibreCal) (g : GridCfg) : Nat := 64 * (cellZero c + lastCell g + 1)
def intervalFull (c : FibreCal) (g : GridCfg) (k : SlotCfg) : Nat := 64 * (cellZero c + lastCell g + codeLen k)

/-- R11, R226: the position z of cell number x / 64 in mm, rounded (R9). -/
def zMm (c : FibreCal) (x : Int) : Int :=
  roundAway ((x + 64 * cellZero c - c.dFix) * 468425715625) (64 * 1000 * c.nG)

/-- R11: the cell length in nm. -/
def cellNm (c : FibreCal) : Nat := (roundAway 468425715625000 c.nG).toNat

/-- R227: 64 times the cell number of the centre of position 0. -/
def centreDas (g : GridCfg) : Int := 64 * g.firstCell + 32 * ((g.step : Int) - 1) + 32 * g.gauge
/-- R242. -/
def centreDts (d : DtsCfg) : Int := 64 * d.firstCell + 32 * ((d.step : Int) - 1)

/-- R219: F_s = 4 G_s and G_s (Table 11-1). -/
def slotWord (k : Nat) : Nat := (roundAway ((2 ^ 48 * (128 + 256 * k) : Nat) : Int) 20480).toNat

/-- Enabled slots of a fibre, in rising order. -/
def enabledSlots (f : Fibre) : List Nat := (List.range 8).filter fun k => (tget {} f.slots k).enable

/-- Receivers a DAS fibre uses (R217). -/
def dasReceivers (f : Fibre) : List Nat := if f.receivers = 2 then [0, 1] else [0]

/-! ## Launches (R223 to R225) -/

/-- A launch of a slot (0xFF a launch set) has come: it ends the interval of the slot's previous launch. -/
def closeInterval (slot : Nat) (t : DT) (f : Fibre) : Fibre :=
  match f.lastLaunch.find? fun e => e.1 == slot with
  | none => f
  | some (_, p) =>
    let i := dtSub t p
    let upd := fun (l : Launch) =>
      if l.slot = slot ∧ l.last = p then { l with interval := some (match l.interval with | some j => min i j | none => i) }
      else l
    { f with launches := f.launches.map upd, partner := f.partner.map fun e => (e.1, e.2.map upd) }

/-- R224: one launch: a trace of a chirp slot, or a half of a Golay pair. RESTART and CLOCK_GAP go with the first. -/
def launchOne (slot : Nat) (golay isA : Bool) (l : Launch) (f : Fibre) : Fibre :=
  let f := closeInterval slot l.dt f
  let f := { f with lastLaunch := tput 0 f.lastLaunch slot l.dt }
  let flags := l.flags ||| 4 * b2n f.clockGap ||| 32 * b2n f.restart
  let l := { l with flags := flags, last := l.dt }
  let lost := fun (old : Option Launch) (f : Fibre) =>
    { f with unpaired := f.unpaired + 1
             restart := f.restart || (old.any fun o => bit o.flags 5), clockGap := f.clockGap || (old.any fun o => bit o.flags 2) }
  if !golay then { f with launches := f.launches ++ [l], restart := false, clockGap := false }
  else
    let old := tget none f.partner slot
    if isA then
      let f := { f with restart := false, clockGap := false }
      let f := if old.isSome then lost old f else f
      { f with partner := tput none f.partner slot (some l) }
    else match old with
      | none => lost none f
      | some a =>
        { f with partner := tput none f.partner slot none, restart := false, clockGap := false
                 launches := f.launches ++ [{ a with flags := a.flags ||| flags, last := l.dt, partsB := l.parts }] }

/-- R223, R228: the launches of an epoch of a DAS fibre. -/
def dasEpoch (t : DT) (epoch entry : Nat) (laserOff : Bool) (f : Fibre) : Fibre :=
  let cfg := fun k => tget {} f.slots k
  let at_ := fun k => dtAdd t (64 * (cfg k).offset)
  let mine := (enabledSlots f).filter fun k => (cfg k).entryA == entry || ((cfg k).golay && (cfg k).entryB == entry)
  let mk := fun (slot : Nat) (d : DT) (c : SlotCfg) (ks : List Nat) =>
    ({ slot := slot, dt := d, epoch := epoch, entry := entry, flags := 2 * b2n laserOff, slotCfg := c, grid := f.grid
       parts := ks.map fun k => (k, at_ k, cfg k) } : Launch)
  if f.grid.combine then
    match mine with
    | [] => f
    | k :: rest =>
      let d := rest.foldl (fun d k => if dtLe d (at_ k) then d else at_ k) (at_ k)
      let long := rest.foldl (fun c k => if codeLen c < codeLen (cfg k) then cfg k else c) (cfg k)
      launchOne 0xFF ((enabledSlots f).any fun k => (cfg k).golay) ((cfg k).entryA == entry) (mk 0xFF d long mine) f
  else mine.foldl (fun f k => launchOne k (cfg k).golay ((cfg k).entryA == entry) (mk k (at_ k) (cfg k) [k]) f) f

/-- R238: the launch of an epoch of a DTS fibre. -/
def dtsEpoch (t : DT) (epoch entry : Nat) (laserOff : Bool) (f : Fibre) : Fibre :=
  if f.dtsCfg.entry = entry then
    let d := dtAdd t (64 * f.dtsCfg.offset)
    { f with launches := f.launches ++ [{ slot := 0, dt := d, epoch := epoch, entry := entry, last := d
                                          flags := 2 * b2n laserOff ||| 4 * b2n f.clockGap }]
             clockGap := false }
  else f

/-- R223: an epoch of the fibre's generator has begun. -/
def fibreEpoch (f : Nat) (s : State) : State :=
  let g := getGen f s
  let off := !s.laser.en
  if (getFibre f s).held then s
  else if (getFibre f s).das then modFibre f (dasEpoch g.epochDt g.epoch g.epochEntry off) s
  else if (getFibre f s).dts then modFibre f (dtsEpoch g.epochDt g.epoch g.epochEntry off) s
  else s

/-- R211, R223: a change of a generator that may start an epoch: the fibre that owns the DAC learns of it. -/
def withEpoch (d : Nat) (f : State → State) (s : State) : State :=
  let old := getGen d s
  let s := f s
  let new := getGen d s
  if new.epoch ≠ 0 ∧ (new.epoch ≠ old.epoch ∨ new.epochDt ≠ old.epochDt) then fibreEpoch d s else s

/-- R74, R239: a clock absence: the next DAS trace carries CLOCK_GAP; DTS launches that overlap it are left out. -/
def fibreGap (s : State) : State :=
  each [0, 1] (fun f => modFibre f (fun f =>
    if f.das then { f with clockGap := true }
    else if f.dts then { f with clockGap := true, launches := f.launches.map fun l => { l with flags := l.flags ||| 4 } }
    else f)) s

/-! ## Accumulators (R261, R262) -/

/-- R261: a value that a 56-bit accumulator holds, and its sticky flag after an addition. -/
def acc56 (v : Int) : Int := clamp (-(2 ^ 55)) (2 ^ 55 - 1) v
def accAdd (a : Int × Bool) (v : Int) : Int × Bool := (acc56 (a.1 + v), a.2 || acc56 (a.1 + v) != a.1 + v)

/-! ## Phase (R228, R229, R268, R269) -/

/-- An angle in LSB units wrapped to (-pi, pi]. -/
def wrapPhase (v : Int) : Int :=
  let r := v % 65536
  if r ≤ 32768 then (if r = 32768 then 32768 else r) else r - 65536

/-- R268: phi of a normalised dp: within 1 LSB, within 4 where the mantissa is small, 0 of 0. What the kernel makes of the last place
is free (DESIGN CHOICE, safe: log 86). -/
def phaseOf (dp : Int × Int) : Int :=
  let e := Config.phaseError dp.1 dp.2
  if dp = (0, 0) then 0
  else wrapPhase (angleFloor dp + if 2 ^ 12 ≤ max dp.1.natAbs dp.2.natAbs then clamp 0 1 e else clamp (-3) 4 e)

/-- R229: the int16 that stands for an angle: +pi reads as -32,768, its own bit pattern. -/
def phase16 (v : Int) : Int := if wrapPhase v = 32768 then -32768 else wrapPhase v

/-- R269: u and b are brought back together when |u| reaches 2^54. -/
def foldTurns (u b : Int) : Int × Int :=
  if (2 : Int) ^ 54 ≤ u then (u - 2 ^ 54, b - 2 ^ 54) else if u ≤ -(2 : Int) ^ 54 then (u + 2 ^ 54, b + 2 ^ 54) else (u, b)

/-- One output position: what it outputs, its quality bits [4:0], o(p, n) and the slot's u, b, phi and usability. -/
structure Position where
  out : Int
  quality : Nat
  o : Int
  u : Int
  b : Int
  phi : Int
  usable : Bool
  deriving DecidableEq, Repr

/-- R225: the positions whose matched-filter support reaches past the slot's next launch. (DEDUCED, unsafe: log 63.) -/
def tailAt (g : GridCfg) (k : SlotCfg) (interval : Option Nat) (p : Nat) : Bool :=
  match interval with
  | some i => decide (i < 64 * (g.firstCell + p * g.step + g.step - 1 + g.gauge + codeLen k - 1))
  | none => false

/-- R228 to R230: one position of one trace; before is o(p, n - 1). (DEDUCED, unsafe: log 63.) -/
def positionOf (g : GridCfg) (l : Launch) (full : Nat) (st : SlotPhase) (tr : TraceData) (before : Int) (p : Nat) : Position :=
  let phi := phaseOf (tr.dp.getD p (0, 0))
  let fresh := st.phi.isEmpty
  let u := if fresh then (phi, false) else accAdd (st.u.getD p 0, false) (wrapPhase (phi - st.phi.getD p 0))
  let stitch := fresh || !(st.usable.getD p false)
  let b := if stitch then accAdd u (-before) else (st.b.getD p 0, u.2)
  let ub := foldTurns u.1 b.1
  let o := ub.1 - ub.2
  let d := o - before
  let sat := b.2 || bit (tr.bits.getD p 0) 4 || (g.kind == 1 && !stitch && decide (32767 < d.natAbs))
  let tail := (l.interval.any fun i => decide (i < full)) && tailAt g l.slotCfg l.interval p
  let q := 16 * b2n sat + 8 * b2n tail + (tr.bits.getD p 0 &&& 6 ||| 2 * b2n (bit l.flags 0)) + b2n stitch
  { out := if g.kind = 1 then (if stitch then 0 else clamp (-32767) 32767 d)
           else if g.combine then phase16 phi else phase16 o
    quality := q, o := o, u := ub.1, b := ub.2, phi := phi, usable := q &&& 0x1E == 0 }

/-- R230: the quality bytes. -/
def qualityBytes (g : GridCfg) (tr : TraceData) (ps : List Position) : List Nat :=
  (List.range (ceilDiv g.positions 16)).map fun i =>
    let group := (ps.drop (16 * i)).take 16
    let cls := if g.noiseCount = 0 then 0 else ((tr.cls.drop (16 * i)).take 16).foldl min 7
    32 * cls + group.foldl (fun a p => a ||| p.quality) 0

/-- Table 11-3, and R270 with another REC_TYPE: a record's header. -/
def dasHeader (recType fibre : Nat) (cal : FibreCal) (l : Launch) (seq len flags delta : Nat) : List Byte :=
  let g := l.grid
  leBytes 2 recType ++ leBytes 1 fibre ++ leBytes 1 (g.kind + 4 * b2n g.combine) ++ leBytes 4 len ++
    leBytes 8 l.dt.toNat ++ leBytes 8 seq ++ leBytes 4 l.epoch ++ leBytes 2 l.entry ++ leBytes 1 l.slot ++ leBytes 1 0 ++
    leBytes 2 flags ++ leBytes 2 g.step ++ leBytes 4 g.firstCell ++ leBytes 4 g.positions ++ leBytes 2 g.gauge ++
    leBytes 2 0 ++ leInt 4 (zMm cal (centreDas g)) ++ leBytes 4 (cellNm cal) ++ leBytes 4 (sat 4 delta) ++ leBytes 4 0

/-- REC_LEN of a DAS trace record (R231) and of a band record (R270). -/
def dasLen (positions : Nat) : Nat := ceilDiv (64 + 2 * positions + ceilDiv positions 16) 64 * 64
def bandLen (positions : Nat) : Nat := ceilDiv (64 + 2 * positions + ceilDiv positions 8) 64 * 64

/-! ## Position mask (R233) -/

/-- R233: whether each point is violated after a trace: largest |o(p, n) - o(p, n - 1)| of its bucket. -/
def pmaskPoints (c : PmaskCfg) (deltas : List (Nat × Nat)) (was : List Bool) : List Bool :=
  (List.range c.points).map fun i =>
    let m := c.levels.getD i 0
    let vs := (((deltas.drop (c.firstPos + i * c.bpp)).take c.bpp).filter fun d => d.2 &&& c.ignore == 0).map fun d => (d.1 : Int)
    match vs with
    | [] => was.getD i false
    | v :: rest =>
      let top := rest.foldl max v
      decide (m < top) || (was.getD i false && decide (m - c.hyst < top))

/-- R233: an output trace reaches the position mask. -/
def pmaskTest (f : Nat) (l : Launch) (flags : Nat) (deltas : List (Nat × Nat)) (s : State) : State :=
  let x := getFibre f s
  let x := if bit flags 5 || bit flags 2 then { x with pmaskViolated := [], pmaskRun := 0, pmaskOnset := 0, pmaskFired := false }
           else x
  if !x.pmask.enable then modFibre f (fun _ => x) s
  else
    let vs := pmaskPoints x.pmask deltas x.pmaskViolated
    let r := runStep (vs.any id) x.pmask.minTraces x.pmaskRun x.pmaskOnset l.dt x.pmaskFired
    let s := modFibre f (fun _ => { x with pmaskViolated := vs, pmaskRun := r.1, pmaskOnset := r.2.1, pmaskFired := r.2.2.1 }) s
    if r.2.2.2 then deliverTrig (srcPmask f) l.dt r.2.1 s else s

/-! ## A trace (R226 to R231) -/

/-- R225: EV_DAS_INTERVAL at most once per second. -/
def shortReport (f : Nat) (l : Launch) (s : State) : State :=
  let s := modFibre f (fun x => { x with
    shortIntervals := x.shortIntervals + 1, shortSecond := x.shortSecond + 1
    shortFirst := if x.shortSecond = 0 then l.dt else x.shortFirst }) s
  let x := getFibre f s
  let due := match x.shortEvent with
    | none => true
    | some d => decide (tkS ≤ dtSub s.dt d)
  if due then
    modFibre f (fun x => { x with shortSecond := 0, shortEvent := some s.dt })
      (event 0x0F01 1 (4 + f) [(16, 1, f), (17, 1, l.slot), (20, 4, sat 4 x.shortSecond), (24, 8, x.shortFirst.toNat)] s)
  else s

/-- R260, R262: a 24-bit data word. -/
def word24 (v : Int) : Int := clamp (-8388608) 8388607 v

/-- R270: one output of the biquad in direct form I, coefficients b0, b1, b2, a1, a2 in Q2.21 (PRESUMED, unsafe: log 43). -/
def biquad (c : List Int) (t : BandTap) (delta : Int) : BandTap :=
  let k := fun i => c.getD i 0
  let x := word24 delta
  let y := word24 (roundEven (k 0 * x + k 1 * t.x1 + k 2 * t.x2 - k 3 * t.y1 - k 4 * t.y2) (2 ^ 21))
  { t with x1 := x, x2 := t.x1, y1 := y, y2 := t.y1 }

/-- R270: a position takes part in a trace: its output squared, shifted right by w and rounded joins the sum; a quality
bit [4:1] resets its filter. -/
def bandTap (c : BandCfg) (delta : Int) (quality : Nat) (t : BandTap) : BandTap :=
  if quality &&& 0x1E != 0 then { sum := t.sum }
  else
    let t := biquad c.coef t delta
    { t with sum := t.sum + (roundEven (t.y1 * t.y1) (2 ^ c.log2Win)).toNat }

/-- R270: a trace enters the window of the band detector; deltas hold o(p, n) - o(p, n - 1). -/
def bandAdd (l : Launch) (seq flags length : Nat) (ps : List Position) (deltas : List Int) (x : Fibre) : Fibre :=
  if x.band.enable then
    let bad := (ps.zipIdx.filter fun p => p.1.quality &&& 0x1E != 0).map (·.2)
    let taps := (ps.zip deltas).zipIdx.map fun p => bandTap x.band p.1.2 p.1.1.quality (x.bandTaps.getD p.2 {})
    { x with bandSeen := x.bandSeen + 1, bandTaps := taps
             bandFirst := if x.bandSeen = 0 then some (l, seq) else x.bandFirst
             bandFlags := if x.bandSeen = 0 then flags else x.bandFlags ||| flags
             bandLength := if x.bandSeen = 0 then length else x.bandLength + length
             bandBad := if x.bandSeen = 0 then bad else x.bandBad ++ (bad.filter fun p => !x.bandBad.contains p) }
  else x

/-- R270: the band detector stands as after a start: nothing counted, filters at rest. -/
def bandReset (x : Fibre) : Fibre :=
  { x with bandSeen := 0, bandFirst := none, bandFlags := 0, bandLength := 0, bandBad := [], bandTaps := [] }

/-- pi^2 * 10^40, for R270. -/
def piSquared : Nat := 98696044010893586188344909998761511353137

/-- R270: E of one window sum. -/
def bandLevel (sum : Nat) : Int := l16OfPower (sum * piSquared) (2 ^ 30 * 10 ^ 40)

/-- R270: the window holds 2^w traces. -/
def bandFull (x : Fibre) : Bool := x.band.enable && decide (2 ^ x.band.log2Win ≤ x.bandSeen)

/-- R270: the window of the band detector ends and its record is written; the filters run on. -/
def bandEnd (f : Nat) (s : State) : State :=
  let x := getFibre f s
  match x.bandFirst with
  | none => s
  | some (l, seq) =>
    let es := (List.range l.grid.positions).map fun p =>
      if x.bandBad.contains p then below else bandLevel (x.bandTaps.getD p {}).sum
    let bits := (List.range (ceilDiv l.grid.positions 8)).map fun i =>
      ((List.range 8).map fun j => if x.band.thresh < es.getD (8 * i + j) below then 2 ^ j else 0).sum
    let bytes := padZero 64 (dasHeader 8 f x.cal l seq (bandLen l.grid.positions) x.bandFlags x.bandLength ++
      (es.map (leInt 2)).flatten ++ (bits.map (leBytes 1)).flatten)
    modFibre f (fun x => { bandReset x with bandTaps := x.bandTaps.map fun t => { t with sum := 0 } })
      (writeRecord x.band.ring bytes s)

/-- R228 to R231: the trace of a launch: its record is written and it reaches the position mask and the band detector. -/
def dasTrace (f : Nat) (l : Launch) (tr : TraceData) (recomputed : Bool) (s : State) : State :=
  let s := if bandFull (getFibre f s) then bandEnd f s else s
  let x := getFibre f s
  let g := l.grid
  let phases := if bit l.flags 5 then [] else x.phases
  let st := tget {} phases l.slot
  let full := intervalFull x.cal g l.slotCfg
  let ps := (List.range g.positions).map fun p => positionOf g l full st tr (x.output.getD p 0) p
  let short := l.interval.any fun i => decide (i < intervalMin x.cal g)
  let flags := l.flags ||| 8 * b2n recomputed ||| 16 * b2n short ||| 64 * b2n x.degraded ||| 128 * b2n (g.noiseCount == 0)
  let delta := match x.lastTrace with
    | some d => dtSub l.dt d
    | none => 0
  let bytes := padZero 64 (dasHeader 6 f x.cal l x.traceSeq (dasLen g.positions) flags delta ++
    (ps.map fun p => leInt 2 p.out).flatten ++ ((qualityBytes g tr ps).map (leBytes 1)).flatten)
  let s := writeRecord g.ring bytes s
  let deltas := ps.zipIdx.map fun p => p.1.o - x.output.getD p.2 0
  let s := modFibre f (fun x => bandAdd l x.traceSeq flags delta ps deltas { x with
    phases := tput {} phases l.slot { usable := ps.map (·.usable), phi := ps.map (·.phi), u := ps.map (·.u), b := ps.map (·.b) }
    output := ps.map (·.o), traceSeq := x.traceSeq + 1, lastTrace := some l.dt }) s
  let s := if short then shortReport f l s else s
  pmaskTest f l flags (deltas.zip ps |>.map fun q => (q.1.natAbs, q.2.quality)) s

/-- R226, R228: traces leave in launch order. -/
def dasDeliver (f : Nat) : Nat → State → State
  | 0, s => s
  | n + 1, s =>
    let x := getFibre f s
    match x.launches with
    | [] => s
    | l :: rest =>
      match x.ready.find? fun r => r.1.slot == l.slot with
      | none => s
      | some r =>
        dasDeliver f n (dasTrace f l r.1 r.2 (modFibre f (fun x => { x with launches := rest, ready := x.ready.erase r }) s))

/-- Finished traces join those that wait, and what is next in launch order leaves. -/
def dasReady (f : Nat) (traces : List (TraceData × Bool)) (s : State) : State :=
  let s := modFibre f (fun x => { x with ready := x.ready ++ traces }) s
  dasDeliver f (getFibre f s).launches.length s

/-! ## DTS (R237 to R245) -/

/-- R239: the last cell used by the grid or the coil. -/
def dtsLast (x : Fibre) : Nat :=
  max (x.dtsCfg.firstCell + x.dtsCfg.positions * x.dtsCfg.step - 1)
    (if x.cal.coilCells = 0 then 0 else x.cal.coilFirst + x.cal.coilCells - 1)

/-- R240: REQUESTED. -/
def dtsRequested (x : Fibre) : Nat := 256 * x.dtsCfg.parts

/-- R239, Table 12-1 FLAGS [8:3]: the causes that leave a launch out. -/
def leftOutCauses (x : Fibre) (l : Launch) (ovr : Bool) : Nat :=
  let near := x.prevLaunch.any fun p => decide (dtSub l.dt p < 64 * (dtsLast x + 257))
  8 * b2n (bit l.flags 0) + 16 * b2n (bit l.flags 1) + 32 * b2n (bit l.flags 2) + 64 * b2n ovr + 128 * b2n near +
    256 * b2n x.hopped

/-- Stacked cells with one more launch added cell by cell, in 56 bits (R261, R271), and whether one has saturated. -/
def addCells : List Int → List Int → List Int
  | [], ys => ys
  | xs, [] => xs
  | x :: xs, y :: ys => acc56 (x + y) :: addCells xs ys
def cellsSat (xs ys : List Int) : Bool := (xs.zipWith (fun x y => (accAdd (x, false) y).2) ys).any id

/-- R239, R240: a launch is stacked or left out: its cells of the anti-Stokes and the Stokes receiver, and whether one carries
OVR. -/
def dtsLaunch (f : Nat) (antiStokes stokes : List Int) (ovr : Bool) (s : State) : State :=
  modFibre f (fun x =>
    match x.launches with
    | [] => x
    | l :: rest =>
      let causes := leftOutCauses x l ovr
      let x := { x with
        launches := rest, prevLaunch := some l.dt, hopped := false, stackSeen := x.stackSeen + 1, stackLast := l.dt
        stackFirst := if x.stackSeen = 0 then l.dt else x.stackFirst, stackFlags := x.stackFlags ||| causes }
      if causes = 0 then
        { x with stackSummed := x.stackSummed + 1, sumA := addCells x.sumA antiStokes, sumS := addCells x.sumS stokes
                 stackSat := x.stackSat || cellsSat x.sumA antiStokes || cellsSat x.sumS stokes }
      else { x with leftOut := x.leftOut + 1 }) s

/-- R243: stack end. -/
def stackEndOf (x : Fibre) : DT := dtAdd x.stackLast (64 * (cellZero x.cal + dtsLast x + 1))

/-- R243: T_c in mK, the age of the newest usable result in ms, and the state: 1 stale, 2 no reference, 3 fresh. (DESIGN CHOICE, safe: log 6.) -/
def coilReference (x : Fibre) (stackEnd : DT) : Nat × Nat × Nat :=
  if x.cal.coilCells = 0 then (0, 0, 2)
  else if x.cal.rtdEntry = 0xFF then (x.cal.tFixed, 0, 3)
  else
    let usable := ((x.rtd.filter fun r => r.1 == x.cal.rtdEntry).map (·.2)).filter fun r => dtLe r.1 stackEnd
    let mk := fun (r : DT × Int) => Config.rtdMilliKelvin r.2 x.cal.refOhm x.cal.rtdType
    match usable.getLast? with
    | none => (0, u32max, 2)
    | some newest =>
      let age := dtSub stackEnd newest.1 / tkMs
      let inside := usable.filter fun r => dtLe x.stackFirst r.1
      if inside = [] then
        (mk newest, sat 4 age, if (if x.cal.maxAge = 0 then 10000 else x.cal.maxAge) * tkMs < dtSub stackEnd newest.1 then 1 else 3)
      else ((roundAway (((inside.map mk).sum : Nat) : Int) inside.length).toNat, sat 4 age, 3)

/-- R241, R271: the restored cells, each times 256 * 2 ^ exp; dark is the sum of the dark window, run the sum of what came
before, each cell less the dark level times 256, kept in 56 bits of a cell. -/
def restoreFrom (mant exp : Nat) (dark : Int) : Int → List Int → List Int
  | _, [] => []
  | run, y :: ys =>
    let d := 256 * y - dark
    (d * 2 ^ exp + mant * run) :: restoreFrom mant exp dark (clamp (-(2 ^ 63)) (2 ^ 63 - 256) (run + d)) ys

/-- R241: the restored cells of receiver r from cell -256 up, each times 256 * 2 ^ cornerExponent. -/
def restored (r : Nat) (cells : List Int) : List Int :=
  restoreFrom (Config.cornerMantissa r) (Config.cornerExponent r) (cells.take 256).sum 0 cells

/-- R242: the sum of n restored cells from a cell on. -/
def cellSum (cells : List Int) (first n : Nat) : Int := ((cells.drop (256 + first)).take n).sum

/-- R245, R271: a raw mean, 2^-16 optical code; a divisor of 0 gives 0 (DEDUCED, unsafe: log 70). -/
def rawMean (r : Nat) (x : Fibre) (sum : Int) : Int :=
  let den := 16 * x.dtsCfg.step * x.stackSummed
  if den = 0 then 0 else roundAway (sum * 2 ^ 16) (256 * 2 ^ Config.cornerExponent r * den)

/-- R242: the temperature of a position in 0.01 K, 0x8000 where there is none: tc is T_c in mK, dx 64 times the cells
from the coil's centre, coil and pos the anti-Stokes and Stokes sums (DEDUCED, unsafe: log 70). -/
def dtsTemp (c : FibreCal) (tc : Nat) (dx : Int) (coil pos : Int × Int) : Int :=
  let gamma : Nat := if c.gamma = 0 then 633500 else c.gamma
  let m : Nat := 64 * 10 ^ 15 * c.nG
  let whole : Int := gamma * 2 ^ 48 * m
  let den := whole + Config.lnRatio coil.1 coil.2 pos.1 pos.2 * tc * m - c.dalpha * dx * 468425715625 * tc * 2 ^ 48
  if coil.1 ≤ 0 ∨ coil.2 ≤ 0 ∨ pos.1 ≤ 0 ∨ pos.2 ≤ 0 ∨ tc = 0 ∨ den ≤ 0 then below
  else
    let v := roundAway (whole * tc - 273150 * den) (10 * den.toNat)
    if -32767 ≤ v ∧ v ≤ 32767 then v else below

/-- The position sums of a stack: anti-Stokes and Stokes, by output position (R242). -/
def positionSums (xA xS : List Int) (c : DtsCfg) : List (Int × Int) :=
  (List.range c.positions).map fun p =>
    (cellSum xA (c.firstCell + p * c.step) c.step, cellSum xS (c.firstCell + p * c.step) c.step)

/-- R245: bytes of a record: its header, and each part padded to 64 B. -/
def dtsLen (x : Fibre) : Nat :=
  let c := if x.cal.coilCells = 0 then x.dtsCfg.content &&& 2 else x.dtsCfg.content
  64 + 64 * (b2n (bit c 0) * ceilDiv x.dtsCfg.positions 32 + 2 * b2n (bit c 1) * ceilDiv x.dtsCfg.positions 16)

/-- Table 12-1: the record of a stack. -/
def dtsRecord (f : Nat) (x : Fibre) : List Byte :=
  let stackEnd := stackEndOf x
  let r := coilReference x stackEnd
  let noRef := r.2.2 == 2
  let c := x.dtsCfg
  let content := if x.cal.coilCells = 0 then c.content &&& 2 else c.content
  let xA := restored (2 * f) x.sumA
  let xS := restored (2 * f + 1) x.sumS
  let sums := positionSums xA xS c
  let coil := (cellSum xA x.cal.coilFirst x.cal.coilCells, cellSum xS x.cal.coilFirst x.cal.coilCells)
  let centre : Int := 64 * x.cal.coilFirst + 32 * ((x.cal.coilCells : Int) - 1)
  let temps := sums.zipIdx.map fun p => leInt 2 (if noRef then below else
    dtsTemp x.cal r.1 (centreDts c + 64 * (p.2 * c.step : Nat) - centre) coil p.1)
  let body := (if bit content 0 then padZero 64 temps.flatten else []) ++
    (if bit content 1 then padZero 64 (sums.map fun p => leInt 4 (rawMean (2 * f) x p.1)).flatten ++
      padZero 64 (sums.map fun p => leInt 4 (rawMean (2 * f + 1) x p.2)).flatten else [])
  let flags := b2n noRef + 2 * b2n (r.2.2 == 1) + 4 * b2n (decide (x.stackSummed < dtsRequested x)) +
    (x.stackFlags &&& 0x5F8) + 512 * b2n x.restart
  leBytes 2 7 ++ leBytes 1 f ++ leBytes 1 content ++ leBytes 4 (64 + body.length) ++ leBytes 8 x.stackFirst.toNat ++
    leBytes 8 x.stackLast.toNat ++ leBytes 4 x.stackSeq ++ leBytes 4 x.stackSummed ++ leBytes 4 (dtsRequested x) ++
    leBytes 2 flags ++ leBytes 2 c.step ++ leBytes 4 c.firstCell ++ leBytes 4 c.positions ++
    leBytes 4 (if noRef then 0 else r.1) ++ leBytes 4 r.2.1 ++ leInt 4 (zMm x.cal (centreDts c)) ++
    leBytes 4 (cellNm x.cal) ++ body

/-- R240, R243, Table 12-8: a stack ends: its record waits, the next begins, and a change of the reference is reported. -/
def dtsStackEnd (f : Nat) (s : State) : State :=
  let x := getFibre f s
  let stackEnd := stackEndOf x
  let r := coilReference x stackEnd
  let s := modFibre f (fun x => { x with
    record := some (dtsRecord f x), stackSeq := x.stackSeq + 1, stackEnd := stackEnd, tCoil := r.1, refState := r.2.2
    stackSeen := 0, stackSummed := 0, stackFlags := 0, sumA := [], sumS := [], stackSat := false, restart := false
    rtd := ((List.range 64).map fun k =>
      (x.rtd.filter fun r => r.1 == k && dtLe r.2.1 stackEnd).getLast?.toList).flatten ++
        x.rtd.filter fun r => !dtLe r.2.1 stackEnd }) s
  if x.refState = r.2.2 then s
  else event 0x1001 1 (4 + f) [(16, 1, f), (17, 1, r.2.2), (20, 4, r.2.1), (24, 8, stackEnd.toNat)] s

/-! ## Starts and stops (R217, R237) -/

/-- DAS.START lands with ACTION 1. -/
def dasStartLand (f k : Nat) (s : State) : State :=
  modFibre f (fun x => { bandReset x with
    das := true, dts := false, receivers := k, degraded := false, held := false, launches := [], lastLaunch := [], partner := [], ready := []
    unpaired := 0, traceSeq := 0, lastTrace := none, shortIntervals := 0, shortSecond := 0, shortEvent := none
    restart := true, clockGap := false, phases := [], output := [], pmaskViolated := [], pmaskRun := 0, pmaskFired := false }) s

/-- DTS.START lands with ACTION 1. -/
def dtsStartLand (f : Nat) (s : State) : State :=
  modFibre f (fun x => { x with
    dts := true, das := false, held := false, launches := [], stackSeen := 0, stackSummed := 0, stackFlags := 0, sumA := [], sumS := [], stackSat := false
    prevLaunch := none, stackSeq := 0, leftOut := 0, refState := 3, rtd := [], hopped := false, restart := true
    clockGap := false, record := none }) s

end Sys2Proof.Machine
end

