-- ==== Sys2Proof/Machine/Matched.lean ====
section
/-! DEFINITION. What the pips and the currants make of the optical inputs: matched filters (07_spectral_tiles.md R146, R147,
11_distributed_acoustic_sensing.md R220, R221), DAS_PHASE (13_fibre_cores.md R267), SNR (R230) and raw cells (R238). -/

namespace Sys2Proof.Machine

/-! ## References (R220, R221) -/

/-- exp(2 pi i num / den), in units of 2^-80. -/
def turn (num : Int) (den : Nat) : Int × Int := circle 40 ((num * 2 ^ 40 / den) % 2 ^ 40).toNat

/-- R220: a Golay pair of 2^p chips. -/
def golayPair : Nat → List Int × List Int
  | 0 => ([1], [1])
  | q + 1 => let g := golayPair q; (g.1 ++ g.2, g.1 ++ g.2.map (-·))

/-- R220: e(j) / a of a slot's code, in units of 2^-80; b x T is BANDWIDTH_KHZ / 320,000. -/
def codeSample (c : SlotCfg) (isB : Bool) (j : Nat) : Int × Int :=
  if c.golay then
    let g := golayPair c.length
    (((if isB then g.2 else g.1).getD (j / c.chip) 0) * unitOne, 0)
  else turn (c.bandwidth * ((j : Int) * ((j : Int) - c.length))) (640000 * c.length)

/-- R221: w(m) in units of 2^-80: 1, or a periodic Hann window of the code's length. -/
def taperSample (c : SlotCfg) (m : Nat) : Int :=
  if c.taper then (unitOne - (turn m (codeLen c)).1) / 2 else unitOne

/-- R221: the loaded coefficients g(m), in units of 2^-22; the last place is free (DESIGN CHOICE, safe: log 86). -/
def reference (c : SlotCfg) (isB : Bool) : List (Int × Int) :=
  (List.range (codeLen c)).map fun m =>
    let e := codeSample c isB m
    let w := taperSample c m
    let n := bounded 1 (Config.coefficientError c.length c.bandwidth m)
    (roundEven (e.1 * w) (2 ^ 138) + n.1, roundEven (-(e.2 * w)) (2 ^ 138) + n.2)

/-! ## Correlation (R146, R147) -/

/-- The output group of a path that holds an instant. -/
def lineGroup (path t : Nat) (s : State) : Option GroupInfo :=
  (getDdc path s).groups.find? fun g => decide (g.dt.toNat ≤ t) && decide (t < g.dt.toNat + 4096)

/-- x(t) of a slot path, and its quality bits: 4 an input with OVR or DDC_SAT, 2 one that is not VALID (R230). -/
def lineInput (path t : Nat) (s : State) : (Int × Int) × Nat :=
  match lineGroup path t s with
  | some g =>
    let i := (t - g.dt.toNat) / 64
    (g.samples.getD i (0, 0), 4 * b2n (bit g.flags 0 || bit g.flags 4) + 2 * b2n (!bit g.valid i))
  | none => ((0, 0), 2)

/-- R146: y(t) of a slot path under a reference, in units of 2^-22, and the quality bits of its support. -/
def correlate (path : Nat) (g : List (Int × Int)) (t : Nat) (s : State) : (Int × Int) × Nat :=
  let xs := (List.range g.length).map fun m => lineInput path (t + 64 * m) s
  let terms := xs.zipWith (fun x c => cmul x.1 c) g
  (((terms.map (·.1)).sum, (terms.map (·.2)).sum), (xs.map (·.2)).foldl (· ||| ·) 0)

/-- A block floating point number: mantissas and exponent. -/
abbrev Block := (Int × Int) × Nat

/-- R147: y(t) as line memory holds it: 24-bit components under the exponent of its output group of 64. The reference may
change inside a group (R221). -/
def lineOut (path : Nat) (ref : Nat → List (Int × Int)) (t : Nat) (s : State) : Block × Nat :=
  let t0 := t / 4096 * 4096
  let ys := (List.range 64).map fun i => correlate path (ref (t0 + 64 * i)) (t0 + 64 * i) s
  let b := blockFloat (Config.transformNoise path t0) (ys.map (·.1))
  let i := (t - t0) / 64
  ((b.1.getD i (0, 0), b.2), (ys.map (·.2)).getD i 0)

/-- R262: a term shifted right, rounded; one shifted by more than 48 bits becomes 0. -/
def shiftDown (n : Nat) (z : Int × Int) : Int × Int :=
  if 48 < n then (0, 0) else (roundEven z.1 (2 ^ n), roundEven z.2 (2 ^ n))

/-- R267: a value normalised to a mantissa of 24 bits and its exponent. -/
def normalised (b : Block) : Block :=
  let n := Nat.log2 (peakOf [b.1] + peakOf [b.1] / 2 ^ 23) - 22
  (shiftDown n b.1, b.2 + n)

/-- R262: the sum of two blocks, the smaller aligned to the larger. -/
def addBlocks (a b : Block) : Block :=
  let e := max a.2 b.2
  let x := shiftDown (e - a.2) a.1
  let y := shiftDown (e - b.2) b.1
  normalised ((x.1 + y.1, x.2 + y.2), e)

/-! ## Cells (R221, R224, R226) -/

/-- R219: the slot path of slot k on receiver r of fibre f. -/
def slotPathOf (f r k : Nat) : Nat := 16 + 8 * (2 * f + r) + k

/-- R226: the instant of cell i of a launch at t_L. -/
def cellTime (x : Fibre) (tL : DT) (i : Nat) : Nat := tL.toNat + 64 * (cellZero x.cal + i)

/-- R221: the reference at an instant: that of the latest launch of the pair whose cell 0 has come. -/
def referenceAt (x : Fibre) (part : Nat × DT × SlotCfg) (b : Option (Nat × DT × SlotCfg)) (t : Nat) : List (Int × Int) :=
  reference part.2.2 (b.any fun q => decide (cellTime x q.2.1 0 ≤ t))

/-- R224, R226: cell i of one slot and receiver: y of the launch, and for a pair the sum with that of its B launch, with quality
bits. (DEDUCED, unsafe: log 86.) -/
def cellOf (f : Nat) (l : Launch) (part : Nat × DT × SlotCfg) (r i : Nat) (s : State) : Block × Nat :=
  let x := getFibre f s
  let path := slotPathOf f r part.1
  let b := l.partsB.find? fun q => q.1 == part.1
  let ref := referenceAt x part b
  let y := lineOut path ref (cellTime x part.2.1 i) s
  match b with
  | some q =>
    let z := lineOut path ref (cellTime x q.2.1 i) s
    (addBlocks y.1 z.1, y.2 ||| z.2)
  | none => y

/-- The outputs a trace needs have left their slot paths (R226). -/
def traceComplete (f : Nat) (l : Launch) (s : State) : Bool :=
  let x := getFibre f s
  let g := l.grid
  let last := max (lastCell g) (if g.noiseCount = 0 then 0 else g.noiseFirst + g.noiseCount - 1)
  (l.parts ++ l.partsB).all fun part => (dasReceivers x).all fun r =>
    decide (cellTime x part.2.1 last + 64 * codeLen part.2.2 ≤ (chainOut (getDdc (slotPathOf f r part.1) s)).nextGroup.toNat)

/-! ## DAS_PHASE (R227, R267) -/

/-- ceil(log2 n). -/
def ceilLog2 (n : Nat) : Nat := if n ≤ 1 then 0 else Nat.log2 (n - 1) + 1

/-- R267: the sum of the products of a position: aligned, each shifted right by sigma, added in 56-bit accumulators, and
normalised; and whether one has saturated. -/
def phaseSum (products : List Block) : Block × Bool :=
  let sigma := ceilLog2 products.length - 7
  let e := (products.map (·.2)).foldl max 0
  let terms := products.map fun q => let z := shiftDown (e - q.2) q.1; (z.1 / 2 ^ sigma, z.2 / 2 ^ sigma)
  let re := (terms.map (·.1)).foldl accAdd (0, false)
  let im := (terms.map (·.2)).foldl accAdd (0, false)
  (normalised ((re.1, im.1), e + sigma), re.2 || im.2)

/-- y_r(c + G) times the conjugate of y_r(c). -/
def conjProduct (a b : Block) : Block := (cmul a.1 (b.1.1, -b.1.2), a.2 + b.2)

/-- Power of a cell, in units of 2^-44. -/
def blockPower (b : Block) : Nat := (b.1.1.natAbs ^ 2 + b.1.2.natAbs ^ 2) * 4 ^ b.2

/-- R230: floor(SNR / 6 dB), at most 7: signal over noise is at least 10^(0.6 k), that is, its fifth power at least 10^(3 k). -/
def classOf (signal noise : Nat) : Nat :=
  if signal = 0 then 0
  else (((List.range 8).filter fun k => decide (10 ^ (3 * k) * noise ^ 5 ≤ signal ^ 5)).getLast?).getD 0

/-- R227, R230, R267, R268: what DAS_PHASE makes of a launch. With COMBINE all slots of the launch set are summed, their noise
too (DEDUCED, unsafe: log 86). -/
def traceData (f : Nat) (l : Launch) (s : State) : TraceData :=
  let x := getFibre f s
  let g := l.grid
  let streams := (l.parts.map fun part => (dasReceivers x).map fun r => (part, r)).flatten
  let cells := fun (first n : Nat) => (streams.map fun q => (List.range n).map fun i => cellOf f l q.1 q.2 (first + i) s).flatten
  let noise := ((cells g.noiseFirst g.noiseCount).map fun y => blockPower y.1).sum
  let each_ := (List.range g.positions).map fun p =>
    let c := g.firstCell + p * g.step
    let near := cells c g.step
    let far := cells (c + g.gauge) g.step
    let sum := phaseSum (far.zipWith (fun a b => conjProduct a.1 b.1) near)
    let signal := (near.map fun y => blockPower y.1).sum
    let bits := ((near ++ far).map (·.2)).foldl (· ||| ·) 0
    (sum.1.1, if sum.1.1 = (0, 0) then 0 else classOf (signal * g.noiseCount) (noise * g.step), bits + 16 * b2n sum.2)
  { slot := l.slot, dp := each_.map (·.1), cls := each_.map (·.2.1), bits := each_.map (·.2.2) }

/-! ## Traces that are due (R223, R226) -/

/-- The first launch of a slot that waits for its trace and has none yet. -/
def launchDue (x : Fibre) (slot : Nat) : Option Launch :=
  (x.launches.filter fun l => l.slot == slot)[(x.ready.filter fun r => r.1.slot == slot).length]?

/-- The trace of a slot's next launch, once all its outputs are there. -/
def traceOfSlot (f slot : Nat) (s : State) : Option TraceData :=
  match launchDue (getFibre f s) slot with
  | some l => if traceComplete f l s then some (traceData f l s) else none
  | none => none

/-! ## Raw cells of DTS (R238, R239) -/

/-- The optical sample of a receiver at an instant, a DT multiple of 4 tk. -/
def opticalSample (n t : Nat) (s : State) : Int :=
  match (getOrx n s).input.find? fun g => decide (g.1.toNat ≤ t) with
  | some g => if t < g.1.toNat + 64 then g.2.getD ((t - g.1.toNat) / 4) 0 else 0
  | none => 0

/-- R238: the sum of the 16 samples from an instant on. -/
def rawCell (n t : Nat) (s : State) : Int := ((List.range 16).map fun i => opticalSample n (ceilDiv t 4 * 4 + 4 * i) s).sum

/-- R238, R239: the cells of a launch from cell -256 to LAST. -/
def launchCells (f r : Nat) (l : Launch) (s : State) : List Int :=
  let x := getFibre f s
  (List.range (dtsLast x + 257)).map fun i => rawCell (2 * f + r) (l.dt.toNat + 64 * (cellZero x.cal + i) - 16384) s

/-- R239: a group under the cells of a launch carries OVR. -/
def launchOvr (f : Nat) (l : Launch) (s : State) : Bool :=
  let x := getFibre f s
  let first := l.dt.toNat + 64 * cellZero x.cal - 16384
  [0, 1].any fun r => hasFlag (getOrx (2 * f + r) s).flagged gOvr (first - 63) (l.dt.toNat + 64 * (cellZero x.cal + dtsLast x + 1) - 1)

/-- The samples of the cells of a launch have come, or what cut them off is over. -/
def launchComplete (f : Nat) (l : Launch) (s : State) : Bool :=
  let x := getFibre f s
  [0, 1].all fun r => (getOrx (2 * f + r) s).input.head?.any fun g =>
    decide (l.dt.toNat + 64 * (cellZero x.cal + dtsLast x + 1) ≤ g.1.toNat + 64)

end Sys2Proof.Machine
end

