-- ==== Sys2Proof/Machine/Slow.lean ====
section
/-! DEFINITION. The slow converter and the excitation outputs (12_temperature_and_reference_sensing.md, R247 to R257). -/

namespace Sys2Proof.Machine

/-- The converter's settings change. -/
def modSlow (f : Slow → Slow) (s : State) : State := { s with slow := f s.slow }

/-- R248, R250, R350: the entry a running job converts: the self-test runs ungained on the scan's entry with NPLC 1. -/
def jobEntry (s : State) : ScanEntry :=
  let at_ := fun k => s.slow.table.getD k { ain := 0, exc := 0, gain := 0, nplc := 1, repeats := 1, delayUs := 0 }
  match s.slow.job with
  | some (.scan k) => at_ k
  | some (.urgent e _) => e
  | some (.selfTest _) => { at_ s.slow.entry with gain := 0, nplc := 1 }
  | _ => at_ s.slow.entry

/-- R248: the job begins with a delay: the first repeat of a scan entry, or an urgent conversion. -/
def jobDelayed (s : State) : Bool :=
  match s.slow.job with
  | some (.scan _) => s.slow.repeatsDone == 0
  | some (.urgent _ _) => true
  | _ => false

/-- R248, Table 12-3: the line period, the power-up and the writing of a result, in ticks. -/
def linePeriod (hz : Nat) : Nat := if hz = 60 then 341333333 else 409600000
def powerUpTk : Nat := 16384000
def resultTk : Nat := 2048000

/-- R257: the tone of an impedance check. -/
def toneTk : Nat := 163840000

/-- The running action converts. -/
def jobConverts (s : State) : Bool :=
  match s.slow.job with
  | some (.impedance _) | none => false
  | _ => true

/-- R248: the DT at which the conversion of the running action starts: its power-up, after the delay of its entry. -/
def convStart (s : State) : DT := dtAdd s.slow.since (if jobDelayed s then 20480 * (jobEntry s).delayUs else 0)

/-- The conversion of the running action has not started. -/
def notStarted (s : State) : Bool := jobConverts s && !s.slow.poweredUp && !s.slow.integrating

/-- R248: the conversion starts when its time has come. -/
def powerUp (s : State) : State :=
  if notStarted s && dtLe (convStart s) s.dt then modSlow (fun x => { x with poweredUp := true, since := convStart s }) s else s

/-- R248: the end of the integration under way, the result's DT. -/
def convEnd (s : State) : DT := dtAdd s.slow.since ((jobEntry s).nplc * linePeriod s.slow.lineHz)

/-- R252, R350: the next due action, from a DT on: urgent conversions in take order, impedance checks in EXC order, self-test
conversions, then the scan. (DEDUCED, unsafe: log 62.) -/
def nextJob (start : DT) (s : State) : State :=
  let x := s.slow
  let go := fun (f : Slow → Slow) => modSlow (fun x => f { x with poweredUp := false, integrating := false, since := start }) s
  match x.urgents with
  | (e, r) :: rest => go fun x => { x with job := some (.urgent e r), urgents := rest }
  | [] =>
    match (List.range 4).find? fun n => x.checksDue.contains n with
    | some n => go fun x => { x with job := some (.impedance n), checksDue := x.checksDue.filter (· != n) }
    | none =>
      match x.selfTestsDue with
      | h :: rest => go fun x => { x with job := some (.selfTest h), selfTestsDue := rest }
      | [] => if x.scanning then go fun x => { x with job := some (.scan x.entry) } else go fun x => { x with job := none }

/-- Something became due while the converter rests: it starts at once. -/
def slowKick (s : State) : State := if s.slow.job.isNone then nextJob s.dt s else s

/-- R249: the scan moves on after a conversion of it. -/
def scanAdvance (x : Slow) : Slow :=
  let e := x.table[x.entry]?
  let done := x.repeatsDone + 1
  if done < (e.map (·.repeats)).getD 1 then { x with repeatsDone := done }
  else { x with repeatsDone := 0, entry := (x.entry + 1) % max 1 x.table.length }

/-- Table 12-5: a result record; LOST is bit 0 of STATUS. -/
def resultBytes (dt : DT) (code : Int) (status entry ain seq : Nat) : List Byte :=
  leBytes 8 dt.toNat ++ leInt 3 code ++ leBytes 1 status ++ leBytes 1 entry ++ leBytes 1 ain ++ leBytes 2 seq

/-- R253: what fills the entry that is written partial. -/
def resultPadding : List Byte := leBytes 12 0 ++ leBytes 1 0xFF ++ leBytes 3 0

/-- R253: the entry being filled is written out. -/
def slowFlush (s : State) : State :=
  let x := s.slow
  if x.partials = [] then s
  else
    let bytes := x.partials.flatten ++ (List.replicate (4 - x.partials.length) resultPadding).flatten
    let s := modSlow (fun x => { x with partials := [] }) s
    if ringRoom (getRing s.slow.ring s) s then publish s.slow.ring bytes s
    else modSlow (fun y => { y with
      lost := y.lost + x.partials.length, lostFirst := if y.lost = 0 then x.partialFirst else y.lostFirst }) s

/-- R253: a result joins the entry being filled, or is dropped; the next one written carries LOST and EV_SLOW_LOST is
posted with the count. -/
def slowResult (dt : DT) (code : Int) (status entry ain : Nat) (s : State) : State :=
  let x := s.slow
  let seq := x.seq.toNat
  let s := modSlow (fun x => { x with seq := x.seq + 1 }) s
  if x.ring = 0xFFFF then s
  else if !ringRoom (getRing x.ring s) s then
    modSlow (fun x => { x with lost := x.lost + 1, lostFirst := if x.lost = 0 then dt else x.lostFirst }) s
  else
    let s := modSlow (fun y => { y with
      partials := y.partials ++ [resultBytes dt code (status ||| b2n (decide (0 < x.lost))) entry ain seq]
      partialFirst := if y.partials = [] then dt else y.partialFirst, lost := 0 }) s
    let s := if 0 < x.lost then event 0x1101 1 0 [(16, 2, sat 2 x.lost), (24, 8, x.lostFirst.toNat)] s else s
    if s.slow.partials.length = 4 then slowFlush s else s

/-- R243: a usable result of a scan entry reaches the fibres that sense temperature. -/
def slowToFibres (entry status : Nat) (dt : DT) (code : Int) (s : State) : State :=
  each [0, 1] (fun f => modFibre f (fun x =>
    if x.dts && status / 2 == 0 then { x with rtd := x.rtd ++ [(entry, dt, code)] } else x)) s

/-- R250: the conversion's gain differs from that of the conversion before it. -/
def gainChanged (s : State) : Bool := s.slow.lastGain.any fun g => g != (jobEntry s).gain

/-- R254, R247: at the integration start, 0.8 ms after the power-up: EXC_OFF, LIMIT and RECOVER, and INVALID after a gain change. Whether the
output is in current limit is an analogue fact (DESIGN CHOICE, safe: log 40). -/
def slowBegin (s : State) : State :=
  let e := jobEntry s
  let off := !(getExc e.exc s).cfg.enable
  let r := draw s
  let limit := !off && r.1 % 2 == 1
  let s := if off then s else r.2
  let start := dtAdd s.slow.since powerUpTk
  let recover := s.slow.lastOvr.any fun d => decide (dtSub start d < 2 * tkMs)
  let invalid := gainChanged s
  modSlow (fun x => { x with
    integrating := true, since := start, poweredUp := true, lastGain := some e.gain
    startFlags := 2 * b2n off + 4 * b2n limit + 8 * b2n invalid + 16 * b2n recover }) s

/-- R247: CODE and the OVR and UNR bits of an ideal code at a gain. -/
def rangeCode (gain : Nat) (code : Int) : Int × Nat :=
  let limit : Int := ((2 ^ 23 / 4 ^ gain : Nat) : Int)
  if limit ≤ code then (0x7FFFFF, 64) else if code ≤ -limit then (-8388608, 32) else (code, 0)

/-- ENTRY and AIN of the record of a job (Table 12-5). -/
def jobNames (s : State) : Nat × Nat :=
  match s.slow.job with
  | some (.scan k) => (k, (jobEntry s).ain)
  | some (.urgent e _) => (0xFD, e.ain)
  | some (.impedance n) => (0xFE, 0x10 + n)
  | some (.selfTest half) => (0xFC, 0x20 + b2n half)
  | none => (0xFF, 0)

/-- R252, R350: what a finished conversion means beyond its record; a self-test that was not integrated shows nothing
(DEDUCED, unsafe: log 62). -/
def jobDone (dt : DT) (code : Int) (status : Nat) (s : State) : State :=
  match s.slow.job with
  | some (.scan k) => modSlow scanAdvance (slowToFibres k status dt code s)
  | some (.urgent _ r) => ok r (enc 3 code + 2 ^ 24 * status) s
  | some (.selfTest half) =>
    let dev : Int := if half then roundAway ((code - 4194304) * 1000000) 4194304 else roundAway (code * 1000000) 8388608
    if (if half then 10 else 2) < dev.natAbs ∧ bit status 1 = false ∧ bit status 7 = false then
      event 0x1806 1 0 [(16, 1, if half then 5 else 4), (17, 1, 0), (18, 1, 1), (20, 4, enc 4 dev)] s
    else s
  | _ => s

/-- R248, R255: a conversion ends with a code: its status, its record, and the next due action, 0.1 ms after the result. -/
def slowEnd (code : Int) (flags : Nat) (s : State) : State :=
  let dt := convEnd s
  let e := jobEntry s
  let x := getExc e.exc s
  let off := bit flags 1
  let rc := rangeCode e.gain code
  let c := if off then 0x7FFFFF else rc.1
  let status := flags ||| (if off then 0 else rc.2) ||| 128 * b2n x.breakLatched
  let names := jobNames s
  let s := modExc e.exc (fun x => { x with breakLatched := false }) s
  let s := if bit status 6 then modSlow (fun x => { x with lastOvr := some dt }) s else s
  let s := slowResult dt c status names.1 names.2 s
  nextJob (dtAdd dt resultTk) (jobDone dt c status s)

/-- R255: a break during a conversion that uses the output aborts it. -/
def slowAbort (s : State) : State :=
  let names := jobNames s
  let status := 128 ||| (if s.slow.integrating then s.slow.startFlags else 8 * b2n (gainChanged s))
  let s := modSlow (fun x => { x with lastGain := some (jobEntry s).gain }) s
  nextJob s.dt (jobDone s.dt 0x7FFFFF status (slowResult s.dt 0x7FFFFF status names.1 names.2 s))

/-- A conversion that uses an output runs. -/
def converting (n : Nat) (s : State) : Bool :=
  jobConverts s && (s.slow.poweredUp || s.slow.integrating || dtLe (convStart s) s.dt) && (jobEntry s).exc == n

/-- R257: an impedance check ends: its record, the stored values and EV_EXC_IMPEDANCE. -/
def impedanceEnd (n nanofarad microsiemens : Nat) (s : State) : State :=
  let x := getExc n s
  let dt := dtAdd s.slow.since toneTk
  let s := modExc n (fun x => { x with breakLatched := false, lastC := nanofarad, lastG := microsiemens, lastCheck := dt }) s
  let s := slowResult dt (min nanofarad 0x7FFFFF) (128 * b2n x.breakLatched) 0xFE (0x10 + n) s
  let s := if x.cfg.cMax < nanofarad then
      event 0x1202 1 n [(16, 1, n), (20, 4, sat 4 nanofarad), (24, 8, dt.toNat)] s
    else s
  nextJob dt s

/-- EXC.SET lands: the checks of an output run every IMP_PERIOD_S seconds from here (R257). -/
def excLand (n : Nat) (cfg : ExcCfg) (s : State) : State :=
  modExc n (fun x => { x with
    cfg := cfg, broken := x.broken && cfg.enable
    nextCheck := if cfg.enable && (!x.cfg.enable || x.cfg.impPeriod != cfg.impPeriod) then dtAdd s.dt (cfg.impPeriod * tkS)
      else x.nextCheck }) s

/-- SLOW.SET_SCAN lands: the new table starts at its entry 0 (R249). -/
def scanLand (entries : List ScanEntry) (lineHz ring : Nat) (s : State) : State :=
  let start := convStart s
  let s := modSlow (fun x => { x with table := entries, lineHz := lineHz, ring := ring, entry := 0, repeatsDone := 0 }) s
  match s.slow.job with
  | some (.scan _) => nextJob start s
  | _ => s

/-- SLOW.START lands. -/
def scanStartLand (s : State) : State :=
  slowKick (modSlow (fun x => { x with scanning := true, entry := 0, repeatsDone := 0 }) s)
def scanStopLand (s : State) : State :=
  let s := modSlow (fun x => { x with scanning := false }) s
  match s.slow.job with
  | some (.scan _) => nextJob (convStart s) s
  | _ => s

end Sys2Proof.Machine
end

