-- ==== Sys2Proof/Machine/Budget.lean ====
section
/-! DEFINITION. Budgets and admission (01_architecture.md, R18 to R29): what a configuration needs, and the first budget
it breaks. A configuration is given as the state that will hold. Rates are in bytes per second; a fraction of a byte
per second counts as one (DESIGN CHOICE, unsafe: log 23). -/

namespace Sys2Proof.Machine

/-! ## Pips and currants (R20 to R23) -/

/-- R21: pips of an RF channel: ceil(r_c / (1 - overlap) / 2.56 GS/s). -/
def pipsOfRf (p : Nat) (s : State) : Nat :=
  let decim := (getDdc p s).decim
  if isScs decim then max 1 (getSpec p s).pips.length
  else max 1 (ceilDiv 32 (outPeriod p decim * (4 - (getSpec p s).fft.overlap)))

/-- R21: pips of a DAS fibre. -/
def pipsOfDas (k m : Nat) : Nat := ceilDiv (k * m) 4

/-- Pips a personality needs: 0 to 3 the RF channels, 4 and 5 the fibres. -/
def pipsNeeded (p : Nat) (s : State) : Nat :=
  if p < 4 then (if (getSpec p s).running then pipsOfRf p s else 0)
  else
    let f := getFibre (p - 4) s
    if f.das then pipsOfDas f.receivers (enabledSlots f).length else 0

/-- R23: currants a fibre needs. -/
def currantsNeeded (f : Nat) (s : State) : Nat :=
  let x := getFibre f s
  if x.das then (enabledSlots x).length else if x.dts then 2 else 0

def pipsInUse (s : State) : Nat := ((List.range 6).map fun p => pipsNeeded p s).sum
def currantsInUse (s : State) : Nat := currantsNeeded 0 s + currantsNeeded 1 s

/-! ## Rates -/

/-- Events per second of a period of num / den ticks, times a byte count. (DESIGN CHOICE, unsafe: log 23.) -/
def perSecond (count num den : Nat) : Nat := ceilDiv (count * num * tkS) (max 1 den)

/-- A stream into a data ring: bytes per second and entries per second. -/
structure Stream where
  ring : Nat
  bytes : Nat
  entries : Nat
  deriving DecidableEq, Repr

/-- A stream of records of a length, one every `ticks` tk. -/
def recordStream (ring len ticks : Nat) (s : State) : List Stream :=
  if ring = 0xFFFF ∨ ticks = 0 then []
  else
    let k := entriesOf (getRing ring s) len
    [{ ring := ring, bytes := perSecond len 1 ticks, entries := perSecond k 1 ticks }]

/-- A stream of bytes packed into entries. -/
def packedStream (ring rate : Nat) (s : State) : List Stream :=
  if ring = 0xFFFF ∨ rate = 0 then []
  else [{ ring := ring, bytes := rate, entries := ceilDiv rate (max 1 (getRing ring s).entrySize) }]

/-- Ticks from one frame start to the next (R126). -/
def frameTicks (p : Nat) (s : State) : Nat := hopLen (getSpec p s).fft * outPeriod p (getDdc p s).decim

/-- R142 to R168, R164, R195: the streams of an RF personality. -/
def rfStreams (p : Nat) (s : State) : List Stream :=
  let x := getSpec p s
  if x.running then
    recordStream x.fft.ring (specRecLen p s) (x.fft.avg * frameTicks p s) s ++
      ((List.range 4).map fun i =>
        let t := tget {} x.traces i
        if t.cfg.detector = 0 then [] else recordStream t.cfg.ring (recLen t.cfg.points) (t.cfg.interval * frameTicks p s) s).flatten ++
      ((mapsOf p s).map fun k =>
        let c := (getBloom k s).cfg
        if c.snapSpectra = 0 then [] else recordStream c.snapRing (snapshotLen c) (c.snapSpectra * frameTicks p s) s).flatten ++
      (match (getTrig p s).log with
       | some l => if l.cfg.enable then packedStream l.cfg.ring l.cfg.maxRate s else []
       | none => [])
  else []

/-- R125, R323: the streams of a DDC path. -/
def pathStreams (path : Nat) (s : State) : List Stream :=
  let d := getDdc path s
  if d.enable then
    let p := outPeriod path d.decim
    (if d.detEnable = 0 then [] else packedStream d.detRing (perSecond 16 1 (2 ^ d.log2Win * p)) s)
  else []

/-- Samples of a VDIF frame (R323). -/
def vdifSamples (c : VdifCfg) : Nat := c.payload * 8 / (2 * max 1 c.bits)

/-- R323: a ring that carries VDIF frames of an enabled path. -/
def vdifStream (n : Nat) (s : State) : List Stream :=
  match (getRing n s).vdif with
  | some c =>
    if (getDdc c.path s).enable then
      recordStream n (getRing n s).entrySize (vdifSamples c * outPeriod c.path (getDdc c.path s).decim) s
    else []
  | none => []

/-! ## The rate of DAS traces (R231) -/

/-- R223: what an epoch at a sequence entry launches: traces of a DAS fibre. -/
def traceLaunches (f : Fibre) (entry : Nat) : Nat :=
  let mine := (enabledSlots f).filter fun k => (tget {} f.slots k).entryA == entry
  if f.grid.combine then min 1 mine.length else mine.length

/-- Walk the table from an entry, adding ticks and traces, until a state of entry and loop counters repeats. -/
def walkRate (g : Gen) (launched : Nat → Nat) : Nat → List (Walk × Nat × Nat) → Walk → Nat → Nat → Nat × Nat
  | 0, _, _, ticks, traces => (ticks, traces)
  | n + 1, seen, w, ticks, traces =>
    match seen.find? fun e => decide (e.1 = w) with
    | some (_, t, r) => (ticks - t, traces - r)
    | none =>
      match g.table[w.entry]? with
      | none => (ticks, traces)
      | some e =>
        let plays := max 1 e.repeats
        let here := if bit e.flags 1 then launched w.entry * (if bit e.flags 3 then plays else 1) else 0
        let ticks' := ticks + plays * playTk g w.entry
        if e.repeats = 0 then (playTk g w.entry, if bit e.flags 3 then here else 0)
        else match (follow g.table { w with plays := plays } false false).1 with
          | some (v, _) => walkRate g launched n ((w, ticks, traces) :: seen) { v with plays := 1 } ticks' (traces + here)
          | none => (ticks', traces + here)

/-- Ticks and launches of a fibre over one period of its sequence. -/
def launchRate (f : Nat) (launched : Nat → Nat) (s : State) : Nat × Nat :=
  walkRate (getGen f s) launched 65536 [] { entry := (getGen f s).startEntry, plays := 1, loops := [] } 0 0

/-- R231, R270: the streams of a DAS fibre. -/
def fibreStreams (f : Nat) (s : State) : List Stream :=
  let x := getFibre f s
  if x.das then
    let r := launchRate f (traceLaunches x) s
    let of := fun (ring len : Nat) (ticks : Nat) =>
      if ring = 0xFFFF ∨ r.2 = 0 ∨ ticks = 0 then []
      else [({ ring := ring, bytes := perSecond len r.2 ticks
               entries := perSecond (entriesOf (getRing ring s) len) r.2 ticks } : Stream)]
    of x.grid.ring (dasLen x.grid.positions) r.1 ++
      (if x.band.enable then of x.band.ring (bandLen x.grid.positions) (r.1 * 2 ^ x.band.log2Win) else [])
  else []

/-- Table 9-2: write rate of a capture. -/
def captureRate (c : CapCfg) (s : State) : Nat := perSecond (unitBytes c s) 1 (unitPeriod c s)

/-- R189: the spill of an armed capture. -/
def spillStream (k : Nat) (s : State) : List Stream :=
  let c := getCap k s
  if c.isSet && (c.phase == 1 || c.phase == 2) then packedStream c.cfg.spillRing (captureRate c.cfg s) s else []

/-- All live streams of a configuration. -/
def streams (s : State) : List Stream :=
  ((List.range 4).map fun p => rfStreams p s).flatten ++ ((List.range 48).map fun d => pathStreams d s).flatten ++
    ((s.rings.map (·.1)).map fun n => vdifStream n s).flatten ++ fibreStreams 0 s ++ fibreStreams 1 s ++
    ((List.range 16).map fun k => spillStream k s).flatten

/-- R24, R237: streams that lie inside the reserve of the DRAM budget: DTS records and slow-converter results. -/
def reserveStreams (s : State) : List Stream :=
  ([0, 1].map fun f =>
    let x := getFibre f s
    if x.dts then
      let r := launchRate f (fun e => b2n (e == x.dtsCfg.entry)) s
      if r.2 = 0 then []
      else (recordStream x.dtsCfg.ring (dtsLen x) 1 s).map fun y =>
        { y with bytes := perSecond (dtsLen x) r.2 (r.1 * dtsRequested x)
                 entries := perSecond (entriesOf (getRing x.dtsCfg.ring s) (dtsLen x)) r.2 (r.1 * dtsRequested x) }
    else []).flatten ++
  (if s.slow.scanning then
    let ticks : Nat := (s.slow.table.map fun e =>
      20480 * e.delayUs + e.repeats * (powerUpTk + e.nplc * linePeriod s.slow.lineHz + resultTk)).sum
    let results : Nat := (s.slow.table.map fun e => e.repeats).sum
    (recordStream s.slow.ring 64 (if results = 0 then 0 else 1) s).map fun y =>
      { y with bytes := perSecond 16 results ticks, entries := perSecond 1 results (4 * ticks) }
  else [])

/-- All streams that load a link (R27). -/
def linkStreams (s : State) : List Stream := streams s ++ reserveStreams s

/-- Bytes per second of a stream: by entries when a port sends them (R322), by records otherwise. -/
def streamBytes (x : Stream) (s : State) : Nat :=
  let r := getRing x.ring s
  if r.stream.isSome || r.vdif.isSome then x.entries * r.entrySize else x.bytes

/-! ## DRAM (R24 to R26) -/

/-- Table 15-2: data rate of a frequency point in MT/s. -/
def pointRate (point : Nat) : Nat := ([8533, 6400, 4266, 2133] : List Nat).getD point 2133

/-- R24: B at a point. -/
def budgetAt (point : Nat) : Nat := pointRate point * 22400000 - 2000000000

/-- R57, R306: the B that changes are checked against. -/
def budgetNow (s : State) : Nat :=
  match s.memCtl.change with
  | some (target, _, _, _) => min (budgetAt s.memCtl.point) (budgetAt target)
  | none => budgetAt s.memCtl.point

/-- R334: refresh rate rounded up to a whole Hz. -/
def refreshHz (m : ModeCfg) : Nat := ceilDiv (m.pclk * 1000) (max 1 (m.h.sum * m.v.sum))

/-- Table 17-2: bytes per pixel of a host plane, in halves. -/
def halfBytes (format : Nat) : Nat := ([8, 3, 4, 6] : List Nat).getD format 8

/-- Display scan-out charge; the bloom layer is free (R339). -/
def displayCharge (s : State) : Nat :=
  if s.disp.mode.output = 0 then 0
  else ([1, 2, 3].map fun i =>
    let l := tget {} s.disp.layers i
    if l.enable then ceilDiv (halfBytes l.format * l.w * l.h) 2 * refreshHz s.disp.mode else 0).sum

/-- Replay windows (Table 1-5A). -/
def replayCharge (s : State) : Nat :=
  ((List.range 4).map fun p =>
    if (getSpec p s).running then perSecond 4 1 (outPeriod p (getDdc p s).decim) else 0).sum +
  ([0, 1].map fun f =>
    let x := getFibre f s
    if x.das then 1280000000 * x.receivers * (enabledSlots x).length else 0).sum

/-- R277: RATE of the admitted DMA channels that run, all or only those on PF1. -/
def dmaCharge (pf1Only : Bool) (s : State) : Nat :=
  (s.dma.channels.map fun c =>
    if (c.2.state == 1 || c.2.state == 2 || c.2.state == 3) && (!pf1Only || c.2.pf1) then c.2.rate else 0).sum

/-- R193: RATE of the admitted readouts under way, and what of it crosses PF1 (R27). -/
def readoutCharge (s : State) : Nat := (s.memCtl.readouts.map fun r => if dtLe r.2.2 s.dt then 0 else r.1).sum
def readoutOut (s : State) : Nat := (s.memCtl.readouts.map fun r => if dtLe r.2.2 s.dt then 0 else r.2.1).sum

/-- The admitted sum of DRAM charges (R25). -/
def dramCharge (s : State) : Nat :=
  replayCharge s + refillCharge (getGen 0 s) + refillCharge (getGen 1 s) +
    ((List.range 16).map fun k => if (getCap k s).isSet then captureRate (getCap k s).cfg s else 0).sum +
    2 * ((streams s).map fun x => streamBytes x s).sum + displayCharge s + dmaCharge false s + readoutCharge s

/-- R26: bytes of DRAM that Korsyn has allocated. -/
def dramSpace (s : State) : Nat :=
  ((List.range 16).map fun k => if (getCap k s).isSet then (getCap k s).cfg.bufSize else 0).sum +
  ([0, 1].map fun d => ((getGen d s).segments.map fun e => match e.2 with
    | some c => c.length * granuleBytes c
    | none => 0).sum).sum +
  (s.rings.map fun r => if r.2.created && r.2.location == 2 then ringSize r.2 * r.2.entrySize else 0).sum +
  (match s.disp.pool with
   | some (_, n) => n
   | none => 0) +
  4194304 * (((List.range 4).filter fun p => (getSpec p s).running).length +
    ([0, 1].map fun f => if (getFibre f s).das then (getFibre f s).receivers * (enabledSlots (getFibre f s)).length else 0).sum)

/-! ## Links (R27, R318, R322) -/

/-- R318: the PF1 budget in each direction; a rate of 2 stands for 2.5 GT/s. -/
def pf1Budget (s : State) : Nat :=
  24000000000 * s.pcie.width * (if s.pcie.rate = 2 then 25 else 10 * s.pcie.rate) / 2560

/-- R27: PF1 traffic from the device to the host, and from the host to the device. -/
def pcieOut (s : State) : Nat :=
  ((linkStreams s).map fun x => if (getRing x.ring s).location = 1 then streamBytes x s else 0).sum + dmaCharge true s +
    readoutOut s
def pcieIn (s : State) : Nat :=
  ((linkStreams s).map fun x =>
    let r := getRing x.ring s
    if r.location = 1 && r.stream.isSome then streamBytes x s else 0).sum + dmaCharge true s

/-- R321: payload of a datagram of a bound ring. -/
def datagramPayload (r : Ring) (c : StreamCfg) : Nat :=
  if c.vdif then (match r.vdif with
    | some v => 32 + v.payload
    | none => r.entrySize) else 16 + r.entrySize

/-- R322: per-frame overhead. -/
def frameOverhead (c : StreamCfg) : Nat := (if c.ipv6 then 86 else 66) + (if c.vlan = 0xFFFF then 0 else 4)

/-- R322: line rate of a port's streams in bit/s. -/
def portCharge (port : Nat) (s : State) : Nat :=
  ((linkStreams s).map fun x =>
    let r := getRing x.ring s
    match r.stream with
    | some c => if c.port = port then x.entries * 8 * (datagramPayload r c + frameOverhead c) else 0
    | none => 0).sum

/-! ## Admission (R19, R22, R28, R273) -/

/-- R20, R22: a configuration uses more than H - S pips, or more than the healthy currants minus 2. -/
abbrev pipsShort (s : State) : Prop := pipsHealthy s < pipsInUse s + s.health.spares
abbrev currantsShort (s : State) : Prop := currantsHealthy s < currantsInUse s + 2

/-- R28: the first budget of Table 1-6 that the change from one configuration to another breaks; extra DRAM and PF1
output are the charges of a readout. -/
def brokenBudget (old new : State) (dram out : Nat) : Option Nat :=
  if pipsShort new ∧ pipsInUse old ≤ pipsInUse new then some 0x01
  else if currantsShort new ∧ currantsInUse old ≤ currantsInUse new then some 0x02
  else if budgetNow new < dramCharge new + dram then some 0x03
  else if hostDram new < dramSpace new then some 0x04
  else if pf1Budget new < pcieOut new + out then some 0x05
  else if pf1Budget new < pcieIn new then some 0x06
  else (List.range 4).findSome? fun p => if 95000000000 < portCharge p new then some (0x08 + p) else none

end Sys2Proof.Machine
end

