-- ==== Sys2Proof/Machine/Settings.lean ====
section
/-! DEFINITION. What each configuration write sets (R51, R57): the planned configuration that staging checks members
against. What a write does beyond its fields when it lands is in Landing.lean. -/

namespace Sys2Proof.Machine

/-- R148: the start values of a personality. -/
def fftStart : FftCfg := {}

/-- R145: the settings of a degraded RF personality. -/
def degradeCfg (p overlap stages : Nat) (s : State) : State :=
  let s := modSpec p (fun x => { x with fft := { x.fft with overlap := overlap } }) s
  modDdc p (fun d => { d with decim := stages }) s

/-- R232, R273: the enabled slots that stay are the lowest. -/
def keepSlots (n : Nat) (f : Fibre) : Fibre :=
  (enabledSlots f).drop n |>.foldl (fun f k => { f with slots := tmod {} f.slots k (fun c => { c with enable := false }) }) f

/-- A mask, condition or log as it stands right after it is set. -/
def freshMask (c : MaskCfg) : Mask := { cfg := c, violated := [], run := 0, onset := 0, fired := false, skipped := 0 }
def freshTd (c : TdCfg) : TimeDomain := { cfg := c, violated := false, run := 0, onset := 0, fired := false, skipped := 0 }
def freshLog (c : ChangeLogCfg) : ChangeLog :=
  { cfg := c, logged := [], since := 0, key := true, lost := false, lastFlags := none }

/-- The configuration after a write; peers are the writes of the same bunch (R148). -/
def applyCfg (peers : List Write) (w : Write) (s : State) : State :=
  match w with
  | .calRf ch off table delay fStart fStep =>
    modRf ch (fun c => { c with userOff := off, userTable := table, delayTk := delay, fStart := fStart, fStep := fStep }) s
  | .ddcSet path f phi decim shift enable =>
    modDdc path (fun d => { d with f := f, phi := phi, decim := decim, outShift := shift, enable := enable }) s
  | .ddcDetect path w a enable ring =>
    modDdc path (fun d => { d with log2Win := w, alpha := a, detEnable := enable, detRing := ring }) s
  | .pipStart p =>
    let ownFft := peers.any fun w => match w with
      | .specFft q _ => q == p
      | _ => false
    let ownWin := peers.any fun w => match w with
      | .specWindow q _ => q == p
      | _ => false
    modSpec p (fun x => { x with running := true, fft := if ownFft || x.keepFft then x.fft else fftStart
                                 window := if ownWin || x.keepWindow then x.window else 1 }) s
  | .pipStop p => modSpec p (fun x => { x with running := false }) s
  | .specFft p cfg => modSpec p (fun x => { x with fft := cfg }) s
  | .specWindow p w => modSpec p (fun x => { x with window := w }) s
  | .specTrace p i cfg => modSpec p (fun x => { x with traces := tmod {} x.traces i (fun t => { t with cfg := cfg }) }) s
  | .bloomSet m cfg => modBloom m (fun b => { b with set := true, cfg := cfg }) s
  | .bloomRelease m => modBloom m (fun b => { b with set := false }) s
  | .trigMask p i cfg => modTrig p (fun u => { u with masks := tput none u.masks i (some (freshMask cfg)) }) s
  | .trigTd p cfg => modTrig p (fun u => { u with td := some (freshTd cfg) }) s
  | .trigSeq p cfg => modTrig p (fun u => { u with seq := cfg }) s
  | .trigLimit p cfg => modTrig p (fun u => { u with limit := some cfg }) s
  | .trigLog p cfg => modTrig p (fun u => { u with log := some (freshLog cfg) }) s
  | .lineLog cfg => { s with lineLog := { s.lineLog with cfg := cfg } }
  | .capSet k cfg => modCap k (fun c => { c with isSet := true, cfg := cfg }) s
  | .capArm k arm => modCap k (fun c => { c with phase := if arm then (if c.phase = 2 then 2 else 1) else 0 }) s
  | .genSegment d i cfg =>
    modGen d (fun g => { g with segments := tput none g.segments i (some cfg), held := tput [] g.held i (heldCells s.dram cfg) }) s
  | .genLoad d entries start => modGen d (fun g => { g with table := entries, startEntry := start }) s
  | .genStart d start => modGen d (fun g => { g with running := true, startEntry := start, stimulus := g.stimulus || !dacOwned d s }) s
  | .genStop d => modGen d (fun g => { g with running := false }) s
  | .genCarrier d lane g phi bias =>
    modGen d (fun x => { x with carriers := tput (0, 0) x.carriers lane (g, phi), bias := bias }) s
  | .calGen d delay => modGen d (fun g => { g with delayTk := delay }) s
  | .dasStart f k => modFibre f (fun x => { x with das := true, dts := false, receivers := k }) s
  | .dasStop f => modFibre f (fun x => { x with das := false }) s
  | .dasSlot f k cfg => modFibre f (fun x => { x with slots := tput {} x.slots k cfg }) s
  | .slotCarrier d k g => modGen d (fun x => { x with carriers := tput (0, 0) x.carriers k (g, 0) }) s
  | .slotPath path f enable => modDdc path (fun d => { d with f := f, phi := 0, decim := 0, enable := enable }) s
  | .dasGrid f cfg => modFibre f (fun x => { x with grid := cfg }) s
  | .dasPmask f cfg => modFibre f (fun x => { x with pmask := cfg }) s
  | .calFibre f cfg => modFibre f (fun x => { x with cal := cfg }) s
  | .laserModcal d pRef table => modGov d (fun g => { g with modcal := some (pRef, table) }) s
  | .laserCaps d cfg => modGov d (fun g => { g with caps := some cfg }) s
  | .laserArm d arm => modGov d (fun g => { g with armed := arm }) s
  | .dtsStart f => modFibre f (fun x => { x with dts := true, das := false }) s
  | .dtsStop f => modFibre f (fun x => { x with dts := false }) s
  | .dtsSet f cfg => modFibre f (fun x => { x with dtsCfg := cfg }) s
  | .slowScan entries lineHz ring => modSlow (fun x => { x with table := entries, lineHz := lineHz, ring := ring }) s
  | .slowStart => modSlow (fun x => { x with scanning := true }) s
  | .slowStop => modSlow (fun x => { x with scanning := false }) s
  | .excSet e cfg => modExc e (fun x => { x with cfg := cfg }) s
  | .curBand f cfg => modFibre f (fun x => { x with band := cfg }) s
  | .netStream ring cfg => modRing ring (fun r => { r with stream := cfg }) s
  | .netVdif ring cfg => modRing ring (fun r => { r with vdif := some cfg }) s
  | .dispMode cfg => { s with disp := { s.disp with mode := cfg } }
  | .dispLayer i cfg => { s with disp := { s.disp with layers := tput {} s.disp.layers i cfg } }
  | .dispPalette entries => { s with disp := { s.disp with palette := entries } }
  | .dispPsr mode idle => { s with disp := { s.disp with psrMode := mode, idleFrames := idle } }
  | .relievePip p failed spare =>
    let swap := fun (l : List Nat) => l.map fun x => if x = failed then spare else x
    if p < 4 then modSpec p (fun x => { x with pips := swap x.pips }) s
    else modFibre (p - 4) (fun x => { x with pips := swap x.pips }) s
  | .relieveCurrant p failed spare =>
    modFibre (p - 4) (fun x => { x with currants := x.currants.map fun c => if c = failed then spare else c }) s
  | .degradeRf p overlap stages => degradeCfg p overlap stages s
  | .degradeDas f slots => modFibre f (keepSlots slots) s
  | .degradeDts f => modFibre f (fun x => { x with dts := false }) s
  | .genResume d _ => modGen d (fun g => { g with running := true }) s
  | .halt p _ =>
    if p < 4 then modSpec p (fun x => { x with running := false }) s
    else modFibre (p - 4) (fun x => { x with das := false, dts := false }) s
  | .rfRange .. | .bloomClear _ | .bloomReadClear .. | .limitResume _ | .capForce _ | .claimOnly => s

/-- The configuration after the writes of one bunch in staging order; a start comes before the settings it starts
with. -/
def applyAll (ws : List Write) (s : State) : State :=
  let isStart := fun (w : Write) => match w with
    | .pipStart _ => true
    | _ => false
  (ws.filter isStart ++ ws.filter fun w => !isStart w).foldl (fun s w => applyCfg ws w s) s

/-- R57: the configuration that will hold once every bunch that is neither FREE nor aborted in an earlier cycle has
landed. -/
def planned (s : State) : State :=
  let open_ := (s.bunch.table.filter fun b => b.2.state != .aborted).map fun b => (b.2.members.filter fun m => !m.landed).map (·.write)
  let staged := s.bunch.staged.map fun b => b.members.map (·.write)
  let waiting := s.bunch.deferred.map fun d => d.2.map (·.write)
  (waiting ++ open_ ++ [s.bunch.lingering.map (·.write)] ++ staged).foldl (fun s ws => applyAll ws s) s

end Sys2Proof.Machine
end

