-- ==== Sys2Proof/Machine/Display.lean ====
section
/-! DEFINITION. How display settings land (17_display.md R335, R341, R343, R344). -/

namespace Sys2Proof.Machine

/-- The display's state changes. -/
def modDisp (f : Display → Display) (s : State) : State := { s with disp := f s.disp }

/-- R343: a mode lands: the output is off, or the clock relocks and the link is trained where rate or lanes change, or
the link is down, and a sink is there. Without a sink the timing generator runs all the same (R335). -/
def modeLand (cfg : ModeCfg) (late : Bool) (s : State) : State :=
  let old := s.disp.mode
  if cfg.output = 0 then
    pllStop 3 (modDisp (fun d => { d with mode := cfg, link := false, frame := 0, modeChange := none, psrActive := false, idleRun := 0, update := [] }) s)
  else
    let same := old.output != 0 && old.rate == cfg.rate && old.lanes == cfg.lanes && s.disp.link
    let train := s.disp.sink && !same
    pllBegin 3 cfg.pclk (modDisp (fun d => { d with
      mode := cfg, link := d.link && same, frame := 0, modeChange := some (late, train), retries := 0, psrActive := false, idleRun := 0, update := [] }) s)

/-- R341: what a layer setting replaces: a base of a host plane, or the map of the bloom layer. -/
def layerReplaces (i : Nat) (old new : LayerCfg) : Bool :=
  old.enable && (!new.enable || (if i = 0 then old.format != new.format else old.base0 != new.base0 || old.base1 != new.base1))

/-- The rectangle of a layer, if it is enabled. -/
def rectOf (l : LayerCfg) : List (Nat × Nat × Nat × Nat) := if l.enable then [(l.x, l.y, l.w, l.h)] else []

/-- A layer setting lands on a running output: its release follows after the next frame. A panel still in PSR2 takes it as a
selective update (R344). -/
def layerLand (i : Nat) (cfg : LayerCfg) (late : Bool) (s : State) : State :=
  let old := tget {} s.disp.layers i
  modDisp (fun d => { d with
    layers := tput {} d.layers i cfg
    releases := if layerReplaces i old cfg then d.releases ++ [(i, old.base0, late, d.frame)] else d.releases
    update := if d.psrActive then d.update ++ rectOf old ++ rectOf cfg else d.update }) s

/-- A display member lands at a frame end; LATE as R340 says. -/
def displayLand (late : Bool) (w : Write) (s : State) : State :=
  match w with
  | .dispMode cfg => modeLand cfg late s
  | .dispLayer i cfg => layerLand i cfg late s
  | _ => applyCfg [] w s

/-- A display member lands on an output that is off. -/
def displayRest (w : Write) (s : State) : State :=
  match w with
  | .dispMode cfg => modeLand cfg false s
  | _ => applyCfg [] w s

/-- A write of claim class 0x0E. -/
def isDisplay (w : Write) : Bool :=
  match w with
  | .dispMode _ | .dispLayer .. | .dispPalette _ | .dispPsr .. => true
  | _ => false

end Sys2Proof.Machine
end

