-- ==== Sys2Proof/Machine/BunchCore.lean ====
section
/-! DEFINITION. Bunches: claims, freeing and aborting (03_bunches.md, R49 to R64). -/

namespace Sys2Proof.Machine

/-- R50: member writes a bunch holds, those staged in the running cycle included. -/
def bunchWrites (id : Nat) (s : State) : Nat :=
  ((getBunch id s).members.map (·.weight)).sum +
    (((s.bunch.staged.filter fun g => g.id == id).map fun g => (g.members.map (·.weight)).sum)).sum

/-- R53, R56: the master of another bunch that holds a claim unit. -/
def claimHolder (except : Nat) (c : Claim) (s : State) : Option Master :=
  (s.bunch.table.find? fun b => b.1 != except && b.2.state != .free && b.2.members.any fun m => m.claim == c).map (·.2.master)

/-- A claim made in the running staging cycle by another bunch. -/
def claimStaged (except : Nat) (c : Claim) (s : State) : Option Master :=
  (s.bunch.staged.find? fun g => g.id != except && g.members.any fun m => m.claim == c).map (·.master)

/-- R50: the ID becomes FREE. -/
def freeBunch (id : Nat) (s : State) : State := modBunch id (fun _ => {}) s

/-- R50: the lowest free ID. -/
def freeId (s : State) : Option Nat := (List.range 64).find? fun i => (getBunch i s).state == .free

/-- The completion of a pending BUNCH.COMMIT when its bunch aborts (R60); none where R361 completes it. -/
def commitOutcome (cause status reason : Nat) : Option Done :=
  if cause = 6 then some { status := stBadArg, reason := 16 }
  else if cause = 9 ∨ cause = 7 then none
  else some { status := status, reason := reason }

/-- R50: the ID of a one-member bunch is FREE once the completion of its command is posted. -/
def freeDone (id : Nat) (ref : CmdRef) (s : State) : State :=
  if (getRing ref.ring s).inflight.any fun i => i.ref == ref then s else freeBunch id s

/-- R49, R64, Table 3-5: a bunch aborts whole: it is ABORTED, and FREE once its event is posted. Its members keep their
budget to the end of the cycle (R57). A scheduled bunch is retried (R399); a bunch made from a direct write only completes
its command (R58). Commands of it that wait for arbitration complete with BADARG, REASON 8. (DESIGN CHOICE, unsafe: log 76.) -/
def abortBunch (id cause status reason opcode tag : Nat) (s : State) : State :=
  let b := getBunch id s
  let mine := s.bunch.staged.filter fun g => g.id == id
  let gone := b.members ++ (mine.map (·.members)).flatten
  let s := { s with bunch := { s.bunch with
    staged := s.bunch.staged.filter fun g => g.id != id
    lingering := s.bunch.lingering ++ gone
    retries := if b.retry then s.bunch.retries ++ [gone] else s.bunch.retries } }
  let s := modBunch id (fun b => { b with state := .aborted }) s
  let s := if b.retry || b.direct.isSome then s
    else
      let named := cause ≤ 4 ∨ cause = 10
      event 0x0302 1 0xFFFF [(16, 1, cause), (17, 1, masterCode b.master), (18, 2, id),
        (20, 1, if named then status else 0), (21, 1, if named then reason else 0),
        (22, 2, if named then opcode else 0), (24, 4, if named then tag else 0)] s
  let s := match b.direct with
    | none => freeBunch id s
    | some ref => freeDone id ref (complete ref { status := status, reason := reason } s)
  let s := match commitOutcome cause status reason with
    | some d => completeOpt b.commit d s
    | none => s
  each mine (fun g => if g.ref = b.direct then (fun s => s) else completeOpt g.ref { status := stBadArg, reason := 8 }) s

/-- R365: the commands taken are complete and no bunch is ARMING: the new image is copied and the steward restarts. -/
def handoverGo (s : State) : State :=
  match s.steward.handover with
  | none => s
  | some h =>
    let busy := s.rings.any (fun r => r.2.inflight.any fun i => i.outcome.isNone && decide (i.ref ≠ h.ref)) ||
      s.bunch.table.any fun b => b.2.state == .arming
    if !s.steward.running || busy then s
    else
      let kept := s.sram.filter fun c => decide (c.1 < 0x800000)
      { s with sram := writeBytes (zeroRange 0 0x800000 s.sram) 0 h.image
               steward := { s.steward with running := false, outage := some (3, s.dt), handover := some { h with oldImage := kept } } }

/-- The claim units a bunch holds or has claimed in the running cycle. -/
def bunchClaims (id : Nat) (s : State) : List Claim :=
  (getBunch id s).members.map (·.claim) ++
    (((s.bunch.staged.filter fun g => g.id == id).map fun g => g.members.map (·.claim))).flatten

/-- Table 3-5, 0x08: bunches in OPEN or ARMING that write a claim unit of a unit that faults abort; in a steward outage they
wait for its restart, which aborts them (R61). -/
def abortOnFault (cls : Nat) (claims : List Claim) (s : State) : State :=
  if s.steward.running then
    each ((s.bunch.table.filter fun b => (b.2.state == .opened || b.2.state == .arming) &&
        (bunchClaims b.1 s).any claims.contains).map (·.1))
      (fun id => abortBunch id 8 stFault cls 0 0) s
  else s

end Sys2Proof.Machine
end

