-- ==== Sys2Proof/Machine/Boundary.lean ====
section
/-! DEFINITION. Which blocks run, where their work divides (R53, R54, R58, Table 3-2), and how late an event can be
delivered (Table 9-1). The command of a landing comes at the boundary itself: before the data of the group, frame, epoch,
segment or conversion that starts there (DEDUCED, unsafe: log 31). -/

namespace Sys2Proof.Machine

/-! ## Running blocks (R54, R58) -/

/-- An RF or fibre personality runs. -/
def personalityRuns (p : Nat) (s : State) : Bool :=
  if p < 4 then (getSpec p s).running else p < 6 && fibreRuns (p - 4) s

/-- Frames of an RF personality are delivered: it runs and its grid is not one of single-cycle settling (R121). -/
def framesRun (p : Nat) (s : State) : Bool := (getSpec p s).running && !isScs (getSpec p s).decim

/-- A trigger unit's personality runs. -/
def trigRuns (p : Nat) (s : State) : Bool := personalityRuns p s

/-- The fibre of a personality or DAC runs DAS. -/
def dasRuns (f : Nat) (s : State) : Bool := (getFibre f s).das
def dtsRuns (f : Nat) (s : State) : Bool := (getFibre f s).dts

/-- A DDC path runs: it is enabled and its channel or fibre runs. -/
def pathRuns (path : Nat) (s : State) : Bool :=
  (getDdc path s).enable && (if isSlotPath path then fibreRuns ((path - 16) / 16) s else (getRf path s).powered)

/-- R58: the block a write goes to is running. -/
def blockRuns (w : Write) (s : State) : Bool :=
  match w with
  | .rfRange ch .. => (getSpec ch s).running
  | .calRf ch .. => (getSpec ch s).running
  | .ddcSet path .. | .ddcDetect path .. | .slotPath path .. => pathRuns path s
  | .pipStart p | .pipStop p | .specFft p _ | .specWindow p _ | .specTrace p _ _ => (getSpec p s).running
  | .bloomSet m _ | .bloomRelease m | .bloomClear m | .bloomReadClear m _ =>
    (getBloom m s).set && (framesRun (getBloom m s).cfg.personality s || (getSpec (getBloom m s).cfg.personality s).queue != [])
  | .trigMask p _ _ | .trigTd p _ | .trigSeq p _ | .trigLimit p _ | .limitResume p | .trigLog p _ => trigRuns p s
  | .lineLog _ => s.lineLog.cfg.ring != 0xFFFF
  | .capSet k _ | .capArm k _ | .capForce k => (getCap k s).phase == 1 || (getCap k s).phase == 2
  | .genSegment d _ _ | .genLoad d _ _ | .genStart d _ | .genStop d | .genCarrier d _ _ _ _ | .calGen d _
  | .slotCarrier d _ _ | .laserModcal d _ _ | .laserCaps d _ | .laserArm d _ | .genResume d _ =>
    (getGen d s).running || ((getGen d s).gapped && planeAbsent s)
  | .dasStart f _ | .dasStop f | .dasSlot f _ _ | .dasGrid f _ | .dasPmask f _ | .curBand f _ | .degradeDas f _ => dasRuns f s
  | .calFibre f _ => fibreRuns f s
  | .dtsStart f | .dtsStop f | .dtsSet f _ | .degradeDts f => dtsRuns f s
  | .slowScan .. | .slowStart | .slowStop => s.slow.scanning
  | .excSet e _ => (getExc e s).cfg.enable
  | .netStream ring _ => (getRing ring s).stream.isSome
  | .netVdif ring _ => (getRing ring s).vdif.isSome
  | .dispMode _ | .dispLayer _ _ | .dispPalette _ | .dispPsr _ _ => s.disp.mode.output != 0
  | .relievePip p _ _ | .relieveCurrant p _ _ | .halt p _ => personalityRuns p s
  | .degradeRf p _ _ => (getSpec p s).running
  | .claimOnly => false

/-! ## Boundaries (Table 3-2) -/

/-- A 64-sample group starts now, at or after T. -/
def atGroup (point : DT) (s : State) : Option DT :=
  if dtLe point s.dt && s.dt.toNat % 64 == 0 then some s.dt else none

/-- The next frame to be delivered starts at or after T: its start, once that has come. Frames that started earlier are out,
with the settings they started under (R133). -/
def atFrame (p : Nat) (point : DT) (s : State) : Option DT :=
  let x := getSpec p s
  let t := frameStart p x.frame s
  if frameCovered p x.frame s = true ∧ point.toNat ≤ t ∧ t ≤ s.dt.toNat then some (dtAdd 0 t) else none

/-- R155: the boundary of a map: the next spectrum it would count, the oldest that waits for the bloom, else the next to be
delivered; none while one from before T waits. -/
def atSpectrum (p : Nat) (point : DT) (s : State) : Option DT :=
  match (getSpec p s).queue with
  | q :: _ => if dtLe point q.2.dt then some q.2.dt else none
  | [] => atFrame p point s

/-- A segment starts now, at or after T, after the play under way. -/
def atSegment (d : Nat) (point : DT) (s : State) : Option DT :=
  if dtLe point s.dt && playEnd (getGen d s) == s.dt then some s.dt else none

/-- R211: what follows the play under way starts a probe epoch. -/
def epochFollows (d : Nat) (s : State) : Bool :=
  let g := getGen d s
  match g.latched with
  | some (some e, k) => match g.table[e]? with
    | some c => bit c.flags 1 && (k == 1 || bit c.flags 3)
    | none => false
  | _ => false

/-- A probe epoch of a fibre starts now, at or after T; a generator that does not run has none to wait for. -/
def atEpoch (f : Nat) (point : DT) (s : State) : Option DT :=
  if (getGen f s).running then (if epochFollows f s then atSegment f point s else none)
  else if dtLe point s.dt then some s.dt else none

/-- A stack of a fibre starts with the next launch, at or after T. -/
def atStack (f : Nat) (point : DT) (s : State) : Option DT :=
  let x := getFibre f s
  let start := (x.launches.head?.map (·.dt)).getD s.dt
  if dtLe point start && x.stackSeen == 0 then some start else none

/-- A conversion starts here, at or after T; a converter at rest has none to wait for. -/
def atConversion (point : DT) (s : State) : Option DT :=
  if s.slow.job.isNone then (if dtLe point s.dt then some s.dt else none)
  else if notStarted s && dtLe (convStart s) s.dt && dtLe point (convStart s) then some (convStart s)
  else none

/-- R73: writes to blocks that stop while ADPLL-S or ADPLL-F is absent. -/
def planeWrite (w : Write) : Bool :=
  match w with
  | .slowScan .. | .slowStart | .slowStop | .excSet .. | .netStream .. | .netVdif .. | .dispMode _ | .dispLayer .. | .dispPalette _
  | .dispPsr .. | .halt .. | .claimOnly => false
  | _ => true

/-- The kinds of boundary of Table 3-2, with the unit whose work divides there; a member without a block of its own lands at
any time. -/
inductive Boundary where
  | group
  | frame (p : Nat)
  | spectrum (p : Nat)
  | segment (d : Nat)
  | epoch (f : Nat)
  | stack (f : Nat)
  | conversion
  | stream (ring : Nat)
  | display
  | now
  deriving DecidableEq, Repr

/-- Table 3-2: the boundary of a write to a block that runs. -/
def boundaryOf (w : Write) (s : State) : Boundary :=
  let fibre := fun f => if dasRuns f s then Boundary.epoch f else .stack f
  match w with
  | .rfRange .. | .ddcSet .. | .ddcDetect .. | .slotPath .. | .lineLog _ | .capSet .. | .capArm .. | .capForce _
  | .trigTd .. | .trigSeq .. => .group
  | .calRf p .. | .pipStart p | .pipStop p | .specFft p _ | .specWindow p _ | .specTrace p _ _ | .trigMask p _ _
  | .trigLimit p _ | .limitResume p | .trigLog p _ | .degradeRf p _ _ | .relievePip p _ _ | .relieveCurrant p _ _ =>
    if 4 ≤ p then fibre (p - 4) else if framesRun p s then .frame p else .group
  | .bloomSet m _ | .bloomRelease m | .bloomClear m | .bloomReadClear m _ => .spectrum (getBloom m s).cfg.personality
  | .genSegment d _ _ | .genLoad d _ _ | .genStart d _ | .genStop d | .genCarrier d _ _ _ _ | .calGen d _
  | .slotCarrier d _ _ | .laserModcal d _ _ | .laserCaps d _ | .laserArm d _ | .genResume d _ => .segment d
  | .dasStart f _ | .dasStop f | .dasSlot f _ _ | .dasGrid f _ | .dasPmask f _ | .curBand f _ | .degradeDas f _ => .epoch f
  | .calFibre f _ => fibre f
  | .dtsStart f | .dtsStop f | .dtsSet f _ | .degradeDts f => .stack f
  | .slowScan .. | .slowStart | .slowStop | .excSet .. => .conversion
  | .netStream ring _ | .netVdif ring _ => .stream ring
  | .dispMode _ | .dispLayer .. | .dispPalette _ | .dispPsr .. => .display
  | .halt .. | .claimOnly => .now

/-- A stream frame begins now, at or after T: the next datagram, or the next VDIF frame by the instant of its first sample. -/
def atStream (ring : Nat) (point : DT) (s : State) : Option DT :=
  let r := getRing ring s
  match r.vdif, r.vdifNext with
  | some _, some n => if dtLe point n && dtLe n s.dt then some n else none
  | _, _ => if dtLe point s.dt then some s.dt else none

/-- The DT of a boundary that is here now, at or after T. The end of a display frame lands its members itself (R340). -/
def atBoundary (point : DT) (b : Boundary) (s : State) : Option DT :=
  match b with
  | .group => atGroup point s
  | .frame p => atFrame p point s
  | .spectrum p => atSpectrum p point s
  | .segment d => atSegment d point s
  | .epoch f => atEpoch f point s
  | .stack f => atStack f point s
  | .conversion => atConversion point s
  | .stream ring => atStream ring point s
  | .now => if dtLe point s.dt then some s.dt else none
  | .display => none

/-- What else a landing waits for: a pad move for the end of settling and of an OTP burn (R92, R93). -/
def mayLand (w : Write) (s : State) : Bool :=
  match w with
  | .rfRange ch _ _ _ moves => rangeMayLand ch moves s
  | _ => true

/-- Table 3-2: the DT at which a write lands now, none while its boundary has not come; inside a clock absence no
boundary comes (R75); a block that stopped after T lands at once (R62). (DEDUCED, unsafe: log 31.) -/
def landAt (point : DT) (w : Write) (s : State) : Option DT :=
  if !blockRuns w s then (if dtLe point s.dt then some s.dt else none)
  else if (planeWrite w && planeAbsent s) || !mayLand w s then none
  else atBoundary point (boundaryOf w s) s

/-! ## LAT (Table 9-1, R187) -/

/-- LAT of a frequency mask of a personality. -/
def maskLat (p : Nat) (s : State) : Nat :=
  let n := frameLen (getSpec p s).fft
  let d := (getDdc p s).decim
  outDelay p d + n * outPeriod p d + 16 * n + 4096 + 1228800

/-- R146: the smallest N of the matched filter for mc coefficients. -/
def filterLen (mc : Nat) : Nat := ((List.range 7).map fun i => 2 ^ (10 + i)).find? (fun n => decide (mc ≤ n / 2 + 1)) |>.getD 65536

/-- R233: LAT of the position mask of a fibre. -/
def pmaskLat (f : Nat) (s : State) : Nat :=
  let x := getFibre f s
  let mc := ((enabledSlots x).map fun k => codeLen (tget {} x.slots k)).foldl max 1
  64 * (cellZero x.cal + lastCell x.grid + mc - 1) + 48 * filterLen mc + 5632 + 409600 + 1228800

/-- LAT of a source code; a sequencer that waits for sequencers is followed so many levels down. -/
def sourceLat (s : State) : Nat → Nat → Nat
  | 0, _ => 0
  | n + 1, code =>
    let i := code % 256
    match code / 256 with
    | 1 => maskLat (i / 4) s
    | 2 => if i < 4 then outDelay i (getDdc i s).decim + 4096 else 5632
    | 3 | 4 => 4096
    | 5 => pmaskLat i s
    | 6 => (((getTrig i s).seq.inputs.filter (· != 0xFFFF)).map (sourceLat s n)).foldl max 0 + 4096
    | 7 =>
      let k := match (getTrig i s).limit with
        | some l => (tget {} (getSpec i s).traces l.trace).cfg.interval
        | none => 1
      k * frameTicks i s + maskLat i s
    | _ => 0

/-- R187: LAT of the sequencer bound to a capture: the largest of its inputs'. -/
def seqLat (p : Nat) (s : State) : Nat :=
  (((getTrig p s).seq.inputs.filter (· != 0xFFFF)).map (sourceLat s 6)).foldl max 0

end Sys2Proof.Machine
end

