-- ==== Sys2Proof/Machine/Deliver.lean ====
section
/-! DEFINITION. What follows from a finished frame, trace block, detector window and trigger event: delivery in frame
order (07_spectral_tiles.md R132 to R144), limit tests and the sequencer (09_trigger_and_capture.md R179 to R183). -/

namespace Sys2Proof.Machine

/-! ## Block ends (R139, R166, R182) -/

/-- R139, R184: the running averaging block ends; its record also feeds the captures of records. -/
def averageEnd (p : Nat) (s : State) : State :=
  let r := endAverage p s
  match r.1 with
  | some (dt, bytes) => capSpectrum p (getSpec p s).avgInfo.f dt bytes r.2
  | none => r.2

/-- R182, R183: a violation of the limit test: the class 0x07 event, the line log, EV_LIMIT_FAIL at most once per
second, and the stop. -/
def limitViolation (p i fails : Nat) (c : LimitCfg) (dt : DT) (seq : Nat) (s : State) : State :=
  let s := deliverTrig (srcLimit p) dt dt s
  let s := lineLog (0x28 + p) 1 fails dt s
  let s := modTrig p (fun u => { u with violations := u.violations + 1, limitFailed := true
                                        limitFirst := if u.violations = 0 then seq else u.limitFirst }) s
  let u := getTrig p s
  let due := match u.limitEvent with
    | none => true
    | some d => decide (tkS ≤ dtSub s.dt d)
  let s := if due then
      modTrig p (fun u => { u with violations := 0, limitEvent := some s.dt })
        (eventAt dt 0x0B02 1 p [(16, 1, p), (17, 1, i), (18, 1, b2n c.stop), (20, 4, sat 4 u.violations),
          (24, 8, u.limitFirst)] s)
    else s
  if c.stop then
    capsStopAt ((List.range 16).filter fun k => bit c.stopCaps k) (dtAdd dt (sourceLat s 1 (srcLimit p)))
      (modSpec p (fun x => { x with limitStopped := true }) s)
  else s

/-- R182: the limit test of a trace record. (DEDUCED, unsafe: log 66.) -/
def limitTest (p i : Nat) (values : List Int) (flags : Nat) (dt : DT) (seq : Nat) (s : State) : State :=
  match (getTrig p s).limit with
  | none => s
  | some c =>
    if !c.enable || c.trace != i || (getSpec p s).limitStopped then s
    else if flags % 65536 &&& c.ignore ≠ 0 then modTrig p (fun u => { u with limitSkipped := u.limitSkipped + 1 }) s
    else
      let fails := limitFails c values
      if fails = 0 then
        let s := if (getTrig p s).limitFailed then lineLog (0x28 + p) 0 0 dt s else s
        modTrig p (fun u => { u with limitFailed := false }) s
      else limitViolation p i fails c dt seq s

/-- R166, R182: a trace block ends: its record, then its limit test. -/
def traceEnd (p i : Nat) (s : State) : State :=
  let tr := tget {} (getSpec p s).traces i
  if tr.seen = 0 then s
  else
    let r := endTrace p i s
    limitTest p i r.1 r.2.1 (portDt p tr.firstDt.toNat s) tr.firstSeq r.2.2

/-- R139, R166: a re-anchor ends every running block. -/
def blocksEnd (p : Nat) (s : State) : State := each [0, 1, 2, 3] (traceEnd p) (averageEnd p s)

/-! ## Delivery (R132, R134) -/

/-- R175: a change of N, n or F that has landed clears the masks at the first spectrum under the new settings, and the
log writes a keyframe. -/
def trigClearDue (p : Nat) (sp : Spectrum) (s : State) : State :=
  modTrig p (fun u =>
    if u.clearFrom.any fun d => dtLe d sp.dt then
      { u with masks := u.masks.map (fun e => (e.1, e.2.map maskClear)), log := u.log.map (fun l => { l with key := true })
               clearFrom := u.clearFrom.filter fun d => !dtLe d sp.dt }
    else u) s

/-- R132: one spectrum reaches the masks, the change log, the traces, the record path and the bloom queue. A POISONED frame
reads zero power in every bin (R141). -/
def deliverFrame (p m pip extra : Nat) (upset : List (Int × Int)) (s : State) : State :=
  let f := if bit extra 7 then zeroFrame (getSpec p s).fft.log2N else frameDataOf p m upset s
  let info := frameInfo p m s
  let sp := spectrumOf p m f extra s
  let terms := (List.range f.power.length).map fun k => calTerms p info k s
  let s := trigClearDue p sp s
  let s := each [0, 1, 2, 3] (fun i => maskTest p i sp) s
  let s := logTest p sp s
  let s := each [0, 1, 2, 3] (fun i s =>
    let s := if traceDue (getSpec p s) (tget {} (getSpec p s).traces i) then traceEnd p i s else s
    traceAdd p i sp f info terms s) s
  let s := if averageDue (getSpec p s) then averageEnd p s else s
  let s := averageAdd p pip sp f info terms s
  let s := modSpec p (fun x => { x with frame := m + 1, restart := false, clockGap := false }) s
  bloomOffer p pip sp s

/-- R134, R144: the next frame leaves when it is complete; one that was lost is passed over; one that is being recomputed
holds back those after it. -/
def leaveNext (p : Nat) (s : State) : State :=
  let x := getSpec p s
  if x.held || x.missing.contains x.frame then s
  else match x.waiting.find? fun w => w.1 == x.frame with
    | some w =>
      deliverFrame p x.frame w.2.1 w.2.2.1 w.2.2.2
        (modSpec p (fun x => { x with waiting := x.waiting.filter fun v => v.1 != w.1 }) s)
    | none => if x.frame < x.completed then modSpec p (fun x => { x with frame := x.frame + 1 }) s else s

/-- The first frame from m on that its pip completes: not one that is being recomputed or was lost. -/
def nextDealt (missing : List Nat) : Nat → Nat → Nat
  | 0, m => m
  | n + 1, m => if missing.contains m then nextDealt missing n (m + 1) else m

/-- Frames in flight in a pip slot: dealt to it, started, not complete; at most 3 (R144). -/
def inFlight (p pip : Nat) (s : State) : List Nat :=
  let x := getSpec p s
  ((List.range 64).map (x.completed + ·)).filter (fun m =>
    pipOf x m == pip && decide (frameStart p m s ≤ s.dt.toNat)) |>.take 3

/-- A grid with its t_0: frame 0 is next, and blocks start with it (R126, R139). -/
def gridNew (t0 : DT) (x : Spectral) : Spectral :=
  { x with t0 := t0, frame := 0, completed := 0, missing := [], waiting := [], lost := [], seen := 0, avgStart := 0
           traces := x.traces.map fun e => (e.1, { e.2 with start := 0 }) }

/-- R133: the grid starts anew at a frame start: running blocks end, and the outputs from there on are dealt anew. -/
def gridRestart (p : Nat) (t0 : DT) (s : State) : State := modSpec p (gridNew t0) (blocksEnd p s)

/-- R133: a start: its grid follows the last frame of the grid before it that is complete at its DT. -/
def gridQueue (p decim overlap bits : Nat) (s : State) : State :=
  modSpec p (fun x => { x with starts := x.starts ++ [(s.dt, decim, overlap, bits)] }) s

/-! ## Detectors (R124, R125, R176) -/

/-- e + 2^-a (p - e), exactly: e is num / 2^exp. -/
def envelopeStep (a : Nat) (e : Nat × Nat) (p : Nat) : Nat × Nat :=
  (e.1 * (2 ^ a - 1) + p * 2 ^ e.2, e.2 + a)

/-- Outputs of the running detector window. -/
def windowOutputs (d : DdcPath) : Nat := 2 ^ d.log2Win

/-- R124: a detector window ends: peak, RMS and envelope in L16, the record's bits, its first instant, and the path
with the window consumed. -/
def windowEnd (d : DdcPath) : List Int × Nat × DT × DdcPath :=
  let n := windowOutputs d
  let outs := d.detQueue.take n
  let good := outs.filter fun o => o.2.2.2
  let env := good.foldl (fun e o => envelopeStep d.alpha e o.2.1) (d.envNum, d.envExp)
  let fl := outs.foldl (fun a o => a ||| o.2.2.1) 0
  let bits := b2n (decide (good.length < outs.length)) + 2 * b2n good.isEmpty + 4 * b2n (bit fl 0) + 8 * b2n (bit fl 1) +
    16 * b2n (bit fl 2) + 32 * b2n (bit fl 4)
  let first := (outs.head?.map (·.1)).getD 0
  let values := if good.isEmpty then [below, below, below]
    else [l16OfPower ((good.map (·.2.1)).foldl max 0) (2 ^ 28),
          l16OfPower (good.map (·.2.1)).sum (good.length * 2 ^ 28), l16OfPower env.1 (2 ^ 28 * 2 ^ env.2)]
  (values, bits, first, { d with detQueue := d.detQueue.drop n, envNum := env.1, envExp := env.2 })

/-- R125: calibration terms at the NCO frequency of a path at an instant. -/
def pathTerms (path t : Nat) (s : State) : Int :=
  let c := getRf path s
  let f := (setAt (chainOut (getDdc path s)).sets t).1
  byteScale (refAt path t s) + Config.flatFactory path (rangeAt path t s) f + c.userOff + userTab c f

/-- The personality a path belongs to (R14, R122). -/
def pathOwner (path : Nat) : Nat := if isSlotPath path then 4 + (path - 16) / 16 else path

/-- R124, R125, R176: the window's record is written and the time-domain condition tested. -/
def detectorEnd (path : Nat) (s : State) : State :=
  let d := getDdc path s
  let r := windowEnd d
  let s := modDdc path (fun _ => r.2.2.2) s
  let bytes := leBytes 8 r.2.2.1.toNat ++ (r.1.map (leInt 2)).flatten ++ leBytes 2 r.2.1
  let s := if d.detRing = 0xFFFF then s
    else if packRoom d.detRing bytes s then packBytes d.detRing bytes s
    else if (getRing d.detRing s).created then drop d.detRing 1 s else s
  let terms := if isSlotPath path then 0 else pathTerms path r.2.2.1.toNat s
  let enabled := r.1.zipIdx.map fun v => if bit d.detEnable v.2 then v.1 else below
  tdTest (pathOwner path) path enabled terms r.2.1 (bit r.2.1 1)
    (dtAdd r.2.2.1 (windowOutputs d * outPeriod path d.decim)) s

/-! ## The sequencer (R179 to R181) -/

/-- R181: the trigger is issued. (DEDUCED, unsafe: log 66.) -/
def issueTrigger (p : Nat) (dt : DT) (cls : Nat) (onset : DT) (s : State) : State :=
  let s := modTrig p (fun u => { u with triggers := u.triggers + 1, total := u.total + 1 }) s
  let s := each (List.range 16) (fun k s =>
    if (getCap k s).isSet && (getCap k s).cfg.trigUnit == p then capTrigger k dt cls 0 s else s) s
  let s := lineLog (0x20 + p) 2 (getTrig p s).total dt s
  let s := deliverTrig (srcSeq p) dt onset s
  let s := raiseLine (124 + p) 1 (genRequest 1 p s)
  let u := getTrig p s
  let due := match u.lastEvent with
    | none => true
    | some d => decide (10 * tkMs ≤ dtSub s.dt d)
  let data := if cls = 1 ∨ cls = 2 ∨ cls = 5 then onset else dt
  let s := if due then
      modTrig p (fun u => { u with triggers := 0, lastEvent := some s.dt })
        (eventAt dt 0x0B01 0 p [(16, 1, p), (17, 1, cls), (20, 4, sat 4 u.triggers), (24, 8, data.toNat)] s)
    else s
  modTrig p (fun u =>
    if u.seq.continuous then { u with step := 0, count := 0, seen := [], entered := dt
                                      armedAt := dtAdd dt u.seq.holdoff }
    else { u with armed := false, events := [] }) s

/-- The sequencer stands at step 0 with nothing counted, from a DT on. -/
def seqHome (dt : DT) (u : TrigUnit) : TrigUnit := { u with step := 0, count := 0, seen := [], entered := dt }

/-- TIMEOUT of the current step. -/
def stepTimeout (u : TrigUnit) : Nat := ((u.seq.steps[u.step]?).map (·.timeout)).getD 0

/-- R179: timeouts that have passed at a DT: a later step returns to step 0, and step 0 begins anew. -/
def seqTimeouts (dt : DT) (u : TrigUnit) : TrigUnit :=
  let u := if u.step ≠ 0 ∧ stepTimeout u ≠ 0 ∧ u.entered.toNat + stepTimeout u ≤ dt.toNat then
      seqHome (dtAdd u.entered (stepTimeout u)) u else u
  let k := dtSub dt u.entered / max 1 (stepTimeout u)
  if u.step = 0 ∧ stepTimeout u ≠ 0 ∧ 0 < k then seqHome (dtAdd u.entered (k * stepTimeout u)) u else u

/-- R179: one occurrence of input i at a DT counts for the current step: the unit after it, and whether it completes
the step. -/
def seqCount (i : Nat) (dt : DT) (u : TrigUnit) : TrigUnit × Bool :=
  match u.seq.steps[u.step]? with
  | none => (u, false)
  | some e =>
    if !bit e.inputs i || !dtLe u.entered dt then (u, false)
    else if e.all then
      let seen := (i, dt) :: u.seen.filter fun x => x.1 != i
      let joint := (List.range 8).all fun j =>
        !bit e.inputs j || seen.any fun x => x.1 == j && decide (dt.toNat ≤ x.2.toNat + e.window)
      let u := { u with seen := if joint then [] else seen, count := if joint then u.count + 1 else u.count }
      (u, joint && decide (e.count ≤ u.count))
    else
      let u := { u with count := u.count + 1 }
      (u, decide (e.count ≤ u.count))

/-- R179, R181: an occurrence, the move to the next step, and the trigger after the last. -/
def seqInput (p i : Nat) (ev : TrigEvent) (s : State) : State :=
  let u := getTrig p s
  if !u.armed || !dtLe u.armedAt ev.dt then s
  else
    let r := seqCount i ev.dt u
    if r.2 then
      let done := dtAdd ev.dt (((u.seq.steps[u.step]?).map (·.delay)).getD 0)
      if u.step + 1 = u.seq.steps.length then
        issueTrigger p done (ev.source / 256) ev.onset (modTrig p (fun _ => r.1) s)
      else modTrig p (fun _ => { r.1 with step := u.step + 1, count := 0, seen := [], entered := done }) s
    else modTrig p (fun _ => r.1) s

/-- Inputs that hold a source. -/
def inputsOf (u : TrigUnit) (source : Nat) : List Nat := (List.range 8).filter fun i => u.seq.inputs.getD i 0xFFFF == source

/-- R180: all events of one DT: timeouts, then resets, then the other inputs E0 to E7. -/
def seqGroup (p : Nat) (evs : List TrigEvent) (s : State) : State :=
  match evs with
  | [] => s
  | ev :: _ =>
    let s := modTrig p (seqTimeouts ev.dt) s
    let u := getTrig p s
    let reset := ((u.seq.steps[u.step]?).map (·.reset)).getD 0
    let pairs := (List.range 8).filterMap fun i => (evs.find? fun e => e.source == u.seq.inputs.getD i 0xFFFF).map fun e => (i, e)
    let live := u.armed && dtLe u.armedAt ev.dt
    let s := if live && pairs.any (fun q => bit reset q.1) then modTrig p (seqHome ev.dt) s else s
    each (pairs.filter fun q => !bit reset q.1) (fun q => seqInput p q.1 q.2) s

/-- Insert an event in ascending DT, after those of the same DT. -/
def insertEvent (e : TrigEvent) : List TrigEvent → List TrigEvent
  | [] => [e]
  | x :: rest => if e.dt.toNat < x.dt.toNat then e :: x :: rest else x :: insertEvent e rest

/-- Runs of equal DT. -/
def groupEvents : List TrigEvent → List (List TrigEvent)
  | [] => []
  | e :: rest =>
    match groupEvents rest with
    | (x :: g) :: gs => if x.dt = e.dt then (e :: x :: g) :: gs else [e] :: (x :: g) :: gs
    | gs => [e] :: gs

/-- R180: the DT up to which every input of a unit has delivered its events: LAT of its sources ago. -/
def seqUpTo (p : Nat) (s : State) : Nat := s.dt.toNat - seqLat p s

/-- R180: the events of a unit from before the DT up to which all of them are delivered are evaluated in ascending DT
(DEDUCED, unsafe: log 27). -/
def seqEvaluate (p : Nat) (s : State) : State :=
  let ripe := fun (e : TrigEvent) => decide (e.dt.toNat ≤ seqUpTo p s)
  let sorted := ((getTrig p s).events.filter ripe).foldl (fun l e => insertEvent e l) []
  let s := modTrig p (fun u => { u with events := u.events.filter fun e => !ripe e }) s
  if (getTrig p s).seq.steps = [] then s
  else each (groupEvents sorted) (seqGroup p) s

end Sys2Proof.Machine
end

