-- ==== Sys2Proof/Machine/Units.lean ====
section
/-! DEFINITION. Pips and currants as pools, personalities halted in order, retirement and fault records
(18_availability_and_self_test.md, R144, R145, R232, R272, R273). -/

namespace Sys2Proof.Machine

/-! ## The capability descriptor (R48) -/

/-- A mask of the numbers below n that satisfy a test. -/
def maskOf (n : Nat) (f : Nat → Bool) : Nat := ((List.range n).map fun i => if f i then 2 ^ i else 0).sum

/-- CAP_FUSE present masks (Table 2-9). -/
def capsBytes (s : State) : List Byte :=
  leBytes 2 1 ++ leBytes 2 256 ++ leBytes 2 0x9610 ++ leBytes 1 s.fuse.variant ++ leBytes 1 s.fuse.siRev ++ leBytes 2 3 ++
    leBytes 2 s.fuse.floor ++ leBytes 4 s.stone.runSec ++ leBytes 1 (maskOf 4 fun n => rfHealthy n s) ++
    leBytes 1 (maskOf 4 fun n => orxHealthy n s) ++ leBytes 1 (maskOf 2 fun n => dacHealthy n s) ++
    leBytes 1 (b2n s.fuse.display) ++ leBytes 1 ((List.range 36).filter fun n => pipPresent n s).length ++
    leBytes 1 (pipsHealthy s) ++ leBytes 1 ((List.range 18).filter fun n => currantPresent n s).length ++
    leBytes 1 (currantsHealthy s) ++ leBytes 8 (maskOf 36 fun n => pipHealthy n s) ++
    leBytes 4 (maskOf 18 fun n => currantHealthy n s) ++ leBytes 4 (dramFitted s / 2 ^ 20) ++
    leBytes 4 (dramUsable s / 2 ^ 20) ++ leBytes 2 8533 ++ leBytes 1 (b2n s.fuse.presetOnly) ++
    leBytes 1 (if s.fuse.orx = 0 then 0 else 8) ++ leBytes 2 8192 ++ leBytes 2 256 ++ leBytes 2 512 ++ leBytes 2 4096 ++
    leBytes 1 64 ++ leBytes 1 16 ++ leBytes 1 s.health.spares ++ leBytes 1 8 ++ leBytes 1 64 ++ leBytes 1 0 ++
    leBytes 2 256 ++ leBytes 4 33554432 ++ leBytes 1 15 ++ leBytes 1 8 ++ leBytes 186 0

/-- R48: Korsyn rewrites the copy in BAR2 (Table 2-14). -/
def rewriteCaps (s : State) : State := storeAt 3 0x808000 (capsBytes s) s

/-! ## The pools (R17, R148, R274, R349) -/

/-- R349: the lowest-numbered idle spare, else the lowest-numbered unit in test. -/
def spareOf (bound : Nat) (state : Nat → UnitState) (healthy : Nat → Bool) : Option Nat :=
  match (List.range bound).find? fun n => healthy n && state n == .spare with
  | some n => some n
  | none => (List.range bound).find? fun n => healthy n && state n == .inTest

def sparePip (s : State) : Option Nat := spareOf 36 (fun n => (getPip n s).state) (fun n => pipHealthy n s)
def spareCurrant (s : State) : Option Nat := spareOf 18 (fun n => (getCurrant n s).state) (fun n => currantHealthy n s)

/-- Give a unit to a personality, put it into test, or back into the pool. -/
def pipTo (state : UnitState) (p : Nat) (n : Nat) (s : State) : State :=
  modPip n (fun c => { c with state := if c.state = .retired then .retired else state, personality := p }) s
def currantTo (state : UnitState) (p kernel : Nat) (n : Nat) (s : State) : State :=
  modCurrant n (fun c => { c with state := if c.state = .retired then .retired else state, personality := p, kernel := kernel }) s

/-- The pips of a personality, and their change. -/
def pipsOf (p : Nat) (s : State) : List Nat := if p < 4 then (getSpec p s).pips else (getFibre (p - 4) s).pips
def setPips (p : Nat) (l : List Nat) (s : State) : State :=
  if p < 4 then modSpec p (fun x => { x with pips := l }) s else modFibre (p - 4) (fun x => { x with pips := l }) s

/-- Kernel a fibre's currants run (Table 13-1). (DEDUCED, unsafe: log 65.) -/
def kernelOf (f : Nat) (s : State) : Nat := if (getFibre f s).das then 1 else 4

/-- Take spares until a personality has its pips; give the last in dealing order back when it has too many. -/
def assignPips (p : Nat) : Nat → State → State
  | 0, s => s
  | n + 1, s =>
    let have_ := pipsOf p s
    let want := pipsNeeded p s
    if have_.length < want then
      match sparePip s with
      | some k => assignPips p n (setPips p (have_ ++ [k]) (pipTo .assigned p k s))
      | none => s
    else if want < have_.length then
      match have_.getLast? with
      | some k => assignPips p n (setPips p have_.dropLast (pipTo .spare 0xF k s))
      | none => s
    else s

/-- The same for a fibre's currants. -/
def assignCurrants (f : Nat) : Nat → State → State
  | 0, s => s
  | n + 1, s =>
    let have_ := (getFibre f s).currants
    let want := currantsNeeded f s
    let set := fun l => modFibre f (fun x => { x with currants := l })
    if have_.length < want then
      match spareCurrant s with
      | some k => assignCurrants f n (set (have_ ++ [k]) (currantTo .assigned (4 + f) (kernelOf f s) k s))
      | none => s
    else if want < have_.length then
      match have_.getLast? with
      | some k => assignCurrants f n (set have_.dropLast (currantTo .spare 0xF 0xFF k s))
      | none => s
    else s

/-- All units of a personality as its configuration needs them. -/
def assignUnits (p : Nat) (s : State) : State :=
  let s := assignPips p 40 s
  if p < 4 then s else assignCurrants (p - 4) 40 s

/-- R355: the tests of the first admission are over once no unit is in test. -/
def firstTestOver (s : State) : Bool :=
  ((List.range 36).all fun n => (getPip n s).state != .inTest) && (List.range 18).all fun n => (getCurrant n s).state != .inTest

/-- R355: the first admission: every unit that is not retired is tested before any is assigned. -/
def firstAdmission (s : State) : State :=
  if s.health.admitted then s
  else
    let s := each (List.range 36) (fun n s => if pipHealthy n s && (getPip n s).state == .off then pipTo .inTest 0xF n s else s) s
    let s := each (List.range 18) (fun n s =>
      if currantHealthy n s && (getCurrant n s).state == .off then currantTo .inTest 0xF 0 n s else s) s
    { s with health := { s.health with admitted := true, firstTest := !firstTestOver s } }

/-! ## Stopping personalities (R148, R217, R359) -/

/-- An RF personality stops: its pips return, its channel powers down, its maps stay. -/
def rfPersonalityStop (p : Nat) (s : State) : State :=
  let s := blocksEnd p s
  let s := modSpec p (fun x => { x with running := false, degraded := false, held := false, restart := false, clockGap := false
                                        degStages := false, limitStopped := false, starts := [], missing := [], waiting := [], lost := []
                                        frame := 0, completed := 0 }) s
  rfStop p (assignUnits p s)

/-- A fibre personality stops: its pips and currants return, its slot paths stop. -/
def fibreStop (f : Nat) (s : State) : State :=
  let s := modFibre f (fun x => { x with das := false, dts := false, degraded := false, held := false, launches := [], partner := [], ready := []
                                         record := none }) s
  let s := each ((List.range 16).map (16 + 16 * f + ·)) (fun path => modDdc path (fun d => { d with enable := false })) s
  assignUnits (4 + f) s

/-- R359: a personality that is halted in order has reached its boundary: 1 storm, 2 slice, 3 DAC, 4 no spare. -/
def haltNow (p cause : Nat) (s : State) : State :=
  let s := { s with health := { s.health with halting := s.health.halting.filter fun h => h.1 != p } }
  if !personalityRuns p s then s
  else
    let s := capsStop (capsOfPersonality p s) capStopped s
    let s := if p < 4 then rfPersonalityStop p s
      else fibreStop (p - 4) (laserArmLand (p - 4) false (genEnd (p - 4) 3 s))
    let s := { s with health := { s.health with
      haltedPers := if s.health.haltedPers.contains p then s.health.haltedPers else s.health.haltedPers ++ [p] } }
    event 0x1807 2 p [(16, 1, p), (17, 1, cause)] s

/-- R359: a frame of the grid starts now, at or after a DT, and those before it are out or lost. -/
def haltFrame (p : Nat) (since : DT) (s : State) : Bool :=
  let x := getSpec p s
  let k := ceilDiv (since.toNat - frameStart p x.frame s) (max 1 (hopLen x.fft * outPeriod p x.decim))
  decide (frameStart p (x.frame + k) s ≤ s.dt.toNat) && (List.range k).all fun i => x.lost.contains (x.frame + i)

/-- R359: the kind of boundary at which a personality halts: a frame, an epoch, a stack; a group where no frames run. -/
def haltBoundary (p : Nat) (s : State) : Boundary :=
  if p < 4 then (if framesRun p s then .frame p else .group)
  else if dasRuns (p - 4) s then .epoch (p - 4) else .stack (p - 4)

/-- R359: that boundary is here. -/
def haltHere (p : Nat) (since : DT) (s : State) : Bool :=
  if planeAbsent s then false
  else match haltBoundary p s with
    | .frame p => haltFrame p since s
    | b => (atBoundary since b s).isSome

/-- R359: a personality halts in order at its next boundary. -/
def haltLater (p cause : Nat) (s : State) : State :=
  if personalityRuns p s && !s.health.halting.any (fun h => h.1 == p) then
    { s with health := { s.health with halting := s.health.halting ++ [(p, cause, s.dt)] } }
  else s
def haltPersonality (p cause : Nat) (s : State) : State :=
  if haltHere p s.dt s then haltNow p cause s else haltLater p cause s

/-! ## Scheduled work (R55, R399) -/

/-- Korsyn's own bunch, made at the next staging cycle. -/
def schedule (ws : List (Claim × Write)) (s : State) : State :=
  let ms := ws.map fun w => ({ claim := w.1, write := w.2, weight := 1, opcode := 0, tag := 0, landed := false } : Member)
  { s with bunch := { s.bunch with retries := s.bunch.retries ++ [ms] } }

/-! ## Retirement (R354) -/

/-- R354: the running configuration needs more than the spares rule leaves. -/
def sparesShort (s : State) : State :=
  let h := pipsHealthy s
  let c := currantsHealthy s
  let s := if h < pipsInUse s + s.health.spares then
      event 0x1804 2 0xFFFF [(16, 1, 1), (17, 1, h), (18, 1, pipsInUse s), (19, 1, s.health.spares)] s else s
  if c < currantsInUse s + 2 then
    event 0x1804 2 0xFFFF [(16, 1, 2), (17, 1, c), (18, 1, currantsInUse s), (19, 1, 2)] s
  else s

/-- R354, R48: a pip or a currant is retired with a cause. -/
def retirePip (n cause : Nat) (s : State) : State :=
  if (getPip n s).state = .retired then s
  else
    let s := rewriteCaps (modPip n (fun c => { c with state := .retired, personality := 0xF }) s)
    sparesShort (event 0x1802 2 n [(16, 1, n), (17, 1, cause), (18, 1, pipsHealthy s)] s)
def retireCurrant (n cause : Nat) (s : State) : State :=
  if (getCurrant n s).state = .retired then s
  else
    let s := rewriteCaps (modCurrant n (fun c => { c with state := .retired, personality := 0xF, kernel := 0xFF }) s)
    sparesShort (event 0x1803 2 n [(16, 1, n), (17, 1, cause), (18, 1, currantsHealthy s)] s)

/-- R353: a unit freed after a fault is tested, or retired when it had a strike within 30 days. -/
def struckPip (n cause : Nat) (s : State) : State :=
  let recent := (getPip n s).strike.any fun d => decide (dtSub s.dt d < 2592000 * tkS)
  if recent then retirePip n cause s
  else modPip n (fun c => { c with state := .inTest, personality := 0xF, strike := some s.dt }) s
def struckCurrant (n cause : Nat) (s : State) : State :=
  let recent := (getCurrant n s).strike.any fun d => decide (dtSub s.dt d < 2592000 * tkS)
  if recent then retireCurrant n cause s
  else modCurrant n (fun c => { c with state := .inTest, personality := 0xF, kernel := 0, strike := some s.dt }) s

/-! ## Fault records (R356 to R358) -/

/-- OUTCOME codes of Table 18-5. -/
def outRepaired : Nat := 1
def outStrike : Nat := 2
def outRetired : Nat := 3
def outDegraded : Nat := 4
def outHalted : Nat := 5
def outStorm : Nat := 6

/-- A record leaves the open ones and joins the last 64 closed ones. -/
def closeRecord (cls unit outcome : Nat) (s : State) : State :=
  let mine := fun (r : FaultRecord) => r.cls == cls && r.unit == unit
  match s.health.faults.find? mine with
  | some r =>
    let r := { r with state := 2, outcome := outcome, closed := s.dt }
    { s with health := { s.health with faults := s.health.faults.filter (fun r => !mine r)
                                       closedFaults := (r :: s.health.closedFaults).take 64 } }
  | none => s

/-- The newest closed record of a unit takes an outcome. -/
def newestOutcome (cls unit outcome : Nat) : List FaultRecord → List FaultRecord
  | [] => []
  | r :: rest => if r.cls = cls ∧ r.unit = unit then { r with outcome := outcome } :: rest
    else r :: newestOutcome cls unit outcome rest

/-- R353: the outcome of a closed record follows the test of its unit. -/
def testOutcome (cls unit outcome : Nat) (s : State) : State :=
  { s with health := { s.health with closedFaults := newestOutcome cls unit outcome s.health.closedFaults } }

/-- The spare an open record of a unit took. -/
def noteSpare (cls unit : Nat) (spare : Option Nat) (s : State) : State :=
  { s with health := { s.health with faults := s.health.faults.map fun r =>
      if r.cls = cls ∧ r.unit = unit then { r with spare := spare } else r } }

/-- R145: settings that fit the pips left: overlap first, then stages. -/
def fitRf (overlap stages left : Nat) : Option (Nat × Nat) :=
  let need := fun o n => max 1 (ceilDiv 32 (2 ^ (n + 1) * (4 - o)))
  let byOverlap := (List.range (overlap + 1)).reverse.map fun o => (o, stages)
  let byStages := (List.range (16 - stages)).map fun i => (0, stages + 1 + i)
  (byOverlap ++ byStages).find? fun x => decide (need x.1 x.2 ≤ left)

/-- R145: a pip of an RF personality failed and no spare is left. -/
def degradePip (p n : Nat) (s : State) : State :=
  let left := ((getSpec p s).pips.filter (· != n)).length
  let due := inFlight p n s
  let s := modSpec p (fun x => { x with
    lost := x.lost ++ x.missing.filter (fun m => pipOf x m == n) ++ due
    missing := x.missing.filter fun m => pipOf x m != n, held := x.held || !s.steward.running }) s
  match (if left = 0 then none else fitRf (getSpec p s).fft.overlap (stagesOf (getDdc p s).decim) left) with
  | some (o, k) =>
    let s := setPips p ((getSpec p s).pips.filter (· != n)) s
    schedule [({ cls := 3, inst := p }, .degradeRf p o k), ({ cls := 2, inst := p }, .claimOnly)] s
  | none => haltLater p 4 s

/-- R232, R273: the enabled slots of a fibre that still fit. -/
def degradeSlots (f m : Nat) (s : State) : State :=
  schedule [({ cls := 0xA, inst := f }, .degradeDas f m)] s

/-- R362: in a steward outage a fibre that lost a unit stops its output until Korsyn completes the degradation. -/
def fibreHeld (f : Nat) (s : State) : State := modFibre f (fun x => { x with held := x.held || !s.steward.running }) s

/-- R144, R145, R232, R353: a pip's record comes into handling: whether it is finished at once, and how. -/
def handlePip (n cause : Nat) (s : State) : Option Nat × State :=
  let p := (getPip n s).personality
  if 6 ≤ p then (some outRepaired, struckPip n cause s)
  else
    match sparePip (pipTo .relieving p n s) with
    | some k =>
      let due := if p < 4 then inFlight p n s else []
      let s := setPips p ((pipsOf p s).map fun x => if x = n then k else x) (pipTo .assigned p k s)
      let s := if p < 4 then
          modSpec p (fun x =>
            let had := x.missing.filter fun m => pipOf x m == k
            { x with missing := x.missing ++ (due.filter fun m => !x.missing.contains m).take (3 - had.length) }) s
        else modFibre (p - 4) (fun x => { x with launches := x.launches.map fun l => { l with flags := l.flags ||| 8 } }) s
      (none, noteSpare 1 n (some k) (pipTo .relieving p n s))
    | none =>
      let s := if p < 4 then degradePip p n s
        else
          let f := p - 4
          let s := fibreHeld f s
          let left := ((getFibre f s).pips.filter (· != n)).length
          let x := getFibre f s
          let m := ((List.range ((enabledSlots x).length + 1)).reverse.find? fun m =>
            decide (pipsOfDas x.receivers m ≤ left)).getD 0
          degradeSlots f m (setPips p (x.pips.filter (· != n)) s)
      (none, struckPip n cause s)

/-- R272, R273: a currant's record comes into handling. -/
def handleCurrant (n cause : Nat) (s : State) : Option Nat × State :=
  let p := (getCurrant n s).personality
  if p < 4 ∨ 6 ≤ p then (some outRepaired, struckCurrant n cause s)
  else
    let f := p - 4
    let x := getFibre f s
    match spareCurrant (currantTo .relieving p 0xFF n s) with
    | some k =>
      let s := modFibre f (fun x => { x with currants := x.currants.map fun c => if c = n then k else c
                                             stackFlags := if x.dts then x.stackFlags ||| 1024 else x.stackFlags }) s
      (none, noteSpare 2 n (some k) (currantTo .relieving p 0xFF n (currantTo .assigned p (kernelOf f s) k s)))
    | none =>
      let s := fibreHeld f s
      let slot := ((enabledSlots x)[x.currants.idxOf n]?).getD 0xFF
      let kept := if x.das then x.launches.filter (fun l => l.slot != slot && l.slot != 0xFF) else x.launches
      let s := modFibre f (fun x => { x with currants := x.currants.filter (· != n), launches := kept }) s
      let s := if x.das then degradeSlots f ((enabledSlots x).length - 1) s
        else schedule [({ cls := 0xB, inst := f }, .degradeDts f)] s
      (none, struckCurrant n cause s)

/-- R356: records are handled in order: the first is taken up when it has not been, and the next when it is finished
at once. -/
def runRecords : Nat → State → State
  | 0, s => s
  | k + 1, s =>
    match s.health.faults with
    | r :: rest =>
      if r.state = 0 then
        let s := { s with health := { s.health with faults := { r with state := 1 } :: rest } }
        let d := if r.cls = 1 then handlePip r.unit r.cause s else if r.cls = 2 then handleCurrant r.unit r.cause s
          else (if s.health.halting.any fun h => h.1 == r.personality then none else some r.outcome, s)
        match d.1 with
        | some o => runRecords k (closeRecord r.cls r.unit o d.2)
        | none => d.2
      else s
    | [] => s

/-- R358: an error storm. -/
def errorStorm (cls unit pers : Nat) (s : State) : State :=
  let ps := (s.health.faults.map (·.personality) ++ [pers]).filter (· < 6)
  let mask := maskOf 6 fun p => ps.contains p
  let s := each [0, 1, 2, 3, 4, 5] (fun p s => if ps.contains p then haltPersonality p 1 s else s) s
  let closed := s.health.faults.map fun r => { r with state := 2, outcome := outStorm, closed := s.dt }
  let s := { s with health := { s.health with faults := [], storms := s.health.storms + 1
                                              closedFaults := (closed.reverse ++ s.health.closedFaults).take 64 } }
  event 0x1805 3 0xFFFF [(16, 1, cls), (17, 1, unit), (18, 1, mask)] s

/-- R357: a unit with an open record, or a spare that an open record took, is retired at once; its record goes on. -/
def retireNamed (cls unit cause : Nat) (s : State) : State :=
  let s := if cls = 1 then retirePip unit cause s else if cls = 2 then retireCurrant unit cause s else s
  match s.health.faults.find? fun r => r.cls == cls && r.spare == some unit with
  | some r =>
    let p := r.personality
    if cls = 1 then
      match sparePip s with
      | some k => noteSpare 1 r.unit (some k)
          (setPips p ((pipsOf p s).map fun x => if x = unit then k else x) (pipTo .assigned p k s))
      | none => s
    else
      match spareCurrant s with
      | some k =>
        let swap := fun (l : List Nat) => l.map fun c => if c = unit then k else c
        noteSpare 2 r.unit (some k) (modFibre (p - 4) (fun x => { x with currants := swap x.currants })
          (currantTo .assigned p (kernelOf (p - 4) s) k s))
      | none => s
  | none => s

/-- R356: a record joins the queue, ordered by class and unit among those of its cycle. -/
def queueRecord (r : FaultRecord) : List FaultRecord → List FaultRecord
  | [] => [r]
  | o :: rest =>
    if o.state = 0 ∧ o.opened = r.opened ∧ (r.cls < o.cls ∨ (r.cls = o.cls ∧ r.unit < o.unit)) then r :: o :: rest
    else o :: queueRecord r rest

/-- R358: the personality halts in a storm: faults of its units retire them and open no record. -/
def stormHalts (pers : Nat) (s : State) : Bool := s.health.halting.any fun h => h.1 == pers && h.2.1 == 1

/-- R356 to R358, Table 3-5: a fault is detected. Outcome is how a record without further handling closes. -/
def faultArrive (cls cause unit pers outcome : Nat) (claims : List Claim) (s : State) : State :=
  let s := abortOnFault cls claims s
  if s.health.faults.any fun r => r.cls == cls && (r.unit == unit || r.spare == some unit) then retireNamed cls unit cause s
  else if stormHalts pers s then retireNamed cls unit cause s
  else if 4 ≤ s.health.faults.length then errorStorm cls unit pers s
  else
    let r : FaultRecord := { opened := s.dt, closed := 0, cls := cls, cause := cause, unit := unit, state := 0, outcome := outcome,
                             personality := if pers < 6 then pers else 0xFF, nest := s.health.faults.length + 1, spare := none }
    runRecords 5 { s with health := { s.health with faults := queueRecord r s.health.faults } }

/-- A fault of a pip or of a currant. -/
def pipFaulted (n cause : Nat) (s : State) : State :=
  let p := (getPip n s).personality
  faultArrive 1 cause n p 0 (if p < 4 then [{ cls := 3, inst := p }] else if p < 6 then [{ cls := 0xA, inst := p - 4 }] else []) s
def currantFaulted (n cause : Nat) (s : State) : State :=
  let p := (getCurrant n s).personality
  faultArrive 2 cause n p 0 (if p = 4 ∨ p = 5 then [{ cls := 0xA, inst := p - 4 }, { cls := 0xB, inst := p - 4 }] else []) s

/-- A record is finished: it closes and the next is taken up. -/
def finishRecord (cls unit outcome : Nat) (s : State) : State := runRecords 5 (closeRecord cls unit outcome s)

/-- R359: the records that wait for a halt are finished by it. -/
def finishHalted (p : Nat) (s : State) : State :=
  match s.health.faults.find? fun r => r.personality == p && r.state == 1 && r.spare.isNone with
  | some r => finishRecord r.cls r.unit outHalted s
  | none => s

/-- R359: the personalities that halt in order and whose boundary, of a chosen kind, is here. -/
def haltsSettle (kinds : Boundary → Bool) (s : State) : State :=
  each s.health.halting (fun h s =>
    if kinds (haltBoundary h.1 s) && haltHere h.1 h.2.2 s then finishHalted h.1 (haltNow h.1 h.2.1 s) else s) s

/-- R133: a frame of the grid that a start ends is still to come: it is complete at the start, or will be; after a clock absence no
more outputs of it come. -/
def frameAwaited (p : Nat) (s : State) : Bool :=
  let x := getSpec p s
  frameCovered p x.frame s && !isScs x.decim && (!x.starts.any (fun e => bit e.2.2.2 0) || frameComplete p x.frame s)

/-- R133: once the complete frames of a grid are out, its blocks end and the grid of the next start begins; the first
spectrum says so. -/
def gridSwitch (p : Nat) (s : State) : State :=
  let x := getSpec p s
  match x.starts with
  | [] => s
  | (c, decim, overlap, bits) :: rest =>
    if frameAwaited p s then s
    else
      let s := modSpec p (fun x => gridNew (groupFrom p decim c) { x with
        starts := rest, decim := decim, fft := { x.fft with overlap := overlap }, restart := true
        clockGap := x.clockGap || bit bits 0, degraded := x.degraded || decide (overlap ≠ x.fft.overlap)
        degStages := bit bits 1 || (x.degStages && stagesOf decim == stagesOf x.decim) }) (blocksEnd p s)
      assignUnits p s

/-- R116, R133: the path of a running personality starts anew at this DT, and its grid with it. -/
def pathRestarted (p bits : Nat) (s : State) : State :=
  if (getSpec p s).running then gridSwitch p (gridQueue p (getDdc p s).decim (getSpec p s).fft.overlap bits s) else s

/-- R134: the DT by which the spectrum of a frame is due. -/
def frameDue (p m : Nat) (s : State) : Nat :=
  let x := getSpec p s
  frameStart p m s + outDelay p x.decim + frameLen x.fft * outPeriod p x.decim + 16 * frameLen x.fft + 4096

/-- R146: coefficients of the longest matched filter of a fibre's enabled slots, and the length of its frames. -/
def fibreFilter (f : Nat) (s : State) : Nat :=
  let x := getFibre f s
  filterLen (((enabledSlots x).map fun k => codeLen (tget {} x.slots k)).foldl max 1)

/-- R144, R147: the overlap-save frames of a fibre that were in flight at a DT, counted from DT 0 at the hop of N / 2, and the DT by
which each is due. (DESIGN CHOICE, unsafe: log 83.) -/
def fibreFrames (f : Nat) (t : DT) (s : State) : List (Nat × Nat) :=
  let n := fibreFilter f s
  let q := t.toNat / (32 * n)
  (if q = 0 then [0] else [q - 1, q]).map fun m => (m, 32 * n * m + 1536 + 64 * n + 16 * n + 4096)

/-- R144: the spare of a pip delivers the recomputed frames: POISONED when the replay read failed. They leave in frame order
with those that waited behind them. -/
def pipRepaired (n : Nat) (poisoned : Bool) (s : State) : State :=
  match s.health.faults.find? fun r => r.cls == 1 && r.unit == n && r.state == 1 && r.spare.isSome with
  | none => s
  | some r =>
    let p := r.personality
    let k := r.spare.getD 0
    if p < 4 then
      let due := (getSpec p s).missing.filter fun m => pipOf (getSpec p s) m == k
      let late := (due.map fun m => (s.dt.toNat - frameDue p m s) / tkUs).foldl max 0
      let s := modSpec p (fun x => { x with
        missing := x.missing.filter fun m => !due.contains m
        waiting := x.waiting ++ due.map fun m => (m, k, 256 + 128 * b2n poisoned, []) }) s
      pipDone n k r due.length (due.headD 0) late s
    else
      let due := fibreFrames (p - 4) r.opened s
      pipDone n k r due.length ((due.head?.map (·.1)).getD 0) ((due.map fun q => (s.dt.toNat - q.2) / tkUs).foldl max 0) s
where
  /-- R144, R149: the repair is reported with the DT of detection, and its record closes. -/
  pipDone (n k : Nat) (r : FaultRecord) (count first late : Nat) (s : State) : State :=
    let p := r.personality
    let s := { s with health := { s.health with pipRepairs := s.health.pipRepairs + 1 } }
    let s := eventAt r.opened 0x0801 1 p [(16, 1, p), (17, 1, n), (18, 1, k), (19, 1, count), (20, 8, first),
      (28, 2, sat 2 late), (30, 1, r.cause)] s
    finishRecord 1 n outRepaired (struckPip n r.cause s)

/-- R272: the spare of a currant delivers the recomputed traces of some slots, at most 2. -/
def currantRepaired (n : Nat) (slots : List Nat) (s : State) : State :=
  match s.health.faults.find? fun r => r.cls == 2 && r.unit == n && r.state == 1 && r.spare.isSome with
  | none => s
  | some r =>
    let p := r.personality
    let f := p - 4
    let x := getFibre f s
    let due := (slots.take 2).filter fun k => if x.das then (traceOfSlot f k s).isSome else (launchDue x k).isSome
    let first := ((due.head?.bind (launchDue x)).map (·.dt.toNat)).getD 0
    let s := { s with health := { s.health with curRepairs := s.health.curRepairs + 1 } }
    let s := if x.das then each due (fun k s => match traceOfSlot f k s with
        | some t => dasReady f [(t, true)] s
        | none => s) s
      else s
    let s := event 0x1301 1 p [(16, 1, p), (17, 1, n), (18, 1, r.spare.getD 0), (19, 1, due.length),
      (20, 1, r.cause), (24, 8, first)] s
    finishRecord 2 n outRepaired (struckCurrant n r.cause s)

/-! ## Landings of Korsyn's own bunches (R145, R232, R273, R346) -/

/-- R149: the DT at which the fault was detected that a personality degrades for. -/
def degradeDt (p : Nat) (s : State) : DT :=
  ((s.health.faults.find? fun r => r.personality == p && r.state == 1 && r.spare.isNone).map (·.opened)).getD s.dt

/-- R145, R149: EV_DEGRADED for every step on the way to the settings that landed; each anchors a new grid, so the first
degraded frame is its frame 0. -/
def degradeEvents (p fromO fromN toO toN : Nat) (s : State) : State :=
  let steps := ((List.range (fromO - toO)).map fun i => (fromO - 1 - i, fromN)) ++
    ((List.range (toN - fromN)).map fun i => (toO, fromN + 1 + i))
  each steps (fun q => eventAt (degradeDt p s) 0x0802 2 p
    [(16, 1, p), (17, 1, q.1), (18, 1, q.2), (19, 1, (pipsOf p s).length), (20, 8, 0)]) s

/-- The open records of a personality that no spare handles are finished by its degradation. -/
def finishDegraded (p : Nat) (s : State) : State :=
  match s.health.faults.find? fun r => r.personality == p && r.state == 1 && r.spare.isNone with
  | some r => finishRecord r.cls r.unit outDegraded s
  | none => s

/-- R346: a relief lands: the incoming unit takes the place of the relieved one, which is taken into test. -/
def relieveLand (kindPip : Bool) (p failed spare : Nat) (s : State) : State :=
  if kindPip then
    if (pipsOf p s).contains failed then
      pipTo .inTest 0xF failed (pipTo .assigned p spare
        (setPips p ((pipsOf p s).map fun x => if x = failed then spare else x) s))
    else pipTo .spare 0xF spare s
  else
    let f := p - 4
    if (getFibre f s).currants.contains failed then
      currantTo .inTest 0xF 0 failed (currantTo .assigned p (kernelOf f s) spare
        (modFibre f (fun x => { x with currants := x.currants.map fun c => if c = failed then spare else c }) s))
    else currantTo .spare 0xF 0xFF spare s

end Sys2Proof.Machine
end

