-- ==== Sys2Proof/Machine/Landing.lean ====
section
/-! DEFINITION. What the landing of a member does (R53, R54, R58 and the chapters of the blocks). -/

namespace Sys2Proof.Machine

/-! ## Effects -/

/-- What a change of N, n, F or window of a personality does to its maps, masks and change log (R162, R175, R195). -/
def settingsChanged (p cause : Nat) (since : DT) (s : State) : State :=
  let s := mapsClearDue p cause since s
  if cause = 4 then s else modTrig p (fun u => { u with clearFrom := u.clearFrom ++ [since] }) s

/-- R139, R166: the first blocks under settings that land at the next frame: the averaging block and those of the traces. -/
def blocksFresh (p : Nat) (s : State) : State :=
  modSpec p (fun x => { x with
    avgStart := blockStart x.frame x.fft.avg
    traces := x.traces.map fun e => (e.1, { e.2 with start := blockStart x.frame e.2.cfg.interval }) }) s

/-- R168: the trace blocks that run end at any change of the personality's pip set; the next start at a multiple of INTERVAL. -/
def tracesEnd (p : Nat) (s : State) : State :=
  modSpec p (fun x => { x with
    traces := x.traces.map fun e => (e.1, { e.2 with start := blockStart x.frame e.2.cfg.interval }) })
    (each [0, 1, 2, 3] (traceEnd p) s)

/-- DDC.SET lands, with what follows for the personality of an RF path (R107, R115, R116, R133, R162). -/
def ddcSetLand (path f phi decim shift : Nat) (enable : Bool) (s : State) : State :=
  let old := getDdc path s
  let stages := outPeriod path old.decim != outPeriod path decim || isScs old.decim != isScs decim
  let s := ddcLand path f phi decim shift enable s
  if isSlotPath path then s
  else
    let s := if stages then settingsChanged path 2 s.dt s else if old.f != f then settingsChanged path 3 s.dt s else s
    if enable && (stages || !old.enable) then pathRestarted path 0 s else s

/-- R126, R148: PIP.ASSIGN lands with ACTION 1: the channel powers up, its path runs, the pips are assigned and the
frame grid starts. A personality that runs already goes on. -/
def pipStartLand (peers : List Write) (p : Nat) (s : State) : State :=
  if (getSpec p s).running then s
  else
    let s := rfPowerUp p s
    let s := modDdc p (fun d => pathStart s.dt false d p) s
    let old := getSpec p s
    let s := applyCfg peers (.pipStart p) s
    let s := if old.fft.log2N != (getSpec p s).fft.log2N then settingsChanged p 1 s.dt s
      else if old.window != (getSpec p s).window then settingsChanged p 4 s.dt s else s
    let decim := (getDdc p s).decim
    let s := modSpec p (fun x => { gridNew (groupFrom p decim s.dt) x with
      decim := decim, starts := [], degraded := false, degStages := false, held := false, restart := false, clockGap := false
      limitStopped := false, keepFft := false, keepWindow := false }) s
    assignUnits p { s with health := { s.health with haltedPers := s.health.haltedPers.filter (· != p) } }

/-- R133, R139, R145, R162, R168, R184: SPEC.SET_FFT lands at a frame start. A change of N or overlap ends the averaging block
and re-anchors the grid, one of AVG_COUNT ends the block; otherwise the block goes on (DESIGN CHOICE, unsafe: log 84).
Trace blocks end. Captures of records whose length changes stop. -/
def fftLand (p : Nat) (cfg : FftCfg) (t : DT) (s : State) : State :=
  let old := (getSpec p s).fft
  let regrid := old.log2N != cfg.log2N || old.overlap != cfg.overlap
  let s := if regrid || old.avg != cfg.avg then averageEnd p s else s
  let s := each [0, 1, 2, 3] (traceEnd p) s
  let s := if old != cfg then capsStop (capsOf 2 p s) capStopped s else s
  let s := if regrid && (getSpec p s).running then gridRestart p t s else s
  let s := modSpec p (fun x => { x with
    fft := cfg, starts := x.starts.map fun e => (e.1, e.2.1, cfg.overlap, e.2.2.2)
    degraded := x.degraded && old.overlap == cfg.overlap }) s
  let s := if regrid then s else if old.avg != cfg.avg then blocksFresh p s else tracesEnd p s
  let s := if old.log2N != cfg.log2N then settingsChanged p 1 t s else s
  if (getSpec p s).running then assignUnits p s else s

/-- R162, R168: SPEC.SET_WINDOW lands at a frame start. -/
def windowLand (p w : Nat) (t : DT) (s : State) : State :=
  if (getSpec p s).window = w then tracesEnd p s
  else settingsChanged p 4 t (applyCfg [] (.specWindow p w) (tracesEnd p s))

/-- R166, R168: SPEC.SET_TRACE lands: the running block ends, and the first under the new settings starts at a multiple of
INTERVAL. -/
def traceLand (p i : Nat) (cfg : TraceCfg) (s : State) : State :=
  modSpec p (fun x => { x with
    traces := tput {} x.traces i { cfg := cfg, start := blockStart x.frame cfg.interval } }) (traceEnd p i s)

/-- R183: output resumes with the first blocks that start at or after T. -/
def limitResumeLand (p : Nat) (s : State) : State :=
  blocksFresh p (modSpec p (fun x => { x with
    limitStopped := false, seen := 0, summed := 0, avgFlags := 0, accSat := false, acc := [], avgTerms := []
    traces := x.traces.map fun e => (e.1, { e.2 with
      seen := 0, summed := 0, flags := 0, accSat := false, acc := if e.2.cfg.hold then e.2.acc else []
      terms := if e.2.cfg.hold then e.2.terms else [] }) }) s)

/-- R104, R105: CAL.SET_RF lands at t; the delay is referred to data from t on. -/
def calRfLand (ch : Nat) (off : Int) (table : List Int) (delay : Int) (fStart fStep : Nat) (t : DT) (s : State) : State :=
  modRf ch (fun c => { c with
    userOff := off, userTable := table, delayTk := delay, fStart := fStart, fStep := fStep
    delays := (t, delay) :: if c.delays = [] then [(0, c.delayTk)] else c.delays.take 255 }) s

/-- R124: DDC.SET_DETECT lands: windows start anew. -/
def detectLand (path w a enable ring : Nat) (s : State) : State :=
  modDdc path (fun d => { d with detQueue := [] }) (applyCfg [] (.ddcDetect path w a enable ring) s)

/-- R150, R162, R164: a map is released. -/
def bloomReleaseLand (m : Nat) (s : State) : State := modBloom m (fun _ => {}) s

/-- R161, R164: the snapshot of BLOOM.READ with READ_CLEAR, then the clear. -/
def bloomReadClearLand (m dest : Nat) (s : State) : State :=
  let s := mapBoundary m true s
  modBloom m clearMap (toHost dest (snapshotBytes m true s) s)

/-- R179, R180: TRIG.SET_SEQ lands: the sequencer stands at step 0, armed or not. -/
def seqLand (p : Nat) (cfg : SeqCfg) (s : State) : State :=
  modTrig p (fun u => { u with
    seq := cfg, armed := cfg.arm, armedAt := s.dt, step := 0, entered := s.dt, count := 0, seen := [], events := [] }) s

/-- R188: CAP.SET lands; an armed capture is disarmed first. -/
def capSetLand (k : Nat) (cfg : CapCfg) (s : State) : State :=
  let s := if (getCap k s).phase = 0 then s else capArmLand k false s
  modCap k (fun c => { isSet := true, cfg := cfg, pendingFlags := c.pendingFlags &&& capGap }) s

/-- R219: the slot paths of a fibre's receivers. -/
def slotPaths (f k : Nat) (s : State) : List Nat :=
  ([0, 1].filter fun c => orxPresent (2 * f + c) s).map fun c => 16 + 8 * (2 * f + c) + k

/-- R350: the swaps of a fibre's receivers are scheduled anew. -/
def swapsAnew (f : Nat) (s : State) : State := each [2 * f, 2 * f + 1] (fun n => modOrx n (fun c => { c with swapDue := 0 })) s

/-- DAS.START lands with ACTION 1: slot paths run and units are assigned (R217, R232). -/
def dasLand (f k : Nat) (s : State) : State :=
  if dasRuns f s then
    assignUnits (4 + f) (modFibre f (fun x => { x with receivers := k, restart := true }) s)
  else
    let s := swapsAnew f (dasStartLand f k s)
    let s := each (enabledSlots (getFibre f s)) (fun i => each (slotPaths f i s) (fun path =>
      ddcLand path (4 * slotWord i) 0 0 (getDdc path s).outShift true)) s
    assignUnits (4 + f) { s with health := { s.health with haltedPers := s.health.haltedPers.filter (· != 4 + f) } }

/-- DTS.START lands with ACTION 1. -/
def dtsLand (f : Nat) (s : State) : State :=
  if dtsRuns f s then s
  else
    let s := swapsAnew f (dtsStartLand f s)
    assignUnits (4 + f) { s with health := { s.health with haltedPers := s.health.haltedPers.filter (· != 4 + f) } }

/-- R231: a change of slots or of the grid lands. -/
def dasChanged (f : Nat) (change : Fibre → Fibre) (s : State) : State :=
  assignUnits (4 + f) (modFibre f (fun x => { change x with restart := true, phases := [], output := [] }) s)

/-- R145: the degradation of an RF personality lands. -/
def degradeRfLand (p overlap stages : Nat) (t : DT) (s : State) : State :=
  let d := getDdc p s
  let x := getSpec p s
  let s := degradeEvents p x.fft.overlap (stagesOf d.decim) overlap stages s
  let s := modSpec p (fun x => { x with held := false }) s
  let s := if stagesOf d.decim = stages then
      (if x.fft.overlap = overlap then s
       else assignUnits p (modSpec p (fun x => { x with fft := { x.fft with overlap := overlap }, degraded := true })
         (gridRestart p t s)))
    else
      let s := settingsChanged p 2 s.dt (ddcLand p d.f d.phi stages d.outShift d.enable s)
      gridSwitch p (gridQueue p stages overlap 2 s)
  finishDegraded p s

/-- R232, R273: a fibre goes on with fewer slots. -/
def degradeDasLand (f slots : Nat) (s : State) : State :=
  let x := getFibre f s
  let gone := (enabledSlots x).drop slots
  let s := each gone (fun i => each (slotPaths f i s) (fun path => modDdc path (fun d => { d with enable := false }))) s
  let s := dasChanged f (fun x => { keepSlots slots x with degraded := true, held := false }) s
  let y := getFibre f s
  finishDegraded (4 + f) (eventAt (degradeDt (4 + f) s) 0x0802 2 (4 + f) [(16, 1, 4 + f), (17, 1, 0xFF),
    (18, 1, (enabledSlots y).length), (19, 1, y.pips.length), (20, 8, y.traceSeq)] s)

/-- R273: a DTS fibre stops; the running stack is not written. -/
def degradeDtsLand (f : Nat) (s : State) : State :=
  let s := fibreStop f s
  finishDegraded (4 + f) (eventAt (degradeDt (4 + f) s) 0x0802 2 (4 + f) [(16, 1, 4 + f), (17, 1, 0xFE)] s)

/-- What a write does when it lands at t; peers are the writes of its bunch. -/
def landWrite (peers : List Write) (t : DT) (w : Write) (s : State) : State :=
  match w with
  | .rfRange ch pad atten setRef moves => rangeLand ch pad atten setRef moves s
  | .calRf ch off table delay fStart fStep => calRfLand ch off table delay fStart fStep t s
  | .ddcDetect path w a enable ring => detectLand path w a enable ring s
  | .ddcSet path f phi decim shift enable => ddcSetLand path f phi decim shift enable s
  | .slotPath path f enable => ddcLand path f 0 0 (getDdc path s).outShift enable s
  | .pipStart p => pipStartLand peers p s
  | .pipStop p => if (getSpec p s).running then rfPersonalityStop p s else s
  | .specFft p cfg => fftLand p cfg t s
  | .specWindow p w => windowLand p w t s
  | .specTrace p i cfg => traceLand p i cfg s
  | .bloomSet m cfg => bloomLand m cfg t s
  | .bloomRelease m => bloomReleaseLand m s
  | .bloomClear m => bloomClearLand m s
  | .bloomReadClear m dest => bloomReadClearLand m dest s
  | .trigSeq p cfg => seqLand p cfg s
  | .limitResume p => limitResumeLand p s
  | .capSet k cfg => capSetLand k cfg s
  | .capArm k arm => capArmLand k arm s
  | .capForce k => capTrigger k s.dt 0xFF capForced s
  | .genLoad d entries start => genLoadLand d entries start s
  | .genStart d start => withEpoch d (genStartLand d start) s
  | .genStop d => genStopLand d s
  | .dasStart f k => dasLand f k s
  | .dasStop f => if dasRuns f s then fibreStop f s else s
  | .dasSlot f k cfg => dasChanged f (fun x => { x with slots := tput {} x.slots k cfg }) s
  | .dasGrid f cfg => dasChanged f (fun x => bandReset { x with grid := cfg }) s
  | .dasPmask f cfg => modFibre f (fun x => { x with pmask := cfg, pmaskViolated := [], pmaskRun := 0, pmaskFired := false }) s
  | .calFibre f cfg =>
    let coil := (getFibre f s).cal.coilFirst != cfg.coilFirst || (getFibre f s).cal.coilCells != cfg.coilCells
    modFibre f (fun x => { x with cal := cfg, restart := x.restart || (x.dts && coil) }) s
  | .laserArm d arm => laserArmLand d arm s
  | .dtsStart f => dtsLand f s
  | .dtsStop f => if dtsRuns f s then fibreStop f s else s
  | .dtsSet f cfg =>
    let old := (getFibre f s).dtsCfg
    let grid := old.firstCell != cfg.firstCell || old.positions != cfg.positions || old.step != cfg.step
    modFibre f (fun x => { x with dtsCfg := cfg, restart := x.restart || grid }) s
  | .slowScan entries lineHz ring => scanLand entries lineHz ring s
  | .slowStart => scanStartLand s
  | .slowStop => scanStopLand s
  | .excSet e cfg => excLand e cfg s
  | .curBand f cfg => modFibre f (fun x => bandReset { x with band := cfg }) s
  | .netVdif ring cfg => modRing ring (fun r => { r with vdif := some cfg, vdifFrame := 0, vdifSecond := none, vdifNext := some t }) s
  | .netStream ring cfg => modRing ring (fun r => { r with stream := cfg, streamSeq := 0, published := List.replicate (ringHeld r) s.dt }) s
  | .dispMode _ | .dispLayer .. | .dispPalette _ | .dispPsr .. => displayRest w s
  | .relievePip p failed spare => relieveLand true p failed spare s
  | .relieveCurrant p failed spare => relieveLand false p failed spare s
  | .degradeRf p overlap stages => degradeRfLand p overlap stages t s
  | .degradeDas f slots => degradeDasLand f slots s
  | .degradeDts f => degradeDtsLand f s
  | .genResume d entry => if (getGen d s).gapped then withEpoch d (genBegin d entry) s else s
  | .halt p cause => haltPersonality p cause s
  | .trigMask .. | .trigTd .. | .trigLimit .. | .trigLog .. | .lineLog _ | .genSegment ..
  | .genCarrier .. | .slotCarrier .. | .calGen .. | .laserModcal .. | .laserCaps .. | .claimOnly => applyCfg peers w s

end Sys2Proof.Machine
end

