-- ==== Sys2Proof/Machine/Domains.lean ====
section
/-! DEFINITION. Power domains that Korsyn starts on demand (R18, R369, R380, Table 19-2). -/

namespace Sys2Proof.Machine

/-! ## Domains (Table 19-2) -/

def domainOn (d : Domain) (s : State) : Bool :=
  match d with
  | .fabric => s.power.fabric
  | .converter k => tget false s.power.dies k
  | .ethernet p => tget false s.power.eth p
  | .display => s.power.display

/-- Nominal start time in ticks (DESIGN CHOICE, unsafe: log 33). -/
def domainStart (d : Domain) : Nat :=
  match d with
  | .fabric => 5120000
  | .converter _ => 30720000
  | .ethernet _ => 40960000
  | .display => 10240000

/-- R18: the domains a write needs before it can land. -/
def domainsOf (w : Write) : List Domain :=
  match w with
  | .pipStart p => [.fabric, .converter (p / 2)]
  | .dasStart f _ | .dtsStart f => [.fabric, .converter f]
  | .genStart d _ | .genResume d _ => [.fabric, .converter d]
  | .dispMode cfg => if cfg.output = 0 then [] else [.display]
  | .netStream _ (some cfg) => [.ethernet cfg.port]
  | _ => []

/-- The domains of some writes, each once. -/
def domainsFor (ws : List Write) : List Domain := (ws.map domainsOf).flatten.eraseDups

/-- Those of them that are not on. -/
def domainsOff (ws : List Write) (s : State) : List Domain := (domainsFor ws).filter fun d => !domainOn d s

/-- A write that assigns pips or currants to a personality. -/
def needsUnits (w : Write) : Bool :=
  match w with
  | .pipStart _ | .dasStart .. | .dtsStart _ => true
  | _ => false

/-- R355: some writes wait for the tests of the first admission, nominally 1.5 s (DESIGN CHOICE, unsafe: log 33). -/
def testsWait (ws : List Write) (s : State) : Bool := ws.any needsUnits && (!s.health.admitted || (s.health.firstTest && !firstTestOver s))
def testTk : Nat := 30720000000

/-- All that some writes need has started and passed its first test. -/
def startable (ws : List Write) (s : State) : Bool := (domainsOff ws s).isEmpty && !testsWait ws s

/-- R59, R355: what starts and tests add to L. -/
def delayOf (starts : List Domain) (tests : Bool) : Nat := (starts.map domainStart).sum + if tests then testTk else 0
/-- R18: what the domain starts and tests of a list of writes add to L (DESIGN CHOICE, unsafe: log 33). -/
def startDelay (ws : List Write) (s : State) : Nat := delayOf (domainsOff ws s) (testsWait ws s)

/-- The code of a power state (Table 19-1). -/
def powerCode : Power → Nat
  | .active => 0
  | .ready => 1
  | .standby => 2
  | .off => 3

/-- R380: a change of power state with its event; wake is WAKE_STAT of the wake or 0. -/
def powerChange (next : Power) (wake : Nat) (dt : DT) (s : State) : State :=
  let old := s.power.state
  if old = next then s
  else event 0x0105 0 0xFFFF [(16, 1, powerCode next), (17, 1, powerCode old), (18, 1, wake), (24, 8, dt.toNat)]
    { s with power := { s.power with state := next } }

/-- Table 19-2: the ADPLL that a domain brings up begins to lock: ADPLL-F to 1.28 GHz for the fabric, ADPLL-S for a
converter die, ADPLL-D for the display. -/
def domainPll (go : Nat → Nat → State → State) (d : Domain) (s : State) : State :=
  match d with
  | .fabric => go 1 1280000 s
  | .converter _ => go 0 20480000 s
  | .ethernet _ => s
  | .display => go 3 (planned s).disp.mode.pclk s

/-- R369: a bunch or command that needs domains is staged: those that are off begin to start. -/
def wakeDomains (ds : List Domain) (s : State) : State :=
  if ds = [] then s
  else
    let s := if s.power.state = .ready then powerChange .active 0 s.dt s else s
    let s := each (ds.filter fun d => !domainOn d s && !s.power.starting.contains d) (domainPll pllBegin) s
    { s with power := { s.power with
      starting := s.power.starting ++ ds.filter fun d => !domainOn d s && !s.power.starting.contains d } }
def startDomains (ws : List Write) (s : State) : State :=
  wakeDomains (domainsFor ws) (if ws.any needsUnits then firstAdmission s else s)

/-- Table 19-2: a domain has started, its ADPLL included. -/
def domainUp (d : Domain) (s : State) : State :=
  let s := { s with power := { s.power with starting := s.power.starting.filter (· != d) } }
  domainPll pllRun d (match d with
  | .fabric => { s with power := { s.power with fabric := true } }
  | .converter k => { s with power := { s.power with dies := tput false s.power.dies k true } }
  | .ethernet p => { s with power := { s.power with eth := tput false s.power.eth p true } }
  | .display => { s with power := { s.power with display := true } })

/-- R72: with an RF or DAS personality and no DTS stack to wait for, ADPLL-F runs at 1.28 GHz. -/
def fabricPoint (s : State) : State :=
  if s.power.fabric && ((List.range 4).any (fun p => (getSpec p s).running) || dasRuns 0 s || dasRuns 1 s) &&
      !dtsRuns 0 s && !dtsRuns 1 s then pllBegin 1 1280000 s
  else s

/-- R369: whether anything uses the fabric, a converter die, an Ethernet port or the display. -/
def domainUsed (s : State) : Bool :=
  (List.range 6).any (fun p => personalityRuns p s) || [0, 1].any (fun d => (getGen d s).running || (getGen d s).gapped) ||
  (List.range 16).any (fun k => (getCap k s).phase == 1 || (getCap k s).phase == 2) ||
  (List.range 4).any (fun p => (getPort p s).mode != 0) || s.disp.mode.output != 0 ||
  s.rings.any (fun r => r.2.stream.isSome) ||
  s.bunch.table.any (fun b => b.2.state != .free && b.2.members.any fun m => domainsOf m.write != []) ||
  s.bunch.staged.any (fun g => g.members.any fun m => domainsOf m.write != []) || !s.bunch.deferred.isEmpty

end Sys2Proof.Machine
end

