-- ==== Sys2Proof/Machine/Bunches.lean ====
section
/-! DEFINITION. Member commands, the staging cycle, commit and landing (03_bunches.md), and the commands and events of
the BUNCH rows. -/

namespace Sys2Proof.Machine

/-! ## Members -/

/-- A member of a command: the claim unit it writes, its weight in member writes (R52) and its write. -/
def member (x : Ctx) (cls inst weight : Nat) (w : Write) : Member :=
  { claim := { cls := cls, inst := inst }, write := w, weight := weight, opcode := x.opcode, tag := fld x.e 4 4, landed := false }

/-- R50, R51: the bunch a member command names is OPEN and its own master's. -/
def ownBunch (x : Ctx) (s : State) : Bool :=
  let b := getBunch x.bunchId s
  decide (x.bunchId < 64) && b.state == .opened && b.master == x.master && b.direct.isNone

/-- A member command fails: it completes, and the bunch it names aborts (R64). -/
def memberFail (x : Ctx) (cause status reason : Nat) (s : State) : State :=
  let s := fail x.ref status reason s
  if x.inBunch && ownBunch x s then abortBunch x.bunchId cause status reason x.opcode (fld x.e 4 4) s else s

/-- L of R59: 100 us. -/
def leadTk : Nat := 2048000

/-- The first 64-tk group boundary at or after a DT. -/
def groupUp (t : DT) : DT := dtAdd 0 (ceilDiv t.toNat 64 * 64)

/-- R59: the first group boundary at or after a DT plus L and the starts it waits for. -/
def nowPoint (t : DT) (delay : Nat) : DT := dtAdd 0 (ceilDiv (t.toNat + leadTk + delay) 64 * 64)

/-! ## Admission (R28, R57, R235) -/

/-- R200, R217: why a start is refused with UNIT_OWNED. (DEDUCED, unsafe: log 65.) -/
def ownedElsewhere (old : State) (w : Write) : Bool :=
  match w with
  | .dasStart f _ => (getGen f old).stimulus || (getFibre f old).dts
  | .dtsStart f => (getGen f old).stimulus || (getFibre f old).das
  | _ => false

/-- R235: the DAC whose governor checks a write. -/
def governedDac (w : Write) : Option Nat :=
  match w with
  | .genSegment d _ _ | .genLoad d _ _ | .genCarrier d _ _ _ _ | .laserModcal d _ _ | .laserCaps d _ => some d
  | _ => none

/-- The reason of REFUSED for a change from one planned configuration to another; none when it is admitted. -/
def admission (old new : State) (ws : List Write) : Option Nat :=
  if ws.any (ownedElsewhere old) then some 0x0C
  else match brokenBudget old new 0 0 with
    | some r => some r
    | none => ws.findSome? fun w => match governedDac w with
      | some d => if dacOwned d new then governorRefuses d new else none
      | none => none

/-! ## Taking a member command (R50 to R58) -/

/-- R29: the configuration a change of a master is judged against outside arbitration: of what is staged in the running
cycle, only the claims of masters that come no later. -/
def plannedFor (m : Master) (s : State) : State :=
  planned { s with bunch := { s.bunch with staged := s.bunch.staged.filter fun g => decide (masterCode g.master ≤ masterCode m) } }

/-- A command to blocks that do not run is applied at once (R58), or when the power domains it needs have started
(R18) and the units of the first admission are tested (R355). -/
def applyNow (x : Ctx) (ms : List Member) (result : Nat) (s : State) : State :=
  let ws := ms.map (·.write)
  match ms.findSome? (fun m => (claimHolder 64 m.claim s).or (claimStaged 64 m.claim s)) with
  | some h => fail x.ref stConflict (masterCode h) s
  | none =>
    let old := plannedFor x.master s
    match admission old (applyAll ws old) ws with
    | some r => fail x.ref stRefused r s
    | none =>
      if startable ws s then
        ok x.ref result (each ws (fun w s => landWrite ws s.dt w s) (startDomains ws s))
      else
        let s := startDomains ws s
        { s with bunch := { s.bunch with deferred := s.bunch.deferred ++ [(x.ref, ms)] } }

/-- R58: a command to a running block becomes a one-member bunch with anchor NOW. -/
def directBunch (x : Ctx) (ms : List Member) (result : Nat) (s : State) : State :=
  match freeId s with
  | none => fail x.ref stBusy 0 s
  | some id =>
    let ws := ms.map (·.write)
    let point := nowPoint x.t (startDelay ws s)
    let s := startDomains ws s
    let s := modBunch id (fun _ => { state := .arming, master := x.master, direct := some x.ref, openedAt := x.t
                                     point := point, result := result }) s
    { s with bunch := { s.bunch with staged := s.bunch.staged ++
        [{ id := id, master := x.master, members := ms, ref := some x.ref, result := result }] } }

/-- A member command of an OPEN bunch waits for the end of its staging cycle (R55); the bunch must start the domains
that are off when it is staged (R18, DESIGN CHOICE, unsafe: log 33). -/
def stageMember (x : Ctx) (ms : List Member) (result : Nat) (s : State) : State :=
  let ws := ms.map (·.write)
  let s := modBunch x.bunchId (fun b => { b with
    starts := b.starts ++ (domainsOff ws s).filter fun d => !b.starts.contains d, tests := b.tests || testsWait ws s }) s
  let s := startDomains ws s
  { s with bunch := { s.bunch with staged := s.bunch.staged ++
      [{ id := x.bunchId, master := x.master, members := ms, ref := some x.ref, result := result }] } }

/-- The wrong offsets of a configuration command: those of the entry itself, and, where the unit it names is present, those
that depend on the state and the planned configuration (R3, R398). -/
def memberChecks (unit : UnitRule) (wrong clash : Ctx → State → State → Checks) (absent : Ctx → State → Bool) (x : Ctx)
    (s : State) : Checks :=
  let plan := planned s
  envelope true unit x ++ [(8, x.inBunch && !ownBunch x s)] ++ wrong x s plan ++ (if absent x s then [] else clash x s plan)

/-- A configuration command: the checks on its entry, the 256 member writes of R52 among them, its checks against the state
and the planned configuration, what is absent, what is busy, its members, and its own RESULT. -/
def clashCommand (op : Nat) (unit : UnitRule) (wrong clash : Ctx → State → State → Checks) (absent : Ctx → State → Bool)
    (busy : Ctx → State → State → Bool) (members : Ctx → State → List Member) (result : Ctx → State → Nat) :
    Cmd → State → State :=
  takeCommand op fun x s =>
    let plan := planned s
    let full := x.inBunch && decide (256 < bunchWrites x.bunchId s + ((members x s).map (·.weight)).sum)
    match badOffset ((8, full) :: memberChecks unit wrong clash absent x s) with
    | some off => memberFail x 2 stBadArg off s
    | none =>
      if absent x s then memberFail x 1 stAbsent 0 s
      else if busy x s plan then memberFail x 10 stBusy 0 s
      else
        let ms := members x s
        let r := result x (applyAll (ms.map (·.write)) plan)
        if x.inBunch then stageMember x ms r s
        else if ms.any fun m => blockRuns m.write s then directBunch x ms r s
        else applyNow x ms r s

/-- A configuration command whose checks all stand on its entry, or that no unit can be absent for. (DEDUCED, unsafe: log 13.) -/
def memberCommand (op : Nat) (unit : UnitRule) (wrong : Ctx → State → State → Checks) (absent : Ctx → State → Bool)
    (busy : Ctx → State → State → Bool) (members : Ctx → State → List Member) (result : Ctx → State → Nat) :
    Cmd → State → State :=
  clashCommand op unit wrong (fun _ _ _ => []) absent busy members result

/-- Nothing absent, nothing busy, RESULT 0. -/
def never (_ : Ctx) (_ : State) : Bool := false
def neverBusy (_ : Ctx) (_ _ : State) : Bool := false
def noResult (_ : Ctx) (_ : State) : Nat := 0

/-! ## The staging cycle (R55 to R57, R399) -/

/-- A claim is lost, or a check fails: the command completes and its bunch aborts; a scheduled one is retried in a later
cycle (R399). -/
def loseStaged (g : Staged) (cause status reason : Nat) (s : State) : State :=
  let s := { s with bunch := { s.bunch with staged := s.bunch.staged.erase g } }
  if (getBunch g.id s).retry then freeBunch g.id { s with bunch := { s.bunch with retries := s.bunch.retries ++ [g.members] } }
  else
  let direct := (getBunch g.id s).direct
  let s := if g.ref = direct then s else completeOpt g.ref { status := status, reason := reason } s
  abortBunch g.id cause status reason ((g.members.head?.map (·.opcode)).getD 0) ((g.members.head?.map (·.tag)).getD 0) s

/-- The master that holds a claim of a staged command against it. -/
def holderAgainst (g : Staged) (s : State) : Option Master := g.members.findSome? fun m => claimHolder g.id m.claim s

/-- R56: claims held from earlier cycles. -/
def refuseHeld (g : Staged) (s : State) : State :=
  if s.bunch.staged.contains g then
    match holderAgainst g s with
    | some h => loseStaged g 4 stConflict (masterCode h) s
    | none => s
  else s

/-- R55, R57: a command wins its claims unless a bunch before it in this cycle has them, and is admitted or refused. -/
def arbitrate (g : Staged) (s : State) : State :=
  if s.bunch.staged.contains g then
    match holderAgainst g s with
    | some h => loseStaged g 4 stConflict (masterCode h) s
    | none =>
      let alone := fun (s : State) => planned { s with bunch := { s.bunch with staged := [] } }
      let s' := modBunch g.id (fun b => { b with members := b.members ++ g.members })
        { s with bunch := { s.bunch with staged := s.bunch.staged.erase g } }
      match admission (alone s) (alone s') (g.members.map (·.write)) with
      | some r => loseStaged g 3 stRefused r s
      | none =>
        let b := getBunch g.id s'
        if b.direct.isSome || b.retry then modBunch g.id (fun b => { b with state := .armed }) s'
        else completeOpt g.ref { status := stOk, result := (b.members.map (·.weight)).sum } s'
  else s

/-- R399: a scheduled bunch claims in this cycle; without a free ID it waits. -/
def claimScheduled (ms : List Member) (s : State) : State :=
  match freeId s with
  | none => { s with bunch := { s.bunch with retries := s.bunch.retries ++ [ms] } }
  | some id =>
    let ws := ms.map (·.write)
    let point := nowPoint s.dt (startDelay ws s)
    let s := modBunch id (fun _ => { state := .arming, master := .scheduled, openedAt := s.dt, point := point, retry := true }) s
    { s with bunch := { s.bunch with staged := s.bunch.staged ++
        [{ id := id, master := .scheduled, members := ms, ref := none, result := 0 }] } }

/-- R55: the end of a staging cycle. (DEDUCED, unsafe: log 19.) -/
def stagingCycle (s : State) : State :=
  let work := s.bunch.retries
  let s := each work claimScheduled { s with bunch := { s.bunch with retries := [] } }
  let s := each s.bunch.staged refuseHeld s
  let of := fun (m : Master) => s.bunch.staged.filter fun g => g.master == m
  let s := each (of .pf0 ++ of .ethernet ++ of .scheduled) arbitrate s
  { s with bunch := { s.bunch with lingering := [] } }

/-! ## Landing (R54, R58, R61 to R63) -/

/-- The last member has landed: EV_BUNCH_APPLIED, or the completion of the direct command, after which the ID is FREE (R50).
What ends while the steward is out stays LANDING until it is back (R49, R362). -/
def finishBunch (id : Nat) (s : State) : State :=
  let b := getBunch id s
  if b.members.all (·.landed) then
    match b.direct with
    | some ref => freeDone id ref (ok ref b.result s)
    | none =>
      let s' := eventAt b.lastLanding 0x0301 0 0xFFFF
        [(16, 8, b.point.toNat), (24, 2, id), (26, 6, dtSub b.lastLanding b.point)] s
      if s.steward.running then freeBunch id s' else s'
  else s

/-- A member that starts a block lands after the members of its bunch that can land with it. -/
def isStart (w : Write) : Bool :=
  match w with
  | .pipStart _ | .dasStart .. | .dtsStart _ | .genStart .. | .slowStart => true
  | .capArm _ arm => arm
  | _ => false

/-- R54: where a member of a LANDING bunch lands now: at T when its block stood still then, else at a boundary of its
block. -/
def memberAt (point : DT) (m : Member) (s : State) : Option DT :=
  if m.landed then none
  else if m.atRest then (if dtLe point s.dt then some point else none)
  else landAt point m.write s

/-- R53, R161: the order of members that land together: on a map, a snapshot, a clear, a change of geometry; those that start a
block last. -/
def landRank (w : Write) (s : State) : Nat :=
  match w with
  | .bloomReadClear m _ => if (getBloom m s).set then 0 else 3
  | .bloomClear _ => 1
  | .bloomSet .. | .bloomRelease _ => 2
  | _ => if isStart w then 4 else 0

/-- R53: members that can land together land by rank, and in staging order within a rank: whether member i waits for
another. -/
def memberWaits (b : Bunch) (i : Nat) (m : Member) (s : State) : Bool :=
  b.members.zipIdx.any fun q => (memberAt b.point q.1 s).isSome &&
    (decide (landRank q.1.write s < landRank m.write s) || (landRank q.1.write s == landRank m.write s && decide (q.2 < i)))

/-- R62: what an armed member sets in a personality that was halted after arming stays through its restart. -/
def keepArmed (w : Write) (s : State) : State :=
  match w with
  | .specFft p _ => if s.health.haltedPers.contains p then modSpec p (fun x => { x with keepFft := true }) s else s
  | .specWindow p _ => if s.health.haltedPers.contains p then modSpec p (fun x => { x with keepWindow := true }) s else s
  | _ => s

/-- R53, R92: a range member that moves the pad may land after ones that its bunch staged later: those stand. -/
def rangesStand (b : Bunch) (i : Nat) (w : Write) (s : State) : State :=
  match w with
  | .rfRange ch _ _ _ true => each ((b.members.drop (i + 1)).filter (·.landed)) (fun m s => match m.write with
    | .rfRange c pad atten setRef _ => if c = ch then rangeLand ch pad atten setRef false s else s
    | _ => s) s
  | _ => s

/-- R54: a member lands at its boundary. -/
def landMember (id i : Nat) (s : State) : State :=
  let b := getBunch id s
  match b.members[i]? with
  | none => s
  | some m =>
    if b.state ≠ .landing ∨ memberWaits b i m s = true then s
    else match memberAt b.point m s with
      | none => s
      | some t =>
        let s := modBunch id (fun b => { b with
          members := b.members.modify i (fun m => { m with landed := true })
          lastLanding := if dtLe b.lastLanding t then t else b.lastLanding }) s
        finishBunch id (rangesStand b i m.write (keepArmed m.write (landWrite (b.members.map (·.write)) t m.write s)))

/-- Every member of a bunch that can land now and is chosen does, by rank. -/
def landAll (chosen : Member → State → Bool) (id : Nat) (s : State) : State :=
  let ms := (getBunch id s).members.zipIdx
  let order := ((List.range 5).map fun r => ms.filter fun q => landRank q.1.write s == r).flatten
  each order (fun q s => if chosen q.1 s then landMember id q.2 s else s) s

/-- R54, R59: the commit point of a bunch is fixed at T; members whose blocks stand still land at once. -/
def pointReached (id : Nat) (t : DT) (s : State) : State :=
  let s := modBunch id (fun b => { b with
    state := .landing, point := t, anchor := none, lastLanding := t
    members := b.members.map fun m => { m with atRest := !blockRuns m.write s } }) s
  let s := landAll (fun m _ => m.atRest) id s
  if (getBunch id s).members = [] then finishBunch id s else s

/-- R59: T of an anchor unit: the boundary now, or, for a unit that does not run, the group boundary as for anchor NOW. -/
def unitPoint (b : Bunch) (c : Claim) (s : State) : Option DT :=
  b.members.findSome? fun m =>
    if m.claim ≠ c then none
    else if blockRuns m.write s then landAt b.point m.write s
    else if dtLe (groupUp b.point) s.dt then some (groupUp b.point) else none

/-- R49, R59: DT reaches T. With an anchor unit, T is the boundary at which a member of that unit can land, once a boundary
of a chosen kind has come. -/
def reachPoint (chosen : Member → State → Bool) (id : Nat) (s : State) : State :=
  let b := getBunch id s
  if b.state = .armed ∧ startable (b.members.map (·.write)) s = true then
    match b.anchor with
    | none => if dtLe b.point s.dt then pointReached id b.point s else s
    | some c =>
      if b.members.any fun m => m.claim == c && (chosen m s || !blockRuns m.write s) then
        match unitPoint b c s with
        | some t => pointReached id t s
        | none => s
      else s
  else s

/-- R53, R54, R359: a boundary comes, before the data that start there: every bunch whose T has come is LANDING, and every member
for which this is the boundary lands, so that each lands at the first one at or after T; and a personality that halts in order
there has halted. (DEDUCED, unsafe: log 31.) -/
def settle (kinds : Boundary → Bool) (s : State) : State :=
  let chosen := fun (m : Member) (s : State) => m.atRest || kinds (boundaryOf m.write s)
  haltsSettle kinds (each (s.bunch.table.map (·.1)) (fun id s => landAll chosen id (reachPoint chosen id s)) s)

/-- R132 to R134: the frames of a personality leave one after the other, each after what lands before it. -/
def leaveAll (p : Nat) : Nat → State → State
  | 0, s => s
  | n + 1, s => leaveAll p n (leaveNext p (gridSwitch p (settle (· == .frame p) s)))

/-- All that can leave now. -/
def pump (p : Nat) (s : State) : State :=
  let x := getSpec p s
  leaveAll p (x.completed - x.frame + x.waiting.length + x.starts.length + 1) s

/-- R18, R355: direct commands are applied once all they need has started and is tested. (DEDUCED, unsafe: log 59.) -/
def applyDeferred (s : State) : State :=
  let due := s.bunch.deferred.filter fun d => startable (d.2.map (·.write)) s
  let s := { s with bunch := { s.bunch with deferred := s.bunch.deferred.filter fun d => !due.contains d } }
  each due (fun d s =>
    let ws := d.2.map (·.write)
    let s := each ws (fun w s => landWrite ws s.dt w s) s
    ok d.1 (ws.findSome? (fun w => match w with
      | .pipStart p => some (getSpec p s).pips.length
      | _ => none) |>.getD 0) s) s

/-! ## Commands (Tables 3-6 to 3-8) -/

/-- BUNCH.OPEN: TIMEOUT_MS. -/
def bunchOpen : Cmd → State → State :=
  plainCommand 0x0301 .none (fun x _ => [(16, decide (600000 < x.u32 16))] ++ reserved x.e 20 64) fun x s =>
    match freeId s with
    | none => fail x.ref stBusy 0 s
    | some id =>
      let ms := if x.u32 16 = 0 then 10000 else x.u32 16
      ok x.ref id (modBunch id (fun _ => { state := .opened, master := x.master, timeoutMs := ms, openedAt := x.t }) s)

/-- R50, R51: COMMIT or ABORT may not name this ID. -/
def badBunchId (x : Ctx) (s : State) : Bool :=
  let b := getBunch (x.u16 16) s
  decide (64 ≤ x.u16 16) || b.state == .free || b.master != x.master || b.direct.isSome

/-- The writes of a bunch, those of the running cycle included. -/
def bunchWritesOf (id : Nat) (s : State) : List Write :=
  (getBunch id s).members.map (·.write) ++
    (((s.bunch.staged.filter fun g => g.id == id).map fun g => g.members.map (·.write))).flatten

/-- R151, R162, R165, R168: the geometry fits some N. A map or trace that a bunch sets beside N is judged with the planned N when
the bunch commits. (DESIGN CHOICE, unsafe: log 84.) -/
def fitsSome (first : Option Nat) (count : Nat) : Bool := (List.range 7).any fun i => binsFit (2 ^ (10 + i)) first count
def geometryWrong (id : Nat) (s : State) : Bool :=
  let plan := planned s
  (bunchWritesOf id s).any fun w => match w with
    | .bloomSet m _ =>
      let c := (getBloom m plan).cfg
      (getBloom m plan).set && !binsFit (frameLen (getSpec c.personality plan).fft) c.firstBin (c.columns * c.bpc)
    | .specTrace p i _ =>
      let c := (tget {} (getSpec p plan).traces i).cfg
      c.detector != 0 && !binsFit (frameLen (getSpec p plan).fft) c.firstBin (c.points * c.bpp)
    | _ => false

/-- BUNCH.COMMIT (R59, R60). -/
def bunchCommit : Cmd → State → State :=
  plainCommand 0x0302 .none (fun x s =>
    let anchor := x.u8 18
    let unit : Claim := { cls := x.u8 19, inst := x.u16 20 }
    [(16, badBunchId x s), (18, decide (2 < anchor)), (18, anchor != 2 && (x.u8 19 != 0 || x.u16 20 != 0)),
     (18, anchor == 2 && !(bunchClaims (x.u16 16) s).contains unit), (18, anchor != 1 && x.u64 24 != 0),
     (24, x.u64 24 % 64 != 0)] ++ reserved x.e 22 24 ++ reserved x.e 32 64) fun x s =>
    let id := x.u16 16
    if (getBunch id s).state ≠ .opened then fail x.ref stBusy 0 s
    else
      let delay := delayOf (getBunch id s).starts (getBunch id s).tests
      let s := modBunch id (fun b => { b with
        state := .arming, commit := some x.ref
        point := if x.u8 18 = 1 then x.dt 24 else if x.u8 18 = 2 then dtAdd x.t (leadTk + delay) else nowPoint x.t delay
        anchor := if x.u8 18 = 2 then some { cls := x.u8 19, inst := x.u16 20 } else none }) s
      if geometryWrong id s then abortBunch id 2 stBadArg 16 x.opcode (fld x.e 4 4) s
      else if x.u8 18 = 1 ∧ (x.dt 24).toNat < x.t.toNat + leadTk + delay then
        abortBunch id 5 stLate 0 0 0 s
      else s

/-- BUNCH.ABORT (R61). -/
def bunchAbort : Cmd → State → State :=
  plainCommand 0x0303 .none (fun x s => (16, badBunchId x s) :: reserved x.e 18 64) fun x s =>
    let id := x.u16 16
    let b := getBunch id s
    if b.state = .opened ∨ b.state = .arming then ok x.ref 0 (abortBunch id 6 0 0 0 0 s)
    else fail x.ref stBusy 0 s

/-- The code of a bunch state (Table 3-1). -/
def bunchCode : BunchState → Nat
  | .free => 0
  | .opened => 1
  | .arming => 2
  | .armed => 3
  | .landing => 4
  | .aborted => 5

/-- BUNCH.QUERY (R50). -/
def bunchQuery : Cmd → State → State :=
  plainCommand 0x0304 .none (fun x _ => (16, decide (64 ≤ x.u16 16)) :: reserved x.e 18 64) fun x s =>
    let b := getBunch (x.u16 16) s
    if b.state = .free then ok x.ref 0 s
    else ok x.ref (bunchCode b.state + 256 * masterCode b.master + 65536 * bunchWrites (x.u16 16) s) s

/-! ## Rows of the table -/

def execBunchOpen (c : Cmd) (s : State) : Out := .next (bunchOpen c s)
def execBunchCommit (c : Cmd) (s : State) : Out := .next (bunchCommit c s)
def execBunchAbort (c : Cmd) (s : State) : Out := .next (bunchAbort c s)
def execBunchQuery (c : Cmd) (s : State) : Out := .next (bunchQuery c s)

/-- STAGING_CYCLE: at DT multiples of 20,480 while Korsyn runs (R55). -/
def execStagingCycle (t : DT) (s : State) : Out :=
  let s := advance t s
  .next (if s.dt.toNat % 20480 = 0 ∧ s.steward.running = true then handoverGo (fabricPoint (stagingCycle s)) else s)

/-- BUNCH_ARMED: every member sits in shadow state; the commit completes (R60). -/
def execBunchArmed (t : DT) (id : Nat) (s : State) : Out :=
  let s := advance t s
  let b := getBunch id s
  .next (if b.state = .arming ∧ b.direct = none ∧ b.retry = false ∧ s.steward.running = true ∧
      (s.bunch.staged.all fun g => g.id != id) = true then
    completeOpt b.commit { status := stOk, result := bunchWrites id s }
      (modBunch id (fun b => { b with state := .armed, commit := none }) s)
  else s)

/-- COMMIT_POINT (R49). -/
def execCommitPoint (t : DT) (id : Nat) (s : State) : Out := .next (reachPoint (fun _ _ => true) id (advance t s))

/-- MEMBER_LANDING (R54). -/
def execMemberLanding (t : DT) (id member : Nat) (s : State) : Out := .next (landMember id member (advance t s))

/-- BUNCH_TIMEOUT (R64): the bunch stayed OPEN past TIMEOUT_MS. -/
def execBunchTimeout (t : DT) (id : Nat) (s : State) : Out :=
  let s := advance t s
  let b := getBunch id s
  .next (if b.state = .opened ∧ s.steward.running = true ∧ b.timeoutMs * tkMs ≤ dtSub s.dt b.openedAt then
    abortBunch id 7 0 0 0 0 s else s)

/-- DOMAIN_STARTED (R18). -/
def execDomainStarted (t : DT) (domain : Domain) (s : State) : Out :=
  let s := advance t s
  .next (if s.power.starting.contains domain then applyDeferred (domainUp domain s) else s)

end Sys2Proof.Machine
end

