-- ==== Sys2Proof/Machine/RfInput.lean ====
section
/-! DEFINITION. Commands and events of the RF inputs and the optical receivers (05_rf_front_end.md,
11_distributed_acoustic_sensing.md R218). -/

namespace Sys2Proof.Machine

/-! ## Ring fields of commands -/

/-- The field names no created data ring. -/
def notDataRing (n : Nat) (s : State) : Bool := !((getRing n s).created && (getRing n s).kind == .data)

/-- The field is neither 0xFFFF nor a created data ring. -/
def badRing (n : Nat) (s : State) : Bool := n != 0xFFFF && notDataRing n s

/-! ## RF.SET_RANGE (R88, R89, Table 5-3) -/

/-- Range state and reference of a channel once every staged range member has landed. -/
structure RangePlan where
  pad : Bool
  atten : Nat
  padRef : Bool
  attenRef : Nat
  deriving DecidableEq, Repr

/-- The plan after one member; on a channel without a personality the state becomes the reference (R88). -/
def rangeStep (ch : Nat) (runs : Bool) (w : Write) (r : RangePlan) : RangePlan :=
  match w with
  | .rfRange c pad atten setRef _ =>
    if c = ch then
      { pad := pad, atten := atten, padRef := if setRef || !runs then pad else r.padRef
        attenRef := if setRef || !runs then atten else r.attenRef }
    else r
  | _ => r

/-- Writes of every bunch that have not landed. -/
def openWrites (s : State) : List Write :=
  (s.bunch.table.map fun b => (b.2.members.filter fun m => !m.landed).map (·.write)).flatten ++
    (s.bunch.staged.map fun g => g.members.map (·.write)).flatten

/-- R88, R89: the channel of a command has a personality, or gets one by a start that is staged elsewhere and may land first. -/
def rangeRuns (x : Ctx) (s : State) : Bool :=
  let others := fun (id : Nat) => !(x.inBunch && x.bunchId == id)
  let starts := fun (ms : List Member) => ms.any fun m => !m.landed && (match m.write with
    | .pipStart p => p == x.unit
    | _ => false)
  (getSpec x.unit s).running || s.bunch.table.any (fun b => others b.1 && starts b.2.members) ||
    s.bunch.staged.any (fun g => others g.id && starts g.members) || s.bunch.deferred.any (fun d => starts d.2)

/-- R89: the planned range state of the channel of a command. -/
def rangePlan (x : Ctx) (s : State) : RangePlan :=
  let c := getRf x.unit s
  let st := c.held.getD (true, 31)
  let now : RangePlan :=
    if c.powered && !c.returnPending then { pad := c.padTarget.getD c.pad, atten := c.atten, padRef := c.padRef, attenRef := c.attenRef }
    else { pad := st.1, atten := st.2, padRef := st.1, attenRef := st.2 }
  (openWrites s).foldl (fun r w => rangeStep x.unit (rangeRuns x s) w r) now

/-- The write of an RF.SET_RANGE entry: whether it moves the pad is judged where it is staged (R92). -/
def rangeOf (x : Ctx) (s : State) : Write :=
  .rfRange x.unit (x.u8 17 == 1) (x.u8 16) (x.u8 18 == 1) ((rangePlan x s).pad != (x.u8 17 == 1))

/-- R89: the compensation a command would need lies beyond 4,096 codes. -/
def rangeTooFar (x : Ctx) (s : State) : Bool :=
  let r := rangeStep x.unit (rangeRuns x s) (rangeOf x s) (rangePlan x s)
  decide (4096 < (compensation r.pad r.atten r.padRef r.attenRef).natAbs)

def rfSetRange : Cmd → State → State :=
  clashCommand 0x0601 (.below 4)
    (fun x _ _ => [(16, decide (31 < x.u8 16)), (17, decide (1 < x.u8 17)), (18, decide (1 < x.u8 18))] ++ reserved x.e 19 64)
    (fun x s _ => [(16, rangeTooFar x s)])
    (fun x s => !rfPresent x.unit s) neverBusy
    (fun x s =>
      let weight := 2 + b2n ((rangePlan x s).pad != (x.u8 17 == 1)) + b2n (x.u8 18 == 1)
      [member x 1 x.unit weight (rangeOf x s)]) noResult

/-! ## RF.STATUS, RF.SET_PAD_COUNT, CAL.SET_RF -/

/-- Table 5-7. -/
def rfRecord (ch : Nat) (s : State) : List Byte :=
  let c := getRf ch s
  let st := if c.powered then (c.pad, c.atten) else c.held.getD (true, 31)
  leBytes 1 (rangeByte st.1 st.2) ++ leBytes 1 (rangeByte c.padRef c.attenRef) ++ leInt 2 (fullScale c.padRef c.attenRef) ++
    leInt 2 (rfK c) ++ leBytes 1 (c.spare.getD 0xFF) ++ leBytes 1 c.retired.length ++ leBytes 8 c.padCount ++
    leBytes 1 (otpBits ch s) ++ leBytes 7 0 ++ leBytes 8 c.ovrGroups

/-- A status command with an 8-byte destination at offset 16. -/
def statusCommand (op : Nat) (unit : UnitRule) (absent : Ctx → State → Bool) (record : Ctx → State → List Byte) :
    Cmd → State → State :=
  plainCommand op unit (fun x _ => reserved x.e 24 64) fun x s =>
    if absent x s then fail x.ref stAbsent 0 s else ok x.ref 0 (toHost (x.u64 16) (record x s) s)

def rfStatus : Cmd → State → State :=
  statusCommand 0x0602 (.below 4) (fun x s => !rfPresent x.unit s) (fun x s => rfRecord x.unit s)

/-- R94: only before the first pad change after boot. -/
def rfSetPadCount : Cmd → State → State :=
  plainCommand 0x0603 (.below 4) (fun x _ => reserved x.e 24 64) fun x s =>
    if !rfPresent x.unit s then fail x.ref stAbsent 0 s
    else if (getRf x.unit s).padMoved then fail x.ref stBusy 0 s
    else ok x.ref 0 (burnDue x.unit (modRf x.unit (fun c => { c with padCount := max (x.u64 16) (otpFloor x.unit s) + 1 }) s))

/-- Table 5-6. -/
def calSetRf : Cmd → State → State :=
  memberCommand 0x1901 (.below 4)
    (fun x _ _ => [(18, decide (4096 < x.u16 18) || (decide (1 < x.u16 18) && x.u64 40 == 0))] ++ reserved x.e 48 64)
    (fun x s => !rfPresent x.unit s) neverBusy
    (fun x s => [member x 3 x.unit 1
      (.calRf x.unit (x.i16 16) (readI16s s.host (x.u64 24) (x.u16 18)) (x.i32 20) (x.u64 32) (x.u64 40))]) noResult

/-! ## Rows -/

def execRfSetRange (c : Cmd) (s : State) : Out := .next (rfSetRange c s)
def execRfStatus (c : Cmd) (s : State) : Out := .next (rfStatus c s)
def execRfSetPadCount (c : Cmd) (s : State) : Out := .next (rfSetPadCount c s)
def execCalSetRf (c : Cmd) (s : State) : Out := .next (calSetRf c s)

/-- RF_GROUP (R90, R98): what lands at the group does, then the group arrives, from a powered channel while the clocks serve the
plane, one each 64 tk. -/
def execRfGroup (t : DT) (channel : Nat) (codes : List Int) (s : State) : Out :=
  let s := settle (· == .group) (advance t s)
  let c := getRf channel s
  .next (if c.powered = true ∧ planeRuns s = true ∧ codes.length = 64 ∧ (codes.all fun v => -2048 ≤ v && v ≤ 2047) = true ∧
      s.dt.toNat % 64 = 0 ∧ c.lastGroup ≠ some s.dt then
    capRawGroup channel codes (groupArrive channel codes s) else s)

/-- R100 to R103, R190: the comparator fires inside the last group of a channel: that group carries OVR. -/
def overdriveGroup (ch : Nat) (s : State) : State :=
  match (getRf ch s).lastGroup with
  | some g =>
    if dtSub s.dt g < 64 ∧ bit (getRf ch s).sideband.toNat 6 = false then
      capRawIndex (partner ch) g (capRawIndex ch g (overloadReport ch g (markOvr ch g s)))
    else s
  | none => s

/-- OVERDRIVE_COMPARATOR (R100): OVR from the group in which it fires until 1,024 samples after it releases. -/
def execOverdriveComparator (t : DT) (channel : Nat) (fires : Bool) (s : State) : Out :=
  let s := advance t s
  let c := getRf channel s
  .next (if c.powered = true ∧ c.overdrive ≠ fires then
    let s := modRf channel (fun c => { c with overdrive := fires
                                              overdriveUntil := if fires then c.overdriveUntil else dtAdd s.dt 1024 }) s
    if fires then overdriveGroup channel s else s
  else s)

/-- PAD_SETTLE_END (R91, R92): the interval is over, and pad members may land. -/
def execPadSettleEnd (t : DT) (channel : Nat) (s : State) : Out :=
  let s := advance t s
  .next (if dtLe (getRf channel s).settleUntil s.dt then modRf channel (fun c => { c with settleUntil := 0 }) s else s)

/-- R88, R93: the move of the pad that waited for a burn: the return to p = 1 before the channel powers down, or that of a
power-up. -/
def burnFollows (ch : Nat) (s : State) : State :=
  let c := getRf ch s
  if c.returnPending then rfPowerDown ch (padChange ch s)
  else match c.padTarget with
    | some pad =>
      let s := modRf ch (fun c => { c with padTarget := none }) s
      if c.pad = pad then s else rangeNote ch (padMove ch s)
    | none => s

/-- OTP_BURN_DONE (R93, R88): the bit is burned, and a pad move that waited for it is made. -/
def execOtpBurnDone (t : DT) (channel : Nat) (s : State) : Out :=
  let s := advance t s
  let c := getRf channel s
  .next (if c.burning then
    let bits := tget 0 s.fuse.padBits channel ||| 2 ^ (c.burnBit - 1)
    burnFollows channel (modRf channel (fun c => { c with burning := false, burnBit := 0 })
      { s with fuse := { s.fuse with padBits := tput 0 s.fuse.padBits channel bits } })
  else s)

/-- R97: a slice that fails while the spare is out is retired; with no spare left its channel goes. -/
def sliceFault (ch slice kind : Nat) (s : State) : State :=
  let c := getRf ch s
  let n := c.retired.length + 1
  let first := c.spare == some slice
  let second := c.spare.isNone && n == 2 && c.positions.contains slice
  if first || second then
    let s := modRf ch (fun c => { c with retired := c.retired ++ [slice], spare := none }) s
    let s := if second then { s with health := { s.health with rfRetired := s.health.rfRetired ||| 2 ^ ch } } else s
    let s := event 0x0603 2 ch [(16, 1, slice), (17, 1, kind), (18, 1, n)] (rewriteCaps s)
    let s := if second then haltPersonality ch 2 s else s
    faultArrive 3 kind ch ch (if second then outHalted else outRetired) [{ cls := 1, inst := ch }] s
  else s

/-- R96: a swap is due and the group that starts now carries neither OVR nor RANGING nor PAD_SETTLE. -/
def swapHere (ch : Nat) (s : State) : Bool :=
  let c := getRf ch s
  c.invalidLeft == 0 && c.swapDue != 0 && dtLe c.swapDue s.dt && c.lastGroup == some s.dt &&
    !bit c.sideband.toNat 6 && !bit c.sideband.toNat 8 && !bit c.sideband.toNat 9

/-- SLICE_SWAP (R96, R97): a slice that the calibration found outside the tolerance, and the swap that is due. -/
def execSliceSwap (t : DT) (channel : Nat) (fault : Option (Nat × Nat)) (s : State) : Out :=
  let s := advance t s
  .next (if (getRf channel s).powered = true ∧ planeRuns s = true then
    let s := match fault with
      | some (slice, kind) => sliceFault channel slice kind s
      | none => s
    if swapHere channel s then modRf channel sliceRotate s else s
  else s)

/-- For how many ticks optical groups are kept: beyond the cells of any launch (R227, R238). -/
def keptOptical : Nat := 2 ^ 32

/-- R218: OVR on a group that holds a clip code or one of the 16 samples after the last; the codes are kept for the slot paths and
the launches. -/
def opticalArrive (n : Nat) (codes : List Int) (s : State) : State :=
  let clip := (codes.zipIdx.filter fun p => p.1 == 8191 || p.1 == -8192).getLast?.map (·.2)
  modOrx n (fun c =>
    let ovr := clip.isSome || decide (0 < c.recovery)
    let keep := c.flagged.filter fun g => decide (s.dt.toNat ≤ g.1.toNat + keptOptical)
    { c with ovr := ovr, flagged := if ovr then (s.dt, 64) :: keep else keep
             input := (s.dt, codes) :: c.input.filter fun g => decide (s.dt.toNat ≤ g.1.toNat + keptOptical)
             swapDue := if c.swapDue = 0 then dtAdd s.dt (2 * tkS) else c.swapDue
             recovery := match clip with
               | some i => i + 16 - 15
               | none => c.recovery - 16 }) s

/-- OPTICAL_GROUP (R218): from a receiver of a fibre personality that runs. -/
def execOpticalGroup (t : DT) (receiver : Nat) (codes : List Int) (s : State) : Out :=
  let s := settle (· == .group) (advance t s)
  .next (if orxPresent receiver s = true ∧ fibreRuns (receiver / 2) s = true ∧ planeRuns s = true ∧ codes.length = 16 ∧
      (codes.all fun v => -8192 ≤ v && v ≤ 8191) = true ∧ s.dt.toNat % 64 = 0 then
    opticalArrive receiver codes s else s)

end Sys2Proof.Machine
end

