-- ==== Sys2Proof/Machine/Ddc.lean ====
section
/-! DEFINITION. Commands and events of the down-conversion paths (06_downconversion_filters.md). -/

namespace Sys2Proof.Machine

/-- Path numbers: 0 to 3 on the RF channels, 16 + 8 x ORX + slot on the optical receivers (Table 3-2). -/
def isPath (n : Nat) : Bool := decide (n < 4) || (decide (16 ≤ n) && decide (n < 48))

/-- R3: the channel or receiver of a path is fused off. -/
def pathAbsent (n : Nat) (s : State) : Bool :=
  if isSlotPath n then !orxPresent ((n - 16) / 8) s else !rfPresent n s

/-- Table 6-5: DECIM names no setting of this path, or one the part does not take (R4, R112, R121). -/
def badDecim (path decim : Nat) (s : State) : Bool :=
  if isSlotPath path then decim != 0
  else if s.fuse.presetOnly then !((decide (0x80 ≤ decim) && decide (decim ≤ 0x87)) || isScs decim)
  else !(decide (decim ≤ 16) || (decide (0x80 ≤ decim) && decide (decim ≤ 0x87)) || isScs decim)

/-- R219: a slot path of a running DAS fibre belongs to Korsyn. -/
def slotHeld (path : Nat) (s : State) : Bool := isSlotPath path && dasRuns ((path - 16) / 16) s

/-- The writes a member command's bunch holds, staged ones included. -/
def bunchPeers (x : Ctx) (s : State) : List Write := if x.inBunch then bunchWritesOf x.bunchId s else []

/-- DDC.SET (R107, R108, R112; a slot path of a running DAS fibre gives REASON 10 whatever else is wrong, R219). -/
def ddcSet : Cmd → State → State :=
  clashCommand 0x0701 (.free)
    (fun x s _ =>
      if isPath x.unit && slotHeld x.unit s then []
      else [(10, !isPath x.unit), (16, decide (2 ^ 47 < x.u64 16 % 2 ^ 48)), 
        (33, decide (8 < x.u8 33)), (34, decide (1 < x.u8 34))] ++ reservedBits x.e 16 8 (2 ^ 48 - 1) ++
        reservedBits x.e 24 8 (2 ^ 48 - 1) ++ reserved x.e 35 64)
    (fun x s _ => if slotHeld x.unit s then [(10, true)] else [(32, badDecim x.unit (x.u8 32) s)])
    (fun x s => pathAbsent x.unit s) neverBusy
    (fun x _ => [member x 2 x.unit 1 (.ddcSet x.unit (x.u64 16) (x.u64 24) (x.u8 32) (x.u8 33) (x.u8 34 == 1))]) noResult

/-- DDC.SET_DETECT (R124, R125): a ring needs 2^w x P of at least 65,536 tk. -/
def ddcSetDetect : Cmd → State → State :=
  clashCommand 0x0702 (.free)
    (fun x _ _ => [(10, !isPath x.unit), (16, decide (20 < x.u8 16)), (17, decide (16 < x.u8 17))] ++
      reservedBits x.e 18 1 7 ++ reserved x.e 19 20 ++ reserved x.e 22 64)
    (fun x s plan =>
      let fast := decide (2 ^ x.u8 16 * outPeriod x.unit (getDdc x.unit plan).decim < 65536)
      [(16, x.u16 20 != 0xFFFF && fast), (20, badRing (x.u16 20) s)])
    (fun x s => pathAbsent x.unit s) neverBusy
    (fun x _ => [member x 2 x.unit 1 (.ddcDetect x.unit (x.u8 16) (x.u8 17) (x.u8 18) (x.u16 20))]) noResult

/-- R110, R113, R119, R122: an output group is due on an enabled path whose channel delivers once its last output leaves. -/
def groupDue (path : Nat) (s : State) : Bool :=
  let c := chainOut (getDdc path s)
  pathRuns path s && planeRuns s &&
    decide (c.nextGroup.toNat + 63 * outPeriod path c.decim + outDelay path c.decim ≤ s.dt.toNat)

def execDdcSet (c : Cmd) (s : State) : Out := .next (ddcSet c s)
def execDdcSetDetect (c : Cmd) (s : State) : Out := .next (ddcSetDetect c s)

/-- DDC_OUTPUT_GROUP (R113): the group reaches the captures and the detectors; pips and VDIF take it from the path. -/
def execDdcOutputGroup (t : DT) (path : Nat) (_ : Unit) (s : State) : Out :=
  let s := settle (· == .group) (advance t s)
  .next (if groupDue path s then groupOut path (capDdcGroup path s) else s)

/-- DETECTOR_WINDOW_END (R124): the outputs of the window are all in. -/
def execDetectorWindowEnd (t : DT) (path : Nat) (s : State) : Out :=
  let s := advance t s
  let d := getDdc path s
  .next (if d.enable = true ∧ d.detEnable ≠ 0 ∧ windowOutputs d ≤ d.detQueue.length then detectorEnd path s else s)

end Sys2Proof.Machine
end

