-- ==== Sys2Proof/Machine/Pips.lean ====
section
/-! DEFINITION. Commands and events of the spectral tiles and the trace detectors (07_spectral_tiles.md,
08_bloom_and_traces.md R165 to R168). -/

namespace Sys2Proof.Machine

/-- A FIRST_BIN field: all ones select the span bins (R128). -/
def optBin (x : Ctx) (off : Nat) : Option Nat := if x.u32 off = 0xFFFFFFFF then none else some (x.u32 off)

/-- R162, R168: whether the same bunch has set a map or a trace anew. -/
def mapAnew (m : Nat) (ws : List Write) : Bool := ws.any fun w => match w with
  | .bloomSet k _ => k == m
  | _ => false
def traceAnew (p i : Nat) (ws : List Write) : Bool := ws.any fun w => match w with
  | .specTrace q j _ => q == p && j == i
  | _ => false

/-- R162, R168, R175: a mask or change log of a personality that a new N would break, or a map or trace that the same bunch does
not set anew. -/
def brokenByN (p n : Nat) (peers : List Write) (plan : State) : Bool :=
  ((mapsOf p plan).any fun m =>
    let c := (getBloom m plan).cfg
    !mapAnew m peers && !binsFit n c.firstBin (c.columns * c.bpc)) ||
  ([0, 1, 2, 3].any fun i =>
    let c := (tget {} (getSpec p plan).traces i).cfg
    c.detector != 0 && !traceAnew p i peers && !binsFit n c.firstBin (c.points * c.bpp)) ||
  ([0, 1, 2, 3].any fun i => match tget none (getTrig p plan).masks i with
    | some m => !binsFit n m.cfg.firstBin (m.cfg.points * m.cfg.bpp)
    | none => false) ||
  (match (getTrig p plan).log with
   | some l => !binsFit n l.cfg.firstBin (l.cfg.points * l.cfg.bpp)
   | none => false)

/-! ## PIP commands (R148, R20) -/

/-- R148, R162, R175: a start that sets N to its start value breaks a geometry. -/
def startBreaks (x : Ctx) (s plan : State) : Bool :=
  let peers := bunchPeers x s
  let sets := peers.any fun w => match w with
    | .specFft p _ => p == x.unit
    | _ => false
  x.u8 16 == 1 && !(getSpec x.unit plan).running && !sets && !(getSpec x.unit s).keepFft &&
    (getSpec x.unit plan).fft.log2N != fftStart.log2N && brokenByN x.unit (frameLen fftStart) peers plan

/-- PIP.ASSIGN: RESULT is the pips assigned, or 0 for a stop; a channel that has left RF_MASK (R97) starts no more
(DEDUCED, unsafe: log 41). A start whose N breaks a geometry is judged as a change of N (DESIGN CHOICE, unsafe: log 84). -/
def pipAssign : Cmd → State → State :=
  clashCommand 0x0801 (.below 4) (fun x _ _ => (16, decide (1 < x.u8 16)) :: reserved x.e 17 64)
    (fun x s plan => [(16, startBreaks x s plan)])
    (fun x s => !rfPresent x.unit s || (x.u8 16 == 1 && !rfHealthy x.unit s)) neverBusy
    (fun x _ => [member x 3 x.unit 1 (if x.u8 16 = 1 then .pipStart x.unit else .pipStop x.unit)])
    (fun x plan => if x.u8 16 = 1 then pipsNeeded x.unit plan else 0)

/-- PIP.SET_SPARES: refused with PIP_BUDGET when the running configuration would not leave S spares (R20); the descriptor
shows S (R48). -/
def pipSetSpares : Cmd → State → State :=
  plainCommand 0x0802 .none (fun x _ => (16, decide (x.u8 16 < 2) || decide (8 < x.u8 16)) :: reserved x.e 17 64) fun x s =>
    let s' := { s with health := { s.health with spares := x.u8 16 } }
    if pipsHealthy s < pipsInUse s + x.u8 16 then fail x.ref stRefused 1 s else ok x.ref 0 (rewriteCaps s')

/-- The code of a unit's state (R148, R274). -/
def unitCode : UnitState → Nat
  | .off => 0
  | .spare => 1
  | .assigned => 2
  | .inTest => 3
  | .relieving => 4
  | .retired => 5

/-- State and personality of a pip in one byte. -/
def pipByte (n : Nat) (s : State) : Byte :=
  if pipPresent n s then BitVec.ofNat 8 (16 * unitCode (getPip n s).state + (getPip n s).personality % 16)
  else BitVec.ofNat 8 (16 * 6 + 0xF)

/-- PIP.STATUS. -/
def pipStatus : Cmd → State → State :=
  statusCommand 0x0803 .none (fun _ _ => false) (fun _ s =>
    ((List.range 36).map fun n => pipByte n s) ++ leBytes 1 s.health.spares ++ leBytes 1 (pipsHealthy s) ++ leBytes 26 0)

/-! ## SPEC commands (Tables 7-6, 8-5) -/

/-- The settings of a SPEC.SET_FFT entry. -/
def fftOf (x : Ctx) : FftCfg :=
  { log2N := x.u8 16, overlap := x.u8 17, exclude := x.u16 18, avg := x.u32 20
    bins := (optBin x 24).map fun f => (f, x.u32 28), ring := x.u16 32 }

/-- A spectrum ring needs entries of at least 64 bytes (R148). -/
def thinRing (n : Nat) (s : State) : Bool := n != 0xFFFF && decide ((getRing n s).entrySize < 64)

def specSetFft : Cmd → State → State :=
  clashCommand 0x0901 (.below 4)
    (fun x _ _ =>
      let n := 2 ^ x.u8 16
      [(16, decide (x.u8 16 < 10) || decide (16 < x.u8 16) ||
          ((optBin x 24).isSome && (decide (n ≤ x.u32 24) || x.u32 28 == 0 || decide (n < x.u32 24 + x.u32 28)))),
       (17, decide (3 < x.u8 17)), (20, decide (x.u32 20 = 0) || decide (16777216 < x.u32 20)),
       (28, (optBin x 24).isSome && decide (x.u32 28 = 0))] ++ reserved x.e 34 64)
    (fun x s plan => [(16, (getSpec x.unit plan).fft.log2N != x.u8 16 && brokenByN x.unit (2 ^ x.u8 16) (bunchPeers x s) plan),
       (32, badRing (x.u16 32) s || thinRing (x.u16 32) s)])
    (fun x s => !rfPresent x.unit s) neverBusy (fun x _ => [member x 3 x.unit 1 (.specFft x.unit (fftOf x))]) noResult

def specSetWindow : Cmd → State → State :=
  memberCommand 0x0902 (.below 4) (fun x _ _ => (16, decide (4 < x.u8 16)) :: reserved x.e 17 64)
    (fun x s => !rfPresent x.unit s) neverBusy (fun x _ => [member x 3 x.unit 1 (.specWindow x.unit (x.u8 16))]) noResult

/-- The settings of a SPEC.SET_TRACE entry. -/
def traceOf (x : Ctx) : TraceCfg :=
  { detector := x.u8 17, bpp := x.u8 18, hold := x.u8 19 == 1, firstBin := optBin x 20, points := x.u16 24
    exclude := x.u16 26, interval := x.u32 28, ring := x.u16 32 }

/-- R182: POINTS of a trace under a limit test changes and the same bunch does not reload the limit lines. -/
def limitStale (x : Ctx) (s plan : State) : Bool :=
  match (getTrig x.unit plan).limit with
  | some l => l.trace == x.u8 16 && (tget {} (getSpec x.unit plan).traces (x.u8 16)).cfg.points != x.u16 24 &&
      !((bunchPeers x s).any fun w => match w with
        | .trigLimit q _ => q == x.unit
        | _ => false)
  | none => false

def specSetTrace : Cmd → State → State :=
  clashCommand 0x0903 (.below 4)
    (fun x _ _ =>
      [(16, decide (3 < x.u8 16)), (17, decide (7 < x.u8 17) || (x.u8 19 == 1 && decide (2 < x.u8 17))),
       (18, decide (x.u8 18 = 0) || decide (64 < x.u8 18)),
       (19, decide (1 < x.u8 19)),
       (24, decide (x.u16 24 = 0) || decide (8192 < x.u16 24)),
       (28, decide (x.u32 28 = 0) || decide (16777216 < x.u32 28))] ++ reserved x.e 34 64)
    (fun x s plan =>
      let n := frameLen (getSpec x.unit plan).fft
      let count := x.u16 24 * x.u8 18
      [(18, !binsFit n (optBin x 20) count && !(x.inBunch && fitsSome (optBin x 20) count)), (24, limitStale x s plan), (32, badRing (x.u16 32) s)])
    (fun x s => !rfPresent x.unit s) neverBusy
    (fun x _ => [member x 5 x.unit 1 (.specTrace x.unit (x.u8 16) (traceOf x))]) noResult

/-! ## Events -/

/-- R132, R144: a pip hands over a frame that is complete, with what the errors of the pip made of its bins: it leaves in its turn,
behind one that is being recomputed, or the Parseval check finds the pip at fault. -/
def frameDone (p : Nat) (upset : List (Int × Int)) (s : State) : State :=
  let x := getSpec p s
  let m := nextDealt (x.missing ++ x.lost) 64 x.completed
  if framesRun p s && planeRuns s && frameComplete p m s then
    let pip := pipOf x m
    let s := modSpec p (fun x => { x with completed := m + 1 }) s
    if parsevalFails (frameDataOf p m upset s) then
      pipFaulted pip 1 (modSpec p (fun x => { x with missing := x.missing ++ [m] }) s)
    else modSpec p (fun x => { x with waiting := x.waiting ++ [(m, pip, 0, upset)] }) s
  else s

def execPipAssign (c : Cmd) (s : State) : Out := .next (pipAssign c s)
def execPipSetSpares (c : Cmd) (s : State) : Out := .next (pipSetSpares c s)
def execPipStatus (c : Cmd) (s : State) : Out := .next (pipStatus c s)
def execSpecSetFft (c : Cmd) (s : State) : Out := .next (specSetFft c s)
def execSpecSetWindow (c : Cmd) (s : State) : Out := .next (specSetWindow c s)
def execSpecSetTrace (c : Cmd) (s : State) : Out := .next (specSetTrace c s)

/-- PIP_FRAME_DONE (R132, R133): the frames that can leave do, each after what lands before it. -/
def execPipFrameDone (t : DT) (personality : Nat) (upset : List (Int × Int)) (s : State) : Out :=
  .next (if personality < 4 then pump personality (frameDone personality upset (pump personality (advance t s))) else advance t s)

/-- AVERAGING_BLOCK_END (R139): the block has its V frames. -/
def execAveragingBlockEnd (t : DT) (personality : Nat) (s : State) : Out :=
  let s := advance t s
  .next (if averageDue (getSpec personality s) then averageEnd personality s else s)

/-- TRACE_BLOCK_END (R166): the block has its INTERVAL frames. -/
def execTraceBlockEnd (t : DT) (personality trace : Nat) (s : State) : Out :=
  let s := advance t s
  let x := getSpec personality s
  .next (if traceDue x (tget {} x.traces trace) then traceEnd personality trace s else s)

/-- PIP_FAULT (R144): ECC, test or watchdog, on a pip that is there and not retired. -/
def execPipFault (t : DT) (pip cause : Nat) (s : State) : Out :=
  let s := advance t s
  .next (if pipHealthy pip s = true ∧ 1 ≤ cause ∧ cause ≤ 4 then pipFaulted pip cause s else s)

/-- PIP_RECOMPUTE_DONE (R144): the frames it held back leave with it. -/
def execPipRecomputeDone (t : DT) (pip : Nat) (poisoned : Bool) (_ : Unit) (s : State) : Out :=
  .next (each [0, 1, 2, 3] pump (pipRepaired pip poisoned (advance t s)))

end Sys2Proof.Machine
end

