-- ==== Sys2Proof/Machine/BloomUnit.lean ====
section
/-! DEFINITION. Commands and events of the bloom (08_bloom_and_traces.md R150 to R164). -/

namespace Sys2Proof.Machine

/-- BLOOM.SET names a release. -/
def isRelease (x : Ctx) : Bool := x.u8 16 == 0xFF

/-- The settings of a BLOOM.SET entry (Table 8-2). -/
def bloomOf (x : Ctx) : BloomCfg :=
  { personality := x.u8 16, bpc := x.u8 17, columns := x.u16 18, rows := x.u16 20, rowTop := x.i16 22, rowStep := x.u16 24
    exclude := x.u16 26, firstBin := optBin x 28, decayK := x.u32 32, gain := x.u16 36
    keepOnChange := bit (x.u8 38) 0, snapRing := x.u16 40, snapSpectra := x.u32 44 }

/-- R150: blocks of the other maps that will exist; a staged release frees nothing before it lands. -/
def blocksPlanned (m : Nat) (s plan : State) : Nat :=
  (((List.range 4).filter (· != m)).map fun k =>
    let of := fun (s : State) => if (getBloom k s).set then mapBlocks (getBloom k s).cfg else 0
    if (getBloom k plan).set then of plan else of s).sum

def bloomSet : Cmd → State → State :=
  clashCommand 0x0A01 (.below 4)
    (fun x _ _ =>
      let fields : Checks := if isRelease x then [] else
        [(16, decide (3 < x.u8 16)), (17, decide (x.u8 17 = 0) || decide (64 < x.u8 17)),
         (18, decide (x.u16 18 = 0) || decide (8192 < x.u16 18)), (20, decide (x.u16 20 = 0) || decide (4096 < x.u16 20)),
         (24, decide (x.u16 24 = 0) || decide (256 < x.u16 24)), (32, decide (16777215 < x.u32 32)),
         (36, x.u32 32 != 0 && x.u16 36 == 0)] ++ reservedBits x.e 38 1 1
      fields ++ reserved x.e 39 40 ++ reserved x.e 42 44 ++ reserved x.e 48 64)
    (fun x s plan =>
      let n := frameLen (getSpec (x.u8 16) plan).fft
      let count := x.u16 18 * x.u8 17
      if isRelease x then [] else [(17, !binsFit n (optBin x 28) count && !(x.inBunch && fitsSome (optBin x 28) count)),
        (40, badRing (x.u16 40) s)])
    (fun x s => !isRelease x && !rfPresent (x.u8 16) s)
    (fun x s plan => !isRelease x && decide (512 < mapBlocks (bloomOf x) + blocksPlanned x.unit s plan))
    (fun x _ => [member x 4 x.unit 1 (if isRelease x then .bloomRelease x.unit else .bloomSet x.unit (bloomOf x))]) noResult

/-- The map exists, or an earlier member of the same bunch sets it. -/
def noMap (x : Ctx) (plan : State) : Bool := !(getBloom x.unit plan).set

def bloomClear : Cmd → State → State :=
  memberCommand 0x0A02 (.below 4) (fun x _ plan => (10, noMap x plan) :: reserved x.e 16 64)
    (fun _ _ => false) neverBusy (fun x _ => [member x 4 x.unit 1 (.bloomClear x.unit)]) noResult

/-- R163: a clear of a map falls due at the spectrum boundary that stands now. -/
def clearFollows (k : Nat) (s : State) : Bool :=
  let p := (getBloom k s).cfg.personality
  let next := match (getSpec p s).queue with
    | q :: _ => q.2.dt
    | [] => dtAdd 0 (frameStart p (getSpec p s).frame s)
  clearsDue next (getBloom k s) != []

/-- R164, R161: a snapshot without READ_CLEAR is taken at the boundary that stands now, after a decay that is due; it
is no bunch member. -/
def bloomReadNow (x : Ctx) (s : State) : State :=
  let wrong : Checks := [(10, !(getBloom x.unit s).set)] ++ reserved x.e 25 64
  match badOffset (envelope false (.below 4) x ++ wrong) with
  | some off => fail x.ref stBadArg off s
  | none =>
    let s := modBloom x.unit settleDecay s
    ok x.ref (snapshotLen (getBloom x.unit s).cfg) (toHost (x.u64 16) (snapshotBytes x.unit (clearFollows x.unit s) s) s)

/-- BLOOM.READ with READ_CLEAR = 1 is a member. -/
def bloomReadClear : Cmd → State → State :=
  memberCommand 0x0A03 (.below 4)
    (fun x _ plan => [(10, noMap x plan), (24, decide (1 < x.u8 24))] ++ reserved x.e 25 64) (fun _ _ => false) neverBusy
    (fun x _ => [member x 4 x.unit 1 (.bloomReadClear x.unit (x.u64 16))])
    (fun x plan => snapshotLen (getBloom x.unit plan).cfg)

/-- BLOOM.READ (R164): READ_CLEAR decides whether it is a member. (DEDUCED, unsafe: log 17.) -/
def bloomRead (c : Cmd) (s : State) : State :=
  if fld c.entry 24 1 = 0 then takeCommand 0x0A03 bloomReadNow c s else bloomReadClear c s

/-- R155: a member of a map of the personality still has to land before spectra from its point on are counted. With an anchor
unit of which the boundaries are frames, T may be the start of one that has come already. -/
def bloomMemberDue (p : Nat) (dt : DT) (s : State) : Bool :=
  let open_ := fun (b : Bunch) => match b.anchor with
    | none => true
    | some c => decide (3 ≤ c.cls) && decide (c.cls ≤ 6)
  s.bunch.table.any fun b => (b.2.state == .armed || b.2.state == .landing) && open_ b.2 && dtLe b.2.point dt &&
    b.2.members.any fun m => !m.landed && (match m.write with
      | .bloomSet k _ | .bloomRelease k | .bloomClear k | .bloomReadClear k _ => (mapsOf p s).contains k
      | _ => false)

/-- R155, R160, R161: the oldest waiting spectrum of a personality may be counted: no decay pass runs on one of its maps, and all
that is due at this boundary is done. -/
def bloomReady (p : Nat) (s : State) : Bool :=
  match (getSpec p s).queue with
  | q :: _ => !((mapsOf p s).any fun k => (getBloom k s).decaying || snapshotDue (getBloom k s)) && !bloomMemberDue p q.2.dt s
  | [] => false

/-- R156: the personalities that the bloom has not served in the running pass, of those that are ready; a pass goes up through
them (DESIGN CHOICE, unsafe: log 71). -/
def bloomFresh (s : State) : List Nat := [0, 1, 2, 3].filter fun q => bloomReady q s && !(getSpec q s).served

/-- R156: it is a personality's turn. -/
def bloomTurn (p : Nat) (s : State) : Bool :=
  if bloomFresh s = [] then [0, 1, 2, 3].find? (bloomReady · s) == some p else (bloomFresh s).head? == some p

/-- R153, R156: the oldest waiting spectrum of a personality reaches each of its maps. -/
def bloomServe (p : Nat) (s : State) : State :=
  let s := if bloomFresh s = [] then each [0, 1, 2, 3] (fun q => modSpec q (fun x => { x with served := false })) s else s
  match (getSpec p s).queue with
  | q :: rest => each (mapsOf p s) (fun k => mapIngest k q.2 (Nat.log2 q.2.levels.length))
      (modSpec p (fun x => { x with queue := rest, served := true }) s)
  | [] => s

def execBloomSet (c : Cmd) (s : State) : Out := .next (bloomSet c s)
def execBloomClear (c : Cmd) (s : State) : Out := .next (bloomClear c s)
def execBloomRead (c : Cmd) (s : State) : Out := .next (bloomRead c s)

/-- BLOOM_INGEST (R153 to R161): what lands at the boundary does; then the bloom serves the personality if it is its turn. -/
def execBloomIngest (t : DT) (personality : Nat) (s : State) : Out :=
  let s := settle (· == .spectrum personality) (advance t s)
  .next (if bloomTurn personality s then bloomServe personality s else s)

/-- BLOOM_DECAY (R159): the decay due after the preceding spectrum. -/
def execBloomDecay (t : DT) (map : Nat) (s : State) : Out := .next (modBloom map settleDecay (advance t s))

/-- DECAY_PASS_DONE (R160): the map accepts spectra again. -/
def execDecayPassDone (t : DT) (map : Nat) (s : State) : Out :=
  let s := advance t s
  .next (if (getBloom map s).decaying = true ∧ (getBloom map s).owed = false then
    modBloom map (fun m => { m with decaying := false }) s else s)

/-- BLOOM_SNAPSHOT (R161, R164): a periodic snapshot, after a decay due at the same boundary, and before a clear. -/
def execBloomSnapshot (t : DT) (map : Nat) (s : State) : Out :=
  let s := advance t s
  let s := settle (· == .spectrum (getBloom map s).cfg.personality) s
  .next (if snapshotDue (getBloom map s) then mapBoundary map (clearFollows map s) s else s)

end Sys2Proof.Machine
end

