-- ==== Sys2Proof/Machine/Crypto.lean ====
section
/-! DEFINITION. The digest and the signature check of the stone domain (R38, R378): SHA-384 of FIPS 180-4 and ECDSA P-384 of
FIPS 186-5, which the spec names and does not repeat (PRESUMED, unsafe: log 10). -/

namespace Sys2Proof.Machine

/-! ## SHA-384 -/

/-- The primes below a bound of at most 441, none of which has a least factor above 20. -/
def primesBelow (n : Nat) : List Nat :=
  (List.range n).filter fun p => decide (2 ≤ p) && (List.range (min p 21)).all fun d => d < 2 || p % d != 0

/-- Largest r with r^3 at most v, bit by bit from bit n down. -/
def cubeBits (v : Nat) : Nat → Nat → Nat
  | 0, r => if (r + 1) ^ 3 ≤ v then r + 1 else r
  | n + 1, r => cubeBits v n (if (r + 2 ^ (n + 1)) ^ 3 ≤ v then r + 2 ^ (n + 1) else r)

/-- 64-bit addition. -/
def add64 (xs : List Nat) : Nat := xs.sum % 2 ^ 64

/-- Rotation of a 64-bit word to the right. -/
def rotr64 (n x : Nat) : Nat := (x >>> n) ||| (x <<< (64 - n) % 2 ^ 64)

/-- The round constants: the fractions of the cube roots of the first 80 primes. -/
def shaConstants : List Nat := (primesBelow 410).map fun p => cubeBits (p * 2 ^ 192) 67 0 % 2 ^ 64

/-- The initial value: the fractions of the square roots of the ninth to the sixteenth prime. -/
def shaStart : List Nat := ((primesBelow 54).drop 8).map fun p => isqrt (p * 2 ^ 128) % 2 ^ 64

/-- Big-endian number of bytes. -/
def beNat (bs : List Byte) : Nat := bs.foldl (fun v b => 256 * v + b.toNat) 0

/-- The low n bytes of a number, most significant first. -/
def beBytes (n v : Nat) : List Byte := (leBytes n v).reverse

/-- The message with its padding: 0x80, zeros, the length in bits in 16 bytes. -/
def shaPad (bs : List Byte) : List Byte :=
  bs ++ [(0x80 : Byte)] ++ List.replicate ((240 - (bs.length + 1) % 128) % 128) 0 ++ beBytes 16 (8 * bs.length)

/-- Consecutive groups of k, so many of them. -/
def groupsOf {α : Type} (k : Nat) : Nat → List α → List (List α)
  | 0, _ => []
  | n + 1, xs => xs.take k :: groupsOf k n (xs.drop k)

/-- The next n words of the message schedule, newest first. -/
def shaSchedule : Nat → List Nat → List Nat
  | 0, w => w
  | n + 1, w =>
    let a := w.getD 14 0
    let b := w.getD 1 0
    let s0 := rotr64 1 a ^^^ rotr64 8 a ^^^ a >>> 7
    let s1 := rotr64 19 b ^^^ rotr64 61 b ^^^ b >>> 6
    shaSchedule n (add64 [s1, w.getD 6 0, s0, w.getD 15 0] :: w)

/-- One round on the eight working words. -/
def shaRound (v : List Nat) (kw : Nat × Nat) : List Nat :=
  match v with
  | [a, b, c, d, e, f, g, h] =>
    let s1 := rotr64 14 e ^^^ rotr64 18 e ^^^ rotr64 41 e
    let ch := (e &&& f) ^^^ ((2 ^ 64 - 1 - e) &&& g)
    let t1 := add64 [h, s1, ch, kw.1, kw.2]
    let s0 := rotr64 28 a ^^^ rotr64 34 a ^^^ rotr64 39 a
    let maj := (a &&& b) ^^^ (a &&& c) ^^^ (b &&& c)
    [add64 [t1, s0, maj], a, b, c, add64 [d, t1], e, f, g]
  | _ => v

/-- One block of 128 bytes. -/
def shaBlock (h : List Nat) (block : List Byte) : List Nat :=
  let w := (shaSchedule 64 ((groupsOf 8 16 block).map beNat).reverse).reverse
  h.zipWith (fun x y => add64 [x, y]) ((shaConstants.zip w).foldl shaRound h)

/-- The digest as a 384-bit number. -/
def sha384 (bs : List Byte) : Nat :=
  let m := shaPad bs
  ((groupsOf 128 (m.length / 128) m).foldl shaBlock shaStart).take 6 |>.foldl (fun v x => 2 ^ 64 * v + x) 0

/-! ## ECDSA P-384 -/

/-- The field, the order of the group, and the curve's coefficient b (its a is -3). -/
def curveP : Nat := 2 ^ 384 - 2 ^ 128 - 2 ^ 96 + 2 ^ 32 - 1
def curveN : Nat := 0xffffffffffffffffffffffffffffffffffffffffffffffffc7634d81f4372ddf581a0db248b0a77aecec196accc52973
def curveB : Nat := 0xb3312fa7e23ee7e4988e056be3f82d19181d9c6efe8141120314088f5013875ac656398d8a2ed19d2a85c8edd3ec2aef

/-- The base point. -/
def curveG : Nat × Nat :=
  (0xaa87ca22be8b05378eb1c71ef320ad746e1d3b628ba79b9859f741e082542a385502f25dbf55296c3a545e3872760ab7,
   0x3617de4a96262c6f5d9e98bf9292dc29f8f41dbd289a147ce9da3113b5f0b8c00a60b1ce1d7e819d7a431d7c90ea0e5f)

/-- x^e modulo m over the low n bits of e. -/
def powMod (m x e n : Nat) : Nat :=
  ((List.range n).reverse.foldl (fun v i => let v := v * v % m; if e.testBit i then v * x % m else v) (1 % m))

/-- The inverse modulo a prime of 384 bits. -/
def invMod (m x : Nat) : Nat := powMod m x (m - 2) 384

/-- A point: none is the point at infinity. -/
abbrev Point := Option (Nat × Nat)

/-- The third point of a line of a slope through two points, mirrored. -/
def linePoint (slope : Nat) (a b : Nat × Nat) : Point :=
  let x := (slope * slope + 2 * curveP - a.1 - b.1) % curveP
  some (x, (slope * (a.1 + curveP - x) + curveP - a.2) % curveP)

/-- The group's addition. -/
def pointAdd : Point → Point → Point
  | none, q => q
  | p, none => p
  | some a, some b =>
    if a.1 = b.1 then
      if (a.2 + b.2) % curveP = 0 then none
      else linePoint ((3 * (a.1 * a.1 % curveP) + curveP - 3) * invMod curveP (2 * a.2 % curveP) % curveP) a a
    else linePoint ((b.2 + curveP - a.2) * invMod curveP ((b.1 + curveP - a.1) % curveP) % curveP) a b

/-- A point so many times. -/
def pointMul (k : Nat) (p : Point) : Point :=
  (List.range 384).reverse.foldl (fun q i => let q := pointAdd q q; if k.testBit i then pointAdd q p else q) none

/-- A public key of 97 bytes, 0x04 and the coordinates: a point of the curve. -/
def keyPoint (pub : List Byte) : Point :=
  let x := beNat ((pub.drop 1).take 48)
  let y := beNat ((pub.drop 49).take 48)
  if pub.length = 97 ∧ pub.getD 0 0 = 4 ∧ x < curveP ∧ y < curveP ∧ y * y % curveP = (x * x * x + curveB + curveP * curveP - 3 * x) % curveP then
    some (x, y)
  else none

/-- The signature r, s of 48 bytes each, big-endian, verifies for a digest under a public key. -/
def signatureGood (pub : List Byte) (digest : Nat) (signature : List Byte) : Bool :=
  let r := beNat (signature.take 48)
  let s := beNat ((signature.drop 48).take 48)
  let w := invMod curveN s
  match keyPoint pub with
  | none => false
  | some q =>
    decide (0 < r) && decide (r < curveN) && decide (0 < s) && decide (s < curveN) &&
      match pointAdd (pointMul (digest * w % curveN) (some curveG)) (pointMul (r * w % curveN) (some q)) with
      | none => false
      | some v => v.1 % curveN == r

end Sys2Proof.Machine
end

