-- ==== Sys2Proof/Machine/TriggerUnit.lean ====
section
/-! DEFINITION. Commands and events of the trigger units, the sequencer and the two logs (09_trigger_and_capture.md,
R169 to R183, R194 to R196). -/

namespace Sys2Proof.Machine

/-! ## What TRIG commands share -/

/-- R3: the channel or the fibre of a personality is there. -/
def persAbsent (p : Nat) (s : State) : Bool := if p < 4 then !rfPresent p s else !fibrePresent (p - 4) s

/-- A member of a trigger unit's claim (class 0x06). -/
def trigMember (x : Ctx) (w : Write) : List Member := [member x 6 x.unit 1 w]

/-! ## Conditions -/

/-- R169: masks, limits and change logs exist for RF personalities only: REASON is the offset of UNIT. -/
def trigSetMask : Cmd → State → State :=
  clashCommand 0x0B01 (.below 4)
    (fun x _ _ =>
      [(16, decide (3 < x.u8 16)), (17, decide (1 < x.u8 17)),
       (18, decide (x.u8 18 = 0) || decide (64 < x.u8 18)), (19, decide (1 < x.u8 19)), (24, decide (x.u16 24 = 0) || decide (8192 < x.u16 24) || decide (x.u16 24 < x.u16 26)),
       (26, decide (x.u16 26 = 0)), (28, decide (2047 < x.u16 28)), (30, decide (x.u16 30 = 0))] ++
        reserved x.e 34 40 ++ reserved x.e 48 64)
    (fun x _ plan => [(18, !binsFit (frameLen (getSpec x.unit plan).fft) (optBin x 20) (x.u16 24 * x.u8 18))])
    (fun x s => persAbsent x.unit s) neverBusy
    (fun x s => trigMember x (.trigMask x.unit (x.u8 16)
      { below := x.u8 17 == 1, bpp := x.u8 18, enable := x.u8 19 == 1, firstBin := optBin x 20, points := x.u16 24
        minPoints := x.u16 26, hyst := x.u16 28, minSpectra := x.u16 30, ignore := x.u16 32
        levels := readI16s s.host (x.u64 40) (x.u16 24) })) noResult

/-- The path belongs to the personality (R14, R122, R176). -/
def ownPath (p path : Nat) : Bool := isPath path && pathOwner path == p

def trigSetTd : Cmd → State → State :=
  memberCommand 0x0B02 (.below 6)
    (fun x _ _ => [(16, decide (2 < x.u8 16)), (17, decide (1 < x.u8 17)), (18, decide (1 < x.u8 18)),
      (20, !ownPath x.unit (x.u16 20)), (24, decide (2047 < x.u16 24)), (26, decide (x.u16 26 = 0))] ++ reserved x.e 28 64)
    (fun x s => persAbsent x.unit s) neverBusy
    (fun x _ => trigMember x (.trigTd x.unit
      { detector := x.u8 16, below := x.u8 17 == 1, enable := x.u8 18 == 1, ignore := x.u8 19, path := x.u16 20
        level := x.i16 22, hyst := x.u16 24, minWindows := x.u16 26 })) noResult

/-- Instances of an event class (Table 9-1). -/
def sourceCount (cls : Nat) : Nat := ([0, 16, 6, 4, 2, 2, 6, 4] : List Nat).getD cls 0

/-- A field that holds no source code of Table 9-1 and is not 0xFFFF. (DEDUCED, unsafe: log 69.) -/
def badSource (code : Nat) : Bool := code != 0xFFFF && decide (sourceCount (code / 256) ≤ code % 256)

/-- A step entry at a host address (Table 9-3). -/
def stepAt (m : Mem) (a : Nat) : StepCfg :=
  { inputs := readLe m a 1, all := readLe m (a + 1) 1 == 1, reset := readLe m (a + 2) 1, count := readLe m (a + 4) 2
    window := readLe m (a + 8) 8, timeout := readLe m (a + 16) 8, delay := readLe m (a + 24) 8 }

/-- A step entry that breaks Table 9-3. -/
def badStep (m : Mem) (a : Nat) : Bool :=
  decide (1 < readLe m (a + 1) 1) || readLe m (a + 3) 1 != 0 || readLe m (a + 4) 2 == 0 || readLe m (a + 6) 2 != 0

def trigSetSeq : Cmd → State → State :=
  clashCommand 0x0B03 (.below 6)
    (fun x _ _ =>
      [(16, decide (8 < x.u8 16)), (17, decide (1 < x.u8 17)), (18, decide (1 < x.u8 18))] ++
      ((List.range 8).map fun i => (32, badSource (x.u16 (32 + 2 * i)))) ++
      reserved x.e 19 24 ++ reserved x.e 56 64)
    (fun x s _ => [(48, decide (x.u8 16 ≤ 8) && (List.range (x.u8 16)).any fun i => badStep s.host (x.u64 48 + 32 * i))])
    (fun x s => persAbsent x.unit s) neverBusy
    (fun x s => trigMember x (.trigSeq x.unit
      { steps := (List.range (x.u8 16)).map fun i => stepAt s.host (x.u64 48 + 32 * i)
        continuous := x.u8 17 == 1, arm := x.u8 18 == 1, holdoff := x.u64 24
        inputs := (List.range 8).map fun i => x.u16 (32 + 2 * i) })) noResult

/-- Points a trace can have (R165): so many values of each line are taken up. -/
def traceMax : Nat := 8192

def trigSetLimit : Cmd → State → State :=
  memberCommand 0x0B04 (.below 4)
    (fun x _ _ => [(16, decide (3 < x.u8 16)), (17, decide (1 < x.u8 17)), (18, decide (1 < x.u8 18))] ++
      reserved x.e 19 20 ++ reserved x.e 40 64)
    (fun x s => persAbsent x.unit s) neverBusy
    (fun x s => trigMember x (.trigLimit x.unit
      { trace := x.u8 16, stop := x.u8 17 == 1, enable := x.u8 18 == 1, stopCaps := x.u16 20, ignore := x.u16 22
        upper := readI16s s.host (x.u64 24) traceMax, lower := readI16s s.host (x.u64 32) traceMax })) noResult

def trigLimitResume : Cmd → State → State :=
  memberCommand 0x0B05 (.below 4) (fun x _ _ => reserved x.e 16 64) (fun x s => persAbsent x.unit s) neverBusy
    (fun x _ => trigMember x (.limitResume x.unit)) noResult

def trigSetLog : Cmd → State → State :=
  clashCommand 0x0B06 (.below 4)
    (fun x _ _ =>
      [(16, decide (1 < x.u8 16)),
       (17, decide (x.u8 17 = 0) || decide (64 < x.u8 17)),
       (18, decide (32767 < x.u16 18)), (24, decide (x.u16 24 = 0) || decide (8192 < x.u16 24))] ++ reserved x.e 34 36 ++ reserved x.e 44 64)
    (fun x s plan => [(17, !binsFit (frameLen (getSpec x.unit plan).fft) (optBin x 20) (x.u16 24 * x.u8 17)),
       (32, notDataRing (x.u16 32) s)])
    (fun x s => persAbsent x.unit s) neverBusy
    (fun x _ => trigMember x (.trigLog x.unit
      { enable := x.u8 16 == 1, bpp := x.u8 17, thresh := x.u16 18, firstBin := optBin x 20, points := x.u16 24
        ignore := x.u16 26, keyframe := x.u32 28, ring := x.u16 32, maxRate := x.u64 36 })) noResult

/-- TRIG.SET_LINE_LOG: class 0x06, instance 0xFF (R169, R177). -/
def trigSetLineLog : Cmd → State → State :=
  memberCommand 0x0B07 .none
    (fun x s _ => (28, badRing (x.u16 28) s) :: reservedBits x.e 30 1 15 ++ reserved x.e 31 64) (fun _ _ => false) neverBusy
    (fun x _ => [member x 6 0xFF 1 (.lineLog
      { lines := x.u64 16, minGap := x.u32 24, ring := x.u16 28, fallingEdges := x.u8 30 })]) noResult

/-! ## TRIG_IN edges (R177, R196, R285) -/

/-- R177: an edge merged into the one before it is counted for the line's next log entry. -/
def lineMerge (code : Nat) (s : State) : State :=
  if s.lineLog.cfg.ring = 0xFFFF ∨ bit s.lineLog.cfg.lines code = false then s
  else
    let last := tget (0, 0) s.lineLog.last code
    { s with lineLog := { s.lineLog with last := tput (0, 0) s.lineLog.last code (last.1, last.2 + 1) } }

/-- R177: an active edge is stamped: a trigger event, a request on line 120 + i, a generator condition and a line log
entry; one within 64 tk of the last accepted edge is merged. -/
def trigInStamp (line edge : Nat) (s : State) : State :=
  match tget none s.trigIn line with
  | some d =>
    if s.dt.toNat < d.toNat + 64 ∧ dtLe d s.dt = true then lineMerge (0x10 + line) s else accept s
  | none => accept s
where
  /-- An accepted edge. -/
  accept (s : State) : State :=
    let s := { s with trigIn := tput none s.trigIn line (some s.dt) }
    let s := deliverTrig (srcTrigIn line) s.dt s.dt s
    lineLog (0x10 + line) edge 0 s.dt (raiseLine (120 + line) 1 (genRequest 2 line s))

def execTrigSetMask (c : Cmd) (s : State) : Out := .next (trigSetMask c s)
def execTrigSetTd (c : Cmd) (s : State) : Out := .next (trigSetTd c s)
def execTrigSetSeq (c : Cmd) (s : State) : Out := .next (trigSetSeq c s)
def execTrigSetLimit (c : Cmd) (s : State) : Out := .next (trigSetLimit c s)
def execTrigLimitResume (c : Cmd) (s : State) : Out := .next (trigLimitResume c s)
def execTrigSetLog (c : Cmd) (s : State) : Out := .next (trigSetLog c s)
def execTrigSetLineLog (c : Cmd) (s : State) : Out := .next (trigSetLineLog c s)

/-- TRIG_IN_EDGE (R177): only the active edge of the line counts. -/
def execTrigInEdge (t : DT) (line : Nat) (falling : Bool) (s : State) : Out :=
  let s := advance t s
  .next (if line < 4 ∧ falling = bit s.lineLog.cfg.fallingEdges line ∧ s.stone.stage ≠ .power then
    trigInStamp line (b2n (!falling)) s else s)

/-- SEQUENCER_EVALUATE (R180). -/
def execSequencerEvaluate (t : DT) (personality : Nat) (s : State) : Out := .next (seqEvaluate personality (advance t s))

/-- SEQUENCER_STEP_TIMEOUT (R179, R180): every event that was delivered before the step had waited TIMEOUT tk is evaluated, then the
timeouts up to the DT for which all inputs have delivered. -/
def execSequencerStepTimeout (t : DT) (personality : Nat) (s : State) : Out :=
  let s := seqEvaluate personality (advance t s)
  .next (if (getTrig personality s).armed then modTrig personality (seqTimeouts (dtAdd 0 (seqUpTo personality s))) s else s)

end Sys2Proof.Machine
end

