-- ==== Sys2Proof/Machine/CaptureUnit.lean ====
section
/-! DEFINITION. Commands and events of the captures (09_trigger_and_capture.md, R184 to R193). -/

namespace Sys2Proof.Machine

/-! ## Commands (Table 9-8) -/

/-- The settings of a CAP.SET entry. -/
def capOf (x : Ctx) : CapCfg :=
  { kind := x.u8 16, mode := x.u8 17, trigUnit := x.u8 18, segments := x.u8 19, source := x.u16 20, spillRing := x.u16 22
    bufSize := x.u64 24, pre := x.u64 32, post := x.u64 40, indexSize := x.u32 48 }

/-- Table 9-2: the source exists for its KIND. -/
def badCapSource (kind source : Nat) : Bool := if kind = 0 then !isPath source else decide (4 ≤ source)

/-- R187: the pre-trigger units would not all be present when the trigger arrives. -/
def preTooLong (x : Ctx) (plan : State) : Bool :=
  let c := capOf x
  let lat := if c.trigUnit < 6 then seqLat c.trigUnit plan else 0
  decide (capUnits c plan < c.pre + ceilDiv lat (unitPeriod c plan))

/-- CAP.SET (Table 9-8) (DEDUCED, unsafe: log 26). -/
def capSet : Cmd → State → State :=
  clashCommand 0x0C01 (.below 16)
    (fun x _ _ =>
      let source := isPath (x.u16 20) && badCapSource (x.u8 16) (x.u16 20)
      [(16, decide (2 < x.u8 16) || source), (20, !isPath (x.u16 20)), (17, decide (2 < x.u8 17)),
       (18, decide (5 < x.u8 18) && x.u8 18 != 0xFF),
       (19, x.u8 19 == 0 || (x.u64 24 % 65536 == 0 && x.u64 24 % (x.u8 19 * 65536) != 0)),
       (24, x.u64 24 == 0 || x.u64 24 % 65536 != 0), (40, x.u64 40 == 0)] ++ reserved x.e 52 64)
    (fun x s plan => [(16, isPath (x.u16 20) && preTooLong x plan), (22, badRing (x.u16 22) s)])
    (fun x s => if x.u8 16 = 0 then pathAbsent (x.u16 20) s else !rfPresent (x.u16 20) s) neverBusy
    (fun x _ => [member x 7 x.unit 1 (.capSet x.unit (capOf x))]) noResult

/-- The capture has not been set, and no earlier member of the bunch sets it. -/
def noCapture (x : Ctx) (plan : State) : Bool := !(getCap x.unit plan).isSet

def capArm : Cmd → State → State :=
  memberCommand 0x0C02 (.below 16)
    (fun x _ plan => [(10, noCapture x plan), (16, decide (1 < x.u8 16))] ++ reserved x.e 17 64) (fun _ _ => false) neverBusy
    (fun x _ => [member x 7 x.unit 1 (.capArm x.unit (x.u8 16 == 1))]) noResult

def capForce : Cmd → State → State :=
  memberCommand 0x0C03 (.below 16) (fun x _ plan => (10, noCapture x plan) :: reserved x.e 16 64) (fun _ _ => false)
    neverBusy (fun x _ => [member x 7 x.unit 1 (.capForce x.unit)]) noResult

/-- A segment that is being written (R193). -/
def segmentBusy (x : Ctx) (s : State) : Bool :=
  let c := getCap x.unit s
  (c.phase == 1 || c.phase == 2) && c.segment == x.u8 16

/-- Table 9-8: DEST is a device address below Korsyn's area (R26). -/
def deviceDest (a n : Nat) (s : State) : Bool := decide (a + n ≤ hostDram s) && Config.destInDevice a

/-- R25, R193: an admitted readout of so many bytes is charged RATE for the time it takes. (DESIGN CHOICE, unsafe: log 77.) -/
def readoutBegin (rate out bytes : Nat) (s : State) : State :=
  { s with memCtl := { s.memCtl with readouts :=
      (s.memCtl.readouts.filter fun r => !dtLe r.2.2 s.dt) ++ [(rate, out, dtAdd s.dt (ceilDiv (bytes * tkS) (max 1 rate)))] } }

/-- CAP.READ (R192, R193). -/
def capRead : Cmd → State → State :=
  plainCommand 0x0C04 (.below 16)
    (fun x s =>
      let c := getCap x.unit s
      [(10, !c.isSet), (16, decide (c.cfg.segments ≤ x.u8 16) ||
        (!segmentBusy x s && !(tget {} c.records (x.u8 16)).full)), (18, badRing (x.u16 18) s)] ++
        reserved x.e 17 18 ++ reserved x.e 20 24 ++ reserved x.e 40 64)
    fun x s =>
      if segmentBusy x s then fail x.ref stBusy 0 s
      else
        let bytes := capBytes x.unit (tget {} (getCap x.unit s).records (x.u8 16)) s
        let device := deviceDest (x.u64 24) bytes.length s
        let out := if (x.u16 18 = 0xFFFF ∧ device = false) ∨ (x.u16 18 ≠ 0xFFFF ∧ (getRing (x.u16 18) s).location = 1) then x.u64 32 else 0
        let plan := planned s
        match (if x.u64 32 = 0 then none else brokenBudget plan plan (x.u64 32) out) with
        | some r => fail x.ref stRefused r s
        | none =>
          let s := if x.u64 32 = 0 then s else readoutBegin (x.u64 32) out bytes.length s
          ok x.ref 0 (if x.u16 18 ≠ 0xFFFF then writeRecord (x.u16 18) bytes s
            else storeAt (if device then 2 else 0) (x.u64 24) bytes s)

def capStatus : Cmd → State → State :=
  statusCommand 0x0C05 (.below 16) (fun _ _ => false) (fun x s =>
    let c := getCap x.unit s
    leBytes 1 c.phase ++ leBytes 1 (c.records.filter fun r => r.2.full).length ++ leBytes 2 0 ++ leBytes 4 (sat 4 c.missed) ++
      leBytes 8 c.lastTrigger.toNat ++ leBytes 8 c.overwritten ++ leBytes 8 0)

def execCapSet (c : Cmd) (s : State) : Out := .next (capSet c s)
def execCapArm (c : Cmd) (s : State) : Out := .next (capArm c s)
def execCapForce (c : Cmd) (s : State) : Out := .next (capForce c s)
def execCapRead (c : Cmd) (s : State) : Out := .next (capRead c s)
def execCapStatus (c : Cmd) (s : State) : Out := .next (capStatus c s)

/-- CAPTURE_END (R183, R186): the record has its POST units, or all that a limit violation leaves it. -/
def execCaptureEnd (t : DT) (capture : Nat) (s : State) : Out :=
  let s := advance t s
  let c := getCap capture s
  .next (if c.phase = 2 ∧ postDone c = true then capEnd capture 0 true s
    else if capCut c s = true then capEnd capture capStopped false s else s)

/-- R191: a capture of samples or records that runs ends at the last unit staged. -/
def capLost (capture : Nat) (s : State) : State :=
  let c := getCap capture s
  if c.phase = 1 ∨ c.phase = 2 then
    let last := (c.units.head?.map (·.1)).getD s.dt
    let s := capEnd capture capOverflow false s
    eventAt last 0x0C02 2 capture [(16, 1, capture), (17, 1, c.segment), (24, 8, last.toNat)] s
  else s

/-- CAPTURE_OVERFLOW (R191). -/
def execCaptureOverflow (t : DT) (capture : Nat) (s : State) : Out := .next (capLost capture (advance t s))

end Sys2Proof.Machine
end

