-- ==== Sys2Proof/Machine/GenUnit.lean ====
section
/-! DEFINITION. Commands and events of the generators and of the laser safety path (10_probe_and_stimulus_generator.md,
11_distributed_acoustic_sensing.md R234 to R236). -/

namespace Sys2Proof.Machine

/-! ## Residency (R212) -/

/-- R212: resident bytes of the running configuration and of the one being staged together. -/
def residentTogether (run next : Gen) : Nat :=
  residentBytes run + (next.segments.map fun e => match e.2 with
    | some c => if c.resident && tget none run.segments e.1 != some c then c.length * granuleBytes c else 0
    | none => 0).sum

/-- R212: they do not fit in 4 MiB, or leave less than 512 KiB for the FIFO when a segment is streamed. -/
def bufferBusy (run next : Gen) : Bool :=
  decide (4194304 < residentTogether run next + (if streamed run = [] && streamed next = [] then 0 else 524288))

/-- What the generator of a command will be once a write has landed. -/
def genAfter (d : Nat) (w : Write) (plan : State) : Gen := getGen d (applyAll [w] plan)

/-- DACs that a command may name (R199). -/
def dacAbsent (x : Ctx) (s : State) : Bool := !dacPresent x.unit s

/-- A member of a generator's claim (class 0x08). -/
def genMember (x : Ctx) (w : Write) : List Member := [member x 8 x.unit 1 w]

/-- A signed field outside the DAC codes. -/
def badCode (v : Int) : Bool := decide (v < -8192) || decide (8191 < v)

/-! ## GEN.SEGMENT -/

def segCfg (x : Ctx) : SegCfg :=
  { carrier := x.u8 18 == 1, lanes := x.u8 19, length := x.u32 20, idle := x.i16 24, resident := x.u8 26 == 1, addr := x.u64 32 }

def segWrite (x : Ctx) : Write := .genSegment x.unit (x.u16 16) (segCfg x)

/-- R297, R298: the segment reaches past the DRAM that is the host's. -/
def beyondDram (c : SegCfg) (s : State) : Bool := decide (hostDram s < c.addr + c.length * granuleBytes c)

def genSegment : Cmd → State → State :=
  clashCommand 0x0D01 (.below 2)
    (fun x _ _ =>
      [(16, decide (4095 < x.u16 16)),
       (18, decide (1 < x.u8 18) || (x.u8 18 == 0 && x.u8 19 != 0)), (19, decide (8 < x.u8 19)),
       (20, decide (x.u32 20 < 16) || decide (16777215 < x.u32 20)), (24, badCode (x.i16 24)), (26, decide (1 < x.u8 26)),
       (32, x.u64 32 % 64 != 0)] ++ reserved x.e 27 32 ++ reserved x.e 40 64)
    (fun x s plan => [(16, !residencyHolds (genAfter x.unit (segWrite x) plan)), (32, beyondDram (segCfg x) s)])
    dacAbsent (fun x s plan => bufferBusy (getGen x.unit s) (genAfter x.unit (segWrite x) plan))
    (fun x _ => genMember x (segWrite x)) noResult

/-! ## GEN.LOAD (Table 10-2) -/

/-- An entry of a sequence table in host memory. -/
def seqEntryAt (m : Mem) (a : Nat) : SeqEntry :=
  { segment := readLe m a 2, flags := readLe m (a + 2) 2, repeats := readLe m (a + 4) 4, loopTo := readLe m (a + 8) 2
    loopCount := readLe m (a + 10) 2, next := readLe m (a + 12) 2, jumpTo := readLe m (a + 14) 2
    jumpCond := readLe m (a + 16) 1, stopCond := readLe m (a + 17) 1 }

/-- Table 10-3: a condition with an unknown source or parameter. -/
def badCond (c : Nat) : Bool := decide (3 < c % 16) || decide (([1, 6, 4, 8] : List Nat).getD (c % 16) 0 ≤ c / 16)

/-- Table 10-5: an entry that GEN.LOAD does not take. -/
def badSeqEntry (segments : Table (Option SegCfg)) (n i : Nat) (reservedZero : Bool) (e : SeqEntry) : Bool :=
  (tget none segments e.segment).isNone || decide (511 < e.flags) || decide (i < e.loopTo) || decide (n ≤ e.jumpTo) ||
    (e.next != 0xFFFF && decide (n ≤ e.next)) || badCond e.jumpCond || badCond e.stopCond || !reservedZero

/-- The table a GEN.LOAD names. -/
def tableOf (x : Ctx) (s : State) : List SeqEntry :=
  (List.range (x.u16 16)).map fun i => seqEntryAt s.host (x.u64 24 + 32 * i)

def loadWrite (x : Ctx) (s : State) : Write := .genLoad x.unit (tableOf x s) (x.u16 18)

def genLoad : Cmd → State → State :=
  clashCommand 0x0D02 (.below 2)
    (fun x _ _ =>
      let n := x.u16 16
      [(16, n == 0 || decide (4096 < n) || decide (n ≤ x.u16 18)), (18, decide (4095 < x.u16 18))] ++
        reserved x.e 20 24 ++ reserved x.e 32 64)
    (fun x s plan =>
      let n := x.u16 16
      let segs := (getGen x.unit plan).segments
      let bad := (tableOf x s).zipIdx.any fun e =>
        badSeqEntry segs n e.2 (readLe s.host (x.u64 24 + 32 * e.2 + 18) 14 == 0) e.1
      [(24, decide (n ≤ 4096) && (bad || !residencyHolds (genAfter x.unit (loadWrite x s) plan)))])
    dacAbsent (fun x s plan => bufferBusy (getGen x.unit s) (genAfter x.unit (loadWrite x s) plan))
    (fun x s => genMember x (loadWrite x s)) noResult

/-! ## GEN.START, GEN.CARRIER, CAL.SET_GEN -/

/-- A DAC that has left DAC_MASK (R351) starts no more (DEDUCED, unsafe: log 41). -/
def genStart : Cmd → State → State :=
  clashCommand 0x0D03 (.below 2)
    (fun x _ _ => [(16, decide (1 < x.u8 16)), (18, decide (4095 < x.u16 18))] ++ reserved x.e 17 18 ++ reserved x.e 20 64)
    (fun x _ plan => [(18, x.u8 16 == 1 && decide ((getGen x.unit plan).table.length ≤ x.u16 18))])
    (fun x s => dacAbsent x s || (x.u8 16 == 1 && !dacHealthy x.unit s)) neverBusy
    (fun x _ => genMember x (if x.u8 16 = 1 then .genStart x.unit (x.u16 18) else .genStop x.unit)) noResult

/-- R219: a lane of an enabled slot of the DAC's fibre is Korsyn's (whatever else is wrong, REASON 10). -/
def laneHeld (d lane : Nat) (plan : State) : Bool := decide (lane < 8) && (tget {} (getFibre d plan).slots lane).enable

def genCarrier : Cmd → State → State :=
  clashCommand 0x0D04 (.below 2)
    (fun x _ _ => [(16, decide (7 < x.u8 16)), (24, decide (2 ^ 46 < x.u64 24)), (40, badCode (x.i16 40))] ++
      reservedBits x.e 32 8 (2 ^ 48 - 1) ++ reserved x.e 17 24 ++ reserved x.e 42 64)
    (fun x _ plan => [(10, laneHeld x.unit (x.u8 16) plan)])
    dacAbsent neverBusy (fun x _ => genMember x (.genCarrier x.unit (x.u8 16) (x.u64 24) (x.u64 32) (x.i16 40))) noResult

def calSetGen : Cmd → State → State :=
  memberCommand 0x1902 (.below 2)
    (fun x _ _ => (16, decide (x.i32 16 < -65536) || decide (65536 < x.i32 16)) :: reserved x.e 20 64)
    dacAbsent neverBusy (fun x _ => genMember x (.calGen x.unit (x.i32 16))) noResult

/-! ## GEN.JUMP, GEN.ROUTE, GEN.STATUS -/

/-- R208: the host flag of one generator is set when the command is taken. -/
def genJump : Cmd → State → State :=
  plainCommand 0x0D05 (.below 2) (fun x _ => (16, decide (7 < x.u8 16)) :: reserved x.e 17 64) fun x s =>
    if dacAbsent x s then fail x.ref stAbsent 0 s
    else ok x.ref 0 (genPend (48 + x.u8 16) x.unit s)

/-- A line is routed to a DAC that is not there. -/
def routeAbsent (mark trig : Nat) (s : State) : Bool :=
  (!dacPresent 1 s && (mark != 0 || trig != 0)) || (!dacPresent 0 s && (mark != 0xFF || trig != 0xF))

def genRoute : Cmd → State → State :=
  plainCommand 0x0D06 .none
    (fun x _ => (18, x.u8 18 == 0) :: reservedBits x.e 17 1 15 ++ reserved x.e 19 64) fun x s =>
    if routeAbsent (x.u8 16) (x.u8 17) s then fail x.ref stAbsent 0 s
    else if (getGen 0 s).running || (getGen 1 s).running then fail x.ref stBusy 0 s
    else ok x.ref 0 { s with route := { s.route with markDac := x.u8 16, trigDac := x.u8 17, width := x.u8 18 } }

def genStatus : Cmd → State → State :=
  statusCommand 0x0D07 (.below 2) dacAbsent (fun x s =>
    let g := getGen x.unit s
    leBytes 1 (b2n g.running) ++ leBytes 1 0 ++ leBytes 2 g.entry ++ leBytes 4 g.epoch ++ leBytes 4 g.underruns ++
      leBytes 4 (residentBytes g) ++ leBytes 8 g.clip ++ leBytes 4 (ceilDiv (refillCharge g) 1000000) ++ leBytes 4 0)

/-! ## LASER commands (Table 11-7) -/

def laserMember (x : Ctx) (w : Write) : List Member := [member x 9 x.unit 1 w]

def laserSetModcal : Cmd → State → State :=
  memberCommand 0x0E01 (.below 2) (fun x _ _ => reserved x.e 20 24 ++ reserved x.e 32 64) dacAbsent neverBusy
    (fun x s => laserMember x (.laserModcal x.unit (x.u32 16) (readU16s s.host (x.u64 24) 257))) noResult

def laserSetCaps : Cmd → State → State :=
  memberCommand 0x0E02 (.below 2)
    (fun x _ _ => [(24, decide (x.u64 24 < 2048) || decide (20480000 < x.u64 24)),
      (40, decide (x.u64 40 < 20480000) || decide (20480000000 < x.u64 40))] ++ reserved x.e 36 40 ++ reserved x.e 48 64)
    dacAbsent neverBusy
    (fun x _ => laserMember x (.laserCaps x.unit
      { peak := x.u32 16, pulse := x.u32 20, pulseWindow := x.u64 24, avg := x.u32 32, avgWindow := x.u64 40 })) noResult

def laserArm : Cmd → State → State :=
  memberCommand 0x0E03 (.below 2) (fun x _ _ => (16, decide (1 < x.u8 16)) :: reserved x.e 17 64) dacAbsent neverBusy
    (fun x _ => laserMember x (.laserArm x.unit (x.u8 16 == 1))) noResult

def laserStatus : Cmd → State → State :=
  statusCommand 0x0E04 .none (fun _ _ => false) (fun _ s =>
    let l := s.laser
    leBytes 1 (b2n l.en) ++ leBytes 1 (b2n l.permit) ++
      leBytes 1 (maskOf 2 fun d => (getGov d s).armed) ++ leBytes 1 l.trip ++ leBytes 1 l.tripDac ++ leBytes 3 0 ++
      leBytes 8 l.cutAt.toNat ++ leBytes 16 0)

/-! ## Rows -/

def execGenSegment (c : Cmd) (s : State) : Out := .next (genSegment c s)
def execGenLoad (c : Cmd) (s : State) : Out := .next (genLoad c s)
def execGenStart (c : Cmd) (s : State) : Out := .next (genStart c s)
def execGenCarrier (c : Cmd) (s : State) : Out := .next (genCarrier c s)
def execGenJump (c : Cmd) (s : State) : Out := .next (genJump c s)
def execGenRoute (c : Cmd) (s : State) : Out := .next (genRoute c s)
def execGenStatus (c : Cmd) (s : State) : Out := .next (genStatus c s)
def execCalSetGen (c : Cmd) (s : State) : Out := .next (calSetGen c s)
def execLaserSetModcal (c : Cmd) (s : State) : Out := .next (laserSetModcal c s)
def execLaserSetCaps (c : Cmd) (s : State) : Out := .next (laserSetCaps c s)
def execLaserArm (c : Cmd) (s : State) : Out := .next (laserArm c s)
def execLaserStatus (c : Cmd) (s : State) : Out := .next (laserStatus c s)

/-- GEN_LATCH_POINT (R209): 512 tk before the end of the play. -/
def execGenLatchPoint (t : DT) (dac : Nat) (s : State) : Out :=
  .next (latchDue dac (advance t s))

/-- GEN_SEGMENT_START (R211): the play has ended; what lands at the segment start does, and what was latched begins. -/
def execGenSegmentStart (t : DT) (dac : Nat) (s : State) : Out :=
  let s := settle (fun b => b == .segment dac || b == .epoch dac || b == .stack dac) (advance t s)
  let g := getGen dac s
  .next (if g.running = true ∧ playEnd g = s.dt then withEpoch dac (genAdvance dac) s else s)

/-- TRIG_OUT_PULSE_END (R211). -/
def execTrigOutPulseEnd (t : DT) (line : Nat) (s : State) : Out :=
  let s := advance t s
  .next (if bit s.route.trigOut line then { s with route := { s.route with trigOut := s.route.trigOut - 2 ^ line } } else s)

/-- GENERATOR_UNDERRUN (R214): a granule of a streamed segment has not arrived. -/
def execGeneratorUnderrun (t : DT) (dac : Nat) (s : State) : Out :=
  let s := advance t s
  let g := getGen dac s
  .next (if g.running = true ∧ g.missing = none then genUnderrun dac s else s)

/-- LASER_COMPARATOR_TRIP (R236): a measure of an owned DAC exceeds its cap. -/
def execLaserComparatorTrip (t : DT) (dac measure : Nat) (s : State) : Out :=
  let s := advance t s
  .next (if dacOwned dac s = true ∧ (getGen dac s).running = true ∧ (getGov dac s).caps.isSome = true ∧
      1 ≤ measure ∧ measure ≤ 3 then
    event 0x0E01 3 dac [(16, 1, dac), (17, 1, measure), (24, 8, s.dt.toNat)] (laserTrip measure dac s)
  else s)

/-- LASER_PERMIT_LOW (R236): low for 100 ns; a cut that an owned DAC has to be armed again after. -/
def execLaserPermitLow (t : DT) (s : State) : Out :=
  let s := advance t s
  .next (if s.laser.permit then
    let s := { s with laser := { s.laser with permit := false, permitAt := s.dt } }
    let s := if dacOwned 0 s || dacOwned 1 s then laserTrip 4 0 s else s
    event 0x0E02 1 0xFFFF [(16, 1, 0), (24, 8, s.dt.toNat)] s
  else s)

/-- LASER_PERMIT_HIGH (R236). -/
def execLaserPermitHigh (t : DT) (s : State) : Out :=
  let s := advance t s
  .next (if s.laser.permit then s
  else event 0x0E02 1 0xFFFF [(16, 1, 1), (24, 8, s.dt.toNat)]
    { s with laser := { s.laser with permit := true, permitAt := s.dt } })

end Sys2Proof.Machine
end

