-- ==== Sys2Proof/Machine/FibreUnit.lean ====
section
/-! DEFINITION. Commands and events of the fibre personalities, the slow converter, the excitation outputs and the
currants (11_distributed_acoustic_sensing.md, 12_temperature_and_reference_sensing.md, 13_fibre_cores.md). -/

namespace Sys2Proof.Machine

/-! ## Members -/

/-- R3: neither receiver of the fibre is there. -/
def fibreAbsent (x : Ctx) (s : State) : Bool := !fibrePresent x.unit s

/-- A member of a fibre's claim while it senses by DAS (class 0x0A) or DTS (0x0B). -/
def dasMember (x : Ctx) (w : Write) : List Member := [member x 0xA x.unit 1 w]
def dtsMember (x : Ctx) (w : Write) : List Member := [member x 0xB x.unit 1 w]

/-- R217, R237: a start needs its receivers and the DAC; those that have left their masks start no more (DEDUCED, unsafe: log 41). -/
def startAbsent (receivers : Nat) (x : Ctx) (s : State) : Bool :=
  let mine := (List.range receivers).map fun c => 2 * x.unit + c
  mine.any (fun r => !orxPresent r s) ||
    (x.u8 16 == 1 && (mine.any (fun r => !orxHealthy r s) || !dacHealthy x.unit s))

/-! ## DAS (Table 11-7) -/

def dasStart : Cmd → State → State :=
  memberCommand 0x0F01 (.below 2)
    (fun x _ _ => [(16, decide (1 < x.u8 16)), (17, x.u8 17 == 0 || decide (2 < x.u8 17))] ++ reserved x.e 18 64)
    (fun x s => startAbsent (x.u8 17) x s) neverBusy
    (fun x _ => dasMember x (if x.u8 16 = 1 then .dasStart x.unit (x.u8 17) else .dasStop x.unit)) noResult

/-- The slot a DAS.SET_SLOT describes. -/
def slotOf (x : Ctx) : SlotCfg :=
  { enable := x.u8 17 == 1, golay := x.u8 18 == 1, taper := x.u8 19 == 1, length := x.u16 20, chip := x.u8 22
    bandwidth := x.u32 24, entryA := x.u16 28, entryB := x.u16 30, offset := x.u32 32 }

/-- R220, R221: a slot's code breaks a condition that CODE takes part in (R398). -/
def badSlotCode (c : SlotCfg) : Bool :=
  if c.golay then
    decide (c.length < 4) || decide (11 < c.length) || decide (c.chip < 2) || decide (16 < c.chip) || decide (6400 < codeLen c) ||
      c.bandwidth != 0
  else
    decide (c.length < 64) || decide (6400 < c.length) || c.chip != 0 || decide (c.bandwidth < 10000) ||
      decide (200000 < c.bandwidth) || c.entryB != 0xFFFF

/-- R228: enabled slots with different ENTRY_A. -/
def entriesDiffer (f : Fibre) : Bool :=
  match enabledSlots f with
  | [] => false
  | k :: rest => rest.any fun i => (tget {} f.slots i).entryA != (tget {} f.slots k).entryA

/-- DAS.SET_SLOT (Table 11-3) (DEDUCED, unsafe: log 18). -/
def dasSetSlot : Cmd → State → State :=
  clashCommand 0x0F02 (.below 2)
    (fun x _ _ => [(16, decide (7 < x.u8 16)), (17, decide (1 < x.u8 17)),
       (18, decide (1 < x.u8 18) || badSlotCode (slotOf x)), (19, decide (1 < x.u8 19))] ++ reserved x.e 23 24 ++ reserved x.e 36 64)
    (fun x _ plan =>
      let f := getFibre x.unit plan
      let after := { f with slots := tput {} f.slots (x.u8 16) (slotOf x) }
      [(17, f.grid.combine && entriesDiffer after)])
    fibreAbsent neverBusy
    (fun x s =>
      let k := x.u8 16
      let on := (slotOf x).enable && (getFibre x.unit (planned s)).das
      dasMember x (.dasSlot x.unit k (slotOf x)) ++ [member x 8 x.unit 1 (.slotCarrier x.unit k (slotWord k))] ++
        (slotPaths x.unit k s).zipIdx.map fun p => member x 2 p.1 (if p.2 = 0 then 1 else 0) (.slotPath p.1 (4 * slotWord k) on))
    noResult

/-- The grid a DAS.SET_GRID describes. -/
def gridOf (x : Ctx) : GridCfg :=
  { firstCell := x.u32 16, positions := x.u32 20, step := x.u16 24, gauge := x.u16 26, kind := x.u8 28
    combine := x.u8 29 == 1, ring := x.u16 30, noiseFirst := x.u32 32, noiseCount := x.u32 36 }

def dasSetGrid : Cmd → State → State :=
  clashCommand 0x0F03 (.below 2)
    (fun x _ _ =>
      let g := gridOf x
      [(16, decide (1048575 < lastCell g)), (20, g.positions == 0 || decide (262144 < g.positions)),
       (24, g.step == 0 || decide (64 < g.step)), (26, g.gauge == 0 || decide (1024 < g.gauge)), (28, decide (1 < g.kind)),
       (29, decide (1 < x.u8 29)),
       (36, g.noiseCount != 0 && (decide (g.noiseCount < 64) || decide (65536 < g.noiseCount)))] ++ reserved x.e 40 64)
    (fun x s plan =>
      let g := gridOf x
      [(29, g.combine && entriesDiffer (getFibre x.unit plan)), (30, notDataRing g.ring s)])
    fibreAbsent neverBusy (fun x _ => dasMember x (.dasGrid x.unit (gridOf x))) noResult

/-- The mask a DAS.SET_PMASK describes, its levels read when it is taken. -/
def pmaskOf (x : Ctx) (s : State) : PmaskCfg :=
  { enable := x.u8 16 == 1, bpp := x.u8 17, hyst := x.u16 18, firstPos := x.u32 20, points := x.u16 24
    minTraces := x.u16 26, ignore := x.u8 28, levels := readI16s s.host (x.u64 32) (x.u16 24) }

def dasSetPmask : Cmd → State → State :=
  clashCommand 0x0F04 (.below 2)
    (fun x _ _ =>
      [(16, decide (1 < x.u8 16)), (17, x.u8 17 == 0 || decide (64 < x.u8 17)), (18, decide (32767 < x.u16 18)),
       (24, x.u16 24 == 0 || decide (8192 < x.u16 24)), (26, x.u16 26 == 0)] ++ reservedBits x.e 28 1 31 ++
        reserved x.e 29 32 ++ reserved x.e 40 64)
    (fun x _ plan => [(17, decide ((getFibre x.unit plan).grid.positions < x.u32 20 + x.u16 24 * x.u8 17))])
    fibreAbsent neverBusy (fun x s => dasMember x (.dasPmask x.unit (pmaskOf x s))) noResult

def dasStatus : Cmd → State → State :=
  statusCommand 0x0F05 (.below 2) fibreAbsent (fun x s =>
    let f := getFibre x.unit s
    leBytes 1 (if !f.das then 0 else if f.degraded then 2 else 1) ++ leBytes 1 (maskOf 8 fun k => (tget {} f.slots k).enable) ++
      leBytes 1 (if f.das then f.pips.length else 0) ++ leBytes 1 (if f.das then f.currants.length else 0) ++
      leBytes 4 (sat 4 f.unpaired) ++ leBytes 8 f.traceSeq ++ leBytes 8 ((f.lastTrace.map (·.toNat)).getD 0) ++
      leBytes 4 (sat 4 f.shortIntervals) ++ leBytes 4 0)

/-- The calibration a CAL.SET_FIBRE describes. -/
def fibreCalOf (x : Ctx) : FibreCal :=
  { nG := x.u32 16, dFix := x.u32 20, coilFirst := x.u32 24, coilCells := x.u16 28, rtdEntry := x.u8 30, rtdType := x.u8 31
    refOhm := x.u32 32, gamma := x.u32 36, dalpha := x.i32 40, tFixed := x.u32 44, maxAge := x.u32 48 }

/-- Table 11-7: a member of classes 0x0A and 0x0B; the write is that of the kind of sensing that runs. (DEDUCED, unsafe: log 18.) -/
def calSetFibre : Cmd → State → State :=
  memberCommand 0x1903 (.below 2)
    (fun x _ _ =>
      let c := fibreCalOf x
      [(16, decide (c.nG < 1400000) || decide (1600000 < c.nG)), (20, decide (4194304 < c.dFix)),
       (28, c.coilCells != 0 && (decide (c.coilCells < 8) || decide (4096 < c.coilCells))),
       (30, decide (63 < c.rtdEntry) && c.rtdEntry != 0xFF), (31, decide (1 < c.rtdType))] ++ reserved x.e 52 64)
    fibreAbsent neverBusy
    (fun x s =>
      let w : Write := .calFibre x.unit (fibreCalOf x)
      if (getFibre x.unit s).dts then dasMember x .claimOnly ++ dtsMember x w else dasMember x w ++ dtsMember x .claimOnly)
    noResult

/-! ## DTS (Table 12-7) -/

def dtsStart : Cmd → State → State :=
  memberCommand 0x1001 (.below 2) (fun x _ _ => (16, decide (1 < x.u8 16)) :: reserved x.e 17 64)
    (fun x s => startAbsent 2 x s) neverBusy
    (fun x _ => dtsMember x (if x.u8 16 = 1 then .dtsStart x.unit else .dtsStop x.unit)) noResult

/-- The settings a DTS.SET describes. -/
def dtsCfgOf (x : Ctx) : DtsCfg :=
  { entry := x.u16 16, step := x.u16 18, offset := x.u32 20, firstCell := x.u32 24, positions := x.u32 28, parts := x.u16 32
    content := x.u8 34, ring := x.u16 36 }

def dtsSet : Cmd → State → State :=
  clashCommand 0x1002 (.below 2)
    (fun x _ _ =>
      let c := dtsCfgOf x
      [(18, c.step == 0 || decide (64 < c.step)), (28, c.positions == 0 || decide (262144 < c.positions)),
       (32, c.parts == 0 || decide (4096 < c.parts))] ++ reservedBits x.e 34 1 3 ++
        reserved x.e 35 36 ++ reserved x.e 38 64)
    (fun x s _ => [(36, notDataRing (dtsCfgOf x).ring s)])
    fibreAbsent neverBusy (fun x _ => dtsMember x (.dtsSet x.unit (dtsCfgOf x))) noResult

def dtsStatus : Cmd → State → State :=
  statusCommand 0x1003 (.below 2) fibreAbsent (fun x s =>
    let f := getFibre x.unit s
    leBytes 1 (b2n f.dts) ++ leBytes 3 0 ++ leBytes 4 f.stackSeq ++ leBytes 8 f.stackEnd.toNat ++ leBytes 4 (sat 4 f.leftOut) ++
      leBytes 4 f.tCoil ++ leBytes 8 0)

/-! ## Slow converter and excitation (Tables 12-4 and 12-7) -/

/-- Table 12-4: an entry from its 16 bytes as a number. -/
def scanEntryOf (v : Nat) : ScanEntry :=
  { ain := v % 256, exc := v / 2 ^ 8 % 256, gain := v / 2 ^ 16 % 256, nplc := v / 2 ^ 24 % 256, repeats := v / 2 ^ 32 % 65536
    delayUs := v / 2 ^ 64 % 2 ^ 32 }

/-- Table 12-4: the offsets in an entry that are wrong. -/
def scanChecks (v : Nat) : Checks :=
  let e := scanEntryOf v
  [(0, decide (15 < e.ain)), (1, decide (3 < e.exc)), (2, decide (3 < e.gain)), (3, e.nplc == 0), (4, e.repeats == 0),
   (6, v / 2 ^ 48 % 256 != 0), (7, v / 2 ^ 56 % 256 != 0), (8, decide (10000000 < e.delayUs)), (12, v / 2 ^ 96 % 256 != 0),
   (13, v / 2 ^ 104 % 256 != 0), (14, v / 2 ^ 112 % 256 != 0), (15, v / 2 ^ 120 % 256 != 0)]

/-- The entries a SLOW.SET_SCAN names, as numbers. -/
def scanTableOf (x : Ctx) (s : State) : List Nat :=
  (List.range (x.u8 16)).map fun i => readLe s.host (x.u64 24 + 16 * i) 16

def slowSetScan : Cmd → State → State :=
  memberCommand 0x1101 (.below 1)
    (fun x s _ =>
      let badTable := decide (x.u8 16 ≤ 64) && (scanTableOf x s).any fun v => (scanChecks v).any (·.2)
      [(16, x.u8 16 == 0 || decide (64 < x.u8 16)), (17, x.u8 17 != 50 && x.u8 17 != 60),
       (18, notDataRing (x.u16 18) s || (getRing (x.u16 18) s).entrySize != 64), (24, badTable)] ++ reserved x.e 20 24 ++
        reserved x.e 32 64)
    never neverBusy
    (fun x s => [member x 0xC 0 1 (.slowScan ((scanTableOf x s).map scanEntryOf) (x.u8 17) (x.u16 18))]) noResult

/-- A start without a scan table is refused like an operand that is wrong (DEDUCED, unsafe: log 44). -/
def slowStart : Cmd → State → State :=
  memberCommand 0x1102 (.below 1)
    (fun x _ plan => (16, decide (1 < x.u8 16) || (x.u8 16 == 1 && plan.slow.table.isEmpty)) :: reserved x.e 17 64)
    never neverBusy (fun x _ => [member x 0xC 0 1 (if x.u8 16 = 1 then .slowStart else .slowStop)]) noResult

/-- R252: the command completes when its conversion has been made. -/
def slowUrgent : Cmd → State → State :=
  plainCommand 0x1103 (.below 1)
    (fun x _ =>
      let v := fld x.e 16 16
      (scanChecks v).map (fun c => (16 + c.1, c.2)) ++ [(20, (scanEntryOf v).repeats != 1)] ++ reserved x.e 32 64) fun x s =>
    slowKick (modSlow (fun y => { y with urgents := y.urgents ++ [(scanEntryOf (fld x.e 16 16), x.ref)] }) s)

def excSet : Cmd → State → State :=
  memberCommand 0x1201 (.below 4)
    (fun x _ _ =>
      [(16, decide (1 < x.u8 16)), (18, decide (3600 < x.u16 18)), (20, x.u32 20 == 0 || decide (20000 < x.u32 20))] ++
        reserved x.e 17 18 ++ reserved x.e 24 64)
    never neverBusy
    (fun x _ => [member x 0xD x.unit 1 (.excSet x.unit { enable := x.u8 16 == 1, impPeriod := x.u16 18, cMax := x.u32 20 })])
    noResult

/-- EXC.STATUS: whether the output is in current limit, and its current, are analogue values (DESIGN CHOICE, safe: log 40). -/
def excStatusRecord (n limit current : Nat) (s : State) : List Byte :=
  let x := getExc n s
  leBytes 1 (b2n x.cfg.enable + 2 * b2n x.breakLatched + 4 * (if x.cfg.enable then limit % 2 else 0)) ++ leBytes 3 0 ++
    leBytes 4 (if x.cfg.enable then current else 0) ++ leBytes 4 (sat 4 x.lastC) ++ leBytes 4 (sat 4 x.lastG) ++
    leBytes 8 x.lastCheck.toNat ++ leBytes 8 0

/-- EXC.STATUS (Table 12-5) (DESIGN CHOICE, safe: log 40). -/
def excStatus (c : Cmd) (s : State) : State :=
  let l := draw s
  let i := draw l.2
  statusCommand 0x1202 (.below 4) (fun _ _ => false) (fun x s => excStatusRecord x.unit l.1 i.1 s) c i.2

/-! ## Currants (Table 13-2, R274) -/

/-- Table 13-2: a coefficient whose [31:24] is no sign extension of [23:0]. -/
def badCoef (v : Int) : Bool := decide (v < -8388608) || decide (8388607 < v)

def curSetBand : Cmd → State → State :=
  clashCommand 0x1302 (.below 2)
    (fun x _ _ =>
      [(16, decide (1 < x.u8 16)), (17, decide (12 < x.u8 17))] ++
        ((List.range 5).map fun i => (24 + 4 * i, badCoef (x.i32 (24 + 4 * i)))) ++ reserved x.e 22 24 ++ reserved x.e 44 64)
    (fun x s _ => [(20, notDataRing (x.u16 20) s)])
    fibreAbsent neverBusy
    (fun x _ => dasMember x (.curBand x.unit
      { enable := x.u8 16 == 1, log2Win := x.u8 17, thresh := x.i16 18, ring := x.u16 20
        coef := (List.range 5).map fun i => x.i32 (24 + 4 * i) })) noResult

/-- A currant that is healthy and not in test. -/
def currantIdle (s : State) (n : Nat) : Bool := currantHealthy n s && (getCurrant n s).state != .inTest

/-- The state CUR.STATUS reports of a currant. On the GD9610-AR and GD9610-A2 two are reported as spares, the lowest that are
not in test, and the others as in test or off (R266, DEDUCED, unsafe: log 65). -/
def currantShown (n : Nat) (s : State) : UnitState :=
  if (s.fuse.variant = 2 ∨ s.fuse.variant = 4) ∧ currantIdle s n = true then
    if ((List.range n).filter (currantIdle s)).length < 2 then .spare else .off
  else (getCurrant n s).state

/-- R274: one byte of a currant: its state as in PIP.STATUS, and its personality. -/
def currantByte (n : Nat) (s : State) : Nat :=
  if currantPresent n s then 16 * unitCode (currantShown n s) + (getCurrant n s).personality % 16 else 16 * 6 + 15

def curStatus : Cmd → State → State :=
  statusCommand 0x1301 .none (fun _ _ => false) (fun _ s =>
    ((List.range 18).map fun n => leBytes 1 (currantByte n s)).flatten ++
      ((List.range 18).map fun n => leBytes 1 (if currantPresent n s then (getCurrant n s).kernel else 0xFF)).flatten ++
      leBytes 1 (currantsHealthy s) ++
      leBytes 1 ((List.range 18).filter fun n => currantHealthy n s && currantShown n s == .spare).length ++ leBytes 26 0)

/-! ## Rows -/

def execDasStart (c : Cmd) (s : State) : Out := .next (dasStart c s)
def execDasSetSlot (c : Cmd) (s : State) : Out := .next (dasSetSlot c s)
def execDasSetGrid (c : Cmd) (s : State) : Out := .next (dasSetGrid c s)
def execDasSetPmask (c : Cmd) (s : State) : Out := .next (dasSetPmask c s)
def execDasStatus (c : Cmd) (s : State) : Out := .next (dasStatus c s)
def execCalSetFibre (c : Cmd) (s : State) : Out := .next (calSetFibre c s)
def execDtsStart (c : Cmd) (s : State) : Out := .next (dtsStart c s)
def execDtsSet (c : Cmd) (s : State) : Out := .next (dtsSet c s)
def execDtsStatus (c : Cmd) (s : State) : Out := .next (dtsStatus c s)
def execSlowSetScan (c : Cmd) (s : State) : Out := .next (slowSetScan c s)
def execSlowStart (c : Cmd) (s : State) : Out := .next (slowStart c s)
def execSlowUrgent (c : Cmd) (s : State) : Out := .next (slowUrgent c s)
def execExcSet (c : Cmd) (s : State) : Out := .next (excSet c s)
def execExcStatus (c : Cmd) (s : State) : Out := .next (excStatus c s)
def execCurSetBand (c : Cmd) (s : State) : Out := .next (curSetBand c s)
def execCurStatus (c : Cmd) (s : State) : Out := .next (curStatus c s)

/-- DAS_TRACE_READY (R226 to R231): the trace of the slot's next launch is finished. -/
def execDasTraceReady (t : DT) (fibre slot : Nat) (s : State) : Out :=
  let s := advance t s
  .next (if (getFibre fibre s).das then (match traceOfSlot fibre slot s with
    | some trace => dasReady fibre [(trace, false)] s
    | none => s) else s)

/-- DAS_BAND_WINDOW_END (R270): 2^w traces have entered the window. -/
def execDasBandWindowEnd (t : DT) (fibre : Nat) (s : State) : Out :=
  let s := advance t s
  let x := getFibre fibre s
  .next (if x.das && bandFull x then bandEnd fibre s else s)

/-- DTS_LAUNCH (R238, R239): the raw cells of the oldest launch are there; a hop of ADPLL-F that it spans is over (R72). -/
def execDtsLaunch (t : DT) (fibre : Nat) (_ : Unit) (s : State) : Out :=
  let s := settle (· == .stack fibre) (advance t s)
  let s := if (getFibre fibre s).hopped then pllRun 1 (getPll 1 s).target s else s
  let x := getFibre fibre s
  .next (match x.launches with
    | l :: _ =>
      if x.dts = true ∧ x.stackSeen < dtsRequested x ∧ launchComplete fibre l s = true then
        dtsLaunch fibre (launchCells fibre 0 l s) (launchCells fibre 1 l s) (launchOvr fibre l s) s
      else s
    | [] => s)

/-- R72: the point of ADPLL-F at a stack boundary: 1.28 GHz while an RF or DAS personality is admitted; else the lowest
point that covers the DTS load, which the spec gives no numbers for (UNVERIFIED, safe: log 42). -/
def stackPoint (s : State) : Nat × State :=
  if [0, 1, 2, 3].any (fun p => (getSpec p s).running) || dasRuns 0 s || dasRuns 1 s then (1280000, s)
  else
    let r := draw s
    (([640000, 960000, 1280000] : List Nat).getD (r.1 % 3) 1280000, r.2)

/-- R72: a change of point hops ADPLL-F, and the trace that spans it is left out. -/
def stackHop (s : State) : State :=
  let r := stackPoint s
  if (getPll 1 r.2).locked = true ∧ (getPll 1 r.2).target ≠ r.1 then
    each [0, 1] (fun f => modFibre f (fun x => { x with hopped := x.hopped || x.dts })) (pllBegin 1 r.1 r.2)
  else r.2

/-- DTS_STACK_END (R240): REQUESTED launches have come. -/
def execDtsStackEnd (t : DT) (fibre : Nat) (s : State) : Out :=
  let s := advance t s
  let x := getFibre fibre s
  .next (if x.dts = true ∧ dtsRequested x ≤ x.stackSeen then
    settle (· == .stack fibre) (stackHop (dtsStackEnd fibre s)) else s)

/-- DTS_RECORD_READY (R245). -/
def execDtsRecordReady (t : DT) (fibre : Nat) (s : State) : Out :=
  let s := advance t s
  match (getFibre fibre s).record with
  | some bytes => .next (writeRecord (getFibre fibre s).dtsCfg.ring bytes (modFibre fibre (fun x => { x with record := none }) s))
  | none => .next s

/-- SLOW_ENTRY_DELAY_END (R248): power-up begins. -/
def execSlowEntryDelayEnd (t : DT) (s : State) : Out :=
  let s := settle (· == .conversion) (advance t s)
  .next (if jobDelayed s then powerUp s else s)

/-- R248: the power-up of the running conversion is over, and it has yet to integrate. -/
def integrationDue (s : State) : Bool :=
  jobConverts s && s.slow.poweredUp && !s.slow.integrating && dtLe (dtAdd s.slow.since powerUpTk) s.dt

/-- SLOW_INTEGRATION_START (R248): a conversion without a delay has powered up of itself. -/
def execSlowIntegrationStart (t : DT) (s : State) : Out :=
  let s := powerUp (settle (· == .conversion) (advance t s))
  .next (if integrationDue s then slowBegin s else s)

/-- SLOW_CONVERSION_END (R248): the integration ends with a code. -/
def execSlowConversionEnd (t : DT) (code : Int) (s : State) : Out :=
  let s := advance t s
  .next (if s.slow.integrating && dtLe (convEnd s) s.dt then
    settle (· == .conversion) (slowEnd code s.slow.startFlags s) else s)

/-- SLOW_PARTIAL_ENTRY_FLUSH (R253): 100 ms after the first result of the entry. -/
def execSlowPartialEntryFlush (t : DT) (s : State) : Out :=
  let s := advance t s
  .next (if s.slow.partials ≠ [] ∧ 100 * tkMs ≤ dtSub s.dt s.slow.partialFirst then slowFlush s else s)

/-- EXC_BREAK_DETECT (R255): a conversion on the output is aborted; otherwise the break is latched. -/
def execExcBreakDetect (t : DT) (exc : Nat) (s : State) : Out :=
  let s := advance t s
  let x := getExc exc s
  .next (if x.cfg.enable = true ∧ x.broken = false then
    let busy := converting exc s
    let s := modExc exc (fun x => { x with broken := true, breakLatched := x.breakLatched || !busy }) s
    let s := event 0x1201 2 exc [(16, 1, exc), (17, 1, 1), (24, 8, s.dt.toNat)] s
    if busy then settle (· == .conversion) (slowAbort s) else s
  else s)

/-- EXC_BREAK_RESTORED (R255). -/
def execExcBreakRestored (t : DT) (exc : Nat) (s : State) : Out :=
  let s := advance t s
  .next (if (getExc exc s).broken then
    event 0x1201 2 exc [(16, 1, exc), (17, 1, 0), (24, 8, s.dt.toNat)] (modExc exc (fun x => { x with broken := false }) s)
  else s)

/-- IMPEDANCE_CHECK_DUE (R252, R257). -/
def execImpedanceCheckDue (t : DT) (exc : Nat) (s : State) : Out :=
  let s := advance t s
  let x := getExc exc s
  .next (if x.cfg.enable = true ∧ x.cfg.impPeriod ≠ 0 ∧ exc < 4 ∧ dtLe x.nextCheck s.dt = true ∧
      s.slow.checksDue.contains exc = false then
    let s := modExc exc (fun x => { x with nextCheck := dtAdd x.nextCheck (x.cfg.impPeriod * tkS) }) s
    slowKick (modSlow (fun y => { y with checksDue := y.checksDue ++ [exc] }) s)
  else s)

/-- IMPEDANCE_CHECK_DONE (R257): the 8 ms tone ends with a capacitance and a conductance. -/
def execImpedanceCheckDone (t : DT) (exc nanofarad microsiemens : Nat) (s : State) : Out :=
  let s := advance t s
  .next (if s.slow.job = some (.impedance exc) ∧ dtLe (dtAdd s.slow.since toneTk) s.dt = true then
    settle (· == .conversion) (impedanceEnd exc nanofarad microsiemens s)
  else s)

/-- CURRANT_FAULT (R272). -/
def execCurrantFault (t : DT) (currant cause : Nat) (s : State) : Out :=
  let s := advance t s
  .next (if currantHealthy currant s = true ∧ 1 ≤ cause ∧ cause ≤ 4 then currantFaulted currant cause s else s)

/-- CURRANT_RECOMPUTE_DONE (R272). -/
def execCurrantRecomputeDone (t : DT) (currant : Nat) (slots : List Nat) (s : State) : Out :=
  .next (currantRepaired currant slots (advance t s))

end Sys2Proof.Machine
end

