-- ==== Sys2Proof/Machine/Boot.lean ====
section
/-! DEFINITION. Pins, power-up sequence, firmware download, BOOT_SPI and the BAR4 window (02_startup_and_mailbox.md R30 to
R41, R396, R397; 16_host_and_network_links.md R315, R316; 20_electrical_and_package.md R385, R388, R392). -/

namespace Sys2Proof.Machine

/-! ## Codes and flags -/

/-- Codes of BOOT_STAT.STAGE and SRC (Table 2-5). -/
def stageCode : Stage → Nat
  | .power => 0
  | .wipeSram => 1
  | .waitImage => 2
  | .verify => 3
  | .waitDram => 4
  | .start => 5
  | .ready => 6
  | .haltError => 7
def sourceCode : Source → Nat
  | .none => 0
  | .pcie => 1
  | .spi => 2

/-- BOOT_STAT (Table 2-5). -/
def bootStat (s : State) : Nat :=
  stageCode s.stone.stage * 2 ^ 28 + sourceCode s.stone.src * 2 ^ 26 + s.stone.error * 2 ^ 16 + s.stone.ifaceLevel * 2 ^ 8 +
    2 * b2n s.stone.dramWiped + b2n s.stone.sramWiped

/-- STONE_ERR bits (Table 2-10). -/
def errStageClaim : BitVec 6 := 1
def errSpiFrame : BitVec 6 := 2
def errDoorbell : BitVec 6 := 4
def errBadAccess : BitVec 6 := 8
def errResetKey : BitVec 6 := 16
def errEarlyWrite : BitVec 6 := 32

/-- The stone domain's registers change. -/
def modStone (f : Stone → Stone) (s : State) : State := { s with stone := f s.stone }

/-- A STONE_ERR flag is set. -/
def stoneFlag (flag : BitVec 6) (s : State) : State := modStone (fun x => { x with stoneErr := x.stoneErr ||| flag }) s

/-- The data a read from outside gives. -/
def answer (bytes : List Byte) (s : State) : State := { s with pcie := { s.pcie with readData := some bytes } }

/-- R373: in Standby and Off only the stone domain runs. -/
def asleep (s : State) : Bool := s.power.state == .standby || s.power.state == .off

/-- R31, R33, R373: BAR0 answers: out of POR, from the step in which the fuses are valid, the link up and not in L2. -/
def bar0Serves (s : State) : Bool := s.stone.porN && s.stone.fusesValid && s.pcie.link && s.power.state != .off

/-! ## Resets (R30, R379, R385, R388, R392) -/

/-- Two reasons to hold the device in reset, together (R385, R392). -/
def holdAdd (a b : Hold) : Hold := if a = .none ∨ a = b then b else if b = .none then a else .both

/-- One of them ends. -/
def holdDrop (a b : Hold) : Hold :=
  if a = b then .none else if a = .both then (if b = .thermal then .undervoltage else .thermal) else a

/-- R385, R392: the whole device but the stone domain is held in reset. -/
def holdReset (why : Hold) (s : State) : State :=
  modStone (fun x => { x with hold := holdAdd x.hold why, seqStart := s.dt }) (deviceReset true (laserCut s))

/-- R385, R392: a reason for the hold ends; with the last one the sequence of Table 2-2 begins (R396). -/
def holdEnd (why : Hold) (s : State) : State :=
  let h := holdDrop s.stone.hold why
  modStone (fun x => { x with hold := h, seqStart := if h = .none then s.dt else x.seqStart }) s

/-- POR_N_LOW: the stone domain is reset too; the pin PERST_N and the key slot stay as they are. -/
def execPorNLow (t : DT) (s : State) : Out :=
  let s := deviceReset true (laserCut (advance t s))
  .next { s with stone := { lifeCycle := fusedLifeCycle s, idKey := s.stone.idKey, perstN := s.stone.perstN } }

/-- POR_N_RISE (R31). -/
def execPorNRise (t : DT) (s : State) : Out :=
  let s := advance t s
  .next (if s.stone.porN then s else modStone (fun x => { x with porN := true, seqStart := s.dt }) s)

/-- FUSES_VALID (R31, R39, R379): the key slot of a part in RETURN or RETIRED is zeroised before SCAN_EN is set. SERVICE,
held in the stone domain, was entered with the reset this sequence belongs to (R377). -/
def execFusesValid (t : DT) (s : State) : Out :=
  let s := advance t s
  .next (if s.stone.porN = true ∧ s.stone.hold = .none ∧ s.stone.stage = .power ∧ s.stone.fusesValid = false then
    let lc := if s.stone.lifeCycle = .service then .service else fusedLifeCycle s
    let key := if keySlotOf lc = .zeroised then .zeroised else s.stone.idKey
    let s := modStone (fun x => { x with
      fusesValid := true, lifeCycle := lc, idKey := key, scanEn := lc == .retirn && key == .zeroised }) s
    if lc = .retired then modStone (fun x => { x with stage := .haltError, error := 0x0A }) s else s
  else s)

/-- XTAL_B_RUNNING (R31). -/
def execXtalBRunning (t : DT) (s : State) : Out :=
  let s := advance t s
  .next (if s.stone.porN = true ∧ s.stone.hold = .none ∧ s.stone.stage = .power ∧ s.stone.fusesValid = true then
    modStone (fun x => { x with xtalB := true, stage := .wipeSram }) s else s)

/-- Table 4-1: output of ADPLL-M in kHz at a frequency point: half its data rate. -/
def dramKHz (point : Nat) : Nat := pointRate point * 500

/-- SRAM_WIPE_DONE (R31): ADPLL-M locks to the reference that is there and training starts. -/
def execSramWipeDone (t : DT) (s : State) : Out :=
  let s := advance t s
  .next (if s.stone.stage = .wipeSram then
    let s := { s with sram := [] }
    let s := modPll 2 (fun c => { c with xtal := !s.clock.refOk }) s
    pllBegin 2 (dramKHz 0) (modStone (fun x => { x with sramWiped := true, stage := .waitImage }) s)
  else s)

/-- The stages from WAIT_IMAGE to WAIT_DRAM, in which the DRAM is trained and wiped. -/
def downloading (s : State) : Bool :=
  s.stone.stage == .waitImage || s.stone.stage == .verify || s.stone.stage == .waitDram

/-- DRAM_TRAINING_DONE (R31, Table 2-6). -/
def execDramTrainingDone (t : DT) (ok : Bool) (s : State) : Out :=
  let s := advance t s
  .next (if downloading s && !s.stone.dramFill && !s.stone.dramWiped then
    modStone (fun x => if ok then { x with dramFill := true } else { x with stage := .haltError, error := 0x09 }) (pllRun 2 (dramKHz 0) s)
  else s)

/-- DRAM_WIPE_DONE (R32). -/
def execDramWipeDone (t : DT) (s : State) : Out :=
  let s := advance t s
  .next (if downloading s && s.stone.dramFill then
    modStone (fun x => { x with dramFill := false, dramWiped := true }) { s with dram := [], memCtl := { s.memCtl with poisoned := [] } }
  else s)

/-! ## The image (R37 to R41) -/

/-- Staging in BAR2. -/
def stagingSize : Nat := 0x800000

/-- The staged image is discarded: its bytes are gone (DEDUCED, unsafe: log 47). -/
def dropImage (s : State) : State := { s with sram := zeroRange 0 stagingSize s.sram }

/-- The bytes in which an image header lies, and its fields (Table 2-11A). -/
structure Header where
  magic : Nat
  iface : Nat
  len : Nat
  sec : Nat
  slot : Nat
  cls : Nat
  minRev : Nat
  deriving DecidableEq, Repr

def headerAt (m : Mem) (a : Nat) : Header :=
  { magic := readLe m a 4, iface := readLe m (a + 6) 2, len := readLe m (a + 8) 4, sec := readLe m (a + 12) 4
    slot := readLe m (a + 28) 1, cls := readLe m (a + 29) 1, minRev := readLe m (a + 30) 2 }

/-- R39: key classes by life-cycle state. -/
def classAccepted (l : LifeCycle) (cls : Nat) : Bool :=
  match l with
  | .manufacture | .secured | .service => cls == 0
  | .retirn => cls == 1
  | .retired => false

/-- R38: a public key at an address hashes to the digest of a slot that is not revoked. -/
def keyGood (m : Mem) (a slot : Nat) (s : State) : Bool :=
  decide (slot < 4) && !bit s.fuse.revoked slot && s.fuse.keyDigests[slot]? == some (BitVec.ofNat 384 (sha384 (readBytes m a 97)))

/-- R38: the image's signature, over all its bytes with offsets 256 to 351 taken as zero. -/
def imageSigned (m : Mem) (a len : Nat) : Bool :=
  signatureGood (readBytes m (a + 32) 97)
    (sha384 (readBytes m a 256 ++ List.replicate 96 0 ++ readBytes m (a + 352) (len - 352))) (readBytes m (a + 256) 96)

/-- R38, Table 2-6: the first check an image of a given length at an address fails, none when it passes. -/
def imageError (m : Mem) (a len : Nat) (s : State) : Option Nat :=
  let h := headerAt m a
  if h.magic ≠ 0x4E53524B then some 0x01
  else if len < 4096 ∨ len % 4 ≠ 0 ∨ 0x800000 < len ∨ len ≠ h.len then some 0x02
  else if h.iface ≠ 3 ∨ s.fuse.siRev < h.minRev then some 0x03
  else if keyGood m (a + 32) h.slot s = false then some 0x04
  else if imageSigned m a len = false then some 0x05
  else if h.sec < s.fuse.floor then some 0x06
  else if classAccepted s.stone.lifeCycle h.cls = false then some 0x07
  else none

/-- VERIFY_DONE (R38). -/
def execVerifyDone (t : DT) (_ _ : Unit) (s : State) : Out :=
  let s := advance t s
  .next (if s.stone.stage = .verify then
    match imageError s.sram 0 s.stone.bootLen s with
    | some e => modStone (fun x => { x with stage := .waitImage, error := e, src := .none }) (dropImage s)
    | none => modStone (fun x => { x with stage := .waitDram, imageLen := x.bootLen }) s
  else s)

/-- KORSYN_START (R33): the steward leaves reset; ADPLL-F runs at 0.64 GHz. -/
def execKorsynStart (t : DT) (s : State) : Out :=
  let s := advance t s
  .next (if s.stone.stage = .waitDram ∧ s.stone.dramWiped = true then
    let s := modPll 1 (fun c => { c with xtal := !s.clock.refOk }) s
    let s := [0, 3].foldl (fun s n => modPll n (fun c => { c with xtal := !s.clock.refOk }) s) s
    pllBegin 1 640000 (modStone (fun x => { x with stage := .start, startAt := s.dt }) s)
  else s)

/-- Table 2-14: the bootstrap rings. -/
def bootstrapRings : Table Ring :=
  [(0, { created := true, kind := .command, log2 := 8, location := 3, entrySize := 64, base := 0x800000, pair := 1 }),
   (1, { created := true, kind := .completion, log2 := 8, location := 3, entrySize := 16, base := 0x804000 }),
   (2, { created := true, kind := .event, log2 := 8, location := 3, entrySize := 32, base := 0x805000 })]

/-- R345: visits of a kind come every period / H. -/
def visitSpacing (period healthy : Nat) : Nat := period * tkS / max 1 healthy

/-- KORSYN_READY (R34): rings, whose memory it zeroes (R44), descriptor, IFACE_LEVEL, EV_READY with its message, and the pad counts of R94. -/
def execKorsynReady (t : DT) (s : State) : Out :=
  let s := advance t s
  .next (if s.stone.stage = .start then
    let s := pllRun 1 640000 s
    let s := modStone (fun x => { x with
      stage := .ready, ifaceLevel := 3, src := .none, runSec := (headerAt s.sram 0).sec }) s
    let s := { s with steward := { s.steward with running := true, bootDt := s.dt }, rings := bootstrapRings
                      sram := zeroRange 0x800000 0x7000 s.sram
                      health := { s.health with
                        pipDue := dtAdd s.dt (visitSpacing s.health.pipPeriod (pipsHealthy s))
                        curDue := dtAdd s.dt (visitSpacing s.health.curPeriod (currantsHealthy s)) } }
    let s := each ((List.range 4).filter fun n => rfPresent n s)
      (fun n s => modRf n (fun c => { c with padCount := otpFloor n s + 1 }) s) s
    event 0x0101 0 0xFFFF [] (rewriteCaps s)
  else s)

/-- START_TIMEOUT (R34). -/
def execStartTimeout (t : DT) (s : State) : Out :=
  let s := advance t s
  .next (if s.stone.stage = .start ∧ 500 * tkMs ≤ dtSub s.dt s.stone.startAt then
    modStone (fun x => { x with stage := .haltError, error := 0x08 }) s else s)

/-! ## PERST_N and the supply (R33, R385, R392) -/

/-- PERST_N_ASSERT (R30): only the endpoint and its configuration space. -/
def execPerstNAssert (t : DT) (s : State) : Out :=
  let s := advance t s
  .next (modStone (fun x => { x with perstN := false }) { s with pcie := { s.pcie with
    link := false, masked := [], pendingVecs := [], pf0D3 := false, aer := 0, wakeRequest := false } })

/-- PERST_N_RELEASE (R33). -/
def execPerstNRelease (t : DT) (s : State) : Out :=
  let s := advance t s
  .next (if s.stone.perstN then s
  else resumeRings (modStone (fun x => { x with perstN := true }) { s with pcie := { s.pcie with link := true } }))

/-- RAIL_UNDERVOLTAGE (R385). -/
def execRailUndervoltage (t : DT) (s : State) : Out :=
  let s := advance t s
  .next (if s.stone.porN then holdReset .undervoltage s else s)

/-- RAIL_RECOVERY (R385, R396). -/
def execRailRecovery (t : DT) (s : State) : Out :=
  let s := advance t s
  .next (if s.stone.hold = .undervoltage ∨ s.stone.hold = .both then holdEnd .undervoltage s else s)

/-- THERMAL_TRIP (R392). -/
def execThermalTrip (t : DT) (s : State) : Out :=
  let s := advance t s
  .next (if s.stone.porN then holdReset .thermal s else s)

/-- THERMAL_HOLD_END (R392): 10 s after the trip. -/
def execThermalHoldEnd (t : DT) (s : State) : Out :=
  let s := advance t s
  .next (if (s.stone.hold = .thermal ∨ s.stone.hold = .both) ∧ 10 * tkS ≤ dtSub s.dt s.stone.seqStart then holdEnd .thermal s else s)

/-! ## BOOT_CTRL (Table 2-4) -/

/-- R41: GO from a source; the other source's GO is discarded and flagged. -/
def goFrom (src : Source) (s : State) : State :=
  if s.stone.stage ≠ .waitImage then s
  else if s.stone.src ≠ .none ∧ s.stone.src ≠ src then stoneFlag errStageClaim s
  else modStone (fun x => { x with stage := .verify, error := 0 }) s

/-- R41: ABORT discards the staged image and the claim. -/
def abortImage (s : State) : State :=
  if s.stone.stage = .waitImage then modStone (fun x => { x with src := .none }) (dropImage s) else s

/-- A write of BOOT_CTRL: DEV_RESET with its key, SPI_ENABLE, ABORT and GO (DEDUCED, unsafe: log 47: in this order). -/
def bootCtrlWrite (v : U32) (s : State) : State :=
  let n := v.toNat
  if !bar0Serves s then s
  else if bit n 8 then
    if n / 2 ^ 24 = 0xA5 then deviceReset false (laserCut s) else stoneFlag errResetKey s
  else
    let s := modStone (fun x => { x with spiEnable := bit n 4 }) s
    let s := if bit n 1 then abortImage s else s
    if bit n 0 then goFrom .pcie s else s

/-- BOOT_CTRL_DEV_RESET (R30), GO (R38), ABORT (R41) and SPI_ENABLE (R397): a write of BOOT_CTRL. -/
def execBootCtrlDevReset (t : DT) (value : U32) (s : State) : Out := .next (bootCtrlWrite value (advance t s))
def execGo (t : DT) (value : U32) (s : State) : Out := .next (bootCtrlWrite value (advance t s))
def execAbort (t : DT) (value : U32) (s : State) : Out := .next (bootCtrlWrite value (advance t s))
def execSpiEnable (t : DT) (value : U32) (s : State) : Out := .next (bootCtrlWrite value (advance t s))

/-- R35: the upper half of DT is latched by a read of DT_SNAP_LO. -/
def dtLatch (s : State) : State := modStone (fun x => { x with dtSnapHi := BitVec.ofNat 32 (s.dt.toNat / 2 ^ 32) }) s

/-- CAP_FUSE0 to CAP_FUSE3 (Table 2-9). -/
def capFuse (n : Nat) (s : State) : Nat :=
  let f := s.fuse
  match n with
  | 0 => 0x9610 * 2 ^ 16 + f.siRev * 2 ^ 8 + f.variant
  | 1 => f.pips % 2 ^ 32
  | 2 => f.currants * 2 ^ 4 + f.pips / 2 ^ 32
  | _ => b2n f.presetOnly * 2 ^ 20 + f.dram * 2 ^ 16 + b2n f.display * 2 ^ 15 + f.dacs * 2 ^ 8 + f.orx * 2 ^ 4 + f.rf

/-- What an aligned 32-bit read of a stone register below the doorbells returns (Tables 2-3 to 2-10); 0 at an offset that
Table 2-3 does not list. -/
def stoneWord (offset : Nat) (s : State) : Nat :=
  match offset with
  | 0x00 => 16 * b2n s.stone.spiEnable
  | 0x04 => bootStat s
  | 0x08 => s.stone.bootLen
  | 0x0C => lcCode s.stone.lifeCycle + 8 * b2n s.stone.scanEn
  | 0x10 => capFuse 0 s
  | 0x14 => capFuse 1 s
  | 0x18 => capFuse 2 s
  | 0x1C => capFuse 3 s
  | 0x20 => s.dt.toNat % 2 ^ 32
  | 0x24 => s.stone.dtSnapHi.toNat
  | 0x28 => s.stone.wakeCtrl.toNat
  | 0x2C => s.stone.wakeStat.toNat
  | 0x30 => s.stone.stoneErr.toNat
  | _ => 0

/-- DT_SNAP_LO_READ (R35). -/
def execDtSnapLoRead (t : DT) (s : State) : Out :=
  let s := advance t s
  .next (if bar0Serves s then answer (leBytes 4 (stoneWord 0x20 s)) (dtLatch s) else s)

/-- R41, R315, R373: a read of BAR2 by the host: from START on the staging range gives the running image. The command table has
no row for it (DESIGN CHOICE, safe: log 85). -/
def bar2Read (offset len : Nat) (s : State) : State :=
  if !bar0Serves s || asleep s then s else answer (readBytes s.sram offset len) s

/-! ## Staging (R33, R41, R315) -/

/-- A staging write in WAIT_IMAGE: the first one claims; the other source is flagged; what lies beyond staging is not
stored. PCIe takes a claim that BOOT_SPI made at the same DT, and what BOOT_SPI wrote is discarded and flagged. -/
def stageWrite (src : Source) (offset : Nat) (bytes : List Byte) (s : State) : State :=
  let store := fun s => modStone (fun x => { x with src := src, claimAt := if x.src = src then x.claimAt else s.dt })
    { s with sram := writeBytes s.sram offset (bytes.take (stagingSize - offset)) }
  if s.stone.src ≠ .none ∧ s.stone.src ≠ src then
    if src = .pcie ∧ s.stone.claimAt = s.dt then store (stoneFlag errStageClaim (dropImage s)) else stoneFlag errStageClaim s
  else store s

/-- R41: a staging write in any stage: outside WAIT_IMAGE it is discarded, and flagged where the other source has the
claim, which lasts until READY. -/
def stageFrom (src : Source) (offset : Nat) (bytes : List Byte) (s : State) : State :=
  if s.stone.stage = .waitImage then stageWrite src offset bytes s
  else if s.stone.src ≠ .none ∧ s.stone.src ≠ src then stoneFlag errStageClaim s
  else s

/-- R296, Table 16-2: Vector Control of an MSI-X table entry was written: bit 0 masks it; a pending vector that is
unmasked sends one message. -/
def vectorControl (function vector : Nat) (mask : Bool) (s : State) : State :=
  let key := 64 * function + vector
  if mask then
    { s with pcie := { s.pcie with masked := if s.pcie.masked.contains key then s.pcie.masked else s.pcie.masked ++ [key] } }
  else
    let due := s.pcie.pendingVecs.contains key
    let s := { s with pcie := { s.pcie with masked := s.pcie.masked.filter (· != key)
                                            pendingVecs := s.pcie.pendingVecs.filter (· != key) } }
    if due then sendMsi function vector s else s

/-- The MSI-X table of PF0 in BAR2. -/
def vectorsWritten (offset : Nat) (bytes : List Byte) (s : State) : State :=
  each ((List.range 64).filter fun v =>
      decide (offset ≤ 0xFF0000 + 16 * v + 12) && decide (0xFF0000 + 16 * v + 12 < offset + bytes.length))
    (fun v s => vectorControl 0 v (bit (readByte s.sram (0xFF0000 + 16 * v + 12)).toNat 0) s) s

/-- IMAGE_STAGING_WRITE: a write to BAR2 (R33, R41, R315, R373). Below 0x80_0000 it is staging, discarded outside
WAIT_IMAGE; above lie the rings and the MSI-X table. -/
def execImageStagingWrite (t : DT) (offset : Nat) (bytes : List Byte) (s : State) : Out :=
  let s := advance t s
  .next (if !bar0Serves s || asleep s then s
  else if !s.stone.sramWiped then stoneFlag errEarlyWrite s
  else if offset < stagingSize then stageFrom .pcie offset bytes s
  else vectorsWritten offset bytes { s with sram := writeBytes s.sram offset (bytes.take (0x1000000 - offset)) })

/-! ## BOOT_SPI (Table 2-12, R397) -/

/-- R397: a transaction of the right length acts in WAIT_IMAGE with SPI_ENABLE = 1; a wrong byte count is flagged in
every stage. -/
def spiActs (count : Bool) (act idle : State → State) (s : State) : State :=
  if !s.stone.porN then s
  else if !count then stoneFlag errSpiFrame s
  else if s.stone.stage = .waitImage ∧ s.stone.spiEnable = true then act s else idle s

/-- BOOT_SPI_WRITE_STAGING (0x02): a 3-byte offset, then data; an offset with no data byte counts as a wrong byte count.
(DESIGN CHOICE, unsafe: log 73.) -/
def execBootSpiWriteStaging (t : DT) (bytes : List Byte) (s : State) : Out :=
  .next (spiActs (decide (4 ≤ bytes.length))
    (stageWrite .spi (leNat (bytes.take 3)) (bytes.drop 3)) (fun s => s) (advance t s))

/-- BOOT_SPI_READ_STAGING (0x0B): a 3-byte offset and a dummy byte; a discarded one returns zero bytes. -/
def execBootSpiReadStaging (t : DT) (bytes : List Byte) (len : Nat) (s : State) : Out :=
  .next (spiActs (decide (bytes.length = 4))
    (fun s =>
      let a := leNat (bytes.take 3)
      answer ((readBytes s.sram a len).zipIdx.map fun b => if a + b.2 < stagingSize then b.1 else 0) s)
    (answer (List.replicate len 0)) (advance t s))

/-- BOOT_SPI_READ_STATUS (0x05): in every stage. -/
def execBootSpiReadStatus (t : DT) (bytes : List Byte) (s : State) : Out :=
  let s := advance t s
  .next (if !s.stone.porN then s
  else if bytes ≠ [] then stoneFlag errSpiFrame s else answer (leBytes 4 (bootStat s)) s)

/-- BOOT_SPI_WRITE_BOOT_LEN (0x31). -/
def execBootSpiWriteBootLen (t : DT) (bytes : List Byte) (s : State) : Out :=
  .next (spiActs (decide (bytes.length = 4))
    (modStone fun x => { x with bootLen := leNat bytes % 2 ^ 24 }) (fun s => s) (advance t s))

/-- BOOT_SPI_GO (0x3A). -/
def execBootSpiGo (t : DT) (bytes : List Byte) (s : State) : Out :=
  .next (spiActs bytes.isEmpty (goFrom .spi) (fun s => s) (advance t s))

/-- BOOT_SPI_ABORT (0x3B). -/
def execBootSpiAbort (t : DT) (bytes : List Byte) (s : State) : Out :=
  .next (spiActs bytes.isEmpty abortImage (fun s => s) (advance t s))

/-- BOOT_SPI_UNKNOWN_TRANSACTION (R397). A first byte of Table 2-12 is no unknown one. -/
def execBootSpiUnknownTransaction (t : DT) (first : Byte) (s : State) : Out :=
  let s := advance t s
  .next (if s.stone.porN && !([0x02, 0x0B, 0x05, 0x31, 0x3A, 0x3B] : List Byte).contains first then stoneFlag errSpiFrame s else s)

/-! ## The BAR4 window (R32, R316, Table 15-3) -/

/-- An AER uncorrectable non-fatal error on PF0. -/
def aerReport (s : State) : State := { s with pcie := { s.pcie with aer := s.pcie.aer + 1 } }

/-- Completer abort. -/
def completerAbort (s : State) : State := aerReport { s with pcie := { s.pcie with readData := none } }

/-- R308: a byte range touches a poisoned word. -/
def poisonedIn (a n : Nat) (s : State) : Bool := s.memCtl.poisoned.any fun w => decide (w < a + n) && decide (a < w + 8)

/-- R302: a DRAM access wakes the DRAM. -/
def dramTouch (s : State) : State := { s with memCtl := { s.memCtl with selfRefresh := false, lastRequest := s.dt } }

/-- R73, R304: an absence of ADPLL-M, or a point change under way, stalls DRAM requests. -/
def dramStalled (s : State) : Bool := (getPll 2 s).absent.isSome || s.memCtl.change.any fun c => c.2.2.2.isSome

/-- A BAR4 read is served: completer abort where a word is poisoned (R308). -/
def bar4Serve (a len : Nat) (s : State) : State :=
  if poisonedIn a len s then completerAbort (dramTouch s) else answer (readBytes s.dram a len) (dramTouch s)

/-- A BAR4 access that the stalled DRAM holds: bytes to read, bytes to write. -/
def bar4Hold (a len : Nat) (bytes : List Byte) (s : State) : State :=
  { s with pcie := { s.pcie with stalled := s.pcie.stalled ++ [(a, len, bytes)] } }

/-- R73, R304: the accesses that the stalled DRAM held are served, in their order. -/
def dramResumed (s : State) : State :=
  if dramStalled s then s
  else each s.pcie.stalled (fun r s => if r.2.2 = [] then bar4Serve r.1 r.2.1 s else storeAt 2 r.1 r.2.2 (dramTouch s))
    { s with pcie := { s.pcie with stalled := [] } }

/-- BAR4_READ; the range is judged before the wipe (R316 before R32). (DESIGN CHOICE, unsafe: log 74.) -/
def execBar4Read (t : DT) (offset len : Nat) (s : State) : Out :=
  let s := advance t s
  let a := s.pcie.windowBase + offset
  .next (if !bar0Serves s then s
  else if asleep s then answer (List.replicate len 0) s
  else if hostDram s < a + len then completerAbort s
  else if !s.stone.dramWiped then answer (List.replicate len 0) s
  else if dramStalled s then bar4Hold a len [] s
  else bar4Serve a len s)

/-- BAR4_WRITE. -/
def execBar4Write (t : DT) (offset : Nat) (bytes : List Byte) (s : State) : Out :=
  let s := advance t s
  let a := s.pcie.windowBase + offset
  .next (if !bar0Serves s || asleep s then s
  else if hostDram s < a + bytes.length then aerReport s
  else if !s.stone.dramWiped then s
  else if dramStalled s then bar4Hold a bytes.length bytes s
  else storeAt 2 a bytes (dramTouch s))

end Sys2Proof.Machine
end

