-- ==== Sys2Proof/Machine/DmaUnit.lean ====
section
/-! DEFINITION. Host DMA channels: binding, programs, transfers, request lines (14_dma_and_rings.md R275 to R293). -/

namespace Sys2Proof.Machine

/-! ## Causes (Table 14-9) -/

def dmaReadErr : Nat := 1
def dmaWriteErr : Nat := 2
def dmaFetchErr : Nat := 3
def dmaBadOp : Nat := 4
def dmaBadField : Nat := 5
def dmaLineErr : Nat := 6
def dmaRingErr : Nat := 7
def dmaSemErr : Nat := 8

/-- Position register: [39:0] address, [41:40] space. -/
def dmaPosition (c : Channel) : Nat := c.pos % 2 ^ 40 + c.posSpace * 2 ^ 40

/-- R290: the channel stands at an instruction boundary with a stop pending: it stops and the command completes. -/
def dmaSettle (n : Nat) (s : State) : State :=
  match (getChan n s).stopRef with
  | some r =>
    let s := modChan n (fun c => { c with stopRef := none, state := if c.state = 5 then 5 else 4, wait := none }) s
    ok r 0 s
  | none => s

/-- R288: the channel stops at its instruction with a cause. -/
def dmaStop (n cause : Nat) (s : State) : State :=
  let s := modChan n (fun c => { c with state := 5, cause := cause, done := false, transfer := none, wait := none }) s
  let c := getChan n s
  dmaSettle n (event 0x1401 2 n [(16, 1, n), (17, 1, cause), (20, 4, sat 4 c.remaining), (24, 8, dmaPosition c)] s)

/-! ## Fetch (R278) -/

/-- A DRAM byte range lies in usable capacity. -/
def inDram (a n : Nat) (s : State) : Bool := decide (a + n ≤ dramUsable s)

/-- Host memory can be reached through the channel's function. -/
def dmaHostUp (c : Channel) (s : State) : Bool := s.pcie.link && (!c.pf1 || s.pcie.pf1Enabled)

/-- The instruction word at the position. -/
def dmaWordAt (c : Channel) (s : State) : Nat :=
  if c.posSpace = 0 then readLe s.dram c.pos 16 else readLe s.host (c.hostBase + c.pos) 16

/-- The channel executes instructions: it runs, and neither a transfer nor a WAIT is under way. -/
def dmaReady (c : Channel) : Bool := c.isSet && c.state == 1 && c.transfer.isNone && c.wait.isNone

/-- The position cannot be fetched: beyond capacity or poisoned. -/
def dmaNoFetch (c : Channel) (s : State) : Bool :=
  c.posSpace == 0 && (!inDram c.pos 16 s || poisonedIn c.pos 16 s)

/-- R73, R287: a list, like an instruction, waits for a DRAM that stalls and for a host that cannot be reached. -/
def spaceWaits (c : Channel) (space : Nat) (s : State) : Bool :=
  (space == 0 && dramStalled s) || (space == 1 && !dmaHostUp c s)

/-- The channel stands at this instruction: run it. A failed fetch stops the channel; anything else only lets time
pass (DESIGN CHOICE, unsafe: log 9). -/
def dmaFetch (t : DT) (n op : Nat) (word : U128) (run : Channel → State → State) (s : State) : State :=
  let s := advance t s
  let c := getChan n s
  if !dmaReady c || spaceWaits c c.posSpace s then s
  else if dmaNoFetch c s then dmaStop n dmaFetchErr s
  else if dmaWordAt c s = word.toNat ∧ word.toNat % 16 = op then run c s else s

/-- Bits [hi:lo] of an instruction. -/
def wbits (w : U128) (hi lo : Nat) : Nat := w.toNat / 2 ^ lo % 2 ^ (hi + 1 - lo)

/-- On to the next instruction. -/
def dmaNext (n : Nat) (s : State) : State :=
  modChan n (fun c => { c with pos := c.pos + 16, refetch := false, done := true }) s

/-! ## Bindings (R276, R284, R285) -/

def boundLine (c : Channel) (line : Nat) : Bool := c.lines.contains line && line != 0xFFFF
def boundProd (c : Channel) (ring : Nat) : Bool := c.prodRings.contains ring && ring != 0xFFFF
def boundCons (c : Channel) (ring : Nat) : Bool := c.consRings.contains ring && ring != 0xFFFF

/-- Table 14-5: burst in bytes of a line; 0 for any size. -/
def lineBurst (line : Nat) : Nat :=
  if line < 16 then 4096 else if line < 36 then 64 else if line < 40 then 4096 else if line < 96 then 16
  else if line < 102 then 64 else if line = 102 then 16 else if line < 112 then 64 else if line < 116 then 16 else 0

/-- Table 14-5: lines that exist. -/
def lineListed (line : Nat) : Bool :=
  decide (line ≤ 44) || (decide (48 ≤ line) && decide (line ≤ 102)) || (decide (104 ≤ line) && decide (line ≤ 115)) ||
    (decide (120 ≤ line) && decide (line ≤ 131)) || (decide (256 ≤ line) && decide (line ≤ 511))

/-- Table 14-5: lines the host may bind. -/
def lineHost (line : Nat) : Bool :=
  line == 112 || line == 113 || (decide (120 ≤ line) && decide (line ≤ 131)) || (decide (256 ≤ line) && decide (line ≤ 447))

/-! ## Transfers (R279 to R281) -/

/-- Ring number and byte offset of a ring-space address. -/
def ringOf (a : Nat) : Nat := a % 2 ^ 13
def ringOffset (a : Nat) : Nat := a / 2 ^ 16

/-- Free entries of a ring. -/
def ringFree (r : Ring) : Nat := ringSize r - ringHeld r

/-- What is wrong with one side of a transfer: a field, a port that is not bound, or a ring it reaches past. -/
def sideError (c : Channel) (isDst aligned : Bool) (space a n : Nat) (s : State) : Option Nat :=
  if space = 2 then (if boundLine c a && (a == 112 || a == 113) then none else some dmaLineErr)
  else if space = 3 then
    let r := getRing (ringOf a) s
    if a / 2 ^ 13 % 8 ≠ 0 ∨ (aligned = true ∧ ringOffset a % 4 ≠ 0) then some dmaBadField
    else if !(if isDst then boundProd c (ringOf a) else boundCons c (ringOf a)) then some dmaRingErr
    else if (if isDst then ringFree r else ringHeld r) * r.entrySize < ringOffset a + n then some dmaRingErr
    else none
  else if (aligned = true ∧ a % 4 ≠ 0) ∨ (space = 1 ∧ 2 ^ 40 < a + n) then some dmaBadField
  else none

/-- R279, R285, Table 14-3: the fields every transfer shares. -/
def transferError (c : Channel) (w : U128) : Option Nat :=
  let line := wbits w 20 12
  let burst := wbits w 11 8
  if wbits w 7 6 ≠ 0 ∨ 8 < burst ∨ wbits w 43 21 = 0 then some dmaBadField
  else if bit w.toNat 4 then
    (if !boundLine c line then some dmaLineErr
     else if lineBurst line ≠ 0 ∧ lineBurst line ≠ 16 * 2 ^ burst then some dmaBadField else none)
  else none

/-- The transfer starts: its pieces wait for their bursts. -/
def dmaBegin (n : Nat) (w : U128) (pieces : List (Nat × Nat × Nat × Nat × Nat)) (s : State) : State :=
  let total := (pieces.map fun p => p.2.2.2.2).sum
  modChan n (fun c => { c with
    transfer := some { pieces := pieces, burst := 16 * 2 ^ wbits w 11 8, req := bit w.toNat 4, line := wbits w 20 12
                       flush := pieces.any fun p => p.2.2.1 == 1 }
    remaining := total, done := false, refetch := false }) s

/-- MOVE. -/
def dmaMove (n : Nat) (w : U128) (c : Channel) (s : State) : State :=
  let len := wbits w 43 21
  let src := wbits w 85 46
  let dst := wbits w 127 88
  let srcSpace := wbits w 45 44
  let dstSpace := wbits w 87 86
  match ((transferError c w).or (if len % 4 ≠ 0 then some dmaBadField else none)).or
      ((sideError c false true srcSpace src len s).or (sideError c true true dstSpace dst len s)) with
  | some cause => dmaStop n cause s
  | none => dmaBegin n w [(srcSpace, src, dstSpace, dst, len)] s

/-- One list element (R280): space, address, bytes; none when it breaks its format. -/
def listElement (v : Nat) : Option (Nat × Nat × Nat) :=
  let len := v / 2 ^ 64 % 2 ^ 32
  if v / 2 ^ 42 % 2 ^ 22 ≠ 0 ∨ v / 2 ^ 96 ≠ 0 ∨ len % 4 ≠ 0 ∨ len = 0 ∨ 16777212 < len then none
  else some (v / 2 ^ 40 % 4, v % 2 ^ 40, len)

/-- The elements of a list. -/
def listElements (c : Channel) (space a count : Nat) (s : State) : List (Option (Nat × Nat × Nat)) :=
  (List.range count).map fun i =>
    listElement (if space = 0 then readLe s.dram (a + 16 * i) 16 else readLe s.host (c.hostBase + a + 16 * i) 16)

/-- Start addresses of consecutive runs of the given lengths, in the contiguous side's space. -/
def runs (space : Nat) : Nat → List Nat → List Nat
  | _, [] => []
  | a, n :: rest => a :: runs space (if space = 3 then a + n * 2 ^ 16 else if space = 2 then a else a + n) rest

/-- The list of a GATHER or SCATTER: its elements, or what is wrong. -/
def dmaList (c : Channel) (w : U128) (s : State) : Nat ⊕ List (Nat × Nat × Nat) :=
  let space := wbits w 45 44
  let a := wbits w 85 46
  let count := wbits w 43 21
  let items := listElements c space a count s
  match transferError c w with
  | some e => .inl e
  | none =>
    if 1 < space ∨ (space = 1 ∧ 2 ^ 40 < a + 16 * count) then .inl dmaBadField
    else if space = 0 ∧ (inDram a (16 * count) s = false ∨ poisonedIn a (16 * count) s = true) then .inl dmaReadErr
    else if items.any (·.isNone) then .inl dmaBadField
    else .inr (items.filterMap id)

/-- GATHER: the elements, in order, to a contiguous destination. -/
def dmaGather (n : Nat) (w : U128) (c : Channel) (s : State) : State :=
  if spaceWaits c (wbits w 45 44) s then s
  else match dmaList c w s with
  | .inl e => dmaStop n e s
  | .inr items =>
    let dst := wbits w 127 88
    let dstSpace := wbits w 87 86
    let lens := items.map fun i => i.2.2
    match (sideError c true false dstSpace dst lens.sum s).or
        (items.findSome? fun i => sideError c false false i.1 i.2.1 i.2.2 s) with
    | some e => dmaStop n e s
    | none => dmaBegin n w ((items.zip (runs dstSpace dst lens)).map fun i => (i.1.1, i.1.2.1, dstSpace, i.2, i.1.2.2)) s

/-- SCATTER: a contiguous source to the elements. The spec gives the source no address (Table 14-3 ignores DST and reads
SRC as the list), so its bytes are free (DEDUCED, safe: log 48): source space 2 as for a port. -/
def dmaScatter (n : Nat) (w : U128) (c : Channel) (s : State) : State :=
  if spaceWaits c (wbits w 45 44) s then s
  else match dmaList c w s with
  | .inl e => dmaStop n e s
  | .inr items =>
    match items.findSome? fun i => sideError c true false i.1 i.2.1 i.2.2 s with
    | some e => dmaStop n e s
    | none => dmaBegin n w (items.map fun i => (2, 0, i.1, i.2.1, i.2.2)) s

/-! ## Bursts (R280, R285, R287, R288) -/

/-- n free bytes: what a peripheral port gives (DESIGN CHOICE, safe: log 4). -/
def drawBytes : Nat → State → List Byte × State
  | 0, s => ([], s)
  | n + 1, s =>
    let r := draw s
    let q := drawBytes n r.2
    (BitVec.ofNat 8 r.1 :: q.1, q.2)

/-- The address of byte k of a ring-space address, in the ring's location. -/
def ringByte (index k : Nat) (r : Ring) : Nat := entryAddr r (index + k / r.entrySize) + k % r.entrySize

/-- Read bytes of a side. -/
def sideRead (c : Channel) (space a n : Nat) (s : State) : List Byte × State :=
  if space = 0 then (readBytes s.dram a n, s)
  else if space = 1 then (readBytes s.host (c.hostBase + a) n, s)
  else if space = 2 then drawBytes n s
  else
    let r := getRing (ringOf a) s
    let m := if r.location < 2 then s.host else if r.location = 2 then s.dram else s.sram
    ((List.range n).map fun i => readByte m (ringByte r.cons.toNat (ringOffset a + i) r), s)

/-- Write bytes to a side; a port's data leaves the device. -/
def sideWrite (c : Channel) (space a : Nat) (bytes : List Byte) (s : State) : State :=
  if space = 0 then storeAt 2 a bytes s
  else if space = 1 then toHost (c.hostBase + a) bytes s
  else if space = 2 then s
  else
    let r := getRing (ringOf a) s
    each bytes.zipIdx (fun b s => storeAt r.location (ringByte r.prod.toNat (ringOffset a + b.2) r) [b.1] s) s

/-- A side's address n bytes on. -/
def sideStep (space a n : Nat) : Nat := if space = 3 then a + n * 2 ^ 16 else if space = 2 then a else a + n

/-- R277: the bursts of the last 10 µs. -/
def recentBursts (c : Channel) (now : DT) : List (DT × Nat) := c.recent.filter fun b => decide (dtSub now b.1 < 10 * tkUs)

/-- R277: a burst of so many bytes keeps an admitted channel at RATE in any 10 µs; one larger than what RATE gives in 10 µs
waits until the bursts before it are paid for (DEDUCED, unsafe: log 61). -/
def rateAllows (c : Channel) (len : Nat) (now : DT) : Bool :=
  c.rate == 0 || decide ((((recentBursts c now).map (·.2)).sum + len) * 100000 ≤ c.rate) ||
    ((recentBursts c now).isEmpty && c.recent.all fun b => decide (b.2 * tkS ≤ dtSub now b.1 * c.rate))

/-- A burst can be issued: its request is there, RATE allows it, and host memory can be reached where it is used. -/
def burstReady (c : Channel) (x : Transfer) (s : State) : Bool :=
  (!x.req || decide (0 < tget 0 s.dma.lines x.line)) && (match x.pieces with
    | [] => false
    | p :: _ => rateAllows c (min x.burst p.2.2.2.2) s.dt && ((p.1 != 1 && p.2.2.1 != 1) || dmaHostUp c s))

/-- One burst: its request is consumed and its bytes are read, or are free when the read failed; a destination beyond
capacity takes none. -/
def burstMove (n : Nat) (c : Channel) (x : Transfer) (p : Nat × Nat × Nat × Nat × Nat) (lost : Bool) (s : State) : State :=
  let len := min x.burst p.2.2.2.2
  let s := if x.req then { s with dma := { s.dma with lines := tmod 0 s.dma.lines x.line (· - 1) } } else s
  let r := if lost then drawBytes len s else sideRead c p.1 p.2.1 len s
  let s := if p.2.2.1 = 0 ∧ inDram p.2.2.2.1 len s = false then r.2 else sideWrite c p.2.2.1 p.2.2.2.1 r.1 r.2
  let rest := p.2.2.2.2 - len
  let left := (p.1, sideStep p.1 p.2.1 len, p.2.2.1, sideStep p.2.2.1 p.2.2.2.1 len, rest)
  modChan n (fun c => { c with
    remaining := c.remaining - len, moved := c.moved + len
    recent := if c.rate = 0 then [] else (recentBursts c s.dt) ++ [(s.dt, len)]
    transfer := some { x with pieces := if rest = 0 then x.pieces.drop 1 else left :: x.pieces.drop 1 } }) s

/-- DMA_BURST: while the DRAM stalls, no burst of it is served (R73, R304). A burst whose source is poisoned or beyond capacity stops the channel with READ_ERR, one whose
destination is beyond capacity with WRITE_ERR (R288, R297, R308). -/
def dmaBurst (n : Nat) (s : State) : State :=
  let c := getChan n s
  match c.transfer with
  | none => s
  | some x =>
    if !burstReady c x s then s
    else match x.pieces with
      | [] => s
      | p :: _ =>
        if (p.1 == 0 || p.2.2.1 == 0) && dramStalled s then s
        else
        let len := min x.burst p.2.2.2.2
        let bad := p.1 == 0 && (!inDram p.2.1 len s || poisonedIn p.2.1 len s)
        let out := p.2.2.1 == 0 && !inDram p.2.2.2.1 len s
        let s := burstMove n c x p bad (if p.1 == 0 || p.2.2.1 == 0 then dramTouch s else s)
        if bad then dmaStop n dmaReadErr s else if out then dmaStop n dmaWriteErr s else s

/-! ## Control instructions (R282 to R284, R293) -/

/-- LOOP. -/
def dmaLoop (n : Nat) (w : U128) (c : Channel) (s : State) : State :=
  let k := wbits w 5 4
  let back := wbits w 47 32
  if wbits w 7 6 ≠ 0 ∨ wbits w 127 48 ≠ 0 ∨ back = 0 ∨ c.pos < 16 * back then dmaStop n dmaBadField s
  else
    match (tget none c.counters k).getD (wbits w 31 8) with
    | 0 => dmaNext n (modChan n (fun c => { c with counters := tput none c.counters k none }) s)
    | v + 1 => modChan n (fun c => { c with
        counters := tput none c.counters k (some v), pos := c.pos - 16 * back, refetch := false, done := true }) s

/-- What is wrong with a WAIT. -/
def waitError (c : Channel) (w : U128) : Option Nat :=
  let kind := wbits w 5 4
  let obj := wbits w 44 32
  if wbits w 7 7 ≠ 0 ∨ wbits w 63 45 ≠ 0 ∨ (kind ≠ 3 ∧ wbits w 31 8 = 0) then some dmaBadField
  else if kind = 0 then (if boundLine c obj then none else some dmaLineErr)
  else if kind = 1 then (if obj < 768 then none else some dmaSemErr)
  else if kind = 2 then (if (if bit w.toNat 6 then boundCons c obj else boundProd c obj) then none else some dmaRingErr)
  else none

/-- R283: what a WAIT waits for is there. -/
def waitHolds (w : U128) (s : State) : Bool :=
  let kind := wbits w 5 4
  let obj := wbits w 44 32
  let count := wbits w 31 8
  if kind = 0 then decide (count ≤ tget 0 s.dma.lines obj)
  else if kind = 1 then decide (count ≤ tget 0 s.dma.semaphores obj)
  else if kind = 2 then decide (count ≤ (if bit w.toNat 6 then ringHeld (getRing obj s) else ringFree (getRing obj s)))
  else decide (wbits w 127 64 ≤ s.dt.toNat)

/-- R283: a WAIT passes: it consumes its requests or its semaphore units. -/
def waitPass (n : Nat) (w : U128) (s : State) : State :=
  let kind := wbits w 5 4
  let obj := wbits w 44 32
  let count := wbits w 31 8
  let s := if kind = 0 then { s with dma := { s.dma with lines := tmod 0 s.dma.lines obj (· - count) } }
    else if kind = 1 then { s with dma := { s.dma with semaphores := tmod 0 s.dma.semaphores obj (· - count) } } else s
  dmaNext n (modChan n (fun c => { c with state := 1, wait := none }) s)

/-- WAIT: kind 3 passes at once when its DT is past. -/
def dmaWait (n : Nat) (w : U128) (c : Channel) (s : State) : State :=
  match waitError c w with
  | some e => dmaStop n e s
  | none =>
    if wbits w 5 4 = 3 ∧ waitHolds w s = true then waitPass n w s
    else modChan n (fun c => { c with state := 2, wait := some w, done := false, refetch := false }) s

/-- R283: the lowest channel is served first: no lower channel could be satisfied from the same semaphore. -/
def waitFirst (n : Nat) (w : U128) (s : State) : Bool :=
  wbits w 5 4 != 1 || s.dma.channels.all fun c =>
    !(decide (c.1 < n) && c.2.wait.any fun v => wbits v 5 4 == 1 && wbits v 44 32 == wbits w 44 32 && waitHolds v s)

/-- SIGNAL. -/
def dmaSignal (n : Nat) (w : U128) (c : Channel) (s : State) : State :=
  let kind := wbits w 5 4
  let obj := wbits w 44 32
  let count := wbits w 31 8
  let r := getRing obj s
  if wbits w 7 7 ≠ 0 ∨ wbits w 63 45 ≠ 0 ∨ wbits w 127 96 ≠ 0 ∨ (kind ≠ 1 ∧ count = 0) then dmaStop n dmaBadField s
  else if kind = 0 then
    if bit w.toNat 6 then
      (if boundCons c obj && decide (count ≤ ringHeld r) then
        dmaNext n (modRing obj (fun r => { r with cons := r.cons + BitVec.ofNat 16 count }) s)
       else dmaStop n dmaRingErr s)
    else if boundProd c obj && decide (count ≤ ringFree r) then dmaNext n (publishMany obj count s)
    else dmaStop n dmaRingErr s
  else if kind = 1 then
    dmaNext n (event 0x1403 0 n [(16, 1, n), (20, 4, wbits w 95 64), (24, 8, dmaPosition c)] s)
  else if kind = 2 then
    if obj < 768 then
      dmaNext n { s with dma := { s.dma with semaphores := tmod 0 s.dma.semaphores obj fun v => min 65535 (v + count) } }
    else dmaStop n dmaSemErr s
  else if 256 ≤ obj ∧ obj ≤ 447 then dmaNext n (raiseLine obj count s)
  else dmaStop n dmaLineErr s

/-- LINK. -/
def dmaLink (n : Nat) (w : U128) (_ : Channel) (s : State) : State :=
  let a := wbits w 127 64
  let space := wbits w 5 4
  if wbits w 63 6 ≠ 0 ∨ 1 < space ∨ a % 16 ≠ 0 ∨ (space = 1 ∧ 2 ^ 40 ≤ a) then dmaStop n dmaBadField s
  else modChan n (fun c => { c with pos := a, posSpace := space, refetch := false, done := true }) s

/-- END: the channel parks, or fetches the address again when KICK is set; NOTIFY once per arrival. -/
def dmaEnd (n : Nat) (w : U128) (c : Channel) (s : State) : State :=
  let s := modChan n (fun c => if c.kick then { c with kick := false, refetch := true, done := true }
                               else { c with state := 3, done := true, refetch := false }) s
  if bit w.toNat 4 && !c.refetch then event 0x1402 0 n [(16, 1, n), (24, 8, dmaPosition c)] s else s

/-- R292, R293: a write to a channel's doorbell. -/
def dmaBell (n : Nat) (s : State) : State :=
  modChan n (fun c => if c.state = 3 then { c with state := 1, refetch := true } else { c with kick := true }) s

/-- The channel a doorbell number is bound to. -/
def bellChannel (number : Nat) (s : State) : Option Nat :=
  (s.dma.channels.find? fun c => c.2.isSet && c.2.doorbell == number).map (·.1)

/-! ## Commands (Table 14-8) -/

/-- The binding a DMA.SET describes. -/
def bindingOf (x : Ctx) : Channel :=
  { isSet := true, pf1 := x.u8 16 == 1, programSpace := x.u8 17, doorbell := x.u16 18
    lines := (List.range 4).map fun i => x.u16 (20 + 2 * i), prodRings := [x.u16 28, x.u16 30]
    consRings := [x.u16 32, x.u16 34], hostBase := x.u64 40, program := x.u64 48, rate := x.u64 56 }

/-- R276: a ring that a stream of Korsyn's uses, or that another channel is bound to. -/
def ringTaken (n ring : Nat) (s : State) : Bool :=
  let r := getRing ring s
  ring != 0xFFFF && (r.pair != 0xFFFF || r.stream.isSome || r.vdif.isSome || r.prodChannel.any (· != n) ||
    r.consChannel.any (· != n) || (streams (planned s)).any (·.ring == ring))

/-- R276: something the binding names is bound already. (DEDUCED, unsafe: log 61.) -/
def bindingTaken (n : Nat) (c : Channel) (s : State) : Bool :=
  let others := (s.dma.channels.filter fun o => o.1 != n && o.2.isSet).map (·.2)
  c.lines.any (fun l => l != 0xFFFF && (!lineHost l || others.any fun o => o.lines.contains l)) ||
    others.any (fun o => o.doorbell == c.doorbell) || (c.prodRings ++ c.consRings).any fun r => ringTaken n r s

/-- R276, R294: the rings of a channel name it, or no longer do. -/
def bindRings (n : Nat) (c : Channel) (s : State) : State :=
  let s := each (s.rings.map (·.1)) (fun k s => modRing k (fun r => { r with
    prodChannel := if r.prodChannel = some n then none else r.prodChannel
    consChannel := if r.consChannel = some n then none else r.consChannel }) s) s
  let s := each (c.prodRings.filter (· != 0xFFFF)) (fun k s => modRing k (fun r => { r with prodChannel := some n }) s) s
  each (c.consRings.filter (· != 0xFFFF)) (fun k s => modRing k (fun r => { r with consChannel := some n }) s) s

/-- DMA.SET (R276, R292). -/
def dmaSet : Cmd → State → State :=
  plainCommand 0x1401 (.below 224)
    (fun x s =>
      let c := bindingOf x
      let badRings := fun (l : List Nat) => l.any fun r => badRing r s
      [(16, decide (1 < x.u8 16)), (17, decide (1 < x.u8 17)),
       (18, decide (c.doorbell < 3) || decide (8191 < c.doorbell) || (getRing c.doorbell s).created),
       (20, c.lines.any fun l => l != 0xFFFF && !lineListed l), (28, badRings c.prodRings), (32, badRings c.consRings),
       (40, x.u64 40 % 4096 != 0), (48, x.u64 48 % 16 != 0)] ++ reserved x.e 36 40) fun x s =>
    let st := (getChan x.unit s).state
    if (st ≠ 0 ∧ st ≠ 4 ∧ st ≠ 5) ∨ bindingTaken x.unit (bindingOf x) s = true then fail x.ref stBusy 0 s
    else ok x.ref 0 (bindRings x.unit (bindingOf x) (modChan x.unit (fun _ => bindingOf x) s))

/-- R277: a channel with RATE above 0 is admitted when it starts. -/
def dmaAdmission (n : Nat) (s : State) : Option Nat :=
  if (getChan n s).rate = 0 then none
  else
    let plan := planned s
    brokenBudget plan (modChan n (fun c => { c with state := 1 }) plan) 0 0

/-- R290: the channel stops now, or at the end of its transfer. (DEDUCED, unsafe: log 61.) -/
def dmaHalt (n : Nat) (ref : CmdRef) (s : State) : State :=
  let c := getChan n s
  if c.transfer.isSome then
    (if c.stopRef.isSome then fail ref stBusy 0 s else modChan n (fun c => { c with stopRef := some ref }) s)
  else ok ref 0 (modChan n (fun c => { c with state := if c.state = 0 then 0 else 4, wait := none }) s)

/-- DMA.START (R277, R282, R290). -/
def dmaStart : Cmd → State → State :=
  plainCommand 0x1402 (.below 224)
    (fun x s => [(10, decide (x.unit < 224) && !(getChan x.unit s).isSet), (16, decide (2 < x.u8 16))] ++ reserved x.e 17 64)
    fun x s =>
    let c := getChan x.unit s
    if x.u8 16 = 0 then dmaHalt x.unit x.ref s
    else if c.state = 1 ∨ c.state = 2 then fail x.ref stBusy 0 s
    else match dmaAdmission x.unit s with
      | some r => fail x.ref stRefused r s
      | none =>
        ok x.ref 0 (modChan x.unit (fun c =>
          if x.u8 16 = 1 then { c with state := 1, counters := [], pos := c.program, posSpace := c.programSpace, moved := 0
                                       remaining := 0, done := false, refetch := false }
          else { c with state := 1, done := false, refetch := c.state == 3 }) s)

def dmaStatus : Cmd → State → State :=
  statusCommand 0x1403 (.below 224) (fun _ _ => false) (fun x s =>
    let c := getChan x.unit s
    leBytes 1 c.state ++ leBytes 1 (b2n c.done + 2 * b2n c.kick) ++ leBytes 1 c.cause ++ leBytes 5 0 ++
      leBytes 8 (dmaPosition c) ++ leBytes 8 c.remaining ++ leBytes 8 c.moved)

def dmaRequest : Cmd → State → State :=
  plainCommand 0x1404 .none
    (fun x _ => [(16, decide (x.u16 16 < 256) || decide (447 < x.u16 16)), (18, x.u16 18 == 0)] ++ reserved x.e 20 64) fun x s =>
    ok x.ref 0 (raiseLine (x.u16 16) (x.u16 18) s)

/-! ## Rows -/

def execDmaSet (c : Cmd) (s : State) : Out := .next (dmaSet c s)
def execDmaStart (c : Cmd) (s : State) : Out := .next (dmaStart c s)
def execDmaStatus (c : Cmd) (s : State) : Out := .next (dmaStatus c s)
def execDmaRequest (c : Cmd) (s : State) : Out := .next (dmaRequest c s)
def execDmaMove (t : DT) (channel : Nat) (word : U128) (s : State) : Out :=
  .next (dmaFetch t channel 1 word (dmaMove channel word) s)
def execDmaGather (t : DT) (channel : Nat) (word : U128) (s : State) : Out :=
  .next (dmaFetch t channel 2 word (dmaGather channel word) s)
def execDmaScatter (t : DT) (channel : Nat) (word : U128) (s : State) : Out :=
  .next (dmaFetch t channel 3 word (dmaScatter channel word) s)
def execDmaLoop (t : DT) (channel : Nat) (word : U128) (s : State) : Out :=
  .next (dmaFetch t channel 4 word (dmaLoop channel word) s)
def execDmaWait (t : DT) (channel : Nat) (word : U128) (s : State) : Out :=
  .next (dmaFetch t channel 5 word (dmaWait channel word) s)
def execDmaSignal (t : DT) (channel : Nat) (word : U128) (s : State) : Out :=
  .next (dmaFetch t channel 6 word (dmaSignal channel word) s)
def execDmaLink (t : DT) (channel : Nat) (word : U128) (s : State) : Out :=
  .next (dmaFetch t channel 7 word (dmaLink channel word) s)
def execDmaEnd (t : DT) (channel : Nat) (word : U128) (s : State) : Out :=
  .next (dmaFetch t channel 0 word (dmaEnd channel word) s)

/-- DMA_UNDEFINED_OP (R278). -/
def execDmaUndefinedOp (t : DT) (channel : Nat) (word : U128) (s : State) : Out :=
  .next (if 8 ≤ word.toNat % 16 then dmaFetch t channel (word.toNat % 16) word (fun _ s => dmaStop channel dmaBadOp s) s
  else advance t s)

/-- DMA_WAIT_SATISFIED (R283). -/
def execDmaWaitSatisfied (t : DT) (channel : Nat) (s : State) : Out :=
  let s := advance t s
  let c := getChan channel s
  match c.wait with
  | some w => .next (if c.state = 2 ∧ waitHolds w s = true ∧ waitFirst channel w s = true then waitPass channel w s else s)
  | none => .next s

/-- DMA_BURST (R280). -/
def execDmaBurst (t : DT) (channel : Nat) (s : State) : Out := .next (dmaBurst channel (advance t s))

/-- DMA_TRANSFER_DONE (R287): every response is in. -/
def execDmaTransferDone (t : DT) (channel : Nat) (s : State) : Out :=
  let s := advance t s
  let c := getChan channel s
  .next (if c.state = 1 ∧ c.transfer.any (fun x => x.pieces.isEmpty && (!x.flush || dmaHostUp c s)) = true then
    dmaSettle channel (dmaNext channel (modChan channel (fun c => { c with transfer := none }) s))
  else s)

/-- DMA_ERROR_RESPONSE (R288, R289): READ_ERR and WRITE_ERR during a transfer (its flush read included), FETCH between
instructions. The burst that fails, if one is still to come, was issued: its bytes at the destination are free. -/
def execDmaErrorResponse (t : DT) (channel cause : Nat) (s : State) : Out :=
  let s := advance t s
  let c := getChan channel s
  .next (match c.transfer with
    | some x =>
      if c.state = 1 ∧ (cause = 1 ∨ cause = 2) then
        let s := if burstReady c x s then
            match x.pieces with
            | p :: _ => burstMove channel c x p true s
            | [] => s
          else s
        dmaStop channel cause s
      else s
    | none => if dmaReady c = true ∧ cause = 3 then dmaStop channel cause s else s)

/-- REQUEST_LINE_REQUEST (R285). -/
def execRequestLineRequest (t : DT) (line : Nat) (s : State) : Out :=
  let s := advance t s
  .next (if lineListed line then raiseLine line 1 s else s)

end Sys2Proof.Machine
end

