-- ==== Sys2Proof/Machine/RingUnit.lean ====
section
/-! DEFINITION. DEV and RING commands, doorbells, stone register writes and interrupt messages
(02_startup_and_mailbox.md R35, R36, R43 to R48; 14_dma_and_rings.md R292 to R296; 16_host_and_network_links.md R316). -/

namespace Sys2Proof.Machine

/-! ## DEV -/

def devInfo : Cmd → State → State :=
  plainCommand 0x0101 .none (fun x _ => reserved x.e 16 64) fun x s =>
    ok x.ref (3 + 2 ^ 8 * s.fuse.siRev + 2 ^ 16 * s.fuse.variant + 2 ^ 24 * lcCode s.stone.lifeCycle) s

def devCaps : Cmd → State → State := statusCommand 0x0102 .none (fun _ _ => false) (fun _ s => capsBytes s)

/-- DEV.RESET: it completes before the reset takes effect; DENIED from the Ethernet endpoint (R328). -/
def devReset : Cmd → State → State :=
  takeCommand 0x0103 (pf0Only fun x s =>
    match badOffset (envelope false .none x ++ reserved x.e 16 64) with
    | some off => fail x.ref stBadArg off s
    | none => deviceReset false (laserCut (ok x.ref 0 s)))

def devSetWindow : Cmd → State → State :=
  plainCommand 0x0104 .none (fun x _ => (16, x.u64 16 % 2 ^ 30 != 0) :: reserved x.e 24 64) fun x s =>
    ok x.ref 0 { s with pcie := { s.pcie with windowBase := x.u64 16 } }

/-! ## RING (Table 2-15, R44, R45, R296) -/

/-- The code of a ring kind. -/
def kindOf (k : Nat) : RingKind := if k = 0 then .command else if k = 1 then .completion else if k = 2 then .event else .data

/-- Bytes per entry by kind. -/
def entryBytes (kind size : Nat) : Nat := if kind = 0 then 64 else if kind = 1 then 16 else if kind = 2 then 32 else size

/-- The ring a RING.CREATE describes. -/
def ringOfCmd (x : Ctx) : Ring :=
  { created := true, kind := kindOf (x.u8 18), log2 := x.u8 19, location := x.u8 20, msix := x.u8 21
    entrySize := entryBytes (x.u8 18) (x.u16 22), base := x.u64 24, pair := x.u16 32, modCount := x.u16 34, modTime := x.u32 36
    nsMask := x.u32 40, master := x.master }

/-- Bytes of a ring's memory. -/
def ringBytes (r : Ring) : Nat := ringSize r * r.entrySize

/-- R398: the conditions of Table 2-15 and R45 that KIND takes part in. -/
def ringKindWrong (x : Ctx) (s : State) : Bool :=
  let kind := x.u8 18
  let pair := getRing (x.u16 32) s
  (x.u8 20 == 0 && decide (2 < kind)) || (x.u8 20 == 1 && kind != 3) ||
    (if kind = 3 then decide (x.u16 22 < 64) || x.u16 22 % 64 != 0 else x.u16 22 != 0) ||
    (if kind = 0 then !(pair.created && pair.kind == .completion) else kind != 3 && x.u16 32 != 0xFFFF) ||
    (kind != 2 && x.u32 40 != 0)

/-- The ring's memory reaches past its location, or into Korsyn's area (R26, R297). (DEDUCED, unsafe: log 49.) -/
def ringBeyond (r : Ring) (s : State) : Bool :=
  (r.location == 2 && decide (hostDram s < r.base + ringBytes r)) ||
    (r.location == 3 && decide (0x1000000 < r.base + ringBytes r))

/-- R44: the memory of a ring with LOCATION 2 or 3 is zeroed. -/
def ringZero (r : Ring) (s : State) : State :=
  if r.location = 2 then unpoison r.base (ringBytes r) { s with dram := zeroRange r.base (ringBytes r) s.dram }
  else if r.location = 3 then { s with sram := zeroRange r.base (ringBytes r) s.sram }
  else s

/-- RING.CREATE (DEDUCED, unsafe: log 49). -/
def ringCreate : Cmd → State → State :=
  plainCommand 0x0201 .none
    (fun x s =>
      [(16, decide (x.u16 16 < 3) || decide (8191 < x.u16 16)), (18, decide (3 < x.u8 18) || ringKindWrong x s),
       (19, decide (x.u8 19 < 2) || decide (15 < x.u8 19) || ringBeyond (ringOfCmd x) s), (20, decide (3 < x.u8 20)),
       (21, decide (63 < x.u8 21)), (24, x.u64 24 % 4096 != 0),
       (40, x.u32 40 % 2 == 1 || decide (2 ^ 27 ≤ x.u32 40))] ++ reserved x.e 44 64)
    fun x s =>
    let r := ringOfCmd x
    if (getRing (x.u16 16) s).created ∨ (bellChannel (x.u16 16) s).isSome then fail x.ref stBusy 0 s
    else if r.location = 2 ∧ dramUsable s - 536870912 < dramSpace (planned s) + ringBytes r then fail x.ref stRefused 0x04 s
    else ok x.ref 0 (modRing (x.u16 16) (fun _ => r) (ringZero r s))

/-- R44: what keeps a ring. -/
def ringHeldBy (n : Nat) (s : State) : Bool :=
  let r := getRing n s
  (r.kind == .completion && s.rings.any fun o => o.2.created && o.2.kind == .command && o.2.pair == n) ||
    (r.kind == .command && !r.inflight.isEmpty) || r.prodChannel.isSome || r.consChannel.isSome

/-- RING.DESTROY; of a ring that is not created it completes with BADARG, REASON 16. (DESIGN CHOICE, unsafe: log 75.) -/
def ringDestroy : Cmd → State → State :=
  plainCommand 0x0202 .none
    (fun x s => (16, decide (x.u16 16 < 3) || decide (8191 < x.u16 16) || !(getRing (x.u16 16) s).created) :: reserved x.e 18 64)
    fun x s =>
    if x.ref.ring = x.u16 16 ∨ ringHeldBy (x.u16 16) s = true then fail x.ref stBusy 0 s
    else ok x.ref 0 (modRing (x.u16 16) (fun _ => {}) s)

/-- RING.MODERATE: for entries published after it completes. -/
def ringModerate : Cmd → State → State :=
  plainCommand 0x0203 .none
    (fun x s =>
      [(16, x.u16 16 == 0 || !(getRing (x.u16 16) s).created), (18, decide (63 < x.u8 18))] ++ reserved x.e 19 20 ++
        reserved x.e 22 24 ++ reserved x.e 28 64)
    fun x s =>
    modRing (x.u16 16) (fun r => { r with msix := x.u8 18, modCount := x.u16 20, modTime := x.u32 24 }) (ok x.ref 0 s)

/-! ## Doorbells (R36, R43, R292, R294) -/

/-- R294: rings whose producer index the host writes: command rings, and data rings a channel consumes from. -/
def hostProduces (r : Ring) : Bool := r.kind == .command || r.consChannel.isSome

/-- R43: a ring fault. -/
def ringFault (n : Nat) (s : State) : State :=
  event 0x0201 2 0xFFFF [(16, 2, n)] (modRing n (fun r => { r with stopped := true }) s)

/-- R36, R43: the host's own index of a ring; on a stopped ring the write changes nothing and reports nothing.
(DESIGN CHOICE, unsafe: log 75.) -/
def hostIndex (n : Nat) (v : BitVec 16) (s : State) : State :=
  let r := getRing n s
  if r.stopped then s
  else if hostProduces r then
    let held := (v - r.cons).toNat
    if ringHeld r ≤ held ∧ held ≤ ringSize r then modRing n (fun r => { r with prod := v }) s else ringFault n s
  else if r.stream.isSome then s
  else if (r.prod - v).toNat ≤ ringHeld r then
    let s := modRing n (fun r => { r with cons := v }) s
    if r.kind = .completion then flushPaired n s else s
  else ringFault n s

/-- A write to DOORBELL[n]. -/
def doorbell (n : Nat) (v : U32) (s : State) : State :=
  if !bar0Serves s then s
  else if s.stone.stage ≠ .ready then stoneFlag errDoorbell s
  else match bellChannel n s with
    | some k => dmaBell k s
    | none => if (getRing n s).created then hostIndex n (BitVec.ofNat 16 v.toNat) s else stoneFlag errDoorbell s

/-- DOORBELL_WRITE (R36) and DMA_DOORBELL (R293). -/
def execDoorbellWrite (t : DT) (ring : Nat) (value : U32) (s : State) : Out := .next (doorbell ring value (advance t s))
def execDmaDoorbell (t : DT) (number : Nat) (value : U32) (s : State) : Out := .next (doorbell number value (advance t s))

/-! ## Stone registers (R35, Tables 2-3 to 2-10) -/

/-- R36: Shatia's own index of a ring: the consumer index of a ring the host produces, else the producer index. R292: of a
channel's doorbell, bits [19:4] of its position. -/
def ownIndex (n : Nat) (s : State) : Nat :=
  match bellChannel n s with
  | some k => (getChan k s).pos / 16 % 65536
  | none =>
    let r := getRing n s
    if hostProduces r then r.cons.toNat else r.prod.toNat

/-- R35, R36: a read of BAR0 by the host. The command table has a row for DT_SNAP_LO alone (DT_SNAP_LO_READ)
(DESIGN CHOICE, safe: log 85). -/
def bar0Read (offset width : Nat) (s : State) : State :=
  if !bar0Serves s then s
  else if width ≠ 4 ∨ offset % 4 ≠ 0 then answer (List.replicate width 0) (stoneFlag errBadAccess s)
  else if offset = 0x20 then answer (leBytes 4 (stoneWord 0x20 s)) (dtLatch s)
  else if 0x8000 ≤ offset ∧ offset ≤ 0xFFFC then answer (leBytes 4 (ownIndex ((offset - 0x8000) / 4) s)) s
  else answer (leBytes 4 (stoneWord offset s)) s

/-- REGISTER_WRITE. -/
def execRegisterWrite (t : DT) (offset width : Nat) (value : U32) (s : State) : Out :=
  let s := advance t s
  .next (if !bar0Serves s then s
  else if width ≠ 4 ∨ offset % 4 ≠ 0 then stoneFlag errBadAccess s
  else if offset = 0 then bootCtrlWrite value s
  else if offset = 8 then modStone (fun x => { x with bootLen := value.toNat % 2 ^ 24 }) s
  else if offset = 0x28 then modStone (fun x => { x with wakeCtrl := value.setWidth 8 }) s
  else if offset = 0x2C then modStone (fun x => { x with wakeStat := x.wakeStat &&& ~~~(value.setWidth 8) }) s
  else if offset = 0x30 then modStone (fun x => { x with stoneErr := x.stoneErr &&& ~~~(value.setWidth 6) }) s
  else if 0x8000 ≤ offset ∧ offset ≤ 0xFFFC then doorbell ((offset - 0x8000) / 4) value s
  else if offset ≤ 0x30 then s
  else stoneFlag errBadAccess s)

/-! ## Messages (R295, R296) -/

/-- MSIX_MOD_TIME_EXPIRY (R295). -/
def execMsixModTimeExpiry (t : DT) (ring : Nat) (s : State) : Out :=
  let s := advance t s
  let r := getRing ring s
  .next (if r.created = true ∧ 0 < r.unsignalled ∧ r.modTime ≠ 0 ∧ r.modTime * tkUs ≤ dtSub s.dt r.firstUnsignalled ∧
      ringStalled r s = false then signalRing ring s else s)

/-- MSIX_UNMASK (R296). -/
def execMsixUnmask (t : DT) (function vector : Nat) (s : State) : Out :=
  .next (vectorControl function vector false (advance t s))

/-! ## Rows -/

def execDevInfo (c : Cmd) (s : State) : Out := .next (devInfo c s)
def execDevCaps (c : Cmd) (s : State) : Out := .next (devCaps c s)
def execDevReset (c : Cmd) (s : State) : Out := .next (devReset c s)
def execDevSetWindow (c : Cmd) (s : State) : Out := .next (devSetWindow c s)
def execRingCreate (c : Cmd) (s : State) : Out := .next (ringCreate c s)
def execRingDestroy (c : Cmd) (s : State) : Out := .next (ringDestroy c s)
def execRingModerate (c : Cmd) (s : State) : Out := .next (ringModerate c s)

end Sys2Proof.Machine
end

