-- ==== Sys2Proof/Machine/Tick.lean ====
section
/-! DEFINITION. What device time does by itself (R76, Table 4-3). -/

namespace Sys2Proof.Machine

/-- Row of Table 4-3: the source DT counts. Until the gated output of ADPLL-S has returned, DT counts REFCLK or XTAL_B,
declared lock or not. (DESIGN CHOICE, unsafe: log 78.) -/
def dtSource (s : State) : Nat :=
  if (s.power.state = .standby ∨ s.power.state = .off) ∧ s.stone.restoring = false then 4
  else
    let p := getPll 0 s
    if p.locked = true ∧ p.absent = none ∧ p.relocking = false then (if p.xtal then 1 else 0)
    else if s.clock.refOk then 2 else if s.stone.xtalB then 3 else 4

/-- Fifths of a tick that one cycle of the source adds: 1 tk; 1,024 / 5 tk; 2,048 / 5 tk; 625,000 tk (R76). -/
def sourceFifths (row : Nat) : Nat :=
  if row ≤ 1 then 5 else if row = 2 then 1024 else if row = 3 then 2048 else 3125000

/-- One cycle of DT's source, the fraction carried; ALIGNED is cleared where Table 4-3 clears it (DESIGN CHOICE, unsafe: log 8). -/
def idleTick (s : State) : State :=
  let row := dtSource s
  let f := s.clock.fifths + sourceFifths row
  { s with dt := dtAdd s.dt (f / 5)
           clock := { s.clock with fifths := f % 5, aligned := s.clock.aligned && (row == 0 || row == 2) } }

end Sys2Proof.Machine
end

