-- ==== Sys2Proof/Machine/ClockUnit.lean ====
section
/-! DEFINITION. The ADPLLs and their absences, device time and TAI, SYNC and skew (04_clocks_and_time.md R65 to R84). -/

namespace Sys2Proof.Machine

/-! ## What an absence does (Table 4-2) -/

/-- ADPLL-S or ADPLL-F leaves: LASER_EN drops, the generators stop, running captures end (R73, R74, R192, R215). -/
def planeGone (s : State) : State :=
  each (List.range 16) capGapAt (fibreGap (genGap 1 (genGap 0 (laserCut s))))

/-- R215: Korsyn restarts a generator that an absence stopped, at the first RESUME entry after the one it played. -/
def genRestart (d : Nat) (s : State) : State :=
  let g := getGen d s
  if !g.gapped then s
  else match resumeEntry g g.entry with
    | some e => schedule [({ cls := 8, inst := d }, .genResume d e)] s
    | none => modGen d (fun g => { g with gapped := false }) s

/-- ADPLL-S and ADPLL-F are both there again: groups resume as at a channel start, paths start, grids begin anew, the
first spectrum carries CLOCK_GAP (R74, R116, R117). -/
def planeBack (s : State) : State :=
  if !planeRuns s || planeAbsent s then s
  else
    let s := each (List.range 4) (fun n s => if (getRf n s).powered then modRf n (fun c => { c with invalidLeft := 256 }) s else s) s
    let s := each ((s.ddc.filter (·.2.enable)).map (·.1)) (fun p s => modDdc p (fun d => pathStart s.dt false d p) s) s
    let s := each (List.range 4) (fun p s => pathRestarted p 1 s) s
    genRestart 1 (genRestart 0 s)

/-- Table 4-3: ALIGNED is cleared with the sources that do not keep it. -/
def alignedSettle (s : State) : State :=
  let row := dtSource s
  { s with clock := { s.clock with aligned := s.clock.aligned && (row == 0 || row == 2) } }

/-- R67: an ADPLL loses lock: 1 lock loss, 2 reference loss, 3 commanded relock. -/
def lockLost (n cause : Nat) (s : State) : State :=
  event 0x0401 2 n [(16, 1, n), (17, 1, cause)] (modPll n (fun c => { c with locked := false, relocking := true }) s)

/-- An ADPLL leaves its logic tree (R68, R69, R73). -/
def pllLeave (n cause : Nat) (s : State) : State :=
  let s := lockLost n cause (modPll n (fun c => { c with absent := some s.dt, bypass := n != 0 }) s)
  if n ≤ 1 then planeGone s
  else if n = 2 then { s with memCtl := { s.memCtl with selfRefresh := true } }
  else s

/-- The ADPLL drives nothing that it could leave: it is stopped, or it starts, so its next return is the first (R68). -/
def pllIdle (n : Nat) (s : State) : Bool :=
  let c := getPll n s
  c.stopped || (c.relocking && c.absent.isNone)

/-- R70, R71: the next ADPLL of a relock begins, or the relock is over and its command completes. -/
def relockGo (s : State) : State :=
  match s.clock.relock with
  | none => s
  | some r =>
    match r.remaining.filter (fun n => !pllIdle n s) with
    | [] => completeOpt r.waiting { status := if r.busy then stBusy else stOk } { s with clock := { s.clock with relock := none } }
    | n :: rest =>
      let s := { s with clock := { s.clock with relock := some { r with remaining := n :: rest } } }
      if (getPll n s).absent.isSome then s
      else pllLeave n 3 (modPll n (fun c => { c with xtal := r.toXtal }) s)

/-- R71: the order M, F, S, D. -/
def relockOrder : List Nat := [2, 1, 0, 3]

/-- R71: a relock of any ADPLL runs, a DRAM point change included (R304). -/
def relockRuns (s : State) : Bool :=
  s.clock.relock.isSome || relockOrder.any (fun n => (getPll n s).relocking) ||
    s.memCtl.change.any fun c => c.2.2.2.isSome

/-- A personality runs. -/
def anyPersonality (s : State) : Bool := (List.range 6).any fun p => personalityRuns p s

/-! ## CLK commands (Table 4-4) -/

/-- CLK.STATUS: ADPLL-S has no bypass, its clock trees stop (R69). -/
def pllByte (n : Nat) (s : State) : Nat :=
  let c := getPll n s
  b2n c.locked + 2 * b2n c.bypass + 4 * b2n c.xtal + 8 * b2n c.hop + 16 * b2n (c.stopped || (n == 0 && !pllServes 0 s))

def clkStatus : Cmd → State → State :=
  plainCommand 0x0401 .none (fun x _ => reserved x.e 16 64) fun x s =>
    ok x.ref (pllByte 0 s + 2 ^ 8 * pllByte 1 s + 2 ^ 16 * pllByte 2 s + 2 ^ 24 * pllByte 3 s) s

def clkSetLockMode : Cmd → State → State :=
  plainCommand 0x0402 .none (fun x _ =>
    [(16, decide (3 < x.u8 16)), (17, decide (1 < x.u8 17)), (18, decide (1 < x.u8 18))] ++ reserved x.e 19 64) fun x s =>
    ok x.ref 0 (modPll (x.u8 16) (fun c => { c with
      cacheMode := x.u8 17 == 1, cache := if x.u8 18 = 1 then [] else c.cache }) s)

/-- R71: a relock to a reference begins; ADPLLs that are stopped or start use it from their next lock. (DEDUCED, unsafe: log 24.) -/
def relockTo (toXtal busy : Bool) (waiting : Option CmdRef) (s : State) : State :=
  let s := each relockOrder (fun n s => if pllIdle n s then modPll n (fun c => { c with xtal := toXtal }) s else s) s
  let left := relockOrder.filter fun n => (getPll n s).xtal != toXtal || (getPll n s).absent.isSome
  let r : Relock := { remaining := left, toXtal := toXtal, waiting := waiting, busy := busy }
  relockGo { s with clock := { s.clock with relock := some r } }

/-- CLK.SELECT_REF (R71) (DEDUCED, unsafe: log 39). -/
def clkSelectRef : Cmd → State → State :=
  plainCommand 0x0403 .none (fun x _ => [(16, decide (1 < x.u8 16)), (17, decide (1 < x.u8 17))] ++ reserved x.e 18 64) fun x s =>
    if relockRuns s || (x.u8 16 == 0 && !s.clock.refOk) || (anyPersonality s && x.u8 17 == 0) then fail x.ref stBusy 0 s
    else relockTo (x.u8 16 == 1) false (some x.ref) s

/-- R82: neither a personality runs nor is a bunch open. -/
def syncBusy (s : State) : Bool := anyPersonality s || s.bunch.table.any fun b => b.2.state != .free

/-- CLK.SYNC_ARM (R82): a master's D that is past completes with LATE (R6); a part that is armed is armed anew, the
earlier arming given up. (DESIGN CHOICE, unsafe: log 78.) -/
def clkSyncArm : Cmd → State → State :=
  plainCommand 0x0404 .none (fun x _ =>
    [(16, decide (3 < x.u8 16)), (16, x.u8 16 != 2 && x.u8 17 != 0), (18, decide (1 < x.u8 18)), (24, x.u64 24 % 1024 != 0)] ++
      reserved x.e 19 24 ++ reserved x.e 36 64) fun x s =>
    if syncBusy s then fail x.ref stBusy 0 s
    else if x.u8 16 = 1 ∧ dtLe s.dt (x.dt 24) = false then fail x.ref stLate 0 s
    else
      let a : SyncArm := { mode := x.u8 16, position := x.u8 17, outEn := x.u8 18 == 1, d := x.dt 24
                           timeoutMs := if x.u32 32 = 0 then 10000 else x.u32 32, armedAt := s.dt }
      ok x.ref 0 { s with clock := { s.clock with syncOut := false, sync := some a } }

/-- CLK.SET_SKEW (R84): the tick phase advances, and ADPLL-S relocks by hop; the command completes when it has returned.
While another lock of ADPLL-S is under way or about to begin, that lock is the hop. A stopped ADPLL-S takes the phase at
its next lock. (DEDUCED, unsafe: log 39.) -/
def clkSetSkew : Cmd → State → State :=
  plainCommand 0x0406 .none (fun x _ =>
    (16, decide (x.i16 16 < -1024) || decide (1024 < x.i16 16)) :: reserved x.e 18 64) fun x s =>
    if syncBusy s then fail x.ref stBusy 0 s
    else
      let s := { s with clock := { s.clock with skew := s.clock.skew + x.i16 16 } }
      if (getPll 0 s).stopped then ok x.ref 0 s
      else
        let s := modPll 0 (fun c => { c with hopNext := true, locked := c.locked && !c.relocking }) s
        let s := { s with clock := { s.clock with skewWaiting := s.clock.skewWaiting ++ [x.ref] } }
        if (getPll 0 s).relocking || s.clock.relock.any (fun r => r.remaining.contains 0) then s else pllLeave 0 3 s

/-! ## Clock rows -/

def execClkStatus (c : Cmd) (s : State) : Out := .next (clkStatus c s)
def execClkSetLockMode (c : Cmd) (s : State) : Out := .next (clkSetLockMode c s)
def execClkSelectRef (c : Cmd) (s : State) : Out := .next (clkSelectRef c s)
def execClkSyncArm (c : Cmd) (s : State) : Out := .next (clkSyncArm c s)
def execClkSetSkew (c : Cmd) (s : State) : Out := .next (clkSetSkew c s)

/-- R70: the ADPLLs of a relock lock in their order. -/
def lockTurn (n : Nat) (s : State) : Bool :=
  match s.clock.relock with
  | some r => !r.remaining.contains n || r.remaining.head? == some n
  | none => true

/-- ADPLL_LOCK (R67, R77): ADPLL-S steps DT forward by 0 to 1,023 tk; not at all while ALIGNED is kept. -/
def execAdpllLock (t : DT) (pll step : Nat) (s : State) : Out :=
  let s := advance t s
  let c := getPll pll s
  .next (if c.relocking = true ∧ c.locked = false ∧ lockTurn pll s = true then
    let s := pllLock pll s
    if pll = 0 then dtStep step s else s
  else s)

/-- R84: the CLK.SET_SKEW commands that wait for ADPLL-S complete. -/
def skewDone (status : Nat) (s : State) : State :=
  each s.clock.skewWaiting (fun r s => complete r { status := status } s) { s with clock := { s.clock with skewWaiting := [] } }

/-- GATED_OUTPUT_RETURN (R68): the absence ends; after a start or a change of point the tree leaves bypass. -/
def execGatedOutputReturn (t : DT) (pll : Nat) (s : State) : Out :=
  let s := advance t s
  let c := getPll pll s
  .next (match c.absent with
  | some since =>
    if c.locked then
      let s := modPll pll (fun c => { c with absent := none, bypass := false, relocking := false }) s
      let s := event 0x0402 0 pll [(16, 1, pll), (17, 1, b2n c.hop), (18, 1, b2n c.xtal), (24, 8, since.toNat)] s
      let s := if pll ≤ 1 then planeBack s
        else if pll = 2 then dramResumed { s with memCtl := { s.memCtl with selfRefresh := dramStalled s } } else s
      let s := if pll = 0 then skewDone stOk s else s
      let rest := fun (r : Relock) => { r with remaining := r.remaining.filter (· != pll) }
      alignedSettle (relockGo { s with clock := { s.clock with relock := s.clock.relock.map rest } })
    else s
  | none => if c.locked then
      modPll pll (fun c => { c with bypass := false, relocking := false }) (if pll = 0 then skewDone stOk s else s)
    else s)

/-- ADPLL_LOCK_LOSS (R67, R69): the ADPLL relocks to the reference in use; before its gated output has returned, the
absence only lasts longer. -/
def execAdpllLockLoss (t : DT) (pll : Nat) (s : State) : Out :=
  let s := advance t s
  let c := getPll pll s
  .next (if c.locked = false then s
  else if c.absent.isSome || c.relocking then lockLost pll 1 s
  else alignedSettle (pllLeave pll 1 s))

/-- REFCLK_LOSS (R70, R71): unless every ADPLL is on XTAL_B, all running ones leave and relock to XTAL_B; a commanded
relock that was bound for REFCLK ends with BUSY. A CLK.SET_SKEW that waits for ADPLL-S completes with BUSY, and its
phase holds from the lock to XTAL_B on. (DESIGN CHOICE, unsafe: log 78.) -/
def execRefclkLoss (t : DT) (s : State) : Out :=
  let s := advance t s
  .next (if s.clock.refOk then
    let s := event 0x0403 3 0xFFFF [] { s with clock := { s.clock with refOk := false } }
    let old := s.clock.relock
    let off := relockOrder.any fun n => !(getPll n s).xtal
    let s := if off then skewDone stBusy s else s
    let s := each (if off then relockOrder.filter fun n => !(getPll n s).stopped else []) (fun n s =>
      let s := modPll n (fun c => { c with xtal := true, locked := false, hopNext := false }) s
      if (getPll n s).relocking then s else pllLeave n 2 s) s
    alignedSettle (if !off then s
      else relockTo true (old.any fun r => r.busy || !r.toXtal) (old.bind (·.waiting)) s)
  else s)

/-- REFCLK_RESTORED (R70): Korsyn stays on XTAL_B. -/
def execRefclkRestored (t : DT) (s : State) : Out :=
  let s := advance t s
  .next (if s.clock.refOk then s else event 0x0404 1 0xFFFF [] { s with clock := { s.clock with refOk := true } })

/-! ## TIME commands (Tables 4-4, 4-5) -/

/-- Table 4-5. -/
def timeRecord (s : State) : List Byte :=
  let x := s.time
  leBytes 8 s.dt.toNat ++ leBytes 8 x.epoch.dt.toNat ++ leBytes 8 x.epoch.taiS ++ leBytes 4 x.epoch.taiNs ++
    leInt 4 x.epoch.ratePpt ++ leBytes 1 (b2n s.clock.aligned + 2 * b2n x.ppsOk + 4 * b2n x.ptpOk + 8 * b2n x.holdover) ++
    leBytes 1 (dtSource s) ++ leBytes 2 (sat 2 x.rejected) ++ leBytes 12 0

def timeGet : Cmd → State → State := statusCommand 0x0501 .none (fun _ _ => false) (fun _ s => timeRecord s)

/-- PPS is selected. -/
def ppsSelected (s : State) : Bool := s.time.source == 1 || s.time.source == 3

/-- TIME.SET_TAI (R80, R81): mode 1 keeps rate_ppt, and a TAI second of mode 0 that still waits. (DESIGN CHOICE, unsafe: log 78.) -/
def timeSetTai : Cmd → State → State :=
  plainCommand 0x0502 .none (fun x _ =>
    [(16, decide (1 < x.u8 16)), (16, x.u8 16 == 0 && (x.u64 32 != 0 || x.u32 40 != 0)), (40, decide (999999999 < x.u32 40))] ++
      reserved x.e 17 24 ++ reserved x.e 44 64) fun x s =>
    let epoch := { s.time.epoch with dt := x.dt 32, taiS := x.u64 24, taiNs := x.u32 40 }
    let time := if x.u8 16 = 0 then { s.time with nextTai := some (x.u64 24) }
      else { s.time with epoch := epoch, epochSet := ppsSelected s }
    ok x.ref 0 { s with time := time }

/-- TIME.CONFIG: the acquisition of R81 begins anew. (DEDUCED, unsafe: log 53.) -/
def timeConfig : Cmd → State → State :=
  plainCommand 0x0503 .none (fun x _ => [(16, decide (3 < x.u8 16)), (17, decide (1 < x.u8 17))] ++ reserved x.e 18 64) fun x s =>
    ok x.ref 0 { s with time := { s.time with
      source := x.u8 16, fallingEdge := x.u8 17 == 1, ppsOk := false, ptpOk := false, holdover := false, rejected := 0
      candidate := none, accepted := [], epochSet := false } }

/-! ## PPS (R80, R81) -/

/-- R79: the TAI that an epoch gives for a DT, in units of 1 / taiUnits seconds. -/
def taiUnits : Nat := 20480000000 * 10 ^ 21
def taiPerTick (e : Epoch) : Int := ((10 ^ 12 : Nat) + e.ratePpt) * 10 ^ 9
def taiOf (e : Epoch) (d : DT) : Int :=
  (e.taiS * taiUnits + e.taiNs * (20480000000 * 10 ^ 12) : Nat) + ((d.toNat : Int) - e.dt.toNat) * taiPerTick e

/-- The whole TAI second nearest to it. -/
def nearestSecond (e : Epoch) (d : DT) : Nat := (roundAway (taiOf e d) taiUnits).toNat

/-- R80: rate_ppt by least squares over pulses, newest first, one TAI second apart. -/
def fitRate (ds : List Nat) : Int :=
  let n := ds.length
  let pts := ds.reverse.zipIdx
  let sum := fun (f : Nat × Nat → Nat) => (pts.map f).sum
  let num : Int := (n * sum (fun p => p.2 * p.1) : Nat) - (sum (fun p => p.2) * sum (fun p => p.1) : Nat)
  let den : Int := (n * sum (fun p => p.2 * p.2) : Nat) - (sum (fun p => p.2) * sum (fun p => p.2) : Nat)
  roundAway ((20480000000 * den - num) * 10 ^ 12) num.toNat

/-- R80, R81: a pulse is accepted, its TAI second known or not; the epoch follows it. -/
def ppsAccept (d : DT) (x : TimeBase) : TimeBase :=
  let known := (x.accepted.head?.bind (·.2)).map (· + 1)
  let second := match x.nextTai with
    | some u => some u
    | none => if x.epochSet then some (nearestSecond x.epoch d) else known
  let acc := ((d, second) :: x.accepted).take 16
  let x := { x with accepted := acc, candidate := none, nextTai := none, epochSet := false }
  match second with
  | none => x
  | some u =>
    { x with epoch := { dt := d, taiS := u, taiNs := 0
                        ratePpt := if 2 ≤ acc.length then fitRate (acc.map (·.1.toNat)) else x.epoch.ratePpt }
             ppsOk := decide (2 ≤ acc.length) }

/-- R80: one second later within 10 us. -/
def secondLater (a b : DT) : Bool := decide (20479795200 ≤ dtSub b a) && decide (dtSub b a ≤ 20480204800)

/-- R81: two pulses a second apart end an acquisition; after holdover the second takes the whole second nearest to the
holdover epoch. -/
def ppsAcquire (c d : DT) (s : State) : State :=
  let x := s.time
  let held := x.holdover && x.nextTai.isNone
  let first := if held then { x with accepted := [(c, none)] } else ppsAccept c { x with accepted := [] }
  let y := ppsAccept d { first with epochSet := held }
  let s := { s with time := { y with holdover := false } }
  if x.holdover then event 0x0502 0 0xFFFF [(16, 8, c.toNat)] s else s

/-- PPS_IN_EDGE (R80, R81): on the edge TIME.CONFIG chose. A pulse that the window discards is counted while the epoch
follows pulses. -/
def execPpsInEdge (t : DT) (falling : Bool) (s : State) : Out :=
  let s := advance t s
  let x := s.time
  .next (if ppsSelected s && x.fallingEdge == falling && s.steward.running then
    match x.accepted.head? with
    | some (prev, _) =>
      if secondLater prev s.dt then { s with time := ppsAccept s.dt x }
      else if x.ppsOk then { s with time := { x with rejected := satAdd 65535 x.rejected 1 } }
      else s
    | none =>
      match x.candidate with
      | some c => if secondLater c s.dt then ppsAcquire c s.dt s else { s with time := { x with candidate := some s.dt } }
      | none => { s with time := { x with candidate := some s.dt } }
  else s)

/-- PPS_LOSS_TIMEOUT (R80): 1.5 s without an accepted pulse. -/
def execPpsLossTimeout (t : DT) (s : State) : Out :=
  let s := advance t s
  let x := s.time
  .next (match x.accepted.head? with
  | some (d, _) =>
    if ppsSelected s && decide (30720000000 ≤ dtSub s.dt d) then
      event 0x0501 1 0xFFFF [(16, 8, d.toNat)]
        { s with time := { x with ppsOk := false, holdover := true, accepted := [], candidate := none } }
    else s
  | none => s)

def execTimeGet (c : Cmd) (s : State) : Out := .next (timeGet c s)
def execTimeSetTai (c : Cmd) (s : State) : Out := .next (timeSetTai c s)
def execTimeConfig (c : Cmd) (s : State) : Out := .next (timeConfig c s)

/-- PTP_EVENT_MESSAGE (R80, R81, R326): the message is stamped at the MDI; the servo's epoch is taken, with PPS as the
edge only until pulses are followed. -/
def execPtpEventMessage (t : DT) (port : Nat) (received : Bool) (servo : Option Epoch) (s : State) : Out :=
  let s := advance t s
  let p := getPort port s
  .next (if p.up && bit p.options 0 then
    let stamp := s.dt + BitVec.ofInt 64 (if received then -p.rxDelay else p.txDelay)
    let s := modPort port (fun p => { p with ptpStamps := (stamp :: p.ptpStamps).take 16 }) s
    match servo with
    | none => s
    | some e =>
      if s.time.source = 2 then { s with time := { s.time with epoch := e, ptpOk := true, holdover := false } }
      else if s.time.source = 3 then
        let time := if s.time.ppsOk then { s.time with ptpOk := true } else { s.time with epoch := e, ptpOk := true, epochSet := true }
        { s with time := time }
      else s
  else s)

/-! ## SYNC (R82, R83) -/

/-- R82: what DT would have read at the load: the REFCLK edge nearest to where stamp and margin place the capturing
edge, plus so many REFCLK cycles; a cycle is 1,024 / 5 tk, and the whole ticks count (DESIGN CHOICE, unsafe: log 51). -/
def dtAtLoad (t : DT) (fraction marginPs cycles : Nat) : Nat :=
  let den := 64 * 48828125
  let edge := roundAway (5 * ((64 * t.toNat + fraction) * 48828125 + 64 * marginPs * 1000000 : Nat)) (1024 * den)
  (edge.toNat + cycles) * 1024 / 5

/-- R82: DT is loaded and the epoch moves by the same step. -/
def dtLoad (target : DT) (old : Nat) (s : State) : State :=
  { s with dt := target
           time := { s.time with epoch := { s.time.epoch with dt := s.time.epoch.dt + (target - BitVec.ofNat 64 old) } }
           clock := { s.clock with fifths := 0, aligned := true } }

/-- SYNC_IN_EDGE (R82, R83): the edge is stamped, and DT loaded where the mode says so. SYNC_IN is sampled on REFCLK
edges, so without REFCLK nothing is captured. -/
def execSyncInEdge (t : DT) (fraction marginPs : Nat) (s : State) : Out :=
  let s := advance t s
  .next (match s.clock.sync with
  | none => s
  | some a =>
    if a.mode = 1 || !s.clock.refOk then s
    else
      let stamp := s.dt
      let loads := a.mode != 3
      let low := decide (marginPs < 1000) || decide (9000 < marginPs)
      let s := { s with clock := { s.clock with sync := none, syncOut := s.clock.syncOut || (a.mode == 2 && a.outEn) } }
      let s := if a.mode = 0 then dtLoad a.d (dtAtLoad stamp fraction marginPs 5) s
        else if a.mode = 2 then dtLoad (dtAdd a.d (1024 * a.position)) (dtAtLoad stamp fraction marginPs 4) s
        else s
      event 0x0405 0 0xFFFF [(16, 8, stamp.toNat), (24, 1, fraction), (25, 1, b2n low + 2 * b2n loads), (26, 2, sat 2 marginPs)] s)

/-- SYNC_OUT_LAUNCH (R82): at the master's REFCLK edge where DT = D. A master loads no DT, so its ALIGNED stays as it is. (DESIGN CHOICE, unsafe: log 78.) -/
def execSyncOutLaunch (t : DT) (s : State) : Out :=
  let s := advance t s
  .next (match s.clock.sync with
  | some a => if a.mode = 1 ∧ s.dt = a.d ∧ s.clock.refOk = true then { s with clock := { s.clock with sync := none, syncOut := true } } else s
  | none => s)

/-- SYNC_ARM_TIMEOUT (R82). -/
def execSyncArmTimeout (t : DT) (s : State) : Out :=
  let s := advance t s
  .next (match s.clock.sync with
  | some a =>
    if a.timeoutMs * tkMs ≤ dtSub s.dt a.armedAt then { s with clock := { s.clock with sync := none } } else s
  | none => s)

end Sys2Proof.Machine
end

