-- ==== Sys2Proof/Machine/LinkUnit.lean ====
section
/-! DEFINITION. PCIe link events, Ethernet ports, streams, VDIF framing and the Ethernet control endpoint
(16_host_and_network_links.md R314 to R331). -/

namespace Sys2Proof.Machine

/-! ## PCIe (R317, R318) -/

/-- PCIE_LINK_CHANGE (R318): a reduced link scales the PF1 budget and is reported. -/
def execPcieLinkChange (t : DT) (width rate : Nat) (s : State) : Out :=
  let s := advance t s
  .next (if s.pcie.width = width ∧ s.pcie.rate = rate then s
  else
    let s := { s with pcie := { s.pcie with width := width, rate := rate } }
    if width < 8 ∨ rate < 32 then
      event 0x0104 1 0xFFFF [(16, 1, width), (17, 1, rate), (20, 4, pf1Budget s / 1000000)] s
    else s)

/-- PF1_FLR (R317): the channels of PF1 stop, its MSI-X table is cleared, its rings stall. -/
def execPf1Flr (t : DT) (s : State) : Out :=
  let s := advance t s
  let mine := fun (n : Nat) => decide (n < 64)
  let s := each ((s.dma.channels.filter fun c => c.2.pf1 && (c.2.state == 1 || c.2.state == 2)).map (·.1))
    (fun n s => dmaSettle n (modChan n (fun c => { c with state := 4, transfer := none, wait := none }) s)) s
  .next { s with pcie := { s.pcie with
    pf1Enabled := false, masked := s.pcie.masked.filter mine, pendingVecs := s.pcie.pendingVecs.filter mine } }

/-- PF1_BUS_MASTER_ENABLE (R317). -/
def execPf1BusMasterEnable (t : DT) (s : State) : Out :=
  let s := advance t s
  .next (resumeRings { s with pcie := { s.pcie with pf1Enabled := true } })

/-- PF0_D3HOT (R317): Korsyn's power-state handling learns of it. -/
def execPf0D3hot (t : DT) (s : State) : Out :=
  let s := advance t s
  .next { s with pcie := { s.pcie with pf0D3 := true } }

/-! ## Ports (Table 16-5) -/

/-- A stream is bound to a port. -/
def portBound (p : Nat) (s : State) : Bool := s.rings.any fun r => r.2.stream.any fun c => c.port == p

/-- The link of a port goes up or down (Table 16-6). -/
def portLink (p : Nat) (up : Bool) (s : State) : State :=
  if (getPort p s).up = up then s
  else event 0x1601 1 p [(16, 1, p), (17, 1, b2n up), (24, 8, s.dt.toNat)] (modPort p (fun x => { x with up := up }) s)

/-- NET.SET_PORT (R319, R326): a change of MODE or FEC takes the link down; a mode other than off starts the port. (DEDUCED, unsafe: log 54.) -/
def netSetPort : Cmd → State → State :=
  plainCommand 0x1601 (.below 4) (fun x s =>
    let other := (List.range 4).any fun p => p != x.unit && bit (getPort p s).options 0
    [(16, decide (3 < x.u8 16)), (16, x.u8 17 == 0 && (x.u8 16 == 1 || x.u8 16 == 2)), (17, decide (1 < x.u8 17)),
     (18, bit (x.u8 18) 0 && other)] ++ reservedBits x.e 18 1 7 ++ reserved x.e 19 20 ++ reserved x.e 26 28 ++ reserved x.e 52 64)
    fun x s =>
    let p := x.unit
    if portBound p s then fail x.ref stBusy 0 s
    else
      let old := getPort p s
      let s := if old.mode != x.u8 16 || old.fec != x.u8 17 then portLink p false s else s
      let s := modPort p (fun y => { y with
        mode := x.u8 16, fec := x.u8 17, options := x.u8 18, mac := fld x.e 20 6, ipv4 := x.u32 28, ipv6 := fld x.e 32 16
        txDelay := x.i16 48, rxDelay := x.i16 50 }) s
      ok x.ref 0 (if x.u8 16 = 0 then s else wakeDomains [.ethernet p] s)

/-- NET.STATUS: FEC codeword counts are what the line gave (DESIGN CHOICE, safe: log 4). -/
def netRecord (p : Nat) (corrected uncorrected : Nat) (s : State) : List Byte :=
  let x := getPort p s
  leBytes 1 (b2n x.up) ++ leBytes 1 x.mode ++ leBytes 2 0 ++ leBytes 4 corrected ++ leBytes 4 uncorrected ++
    leBytes 4 (sat 4 x.discardedDown) ++ leBytes 8 x.sent ++ leBytes 4 (sat 4 x.rxDiscarded) ++ leBytes 4 0

def netStatus : Cmd → State → State :=
  plainCommand 0x1605 (.below 4) (fun x _ => reserved x.e 24 64) fun x s =>
    if (getPort x.unit s).fec = 0 then ok x.ref 0 (toHost (x.u64 16) (netRecord x.unit 0 0 s) s)
    else
      let a := draw s
      let b := draw a.2
      ok x.ref 0 (toHost (x.u64 16) (netRecord x.unit a.1 b.1 b.2) b.2)

/-- ETH_LINK_CHANGE: on a port that is not off. -/
def execEthLinkChange (t : DT) (port : Nat) (up : Bool) (s : State) : Out :=
  let s := advance t s
  .next (if (getPort port s).mode = 0 then s else portLink port up s)

/-- One more frame sent, or received and discarded. -/
def portSent (p : Nat) (s : State) : State := modPort p (fun x => { x with sent := x.sent + 1 }) s
def portDiscard (p : Nat) (s : State) : State := modPort p (fun x => { x with rxDiscarded := x.rxDiscarded + 1 }) s

/-- ETH_FRAME_RECEIVED (R319, R320): Korsyn answers ARP, neighbour solicitation and echo requests; PTP and endpoint
frames are taken where the port carries them; everything else is discarded and counted. -/
def execEthFrameReceived (t : DT) (port : Nat) (frame : FrameKind) (s : State) : Out :=
  let s := advance t s
  let taken := match frame with
    | .ptp => bit (getPort port s).options 0
    | .endpoint => s.endpoint.port == some port
    | _ => false
  let answered := match frame with
    | .arp | .neighbour | .icmp => s.steward.running
    | _ => false
  .next (if !(getPort port s).up then s else if answered then portSent port s else if taken then s else portDiscard port s)

/-! ## Streams (R321 to R323, R331) -/

/-- A NET.SET_STREAM payload. -/
def streamOfCmd (x : Ctx) : StreamCfg :=
  { port := x.u8 16, vdif := x.u8 17 == 1, ipv6 := x.u8 18 == 1, dscp := x.u8 19, vlan := x.u16 20, dstUdp := x.u16 22
    dstMac := fld x.e 24 6, srcUdp := x.u16 30, dstIp := fld x.e 32 16 }

/-- R319, R321: bytes of a frame from the destination address through the FCS. -/
def frameBytes (r : Ring) (c : StreamCfg) : Nat := datagramPayload r c + frameOverhead c - 20

/-- NET.SET_STREAM: the ring has no other consumer, and a frame has at most 9,216 B. -/
def netSetStream : Cmd → State → State :=
  memberCommand 0x1602 .free
    (fun x s plan =>
      let c := streamOfCmd x
      let binds := c.port != 0xFF
      [(10, notDataRing x.unit s), (10, binds && (getRing x.unit s).consChannel.isSome),
       (10, binds && decide (9216 < frameBytes (getRing x.unit plan) c)), (16, decide (3 < x.u8 16) && binds),
       (17, decide (1 < x.u8 17)), (18, decide (1 < x.u8 18)), (21, x.u16 20 != 0xFFFF && bit (x.u8 21) 4)] ++
        reservedBits x.e 19 1 63 ++ reserved x.e 48 64)
    never neverBusy
    (fun x _ =>
      let c := streamOfCmd x
      [member x 0xF x.unit 1 (.netStream x.unit (if c.port = 0xFF then none else some c))]) noResult

/-- A NET.SET_VDIF payload. -/
def vdifOfCmd (x : Ctx) : VdifCfg :=
  { path := x.u16 16, bits := x.u8 18, thread := x.u16 20, station := x.u16 22, payload := x.u32 24, thresh := x.u16 28
    leap := x.u8 30, refEpoch := x.u8 31 }

/-- NET.SET_VDIF (R323): entries hold one frame, and a second holds a whole number of frames. -/
def netSetVdif : Cmd → State → State :=
  clashCommand 0x1603 .free
    (fun x _ _ =>
      let c := vdifOfCmd x
      [(16, !isPath c.path), (18, !([2, 4, 8, 16] : List Nat).contains c.bits),
       (20, decide (1023 < c.thread)), (24, c.payload % 8 != 0), (28, c.thresh == 0 || decide (32767 < c.thresh)),
       (31, decide (63 < c.refEpoch))] ++ reserved x.e 19 20 ++ reserved x.e 32 64)
    (fun x s plan =>
      let c := vdifOfCmd x
      let whole := 0 < vdifSamples c ∧ 20480000000 % (outPeriod c.path (getDdc c.path plan).decim * vdifSamples c) = 0
      [(10, notDataRing x.unit s), (10, (getRing x.unit s).entrySize != ceilDiv (32 + c.payload) 64 * 64), (16, !decide whole)])
    (fun x s => isPath (x.u16 16) && pathAbsent (x.u16 16) s) neverBusy
    (fun x _ => [member x 0xF x.unit 1 (.netVdif x.unit (vdifOfCmd x))]) noResult

/-- Bytes where a ring of the given LOCATION lies. -/
def loadAt (location addr n : Nat) (s : State) : List Byte :=
  if location < 2 then readBytes s.host addr n else if location = 2 then readBytes s.dram addr n else readBytes s.sram addr n

/-- R321, Table 16-3: the payload of the datagram that carries the oldest entry of a bound ring. -/
def datagramBytes (n : Nat) (c : StreamCfg) (s : State) : List Byte :=
  let r := getRing n s
  let entry := loadAt r.location (entryAddr r r.cons.toNat) r.entrySize s
  if c.vdif then entry.take (datagramPayload r c)
  else leBytes 2 0x5347 ++ leBytes 2 n ++ leBytes 4 r.streamSeq ++ leBytes 8 ((r.published.head?.map (·.toNat)).getD 0) ++ entry

/-- STREAM_DATAGRAM_SEND (R321, R331): one entry leaves; while the link is down it is discarded. -/
def execStreamDatagramSend (t : DT) (ring : Nat) (s : State) : Out :=
  let s := settle (· == .stream ring) (advance t s)
  let r := getRing ring s
  .next (match r.stream with
  | none => s
  | some c =>
    if ringHeld r = 0 ∨ r.stopped = true ∨ ringReach r s = false then s
    else
      let up := (getPort c.port s).up
      let bytes := datagramBytes ring c s
      let s := modRing ring (fun r => { r with
        cons := r.cons + 1, published := r.published.drop 1, streamSeq := if up then r.streamSeq + 1 else r.streamSeq }) s
      if up then portSent c.port (modPort c.port (fun p => { p with lastPayload := bytes }) s)
      else drop ring 2 (modPort c.port (fun p => { p with discardedDown := p.discardedDown + 1 }) s))

/-- STREAM_DROP_REPORT (R330): the second after an event ends with drops counted. -/
def execStreamDropReport (t : DT) (ring : Nat) (s : State) : Out :=
  let s := advance t s
  let r := getRing ring s
  let due := r.dropEvent.any fun d => decide (tkS ≤ dtSub s.dt d)
  .next (if due && decide (0 < r.drops) then reportDrops ring s else s)

/-! ## VDIF (R323 to R325) -/

/-- R324: one component as an offset-binary code. -/
def vdifCode (c : VdifCfg) (x : Int) : Nat :=
  if c.bits = 2 then (if x < -(c.thresh : Int) then 0 else if x < 0 then 1 else if x < c.thresh then 2 else 3)
  else
    let half : Int := (2 ^ (c.bits - 1) : Nat)
    (clamp (-half) (half - 1) (roundEven x (2 ^ (16 - c.bits))) + half).toNat

/-- R324: samples as 32-bit words filled from bit 0 up, I before Q. -/
def vdifPayload (c : VdifCfg) (samples : List (Int × Int)) : List Byte :=
  let pack := fun (q : Int × Int) (rest : Nat) =>
    vdifCode c (satComponent q.1) + 2 ^ c.bits * (vdifCode c (satComponent q.2) + 2 ^ c.bits * rest)
  leBytes c.payload (samples.foldr pack 0)

/-- Seconds from 1970-01-01 to a VDIF reference epoch, the half-years from 2000-01-01 (PRESUMED, unsafe: log 52). -/
def halfYearStart (n : Nat) : Nat :=
  let y := 2000 + n / 2
  86400 * (365 * (y - 1970) + (y - 1969) / 4 + (if n % 2 = 1 then 181 + b2n (y % 4 == 0) else 0))

/-- The DT of a path's sample at its port; slot paths have no port calibration. -/
def samplePort (path t : Nat) (s : State) : DT := if isSlotPath path then BitVec.ofNat 64 t else portDt path t s

/-- R325: where framing begins: from a landing DT on, the first sample whose TAI lies at or after a whole second, and
that second. -/
def vdifAnchor (path p : Nat) (landed : DT) (s : State) : Nat × Nat :=
  let t0 := gridUp landed.toNat p
  let e := s.time.epoch
  let tai := taiOf e (samplePort path t0 s)
  let second := (tai.toNat + taiUnits - 1) / taiUnits
  let need := ((second * taiUnits : Nat) - tai).toNat
  (t0 + p * ceilDiv need (max 1 ((taiPerTick e).toNat * p)), second)

/-- The group of a path that holds the output at an instant. -/
def groupAt (path p t : Nat) (s : State) : Option GroupInfo :=
  (getDdc path s).groups.find? fun g => decide (g.dt.toNat ≤ t) && decide (t < g.dt.toNat + 64 * p)

/-- R325, Table 16-4: the eight header words of a frame. (PRESUMED, unsafe: log 52.) -/
def vdifHeader (c : VdifCfg) (second frame : Nat) (invalid : Bool) (flags dt invalidN decim shift : Nat) : List Byte :=
  leBytes 4 (b2n invalid * 2 ^ 31 + second % 2 ^ 30) ++ leBytes 4 (c.refEpoch * 2 ^ 24 + frame % 2 ^ 24) ++
    leBytes 4 (2 ^ 29 + (32 + c.payload) / 8 % 2 ^ 24) ++
    leBytes 4 (2 ^ 31 + (c.bits - 1) * 2 ^ 26 + c.thread * 2 ^ 16 + c.station) ++
    leBytes 4 (0x47 * 2 ^ 24 + c.path % 256 * 2 ^ 16 + flags % 256) ++ leBytes 8 dt ++
    leBytes 4 (sat 2 invalidN * 2 ^ 16 + stageField decim % 256 * 256 + shift % 256)

/-- R323 to R325: the frame that begins at an instant goes into the ring; a frame is numbered whether it fits or not. -/
def vdifWrite (n : Nat) (c : VdifCfg) (start index base : Nat) (samples : List (Int × Int)) (s : State) : State :=
  let p := outPeriod c.path (getDdc c.path s).decim
  let perSec := 20480000000 / max 1 (p * vdifSamples c)
  let ts := (List.range samples.length).map fun i => start + i * p
  let infos := ts.map fun t => (groupAt c.path p t s, t)
  let bad := (infos.filter fun i => i.1.any fun g => !bit g.valid ((i.2 - g.dt.toNat) / p)).length
  let flags := infos.foldl (fun a i => a ||| ((i.1.map (·.flags)).getD 0)) 0
  let second := base + index / max 1 perSec - c.leap - halfYearStart c.refEpoch
  let g := groupAt c.path p start s
  let head := vdifHeader c second (index % max 1 perSec) (decide (0 < bad) || flags % 32 != 0) flags
    (samplePort c.path start s).toNat bad ((g.map (·.decim)).getD 0)
    ((g.map (·.shift)).getD 0)
  let s := modRing n (fun r => { r with
    vdifFrame := index + 1, vdifSecond := some base, vdifNext := some (dtAdd 0 (start + p * samples.length)) }) s
  writeRecord n (padZero 64 (head ++ vdifPayload c samples)) s

/-- The output of a path at an instant, as it has left it. -/
def pathSample (path p t : Nat) (s : State) : Int × Int :=
  match groupAt path p t s with
  | some g => g.samples.getD ((t - g.dt.toNat) / p) (0, 0)
  | none => (0, 0)

/-- R323: frames from an instant on whose samples an absence took: an output of them was due and has not come. -/
def vdifSkip (path p len start : Nat) (s : State) : Nat :=
  let next := (chainOut (getDdc path s)).nextGroup.toNat
  let k := (next - start) / max 1 (p * len) + 1
  let lost := fun (k : Nat) => (List.range len).any fun i =>
    let t := start + (k * len + i) * p
    decide (t < next) && (groupAt path p t s).isNone
  ((List.range k).find? fun k => !lost k).getD k

/-- VDIF_FRAME (R323): the samples of the next frame have all left the path; frames whose samples an absence took are
counted and not written. -/
def execVdifFrame (t : DT) (ring : Nat) (_ : Unit) (s : State) : Out :=
  let s := settle (· == .stream ring) (advance t s)
  let r := getRing ring s
  .next (match r.vdif, r.vdifNext with
  | some c, some next =>
    let d := getDdc c.path s
    let p := outPeriod c.path d.decim
    let a := match r.vdifSecond with
      | some base => (next.toNat, base)
      | none => vdifAnchor c.path p next s
    let skip := vdifSkip c.path p (vdifSamples c) a.1 s
    let start := a.1 + skip * (p * vdifSamples c)
    let ts := (List.range (vdifSamples c)).map fun i => start + i * p
    if d.enable && ts.all (fun t => (groupAt c.path p t s).isSome) then
      vdifWrite ring c start (r.vdifFrame + skip) a.2 (ts.map fun t => pathSample c.path p t s) s
    else s
  | _, _ => s)

/-! ## The control endpoint (R327 to R329) -/

/-- R327: ring numbers n, n + 1, n + 2 that are free; Korsyn's choice among them is not stated (DESIGN CHOICE, safe: log 4). -/
def freeTriple (first : Nat) (s : State) : Option Nat :=
  ((List.range 8187).map fun i => 3 + (first + i) % 8187).find? fun n =>
    [n, n + 1, n + 2].all fun k => !(getRing k s).created && (bellChannel k s).isNone

/-- R327: the endpoint's three rings in steward SRAM; where Korsyn puts them is not stated (DESIGN CHOICE, safe: log 4). -/
def endpointRings (n base : Nat) (s : State) : State :=
  let s := modRing n (fun _ => { created := true, kind := .command, log2 := 8, location := 3, entrySize := 64, base := base
                                 pair := n + 1, master := .ethernet }) s
  let s := modRing (n + 1) (fun _ => { created := true, kind := .completion, log2 := 8, location := 3, entrySize := 16
                                       base := base + 0x4000, master := .ethernet }) s
  let s := modRing (n + 2) (fun _ => { created := true, kind := .event, log2 := 8, location := 3, entrySize := 32
                                       base := base + 0x5000, master := .ethernet }) s
  { s with sram := zeroRange base 0x7000 s.sram }

/-- The endpoint starts to answer a peer: SEQ begins anew (R329). -/
def endpointOn (x : Ctx) (n : Nat) (s : State) : State :=
  ok x.ref n { s with endpoint := { s.endpoint with
    port := some x.unit, udp := x.u16 18, peerIp := fld x.e 20 16, peerUdp := x.u16 36, ring := n
    lastSeq := 0xFFFFFFFF, lastFirst := 0, lastCount := 0 } }

/-- NET.SET_CONTROL (R327): from PF0 only. -/
def netSetControl : Cmd → State → State :=
  takeCommand 0x1604 (pf0Only fun x s =>
    match badOffset (envelope false (.below 4) x ++ [(16, decide (1 < x.u8 16))] ++ reserved x.e 17 18 ++ reserved x.e 38 64) with
    | some off => fail x.ref stBadArg off s
    | none =>
      if portBound x.unit s then fail x.ref stBusy 0 s
      else if x.u8 16 = 0 then
        ok x.ref 0 (if s.endpoint.port = some x.unit then { s with endpoint := { s.endpoint with port := none } } else s)
      else if s.endpoint.ring ≠ 0 ∧ (getRing s.endpoint.ring s).master = .ethernet then endpointOn x s.endpoint.ring s
      else
        let a := draw s
        let b := draw a.2
        match freeTriple a.1 b.2 with
        | none => fail x.ref stBusy 0 b.2
        | some n => endpointOn x n (endpointRings n (0x810000 + 0x7000 * (b.1 % 292)) b.2))

/-- R327: a datagram comes to the endpoint's port from its peer, with a header of its own. (DEDUCED, unsafe: log 57.) -/
def fromPeer (d : Datagram) (s : State) : Bool :=
  let e := s.endpoint
  e.port == some d.port && (getPort d.port s).up && s.steward.running && d.srcIp == e.peerIp && d.srcUdp == e.peerUdp &&
    d.magic == 0x4347 && decide (d.count ≤ 128)

/-- A datagram leaves to the peer. -/
def endpointEmit (kind : Nat) (seq : Option Nat) (ring first count : Nat) (s : State) : State :=
  match s.endpoint.port with
  | some p => portSent p { s with endpoint := { s.endpoint with out := s.endpoint.out ++ [(kind, seq, ring, first, count)] } }
  | none => s

/-- R328: of the last 256 entries of an endpoint ring, the indices still held that pass a test. -/
def heldIndices (n : Nat) (test : Nat → List Byte → Bool) (s : State) : List Nat :=
  let r := getRing n s
  ((List.range 256).reverse.map fun k => (r.prod.toNat + 65535 - k) % 65536).filter fun i =>
    let bytes := loadAt r.location (entryAddr r i) r.entrySize s
    bytes.any (· != 0) && test i bytes

/-- Entries of a ring are sent once more. -/
def resendIndices (kind n : Nat) (is : List Nat) (s : State) : State :=
  match is with
  | [] => s
  | i :: _ => endpointEmit kind none n i is.length s

/-- R328: the entries of an accepted datagram stand in the command ring from its producer index on. -/
def acceptEntries (d : Datagram) (n : Nat) (s : State) : State :=
  let r := getRing n s
  let s := each d.entries.zipIdx (fun e s => storeAt r.location (entryAddr r (r.prod.toNat + e.2)) (leBytes 64 e.1.toNat) s) s
  let s := modRing n (fun r => { r with prod := r.prod + BitVec.ofNat 16 d.count }) s
  { s with endpoint := { s.endpoint with lastSeq := BitVec.ofNat 32 d.seq, lastFirst := d.first, lastCount := d.count } }

/-- CONTROL_COMMAND_DATAGRAM (R328): accepted with the SEQ that follows; the last accepted SEQ repeats completions. -/
def execControlCommandDatagram (t : DT) (datagram : Datagram) (s : State) : Out :=
  let s := advance t s
  let d := datagram
  let n := s.endpoint.ring
  let r := getRing n s
  .next (if !(fromPeer d s && d.kind == 1 && d.ring == n && decide (d.count = d.entries.length)) then portDiscard d.port s
  else if d.seq = (s.endpoint.lastSeq + 1).toNat ∧ d.first = r.prod.toNat ∧ ringHeld r + d.count ≤ ringSize r then
    acceptEntries d n s
  else if d.seq = s.endpoint.lastSeq.toNat then
    resendIndices 2 (n + 1) (heldIndices (n + 1) (fun _ bytes =>
      decide ((leNat ((bytes.drop 12).take 2) + 65536 - s.endpoint.lastFirst) % 65536 < s.endpoint.lastCount)) s) s
  else portDiscard d.port s)

/-- CONTROL_RESEND_DATAGRAM (R328, R329): entries still held go out again; count 0 asks for the endpoint's state. -/
def execControlResendDatagram (t : DT) (datagram : Datagram) (s : State) : Out :=
  let s := advance t s
  let d := datagram
  let n := s.endpoint.ring
  .next (if !(fromPeer d s && d.kind == 4) then portDiscard d.port s
  else if d.count = 0 then endpointEmit 4 (some s.endpoint.lastSeq.toNat) n (getRing n s).prod.toNat 0 s
  else if d.ring = n + 1 ∨ d.ring = n + 2 then
    resendIndices (if d.ring = n + 1 then 2 else 3) d.ring
      (heldIndices d.ring (fun i _ => decide ((i + 65536 - d.first) % 65536 < d.count)) s) s
  else portDiscard d.port s)

/-! ## Rows -/

def execNetSetPort (c : Cmd) (s : State) : Out := .next (netSetPort c s)
def execNetSetStream (c : Cmd) (s : State) : Out := .next (netSetStream c s)
def execNetSetVdif (c : Cmd) (s : State) : Out := .next (netSetVdif c s)
def execNetSetControl (c : Cmd) (s : State) : Out := .next (netSetControl c s)
def execNetStatus (c : Cmd) (s : State) : Out := .next (netStatus c s)

end Sys2Proof.Machine
end

