-- ==== Sys2Proof/Machine/Steward.lean ====
section
/-! DEFINITION. Steward restarts and hitless firmware replacement (18_availability_and_self_test.md R360 to R366). -/

namespace Sys2Proof.Machine

/-- R360, R361: what a restart leaves of steward SRAM: the image, the rings, the descriptor. (DEDUCED, unsafe: log 25.) -/
def sramKept (s : State) (a : Nat) : Bool :=
  decide (a < 0x800000) || (decide (0x808000 ≤ a) && decide (a < 0x808100)) ||
    s.rings.any fun r => r.2.created && r.2.location == 3 && decide (r.2.base ≤ a) && decide (a < r.2.base + ringSize r.2 * r.2.entrySize)

/-- R360: the steward is held in reset from here: 1 lockstep, 2 handler, 5 SRAM. -/
def stewardDown (cause : Nat) (s : State) : State :=
  if s.steward.running then
    { s with sram := s.sram.filter (fun c => sramKept s c.1), steward := { s.steward with
      running := false, outage := some (cause, s.dt), held := [], heldLost := false, handover := none } }
  else s

/-- STEWARD_FAULT. -/
def execStewardFault (t : DT) (cause : Nat) (s : State) : Out :=
  let s := advance t s
  .next (if s.stone.stage = .ready then stewardDown cause s else s)

/-- R361: commands taken and not completed end with FAULT, REASON 8; those applied when a domain starts are gone. -/
def faultTaken (keep : Option CmdRef) (s : State) : State :=
  let done := fun (i : Inflight) =>
    if i.outcome.isNone && decide (keep ≠ some i.ref) then { i with outcome := some { status := stFault, reason := 8 } } else i
  let s := each (s.rings.map (·.1)) (fun n => modRing n (fun r => { r with inflight := r.inflight.map done })) s
  { s with bunch := { s.bunch with deferred := [] } }

/-- R61, R361: bunches OPEN or ARMING abort. (DEDUCED, unsafe: log 56.) -/
def restartAborts (s : State) : State :=
  each ((s.bunch.table.filter fun b => b.2.state == .opened || b.2.state == .arming).map (·.1))
    (fun id => abortBunch id 9 stFault 8 0 0) s

/-- R362: the events held during the outage are posted with their own DT; the first one after the buffer overflowed
carries LOST. -/
def postHeld (held : List Event) (lost : Bool) (s : State) : State :=
  let s := each held deliverEvent s
  if lost then each ((s.rings.filter fun r => r.2.created && r.2.kind == .event).map (·.1)) (fun n => modRing n (fun r => { r with lost := true })) s
  else s

/-- R363, R358: every personality is halted in order. -/
def stewardStorm (s : State) : State :=
  let mask := maskOf 6 fun p => personalityRuns p s
  let s := each [0, 1, 2, 3, 4, 5] (fun p => haltPersonality p 1) s
  event 0x1805 3 0xFFFF [(16, 1, 8), (17, 1, 0), (18, 1, mask)]
    { s with health := { s.health with storms := s.health.storms + 1 } }

/-- All completions that can leave do. -/
def flushAll (s : State) : State :=
  each ((s.rings.filter fun p => p.2.created && p.2.kind == .command).map (·.1))
    (fun n s => flushCompletions n (getRing n s).inflight.length s) s

/-- R49: bunches whose last member landed in the outage are FREE now that their event is posted. -/
def freeLanded (s : State) : State :=
  { s with bunch := { s.bunch with table := s.bunch.table.filter fun b =>
      !(b.2.state == .landing && b.2.direct.isNone && b.2.members.all (·.landed)) } }

/-- R361 to R366: Korsyn is back after an outage of a cause that began at a DT. (DEDUCED, unsafe: log 25.) -/
def stewardBack (cause : Nat) (since : DT) (s : State) : State :=
  let old := s.steward
  let fault := cause != 3 && cause != 4
  let recent := (if fault then [s.dt] else []) ++ old.restarts.filter fun d => decide (dtSub s.dt d < 60 * tkS)
  let h := if fault then none else old.handover
  let s := { s with steward := { old with
    running := true, closed := false, outage := none, held := [], heldLost := false, restarts := recent
    restartCount := if fault then satAdd 65535 old.restartCount 1 else old.restartCount, handover := none } }
  let s := match h with
    | some h => if cause = 3 then rewriteCaps (modStone (fun x => { x with runSec := h.sec, imageLen := h.len }) s) else s
    | none => s
  let record : FaultRecord := { opened := since, closed := s.dt, cls := 8, cause := cause, unit := 0, state := 2, outcome := outRepaired
                                personality := 0xFF, nest := s.health.faults.length + 1, spare := none }
  let s := if fault then { s with health := { s.health with closedFaults := (record :: s.health.closedFaults).take 64 } } else s
  let s := restartAborts (faultTaken (h.map (·.ref)) s)
  let s := event 0x1801 2 0xFFFF [(16, 1, cause), (17, 1, recent.length), (20, 4, s.stone.runSec), (24, 8, since.toNat)] s
  let s := freeLanded (postHeld old.held old.heldLost s)
  let s := match h with
    | some h => if cause = 3 then ok h.ref h.sec s else fail h.ref stFault 8 s
    | none => s
  let s := flushAll s
  if fault && decide (4 ≤ recent.length) then stewardStorm s else s

/-- STEWARD_RESTART_DONE (Table 18-7, R365): without a good image the steward stays halted. -/
def execStewardRestartDone (t : DT) (imageOk : Bool) (s : State) : Out :=
  let s := advance t s
  .next (match s.steward.outage with
  | some (cause, since) =>
    if imageOk then stewardBack cause since s
    else if cause = 3 ∨ cause = 4 then s
    else { s with steward := { s.steward with halted := true, outage := none } }
  | none => s)

/-- STEWARD_OUTAGE_TIMEOUT (R362): after 2 s LASER_EN drops and both generators stop at IDLE. -/
def execStewardOutageTimeout (t : DT) (s : State) : Out :=
  let s := advance t s
  .next (if !s.steward.running && s.stone.stage == .ready &&
      (s.steward.halted || s.steward.outage.any fun o => decide (2 * tkS ≤ dtSub s.dt o.2)) then
    genEnd 1 3 (genEnd 0 3 (laserCut s))
  else s)

/-- HANDOVER_TIMEOUT (R366): the kept image is restored and restarted. -/
def execHandoverTimeout (t : DT) (s : State) : Out :=
  let s := advance t s
  .next (match s.steward.outage, s.steward.handover with
  | some (3, since), some h =>
    if 500 * tkMs ≤ dtSub s.dt since then
      { s with sram := writeCells (zeroRange 0 0x800000 s.sram) h.oldImage
               steward := { s.steward with outage := some (4, since) } }
    else s
  | _, _ => s)

/-- DEV.UPDATE (R364, R365). -/
def devUpdate : Cmd → State → State :=
  takeCommand 0x0105 (pf0Only fun x s =>
    let len := x.u32 24
    match badOffset (envelope false .none x ++ [(24, decide (len < 4096) || decide (0x800000 < len) || len % 4 != 0)] ++ reserved x.e 28 64) with
    | some off => fail x.ref stBadArg off s
    | none =>
      let head := headerAt s.host (x.u64 16)
      match imageError s.host (x.u64 16) len s with
      | some e => fail x.ref stRefused (0x20 + e) s
      | none =>
        let h : Handover := { ref := x.ref, sec := head.sec, len := len, image := readBytes s.host (x.u64 16) len, oldImage := [] }
        let s := { s with steward := { s.steward with closed := true, handover := some h } }
        handoverGo (each ((s.bunch.table.filter fun b => b.2.state == .opened).map (·.1)) (fun id => abortBunch id 9 0 0 0 0) s))

def execDevUpdate (c : Cmd) (_ _ : Unit) (s : State) : Out := .next (devUpdate c s)

end Sys2Proof.Machine
end

