-- ==== Sys2Proof/Machine/HealthUnit.lean ====
section
/-! DEFINITION. Health commands, rotation, unit tests and analogue self-tests (18_availability_and_self_test.md R345 to R359,
Tables 18-1, 18-2, 18-8). -/

namespace Sys2Proof.Machine

/-! ## Commands (Table 18-8) -/

/-- R345: the next unit in ascending number from one on that a test allows. -/
def nextUnit (bound start : Nat) (test : Nat → Bool) : Nat :=
  (((List.range bound).map fun i => (start + i) % bound).find? test).getD 0

def nextPipVisit (s : State) : Nat := nextUnit 36 s.health.nextPip fun n => pipHealthy n s
def nextCurrantVisit (s : State) : Nat := nextUnit 18 s.health.nextCurrant fun n => currantHealthy n s

/-- HEALTH.STATUS: the power estimate is not stated (DESIGN CHOICE, safe: log 4). -/
def healthRecord (milliwatt : Nat) (s : State) : List Byte :=
  let h := s.health
  let temp := fun k => leInt 2 (tget 2500 h.temps k)
  temp 0 ++ temp 1 ++ temp 2 ++ temp 3 ++ leBytes 4 milliwatt ++ leBytes 1 h.faults.length ++ leBytes 1 (nextPipVisit s) ++
    leBytes 1 (nextCurrantVisit s) ++ leBytes 1 0 ++ leBytes 4 (sat 4 h.pipRepairs) ++ leBytes 4 (sat 4 h.curRepairs) ++
    leBytes 2 (sat 2 s.steward.restartCount) ++ leBytes 2 (sat 2 h.storms) ++ leBytes 4 (dtSub s.dt s.steward.bootDt / tkS) ++ leBytes 32 0

def healthStatus : Cmd → State → State :=
  plainCommand 0x1801 .none (fun x _ => reserved x.e 24 64) fun x s =>
    let v := draw s
    ok x.ref 0 (toHost (x.u64 16) (healthRecord v.1 v.2) v.2)

/-- A rotation period. -/
def badPeriod (n : Nat) : Bool := n != 0 && (decide (n < 3600) || decide (604800 < n))

/-- HEALTH.SET_ROTATION; the spacing counts from the command (DESIGN CHOICE, unsafe: log 79). -/
def healthSetRotation : Cmd → State → State :=
  plainCommand 0x1802 .none (fun x _ => [(16, badPeriod (x.u32 16)), (20, badPeriod (x.u32 20))] ++ reserved x.e 26 64) fun x s =>
    ok x.ref 0 { s with health := { s.health with
      pipDue := dtAdd s.dt (visitSpacing (x.u32 16) (pipsHealthy s)), curDue := dtAdd s.dt (visitSpacing (x.u32 20) (currantsHealthy s))
      pipPeriod := x.u32 16, curPeriod := x.u32 20, tempWarn := if x.i16 24 = 0 then 9500 else x.i16 24 } }

/-- Table 18-5. -/
def faultBytes (r : FaultRecord) : List Byte :=
  leBytes 8 r.opened.toNat ++ leBytes 8 (if r.state = 2 then r.closed.toNat else 0) ++ leBytes 1 r.cls ++ leBytes 1 r.cause ++
    leBytes 2 r.unit ++ leBytes 1 r.state ++ leBytes 1 r.outcome ++ leBytes 1 r.personality ++ leBytes 1 r.nest ++ leBytes 8 0

def healthReadFaults : Cmd → State → State :=
  plainCommand 0x1803 .none (fun x _ => [(24, x.u8 24 == 0 || decide (68 < x.u8 24))] ++ reserved x.e 25 64) fun x s =>
    let rs := (s.health.faults ++ s.health.closedFaults).take (x.u8 24)
    ok x.ref rs.length (toHost (x.u64 16) (rs.map faultBytes).flatten s)

/-- HEALTH.SET_RETIRED (R355): before the first admission only. -/
def healthSetRetired : Cmd → State → State :=
  plainCommand 0x1804 .none (fun x _ => [(16, decide (2 ^ 36 ≤ x.u64 16)), (24, decide (2 ^ 18 ≤ x.u32 24))] ++ reserved x.e 28 64)
    fun x s =>
    if s.health.admitted then fail x.ref stBusy 0 s
    else
      let s := each ((List.range 36).filter fun n => bit (x.u64 16) n && pipPresent n s) (fun n => retirePip n 0) s
      let s := each ((List.range 18).filter fun n => bit (x.u32 24) n && currantPresent n s) (fun n => retireCurrant n 0) s
      ok x.ref 0 s

def execHealthStatus (c : Cmd) (s : State) : Out := .next (healthStatus c s)
def execHealthSetRotation (c : Cmd) (s : State) : Out := .next (healthSetRotation c s)
def execHealthReadFaults (c : Cmd) (s : State) : Out := .next (healthReadFaults c s)
def execHealthSetRetired (c : Cmd) (s : State) : Out := .next (healthSetRetired c s)

/-! ## Temperature (R392, Table 18-8) -/

/-- The warning level of a sensor after a reading, and the severity reported when it is news. -/
def tempStep (warn : Int) (level : Nat) (centi : Int) : Nat × Option Nat :=
  if 10000 < centi ∧ level < 2 then (2, some 2)
  else if warn < centi ∧ level < 1 then (1, some 1)
  else if level = 2 ∧ centi ≤ 9800 then ((if warn - 200 < centi then 1 else 0), some 0)
  else if level = 1 ∧ centi ≤ warn - 200 then (0, some 0)
  else (level, none)

/-- TEMP_THRESHOLD: a sensor reads this temperature from now on. -/
def execTempThreshold (t : DT) (sensor : Nat) (centi : Int) (s : State) : Out :=
  let s := advance t s
  let r := tempStep s.health.tempWarn (tget 0 s.health.tempLevel sensor) centi
  let s := { s with health := { s.health with
    temps := tput 2500 s.health.temps sensor centi, tempLevel := tput 0 s.health.tempLevel sensor r.1 } }
  .next (match r.2 with
  | some sev => event 0x1808 sev sensor [(16, 1, sensor), (18, 2, enc 2 centi)] s
  | none => s)

/-! ## Rotation (R345 to R349) -/

/-- R345, R349: what every visit of a kind waits for: its due time, and the rest. -/
def rotationHeld (kind : Nat) (s : State) : Bool :=
  !dtLe (if kind = 1 then s.health.pipDue else s.health.curDue) s.dt || !s.health.faults.isEmpty || !s.steward.running || s.steward.handover.isSome ||
    (if kind = 1 then s.health.pipPeriod == 0 || (sparePip s).isNone || decide (pipsHealthy s < pipsInUse s + s.health.spares)
     else s.health.curPeriod == 0 || (spareCurrant s).isNone || decide (currantsHealthy s < currantsInUse s + 2))

/-- The idle spare of lowest number; a unit in test never takes a relief (R345). -/
def idlePip (s : State) : Option Nat := (List.range 36).find? fun n => pipHealthy n s && (getPip n s).state == .spare
def idleCurrant (s : State) : Option Nat := (List.range 18).find? fun n => currantHealthy n s && (getCurrant n s).state == .spare

/-- R346: a host bunch on the claim unit is OPEN or ARMING. -/
def hostHolds (c : Claim) (s : State) : Bool :=
  (s.bunch.table.any fun b => (b.2.state == .opened || b.2.state == .arming) && b.2.master != .scheduled &&
      b.2.members.any fun m => m.claim == c) || (claimStaged 64 c s).any (· != .scheduled)

/-- A visit to a pip: an assigned one is relieved by a scheduled bunch, any other is tested in place. -/
def visitPip (n : Nat) (s : State) : State :=
  let c := getPip n s
  let on := fun (s : State) => { s with health := { s.health with
    nextPip := n + 1, pipDue := dtAdd s.health.pipDue (visitSpacing s.health.pipPeriod (pipsHealthy s)) } }
  let claim : Claim := { cls := 3, inst := c.personality }
  match c.state with
  | .assigned =>
    match idlePip s with
    | some k => if hostHolds claim s then s
        else on (schedule [(claim, .relievePip c.personality n k)] (pipTo .relieving c.personality k s))
    | none => s
  | .spare | .off => on (pipTo .inTest 0xF n s)
  | _ => on s

/-- The same for a currant, under the claim unit of the sensing it serves. -/
def visitCurrant (n : Nat) (s : State) : State :=
  let c := getCurrant n s
  let on := fun (s : State) => { s with health := { s.health with
    nextCurrant := n + 1, curDue := dtAdd s.health.curDue (visitSpacing s.health.curPeriod (currantsHealthy s)) } }
  let f := c.personality - 4
  let claim : Claim := { cls := if dasRuns f s then 0xA else 0xB, inst := f }
  match c.state with
  | .assigned =>
    match idleCurrant s with
    | some k => if hostHolds claim s then s
        else on (schedule [(claim, .relieveCurrant c.personality n k)] (currantTo .relieving c.personality 0xFF k s))
    | none => s
  | .spare | .off => on (currantTo .inTest 0xF 0 n s)
  | _ => on s

/-- ROTATION_VISIT: kind 1 pips, 2 currants; the unit whose turn it is. -/
def execRotationVisit (t : DT) (kind unit : Nat) (s : State) : Out :=
  let s := advance t s
  .next (if rotationHeld kind s || !s.health.admitted || s.health.firstTest then s
  else if kind = 1 then (if unit = nextPipVisit s ∧ pipHealthy unit s = true then visitPip unit s else s)
  else if unit = nextCurrantVisit s ∧ currantHealthy unit s = true then visitCurrant unit s else s)

/-- R348, R353, R355: the end of a pip's test. -/
def pipTested (n : Nat) (pass : Bool) (s : State) : State :=
  if pass then testOutcome 1 n outStrike (pipTo .spare 0xF n s)
  else
    let s := event 0x1806 2 n [(16, 1, 6), (17, 1, n), (18, 1, 2)] s
    testOutcome 1 n outRetired (retirePip n 3 s)
def currantTested (n : Nat) (pass : Bool) (s : State) : State :=
  if pass then testOutcome 2 n outStrike (currantTo .spare 0xF 0xFF n s)
  else
    let s := event 0x1806 2 n [(16, 1, 7), (17, 1, n), (18, 1, 2)] s
    testOutcome 2 n outRetired (retireCurrant n 4 s)

/-- R355: the last test of the first admission lets what waits for it go on. -/
def firstTestEnd (s : State) : State :=
  if s.health.firstTest && firstTestOver s then applyDeferred { s with health := { s.health with firstTest := false } } else s

/-- UNIT_TEST_DONE: of a unit in test (R348, R355). -/
def execUnitTestDone (t : DT) (kind unit : Nat) (pass : Bool) (s : State) : Out :=
  let s := advance t s
  .next (if !s.steward.running then s
  else if kind = 1 then (if pipHealthy unit s && (getPip unit s).state == .inTest then firstTestEnd (pipTested unit pass s) else s)
  else if currantHealthy unit s && (getCurrant unit s).state == .inTest then firstTestEnd (currantTested unit pass s) else s)

/-! ## Analogue self-tests (R350, R351) -/

/-- R350: the spare of an optical receiver takes the next position. -/
def orxRotate (c : OrxChan) : OrxChan :=
  match c.spare with
  | some sp => { c with positions := c.positions.set c.nextPos sp, spare := c.positions[c.nextPos]?, nextPos := (c.nextPos + 1) % 4
                        swapDue := dtAdd c.swapDue (2 * tkS) }
  | none => c

/-- R350: a slice failed: the first leaves the channel without a spare, the second takes the channel and halts its
fibre. (DEDUCED, unsafe: log 68.) -/
def orxFault (n : Nat) (ppm : Int) (s : State) : State :=
  let c := getOrx n s
  let second := c.spare.isNone
  if second && decide (2 ≤ c.retired.length) then s
  else
    let slice := c.spare.getD (c.positions.getD c.nextPos 0)
    let s := modOrx n (fun c => { c with retired := c.retired ++ [slice], spare := none }) s
    let s := if second then { s with health := { s.health with orxRetired := s.health.orxRetired ||| 2 ^ n } } else s
    let s := event 0x1806 2 n [(16, 1, 1), (17, 1, n), (18, 1, 2), (20, 4, enc 4 ppm)] (rewriteCaps s)
    let s := if second then haltPersonality (4 + n / 2) 2 s else s
    faultArrive 4 1 n (4 + n / 2) (if second then outHalted else outRetired)
      (if fibreRuns (n / 2) s then [{ cls := 0xA, inst := n / 2 }, { cls := 0xB, inst := n / 2 }] else []) s

/-- R350: a swap is due and the group that starts now does not carry OVR. -/
def orxSwapHere (n : Nat) (s : State) : Bool :=
  let c := getOrx n s
  c.swapDue != 0 && dtLe c.swapDue s.dt && c.input.head?.any (fun g => g.1 == s.dt) && !c.ovr

/-- ORX_SLICE_SWAP (R350): a slice outside the tolerance, and the swap that is due. -/
def execOrxSliceSwap (t : DT) (receiver : Nat) (fault : Option Int) (s : State) : Out :=
  let s := advance t s
  .next (if orxHealthy receiver s && fibreRuns (receiver / 2) s && planeRuns s then
    let s := match fault with
      | some ppm => orxFault receiver ppm s
      | none => s
    if orxSwapHere receiver s then modOrx receiver orxRotate s else s
  else s)

/-- R351: a DAC is retired: its fibre halts, both DACs are disarmed, its stimulus stops. -/
def dacRetire (d : Nat) (ppm : Int) (s : State) : State :=
  let owner := 4 + d
  let s := { s with health := { s.health with dacsRetired := s.health.dacsRetired ||| 2 ^ d } }
  let s := event 0x1806 2 d [(16, 1, 2), (17, 1, d), (18, 1, 2), (20, 4, enc 4 ppm)] (rewriteCaps s)
  let halted := fibreRuns d s
  let s := haltPersonality owner 3 s
  let s := laserArmLand 1 false (laserArmLand 0 false s)
  let s := if halted then s else genEnd d 3 s
  faultArrive 5 2 d owner (if halted then outHalted else outRetired) [{ cls := 8, inst := d }, { cls := 9, inst := d }] s

/-- DAC_LOOPBACK: two consecutive deviations beyond 2 % of full scale retire the DAC. -/
def execDacLoopback (t : DT) (dac : Nat) (deviationPpm : Int) (s : State) : Out :=
  let s := advance t s
  .next (if dacHealthy dac s && s.steward.running then
    if deviationPpm.natAbs ≤ 20000 then { s with health := { s.health with loopFails := tput 0 s.health.loopFails dac 0 } }
    else
      let n := tget 0 s.health.loopFails dac + 1
      let s := { s with health := { s.health with loopFails := tput 0 s.health.loopFails dac n } }
      if n = 2 then dacRetire dac deviationPpm s else s
  else s)

/-- DIE_REFERENCE_CHECK: beyond 0.05 dy the gain is corrected, beyond 0.25 dy there is a warning. -/
def execDieReferenceCheck (t : DT) (die : Nat) (milliDy ppm : Int) (s : State) : Out :=
  let s := advance t s
  .next (if tget false s.power.dies die && s.steward.running then
    let s := if 50 < milliDy.natAbs then
        { s with health := { s.health with gainCorrection := tput 0 s.health.gainCorrection die (tget 0 s.health.gainCorrection die - milliDy) } }
      else s
    if 250 < milliDy.natAbs then event 0x1806 1 die [(16, 1, 3), (17, 1, die), (18, 1, 1), (20, 4, enc 4 ppm)] s else s
  else s)

/-- SLOW_SELFTEST_DUE: a zero and a half-scale conversion join the converter's work. -/
def execSlowSelftestDue (t : DT) (s : State) : Out :=
  let s := advance t s
  .next (if s.steward.running then slowKick (modSlow (fun x => { x with selfTestsDue := x.selfTestsDue ++ [false, true] }) s) else s)

end Sys2Proof.Machine
end

