-- ==== Sys2Proof/Machine/MemUnit.lean ====
section
/-! DEFINITION. DRAM frequency changes, self-refresh, errors, repair and the error log (15_memory.md R297 to R313). -/

namespace Sys2Proof.Machine

/-- The DRAM controller's state changes. -/
def modMem (f : MemCtl → MemCtl) (s : State) : State := { s with memCtl := f s.memCtl }

/-! ## Frequency points (R303 to R306) -/

/-- R306: the write rates of running captures, and how many run. -/
def runningCaptures (s : State) : List Nat :=
  ((List.range 16).filter fun k => (getCap k s).phase == 1 || (getCap k s).phase == 2).map fun k => captureRate (getCap k s).cfg s

/-- R304, R66: a change to a point would lock by hop. -/
def hopReady (point : Nat) (s : State) : Bool :=
  let c := getPll 2 s
  c.cacheMode && (hopEntry { c with target := dramKHz point } c.xtal (dieTemp s)).isSome

/-- Step 1 of R304, after check 2 of R306: the staging occupancy is what the hardware measures, within its bound
(DESIGN CHOICE, safe: log 4). -/
def dfsBegin (s : State) : State :=
  match s.memCtl.change with
  | some (target, ref, taken, none) =>
    let rates := runningCaptures s
    let v := draw s
    let occupied := v.1 % (ceilDiv (rates.sum * 10) 1000000 + 4096 * rates.length + 1)
    let stall := if hopReady target s then 8 else 44
    if 16777216 < occupied + ceilDiv (rates.sum * stall) 1000000 then
      fail ref stBusy 0 (modMem (fun m => { m with change := none }) v.2)
    else pllBegin 2 (dramKHz target) (modMem (fun m => { m with change := some (target, ref, taken, some v.2.dt), selfRefresh := true }) v.2)
  | _ => s

/-- MEM.SET_FREQ (R306) (DEDUCED, unsafe: log 55). -/
def memSetFreq : Cmd → State → State :=
  plainCommand 0x1501 .none (fun x _ => (16, decide (3 < x.u8 16)) :: reserved x.e 17 64) fun x s =>
    let target := x.u8 16
    if target = s.memCtl.point then ok x.ref 0 s
    else if s.memCtl.change.isSome then fail x.ref stBusy 0 s
    else if pipsShort (planned s) then fail x.ref stRefused 0x01 s
    else if currantsShort (planned s) then fail x.ref stRefused 0x02 s
    else if budgetAt target < dramCharge (planned s) then fail x.ref stRefused 0x03 s
    else if anyPersonality s && !hopReady target s then fail x.ref stBusy 0 s
    else
      let s := modMem (fun m => { m with change := some (target, x.ref, s.dt, none) }) s
      if s.memCtl.training then s else dfsBegin s

/-- Whole microseconds between two DTs. (DESIGN CHOICE, unsafe: log 7.) -/
def micros (a b : DT) : Nat := (roundAway (dtSub b a : Nat) tkUs).toNat

/-- DFS_DONE: step 4 of R304 is over, and the requests that stalled are served. -/
def execDfsDone (t : DT) (s : State) : Out :=
  let s := advance t s
  .next (match s.memCtl.change with
  | some (target, ref, taken, some began) =>
    if (getPll 2 s).absent.isSome then s
    else
    let s := pllRun 2 (dramKHz target) s
    let s := dramResumed (modMem (fun m => { m with point := target, change := none, selfRefresh := false }) s)
    event 0x1502 0 0xFFFF [(16, 1, target), (17, 1, b2n !(getPll 2 s).hop), (18, 2, sat 2 (micros began s.dt)),
      (20, 4, sat 4 (micros taken began))] (ok ref 0 s)
  | _ => s)

/-- TRAINING_WINDOW and its end (R305): a change taken meanwhile begins at the end. -/
def execTrainingWindow (t : DT) (s : State) : Out :=
  let s := advance t s
  .next (if s.stone.dramWiped && !s.memCtl.training && !dramStalled s then modMem (fun m => { m with training := true, lastTraining := s.dt }) s else s)
def execTrainingWindowEnd (t : DT) (s : State) : Out :=
  let s := advance t s
  .next (if s.memCtl.training then dfsBegin (modMem (fun m => { m with training := false }) s) else s)

/-! ## Self-refresh and refresh (R301, R302) -/

def memSetIdle : Cmd → State → State :=
  plainCommand 0x1502 .none (fun x _ => (16, decide (1000000 < x.u32 16)) :: reserved x.e 20 64) fun x s =>
    ok x.ref 0 (modMem (fun m => { m with idleUs := x.u32 16 }) s)

/-- Something holds the DRAM in self-refresh: a point change, an absence of ADPLL-M, a deep power state. -/
def refreshHeld (s : State) : Bool := asleep s || dramStalled s

/-- Table 15-1: requesters that never pause: replay, refill, capture, scan-out, data-plane streams. -/
def dramBusy (s : State) : Bool :=
  anyPersonality s || !(runningCaptures s).isEmpty || [0, 1].any (fun d => (getGen d s).running && (streamed (getGen d s)) != []) ||
    decide (0 < displayCharge s)

/-- SELF_REFRESH_ENTRY: no requester asked for IDLE_US. -/
def execSelfRefreshEntry (t : DT) (s : State) : Out :=
  let s := advance t s
  .next (if s.stone.dramWiped && s.memCtl.idleUs != 0 && !dramBusy s && !dramStalled s &&
      decide (s.memCtl.idleUs * tkUs ≤ dtSub s.dt s.memCtl.lastRequest) then modMem (fun m => { m with selfRefresh := true }) s else s)

/-- DRAM_WAKE: the first request after entry. -/
def execDramWake (t : DT) (s : State) : Out :=
  let s := advance t s
  .next (if refreshHeld s then s else dramTouch s)

/-- DRAM_REFRESH: the controller refreshes a bank; data stays. -/
def execDramRefresh (t : DT) (channel bank : Nat) (s : State) : Out :=
  let s := advance t s
  .next (if s.stone.dramWiped && decide (channel < 16) && !s.memCtl.selfRefresh then
    modMem (fun m => { m with refreshes := m.refreshes + 1, lastRefresh := some (channel, bank) }) s else s)

/-! ## The error log (R309) -/

/-- An entry to log: kind, class, unit, row, column, bank, bit, address. -/
def newEntry (s : State) (kind cls unit row column bank bit addr : Nat) : LogEntry :=
  { dt := s.dt, kind := kind, cls := cls, unit := unit, row := row, column := column, bank := bank, bit := bit, count := 1
    addr := addr, read := false }

/-- R309: errors of one kind on the same DRAM row, or SRAM word. -/
def sameError (a b : LogEntry) : Bool :=
  a.kind == b.kind && a.unit == b.unit && a.bank == b.bank && a.row == b.row && (decide (a.kind < 4) || a.addr == b.addr)

/-- The first entry that passes a test is counted once more. -/
def countEntry (test : LogEntry → Bool) : List LogEntry → List LogEntry
  | [] => []
  | e :: rest => if test e then { e with count := satAdd u32max e.count 1 } :: rest else e :: countEntry test rest

/-- R309: an error is merged with a like one within 1 s, or takes a new entry, the oldest giving way when 256 are
held; answers its COUNT. (DEDUCED, unsafe: log 55.) -/
def logError (e : LogEntry) (s : State) : Nat × State :=
  let like := fun (o : LogEntry) => sameError o e && !o.read && decide (dtSub e.dt o.dt < tkS)
  match s.memCtl.log.find? like with
  | some o => (satAdd u32max o.count 1, modMem (fun m => { m with log := countEntry like m.log }) s)
  | none =>
    let over_ := decide (256 ≤ s.memCtl.log.length)
    let gone := s.memCtl.log.head?.any fun o => !o.read
    (1, modMem (fun m => { m with log := (if over_ then m.log.drop 1 else m.log) ++ [e], logLost := m.logLost || (over_ && gone) }) s)

/-- EV_MEM_ERROR: for every uncorrectable error, for correctable ones once a second by channel or block. -/
def reportError (e : LogEntry) (count group : Nat) (ue : Bool) (s : State) : State :=
  let quiet := match tget none (s.memCtl.ceEvent.map fun p => (p.1, some p.2)) group with
    | some d => decide (dtSub s.dt d < tkS)
    | none => false
  if !ue && quiet then s
  else
    let s := if ue then s else modMem (fun m => { m with ceEvent := (m.ceEvent.filter fun p => p.1 != group) ++ [(group, s.dt)] }) s
    event 0x1501 (if ue then 2 else 1) e.unit [(16, 1, e.kind), (17, 1, e.cls), (18, 2, e.unit), (20, 4, count), (24, 8, e.addr)] s

/-- An error is logged and reported. -/
def memError (e : LogEntry) (group : Nat) (ue : Bool) (s : State) : State :=
  let r := logError e s
  reportError e r.1 group ue r.2

/-! ## Row repair (R310, R311) -/

/-- EV_MEM_REPAIR. -/
def repairEvent (cause channel bank row : Nat) (s : State) : State :=
  event 0x1503 1 channel [(16, 1, cause), (17, 1, channel), (18, 1, bank), (20, 4, row)] s

/-- R310: a row is remapped to a spare row, or the table is full. -/
def remapRow (cls channel bank row column addr : Nat) (s : State) : State :=
  if s.memCtl.remap.contains (channel, bank, row) then s
  else if 64 ≤ s.memCtl.remap.length then repairEvent 3 channel bank row s
  else
    let s := modMem (fun m => { m with
      remap := m.remap ++ [(channel, bank, row)], history := m.history.filter fun h => h.1 != (channel, bank, row) }) s
    repairEvent 1 channel bank row (logError (newEntry s 6 cls channel row column bank 0xFF addr) s).2

/-- R310: a corrected error on a row: the third read within 24 h remaps it. -/
def countRow (cls channel bank row column addr : Nat) (s : State) : State :=
  let day := 86400 * tkS
  let s := modMem (fun m => { m with
    history := (m.history.filter fun h => decide (dtSub s.dt h.2 < day)) ++ [((channel, bank, row), s.dt)] }) s
  if 3 ≤ (s.memCtl.history.filter fun h => h.1 == (channel, bank, row)).length then remapRow cls channel bank row column addr s else s

/-- MEM.REPAIR: rows whose bank has its resource are burned; answers how many. -/
def burnRows : List (Nat × Nat × Nat) → Nat → State → Nat × State
  | [], n, s => (n, s)
  | (ch, bank, row) :: rest, n, s =>
    if s.fuse.repaired.contains (ch, bank) then burnRows rest n (repairEvent 4 ch bank row s)
    else
      let s := { s with fuse := { s.fuse with repaired := s.fuse.repaired ++ [(ch, bank)] } }
      let s := modMem (fun m => { m with remap := m.remap.filter (· != (ch, bank, row)) }) s
      burnRows rest (n + 1) (repairEvent 2 ch bank row (logError (newEntry s 7 2 ch row 0 bank 0xFF 0) s).2)

/-- R311: what MEM.REPAIR waits for. -/
def repairBusy (s : State) : Bool :=
  anyPersonality s || (List.range 16).any (fun k => (getCap k s).phase == 1 || (getCap k s).phase == 2) ||
    [0, 1].any (fun d => (getGen d s).running) || s.disp.mode.output != 0 || s.dma.channels.any fun c => c.2.state == 1 || c.2.state == 2

def memRepair : Cmd → State → State :=
  plainCommand 0x1505 .none (fun x _ => reserved x.e 16 64) fun x s =>
    if repairBusy s then fail x.ref stBusy 0 s
    else
      let r := burnRows s.memCtl.remap 0 s
      ok x.ref r.1 r.2

/-! ## DRAM errors (R307, R308, Table 15-3) -/

/-- Table 15-1: the arbiter class of a requester. -/
def requesterClass (r : Requester) (s : State) : Nat :=
  match r with
  | .scrub => 0
  | .pipReplay _ | .currantReplay _ | .generator _ => 1
  | .steward => 2
  | .display _ => 3
  | .bar4 => 4
  | .dma n => if (getChan n s).rate = 0 then 4 else 2
  | .other cls => cls

/-- Table 15-3: the response to an uncorrectable error that shows at once. Recomputed output carries its marks in
PIP_RECOMPUTE_DONE and CURRANT_RECOMPUTE_DONE, an underrun in GENERATOR_UNDERRUN; pixels read zero. -/
def poisonResponse (r : Requester) (s : State) : State :=
  match r with
  | .bar4 => completerAbort s
  | .dma n => if (getChan n s).state = 1 then dmaStop n dmaReadErr s else s
  | .steward => stewardDown 1 s
  | .scrub | .pipReplay _ | .currantReplay _ | .generator _ | .display _ | .other _ => s

/-- DRAM_ECC_ERROR: kind 1 corrected, 2 uncorrectable, 3 corrected on the link. -/
def execDramEccError (t : DT) (error : DramError) (s : State) : Out :=
  let s := advance t s
  let r := error
  let cls := requesterClass r.requester s
  let entry := newEntry s r.kind cls r.channel r.row r.column r.bank (if r.kind = 2 then 0xFF else r.bit) r.addr
  .next (if !s.stone.dramWiped then s
  else if r.kind = 2 then
    let word := r.addr / 8 * 8
    let s := modMem (fun m => { m with
      dramUe := satAdd u32max m.dramUe 1, poisoned := if m.poisoned.contains word then m.poisoned else m.poisoned ++ [word]
      places := tput (0, 0, 0, 0) m.places word (r.channel, r.bank, r.row, r.column) }) s
    let s := remapRow cls r.channel r.bank r.row r.column r.addr (memError entry r.channel true s)
    faultArrive 7 2 r.channel 0xF outRepaired [] (poisonResponse r.requester s)
  else if r.kind = 1 then
    let s := modMem (fun m => { m with dramCe := satAdd u32max m.dramCe 1 }) s
    countRow cls r.channel r.bank r.row r.column r.addr (memError entry r.channel false s)
  else memError entry r.channel false s)

/-- PATROL_SCRUB (R308): a poisoned word is logged with class 0 and no response. -/
def execPatrolScrub (t : DT) (address : Nat) (s : State) : Out :=
  let s := advance t s
  let word := address / 8 * 8
  let s := modMem (fun m => { m with scrubbed := address }) s
  .next (if s.memCtl.poisoned.contains word then
    let p := tget (0, 0, 0, 0) s.memCtl.places word
    let s := modMem (fun m => { m with dramUe := satAdd u32max m.dramUe 1 }) s
    memError (newEntry s 2 0 p.1 p.2.2.1 p.2.2.2 p.2.1 0xFF word) p.1 true s
  else s)

/-! ## On-die SRAM (R312, Table 15-6) -/

/-- Table 15-6: spare rows of a macro. -/
def spareRows (block : Nat) : Nat := ([0, 8, 4, 64, 32, 32, 4, 16] : List Nat).getD block 0

/-- R312: a macro has no spare row left: its owning unit is retired. -/
def retireOwner (block inst : Nat) (s : State) : State :=
  if block = 1 then (if pipHealthy inst s then retireNamed 1 inst 2 (pipFaulted inst 2 s) else s)
  else if block = 6 then (if currantHealthy inst s then retireNamed 2 inst 1 (currantFaulted inst 1 s) else s)
  else if block = 7 then (if dacHealthy inst s then dacRetire inst 0 s else s)
  else s

/-- R312: a row is replaced by a spare row of its macro. -/
def spareSramRow (block inst row addr : Nat) (s : State) : State :=
  let key := block * 256 + inst
  let used := tget 0 s.memCtl.sparesUsed key
  if used < spareRows block then
    let s := modMem (fun m => { m with
      sparesUsed := tput 0 m.sparesUsed key (used + 1), sramHistory := m.sramHistory.filter fun h => h.1 != (block, inst, row) }) s
    (logError (newEntry s 8 0 key row 0 0 0xFF addr) s).2
  else retireOwner block inst s

/-- Table 15-6: what an uncorrectable error does. -/
def sramLost (block inst : Nat) (s : State) : State :=
  if block = 1 then (if pipHealthy inst s then pipFaulted inst 2 s else s)
  else if block = 2 then modBloom inst (fun m => { m with clearDue := m.clearDue ++ [(0, s.dt)] }) s
  else if block = 3 ∨ block = 6 then (if currantHealthy inst s then currantFaulted inst 1 s else s)
  else if block = 4 then stewardDown 5 s
  else if block = 5 then capLost inst s
  else s

/-- SRAM_ECC_ERROR: the second corrected error of a row within 24 h, or an uncorrectable one, spares the row. -/
def execSramEccError (t : DT) (error : SramError) (s : State) : Out :=
  let s := advance t s
  let r := error
  let unit := r.block * 256 + r.inst % 256
  let entry := newEntry s (if r.uncorrectable then 5 else 4) 0 unit r.row 0 0 (if r.uncorrectable then 0xFF else r.bit) r.addr
  let group := 16 + r.block
  let key := (r.block, r.inst, r.row)
  .next (if r.block = 0 ∨ 7 < r.block then s
  else if r.uncorrectable then
    let s := modMem (fun m => { m with sramUe := satAdd u32max m.sramUe 1 }) s
    let s := sramLost r.block r.inst (spareSramRow r.block r.inst r.row r.addr (memError entry group true s))
    if r.block = 1 ∨ r.block = 3 ∨ r.block = 6 then s else faultArrive 6 5 unit 0xF outRepaired [] s
  else
    let day := 86400 * tkS
    let s := memError entry group false (modMem (fun m => { m with
      sramCe := satAdd u32max m.sramCe 1
      sramHistory := (m.sramHistory.filter fun h => decide (dtSub s.dt h.2 < day)) ++ [(key, s.dt)] }) s)
    if 2 ≤ (s.memCtl.sramHistory.filter fun h => h.1 == key).length then spareSramRow r.block r.inst r.row r.addr s else s)

/-! ## Status and log (Table 15-7) -/

def memRecord (s : State) : List Byte :=
  let m := s.memCtl
  leBytes 1 m.point ++ leBytes 1 (b2n m.selfRefresh) ++ leBytes 1 m.remap.length ++ leBytes 1 0 ++ leBytes 4 m.dramCe ++
    leBytes 4 m.dramUe ++ leBytes 4 m.sramCe ++ leBytes 4 m.sramUe ++
    leBytes 4 (roundAway (dramCharge (planned s) : Nat) 1000000).toNat ++ leBytes 8 m.lastTraining.toNat

def memStatus : Cmd → State → State := statusCommand 0x1503 .none (fun _ _ => false) (fun _ s => memRecord s)

/-- Table 15-5. -/
def logBytes (lost : Bool) (e : LogEntry) : List Byte :=
  leBytes 8 e.dt.toNat ++ leBytes 1 (e.kind + 128 * b2n lost) ++ leBytes 1 e.cls ++ leBytes 2 e.unit ++ leBytes 4 e.row ++
    leBytes 2 e.column ++ leBytes 1 e.bank ++ leBytes 1 e.bit ++ leBytes 4 e.count ++ leBytes 8 e.addr

/-- The first n unread entries are marked read. -/
def markRead : Nat → List LogEntry → List LogEntry
  | _, [] => []
  | 0, es => es
  | n + 1, e :: rest => if e.read then e :: markRead (n + 1) rest else { e with read := true } :: markRead n rest

def memReadLog : Cmd → State → State :=
  plainCommand 0x1504 .none (fun x _ => [(24, x.u16 24 == 0 || decide (256 < x.u16 24))] ++ reserved x.e 26 64) fun x s =>
    let es := (s.memCtl.log.filter fun e => !e.read).take (x.u16 24)
    let bytes := (es.zipIdx.map fun e => logBytes (s.memCtl.logLost && e.2 == 0) e.1).flatten
    ok x.ref es.length (toHost (x.u64 16) bytes (modMem (fun m => { m with
      log := markRead (x.u16 24) m.log, logLost := m.logLost && es.isEmpty }) s))

/-! ## Rows -/

def execMemSetFreq (c : Cmd) (s : State) : Out := .next (memSetFreq c s)
def execMemSetIdle (c : Cmd) (s : State) : Out := .next (memSetIdle c s)
def execMemStatus (c : Cmd) (s : State) : Out := .next (memStatus c s)
def execMemReadLog (c : Cmd) (s : State) : Out := .next (memReadLog c s)
def execMemRepair (c : Cmd) (s : State) : Out := .next (memRepair c s)

end Sys2Proof.Machine
end

