-- ==== Sys2Proof/Machine/PowerUnit.lean ====
section
/-! DEFINITION. Power states, wake and life-cycle (19_power_lifecycle_security.md R368 to R380, R40). -/

namespace Sys2Proof.Machine

/-! ## DEV.SET_POWER (R371, R372) -/

/-- R371: what must hold for Standby or Off, PF1 in D3hot apart. (DEDUCED, unsafe: log 28.) -/
def powerIdle (s : State) : Bool :=
  let plan := planned s
  !anyPersonality plan && (List.range 16).all (fun k => (getCap k plan).phase != 1 && (getCap k plan).phase != 2) &&
    [0, 1].all (fun d => !(getGen d plan).running && !(getGen d s).gapped) && plan.disp.mode.output == 0 &&
    s.dma.channels.all (fun c => c.2.state != 1 && c.2.state != 2) && s.bunch.table.all (fun b => b.2.state == .free) &&
    !s.slow.scanning && s.rings.all fun r => r.2.stream.isNone

/-- DEV.SET_POWER; the D-state of PF1 comes with the row. -/
def devSetPower (pf1D3hot : Bool) : Cmd → State → State :=
  takeCommand 0x0106 (pf0Only fun x s =>
    match badOffset (envelope false .none x ++ [(16, x.u8 16 != 2 && x.u8 16 != 3)] ++ reserved x.e 17 24 ++ reserved x.e 32 64) with
    | some off => fail x.ref stBadArg off s
    | none =>
      if !powerIdle s || !pf1D3hot then fail x.ref stBusy 0 s
      else
        let s := ok x.ref 0 s
        let s := each [0, 1, 2, 3] (fun p => portLink p false) s
        { s with steward := { s.steward with closed := true }
                 power := { s.power with entering := some (if x.u8 16 = 2 then .standby else .off), wakeDt := x.dt 24, wakePending := 0 } })

def execDevSetPower (c : Cmd) (pf1D3hot : Bool) (s : State) : Out := .next (devSetPower pf1D3hot c s)

/-! ## Gating (R369, R370) -/

/-- R370: SRAM that was gated is zero when it comes back: the maps are empty. (DEDUCED, unsafe: log 34.) -/
def mapsGone (s : State) : State := each [0, 1, 2, 3] (fun m => modBloom m clearMap) s

/-- The domains of Table 19-2 are off. -/
def domainsDown (s : State) : State :=
  mapsGone { s with power := { s.power with fabric := false, dies := [], eth := [], display := false, starting := [] } }

/-- READY_ENTRY (R369): nothing has used a domain for 1 ms. -/
def execReadyEntry (t : DT) (s : State) : Out :=
  let s := advance t s
  .next (if s.power.state = .active ∧ domainUsed s = false ∧ s.steward.running = true then
    let s := pllStop 3 (pllStop 0 (domainsDown s))
    let s := pllBegin 1 640000 s
    alignedSettle (powerChange .ready 0 s.dt (relockGo s))
  else s)

/-! ## Entry and wake (R372 to R376) -/

/-- R374: PCIE_WAKE_N. -/
def srcPcie : Byte := 1
def srcSchedule : Byte := 0x40
def srcDoorbell : Byte := 0x80

/-- The sources that can wake from a state now: DOORBELL from Standby only, SLOW_SCHED once DT has reached WAKE_DT. -/
def wakeFired (deep : Power) (sources : Byte) (s : State) : Byte :=
  let due := s.power.wakeDt != 0 && dtLe s.power.wakeDt s.dt
  let v := sources &&& s.stone.wakeCtrl
  let v := if deep = .standby then v else v &&& ~~~srcDoorbell
  if due then v else v &&& ~~~srcSchedule

/-- R374 to R376: the wake: WAKE_STAT, the wake request to the host, and the way back. (DEDUCED, unsafe: log 29.) -/
def wakeUp (fired : Byte) (s : State) : State :=
  let s := modStone (fun x => { x with wakeStat := if x.wakeStat = 0 then fired else x.wakeStat }) s
  let s := if fired &&& srcPcie = 0 then { s with pcie := { s.pcie with wakeRequest := true } } else s
  if s.power.state = .standby then
    let s := each [2, 1] (fun n => modPll n (fun c => { c with xtal := c.xtal || !s.clock.refOk })) s
    let s := pllBegin 1 640000 (pllBegin 2 (dramKHz s.memCtl.point) s)
    modStone (fun x => { x with restoring := true, xtalB := true }) { s with power := { s.power with wakeEdge := s.dt, wakePending := 0 } }
  else deviceReset false s

/-- STANDBY_ENTRY_DONE (R372): the stone domain has taken over; for Off the DRAM has lost its contents. A source that
fired meanwhile wakes at once. -/
def execStandbyEntryDone (t : DT) (s : State) : Out :=
  let s := advance t s
  .next (match s.power.entering with
  | some deep =>
    let s := domainsDown (laserCut s)
    let s := dramResumed (each [0, 1, 2, 3] pllStop s)
    let dram := if deep = .off then [] else s.dram
    let s := modMem (fun m => { m with selfRefresh := true, poisoned := if deep = .off then [] else m.poisoned }) s
    let s := alignedSettle { s with
      dram := dram, clock := { s.clock with relock := none }
      steward := { s.steward with running := false }
      power := { s.power with state := deep, entering := none } }
    if s.power.wakePending = 0 then s else wakeUp s.power.wakePending s
  | none => s)

/-- WAKE (R374): sources, as the bits of WAKE_CTRL, fire in one XTAL32 cycle. -/
def execWake (t : DT) (sources : Byte) (s : State) : Out :=
  let s := advance t s
  .next (match s.power.entering with
  | some deep => { s with power := { s.power with wakePending := s.power.wakePending ||| wakeFired deep sources s } }
  | none =>
    let fired := wakeFired s.power.state sources s
    if asleep s && !s.stone.restoring && fired != 0 then wakeUp fired s else s)

/-- R375: Korsyn resumes in Ready from its persistent area, and its epoch in holdover; what it had taken and not
completed ends as after a restart (R361). (DEDUCED, unsafe: log 29.) -/
def standbyBack (s : State) : State :=
  let s := modStone (fun x => { x with restoring := false }) s
  let s := pllRun 1 640000 (pllRun 2 (dramKHz s.memCtl.point) s)
  let s := modMem (fun m => { m with selfRefresh := false }) s
  let s := { s with
    sram := s.sram.filter fun c => sramKept s c.1
    steward := { s.steward with running := true, closed := false }
    time := { s.time with holdover := true, ppsOk := false, ptpOk := false, accepted := [], candidate := none } }
  flushAll (faultTaken none (powerChange .ready s.stone.wakeStat.toNat s.power.wakeEdge s))

/-- STANDBY_RESTORE_DONE (R375): the image is verified as in R38; a failure falls to WIPE_SRAM with its code (R396). -/
def execStandbyRestoreDone (t : DT) (_ _ : Unit) (s : State) : Out :=
  let s := advance t s
  .next (if s.stone.restoring then
    match imageError s.sram 0 s.stone.imageLen s with
    | none => standbyBack s
    | some e => modStone (fun x => { x with error := e }) (deviceReset false s)
  else s)

/-! ## Life-cycle (R377 to R379) -/

/-- R379, R396: a transition: LASER_EN, the key slot, the fuses, then the device reset from POWER. SERVICE is held in
the stone domain and outlives the reset that carries it out. -/
def lcMove (target : LifeCycle) (s : State) : State :=
  let s := laserCut s
  let s := if keySlotOf target = .zeroised then modStone (fun x => { x with idKey := .zeroised, scanEn := false }) s else s
  if target = .service then modStone (fun x => { x with lifeCycle := .service }) (deviceReset true s)
  else deviceReset true { s with fuse := { s.fuse with lifeCycle := target } }

/-- The command completes with OK and the transition follows. -/
def lcGo (target : LifeCycle) (x : Ctx) (s : State) : State := lcMove target (ok x.ref 0 s)

/-- R378: a command that the state does not allow, or whose token fails. -/
def lcDenied (x : Ctx) (s : State) : State := fail x.ref stDenied (lcCode s.stone.lifeCycle) s

/-- R378: the nonce is used up. -/
def nonceUsed (s : State) : State := modStone (fun x => { x with nonce := none }) s

/-- R13, R398: a reserved byte of the token is not zero (Table 19-6). -/
def tokenWrong (a : Nat) (s : State) : Bool :=
  ((readBytes s.host (a + 10) 22) ++ readBytes s.host (a + 129) 31).any (· != 0)

/-- R378, Table 19-6: the token at a host address authorises a target. (DEDUCED, unsafe: log 35.) -/
def tokenGood (a target : Nat) (s : State) : Bool :=
  s.stone.nonce == some (readLe s.host a 8) && readLe s.host (a + 8) 1 == target &&
    keyGood s.host (a + 32) (readLe s.host (a + 9) 1) s &&
    signatureGood (readBytes s.host (a + 32) 97) (sha384 (readBytes s.host a 160)) (readBytes s.host (a + 160) 96)

/-- A transition without a token from one state. -/
def lcPlain (op : Nat) (source target : LifeCycle) : Cmd → State → State :=
  takeCommand op (pf0Only fun x s =>
    match badOffset (envelope false .none x ++ reserved x.e 16 64) with
    | some off => fail x.ref stBadArg off s
    | none => if s.stone.lifeCycle = source then lcGo target x s else lcDenied x s)

/-- A transition with a token from some states; RETIRE from RETURN needs none. -/
def lcToken (op : Nat) (sources : List LifeCycle) (target : LifeCycle) : Cmd → State → State :=
  takeCommand op (pf0Only fun x s =>
    match badOffset (envelope false .none x ++ reserved x.e 24 64) with
    | some off => fail x.ref stBadArg off s
    | none =>
      if target = .retired ∧ s.stone.lifeCycle = .retirn then lcGo target x s
      else if tokenWrong (x.u64 16) s then fail x.ref stBadArg 16 s
      else if sources.contains s.stone.lifeCycle && tokenGood (x.u64 16) (lcCode target) s then
        lcGo target x (nonceUsed s)
      else lcDenied x (nonceUsed s))

/-- LC.SECURE (R377): the stone domain generates the identity key before the fuses are burned. -/
def lcSecure : Cmd → State → State :=
  takeCommand 0x1A01 (pf0Only fun x s =>
    match badOffset (envelope false .none x ++ reserved x.e 16 64) with
    | some off => fail x.ref stBadArg off s
    | none =>
      if s.stone.lifeCycle = .manufacture then lcGo .secured x (modStone (fun st => { st with idKey := .held }) s)
      else lcDenied x s)

/-- LC.RAISE_FLOOR (R40): RESULT is the floor in force after it. (DEDUCED, unsafe: log 35.) -/
def lcRaiseFloor : Cmd → State → State :=
  takeCommand 0x1A05 (pf0Only fun x s =>
    match badOffset (envelope false .none x ++ reserved x.e 16 64) with
    | some off => fail x.ref stBadArg off s
    | none =>
      let floor := max s.fuse.floor (min 127 s.stone.runSec)
      ok x.ref floor (rewriteCaps { s with fuse := { s.fuse with floor := floor } }))

/-- LC.CHALLENGE (R378): the nonce is not stated (DESIGN CHOICE, safe: log 4). -/
def lcChallenge : Cmd → State → State :=
  takeCommand 0x1A07 (pf0Only fun x s =>
    match badOffset (envelope false .none x ++ reserved x.e 24 64) with
    | some off => fail x.ref stBadArg off s
    | none =>
      let v := draw s
      let nonce := v.1 % 2 ^ 64
      ok x.ref 0 (toHost (x.u64 16) (leBytes 8 nonce) (modStone (fun st => { st with nonce := some nonce }) v.2)))

def execLcSecure (c : Cmd) (s : State) : Out := .next (lcSecure c s)
def execLcService (c : Cmd) (_ _ : Unit) (s : State) : Out := .next (lcToken 0x1A02 [.secured] .service c s)
def execLcResume (c : Cmd) (s : State) : Out := .next (lcPlain 0x1A03 .service .secured c s)
def execLcReturn (c : Cmd) (_ _ : Unit) (s : State) : Out := .next (lcToken 0x1A04 [.service] .retirn c s)
def execLcRetire (c : Cmd) (_ _ : Unit) (s : State) : Out := .next (lcToken 0x1A06 [.secured, .service] .retired c s)
def execLcRaiseFloor (c : Cmd) (s : State) : Out := .next (lcRaiseFloor c s)
def execLcChallenge (c : Cmd) (s : State) : Out := .next (lcChallenge c s)

end Sys2Proof.Machine
end

