-- ==== Sys2Proof/Machine/DisplayUnit.lean ====
section
/-! DEFINITION. Commands and events of the display (17_display.md R332 to R344). -/

namespace Sys2Proof.Machine

/-- R3: the display is there on the AX and A2 only. -/
def displayAbsent (_ : Ctx) (s : State) : Bool := !s.fuse.display

/-- A display member (class 0x0E, instance 0). -/
def displayMember (x : Ctx) (w : Write) : List Member := [member x 0xE 0 1 w]

/-! ## DISP.SET_MODE (R333, R334, R343) -/

/-- R332: link rates of an output in Mb/s, rising; 2 is eDP. -/
def linkRates (output : Nat) : List Nat :=
  if output = 2 then [1620, 2160, 2430, 2700, 3240, 4320, 5400, 8100] else [1620, 2700, 5400, 8100]

/-- MAX_RATE as a rate. -/
def maxRate (code : Nat) : Nat := ([1620, 2700, 5400, 8100] : List Nat).getD code 0

/-- R334: a rate carries a mode: pixel clock * 3 * bpc <= lanes * rate * 0.8. -/
def rateCarries (pclk bpc lanes rate : Nat) : Bool := decide (pclk * 3 * bpc ≤ lanes * rate * 800)

/-- R334: the lowest allowed rate that carries it. -/
def rateFor (output pclk bpc lanes code : Nat) : Option Nat :=
  (linkRates output).find? fun r => decide (r ≤ maxRate code) && rateCarries pclk bpc lanes r

/-- Four 2-byte fields. -/
def timing (x : Ctx) (off : Nat) : List Nat := [x.u16 off, x.u16 (off + 2), x.u16 (off + 4), x.u16 (off + 6)]

def modeOf (x : Ctx) : ModeCfg :=
  if x.u8 16 = 0 then { background := x.u32 44 }
  else
    { output := x.u8 16, bpc := x.u8 17, lanes := x.u8 18
      rate := (rateFor (x.u8 16) (x.u32 20) (x.u8 17) (x.u8 18) (x.u8 19)).getD 0
      pclk := x.u32 20, h := timing x 24, v := timing x 32, syncPol := x.u8 40, background := x.u32 44 }

/-- R336: an enabled layer lies in the active area of a mode. -/
def spanFits (first size active : Nat) : Bool := decide (first + size ≤ active)

/-- R343: an enabled layer of a plan reaches past so many columns or lines. -/
def layersPast (plan : State) (span : LayerCfg → Nat) (active : Nat) : Bool :=
  [0, 1, 2, 3].any fun i =>
    let l := tget {} plan.disp.layers i
    l.enable && decide (active < span l)

/-- DISP.SET_MODE (DEDUCED, unsafe: log 36). -/
def dispSetMode : Cmd → State → State :=
  clashCommand 0x1701 (.below 1)
    (fun x _ _ =>
      let carried := (rateFor (x.u8 16) (x.u32 20) (x.u8 17) (x.u8 18) (x.u8 19)).isSome
      let inUse : Checks := if x.u8 16 = 0 then [] else
        [(17, x.u8 17 != 8 && x.u8 17 != 10), (18, x.u8 18 != 1 && x.u8 18 != 2 && x.u8 18 != 4), (19, decide (3 < x.u8 19)),
         (20, decide (x.u32 20 < 25000) || decide (600000 < x.u32 20)), (17, !carried),
         (24, decide (3840 < x.u16 24)), (32, decide (2160 < x.u16 32))]
      (16, decide (2 < x.u8 16)) :: inUse ++ reservedBits x.e 40 1 3 ++ reserved x.e 41 44 ++ reserved x.e 48 64)
    (fun x _ plan => if x.u8 16 = 0 then [] else
      [(24, layersPast plan (fun l => l.x + l.w) (x.u16 24)), (32, layersPast plan (fun l => l.y + l.h) (x.u16 32))])
    displayAbsent neverBusy (fun x _ => displayMember x (.dispMode (modeOf x))) noResult

/-! ## DISP.SET_LAYER (R336, R337, R339) -/

def layerOf (x : Ctx) : LayerCfg :=
  { enable := x.u8 17 == 1, z := x.u8 18, alpha := x.u8 19, x := x.u16 20, y := x.u16 22, w := x.u16 24, h := x.u16 26
    format := x.u8 28, csc := x.u8 29, pitch := x.u16 30, base0 := x.u64 32, base1 := x.u64 40, pitch1 := x.u16 48, gain := x.u16 50 }

/-- Bytes per sample of a plane: 4 for ARGB8888, 1 for NV12 and NV16, 2 for P010; the chroma plane of the last three
holds as many samples a line as the luma plane. -/
def sampleBytes (format : Nat) : Nat := ([4, 1, 1, 2] : List Nat).getD format 0

/-- R338: a plane's base does not lie inside the pool. -/
def outOfPool (base : Nat) (s : State) : Bool :=
  match s.disp.pool with
  | some (_, n) => decide (n ≤ base)
  | none => true

/-- R336: two enabled layers at one Z. -/
def zTaken (x : Ctx) (plan : State) : Bool :=
  [0, 1, 2, 3].any fun i => i != x.u8 16 && (tget {} plan.disp.layers i).enable && (tget {} plan.disp.layers i).z == x.u8 18

/-- R337: what a host plane keeps to by itself. -/
def planeWrong (x : Ctx) : Checks :=
  let f := x.u8 28
  let line := x.u16 24 * sampleBytes f
  [(28, decide (3 < f)), (29, x.u8 29 % 4 == 3), (24, f != 0 && x.u16 24 % 2 != 0), (26, (f == 1 || f == 3) && x.u16 26 % 2 != 0),
   (30, x.u16 30 % 256 != 0), (24, decide (x.u16 30 < line)), (32, x.u64 32 % 4096 != 0), (28, f == 0 && x.u64 40 != 0),
   (40, f != 0 && x.u64 40 % 4096 != 0), (48, f != 0 && x.u16 48 % 256 != 0), (24, f != 0 && decide (x.u16 48 < line))]

/-- R338: and what it keeps to in the pool. -/
def planeOutside (x : Ctx) (s : State) : Checks :=
  [(32, outOfPool (x.u64 32) s), (40, x.u8 28 != 0 && outOfPool (x.u64 40) s)]

/-- R339: what the bloom layer keeps to: REP and RED from 1 to 8, one of them 1; a gain on the linear scale. -/
def bloomLayerWrong (x : Ctx) : Checks :=
  let red := x.u8 30 % 16
  let rep := x.u8 30 / 16
  [(28, decide (3 < x.u8 28)), (30, red == 0 || decide (8 < red) || rep == 0 || decide (8 < rep) || (red != 1 && rep != 1)),
   (29, x.u8 29 % 2 == 0 && x.u16 50 == 0)]

/-- DISP.SET_LAYER (DEDUCED, unsafe: log 37). -/
def dispSetLayer : Cmd → State → State :=
  clashCommand 0x1702 (.below 1)
    (fun x _ _ =>
      let enabled : Checks := if x.u8 17 ≠ 1 then [] else if x.u8 16 = 0 then bloomLayerWrong x else planeWrong x
      [(16, decide (3 < x.u8 16)), (17, decide (1 < x.u8 17)), (18, decide (3 < x.u8 18))] ++ enabled ++
        reservedBits x.e 29 1 (if x.u8 16 = 0 then 1 else 7) ++ (if x.u8 16 = 0 then reservedBits x.e 30 2 255 else []) ++
        reserved x.e 52 64)
    (fun x s plan =>
      let m := plan.disp.mode
      if x.u8 17 ≠ 1 then [] else
        (if x.u8 16 = 0 then [] else planeOutside x s) ++ (18, zTaken x plan) :: (if m.output = 0 then [] else
          [(20, !spanFits (x.u16 20) (x.u16 24) (m.h.getD 0 0)), (22, !spanFits (x.u16 22) (x.u16 26) (m.v.getD 0 0))]))
    displayAbsent neverBusy (fun x _ => displayMember x (.dispLayer (x.u8 16) (layerOf x))) noResult

/-! ## DISP.SET_PALETTE, DISP.SET_PSR -/

def dispSetPalette : Cmd → State → State :=
  memberCommand 0x1703 (.below 1) (fun x _ _ => reserved x.e 16 24 ++ reserved x.e 32 64) displayAbsent neverBusy
    (fun x s => displayMember x (.dispPalette (readU32s s.host (x.u64 24) 256))) noResult

/-- R344: on eDP only. -/
def dispSetPsr : Cmd → State → State :=
  clashCommand 0x1705 (.below 1)
    (fun x _ _ => [(16, decide (2 < x.u8 16)), (17, decide (x.u8 17 < 2))] ++ reserved x.e 18 64)
    (fun _ _ plan => [(16, plan.disp.mode.output != 2)])
    displayAbsent neverBusy (fun x _ => displayMember x (.dispPsr (x.u8 16) (x.u8 17))) noResult

/-! ## DISP.ALLOC, DISP.STATUS -/

/-- R338: a host plane is enabled or staged. -/
def planeHeld (s : State) : Bool :=
  let staged := fun (ms : List Member) => ms.any fun m => !m.landed && (match m.write with
    | .dispLayer i cfg => i != 0 && cfg.enable
    | _ => false)
  [1, 2, 3].any (fun i => (tget {} s.disp.layers i).enable) || s.bunch.table.any (fun b => staged b.2.members) ||
    s.bunch.staged.any fun g => staged g.members

/-- DISP.ALLOC: where the pool lies within the capacity of R26 is not stated (DESIGN CHOICE, safe: log 4). -/
def dispAlloc : Cmd → State → State :=
  plainCommand 0x1704 (.below 1) (fun x _ => (16, x.u64 16 % 4096 != 0) :: reserved x.e 24 64) fun x s =>
    let bytes := x.u64 16
    if displayAbsent x s then fail x.ref stAbsent 0 s
    else if planeHeld s then fail x.ref stBusy 0 s
    else if bytes = 0 then ok x.ref 0 (modDisp (fun d => { d with pool := none }) s)
    else if hostDram s < dramSpace (modDisp (fun d => { d with pool := some (0, bytes) }) (planned s)) then fail x.ref stRefused 0x04 s
    else
      let v := draw s
      let page := v.1 % ((hostDram s - bytes) / 4096 + 1)
      ok x.ref page (modDisp (fun d => { d with pool := some (4096 * page, bytes) }) v.2)

/-- The rate code of Table 17-5; the spec gives no code for the intermediate eDP rates (DESIGN CHOICE, safe: log 4). -/
def rateCode (rate other : Nat) : Nat :=
  if rate = 1620 then 0 else if rate = 2700 then 1 else if rate = 5400 then 2 else if rate = 8100 then 3 else other % 256

def dispRecord (other : Nat) (s : State) : List Byte :=
  let d := s.disp
  leBytes 1 (b2n d.link) ++ leBytes 1 d.mode.lanes ++ leBytes 1 (if d.mode.output = 0 then 0 else rateCode d.mode.rate other) ++
    leBytes 1 (if d.psrActive then d.psrMode else 0) ++ leBytes 4 d.frame ++ leBytes 8 d.frameDt.toNat ++ leBytes 4 d.late ++
    leBytes 4 d.underflowed ++ leBytes 8 0

def dispStatus : Cmd → State → State :=
  plainCommand 0x1706 (.below 1) (fun x _ => reserved x.e 24 64) fun x s =>
    if displayAbsent x s then fail x.ref stAbsent 0 s
    else
      let v := draw s
      ok x.ref 0 (toHost (x.u64 16) (dispRecord v.1 v.2) v.2)

def execDispSetMode (c : Cmd) (s : State) : Out := .next (dispSetMode c s)
def execDispSetLayer (c : Cmd) (s : State) : Out := .next (dispSetLayer c s)
def execDispSetPalette (c : Cmd) (s : State) : Out := .next (dispSetPalette c s)
def execDispAlloc (c : Cmd) (s : State) : Out := .next (dispAlloc c s)
def execDispSetPsr (c : Cmd) (s : State) : Out := .next (dispSetPsr c s)
def execDispStatus (c : Cmd) (s : State) : Out := .next (dispStatus c s)

/-! ## Frames (R335, R340, R341, R343) -/

/-- The timing generator runs: a mode is set, ADPLL-D serves its tree and no training holds frame 1 back. -/
def framesOut (s : State) : Bool :=
  s.disp.mode.output != 0 && pllServes 3 s && s.disp.modeChange.all fun m => !m.2

/-- Scan-out reads memory: frames of a mode in force, to a link that is up, not in self-refresh but for a selective update. -/
def scansOut (s : State) : Bool :=
  framesOut s && s.disp.link && (!s.disp.psrActive || s.disp.update != []) && s.disp.modeChange.isNone && s.disp.wait.isNone

/-- EV_DISP_MODE. -/
def modeEvent (failed : Nat) (late : Bool) (s : State) : State :=
  let v := draw s
  let m := s.disp.mode
  event 0x1702 (if failed = 0 then 0 else 2) 0 [(16, 1, failed), (17, 1, b2n late), (18, 1, m.lanes),
    (19, 1, rateCode m.rate v.1), (20, 4, s.disp.frame)] (modDisp (fun d => { d with modeChange := none }) v.2)

/-- R344: a display member that is armed takes the panel out of self-refresh; with PSR2 a change of host planes only
does not. -/
def psrLeave (s : State) : State :=
  let leaves := fun (m : Member) => !m.landed && isDisplay m.write && !(s.disp.psrMode == 2 && match m.write with
    | .dispLayer i _ => i != 0
    | _ => false)
  if s.bunch.table.any fun b => (b.2.state == .armed || b.2.state == .landing) && b.2.members.any leaves then
    modDisp (fun d => { d with psrActive := false, update := [] }) s else s

/-- A frame starts and is stamped; the third of a new mode ends its change. One that starts during retraining is idle pattern;
black after a reconnection ends here (R335). -/
def frameStartNow (s : State) : State :=
  let s := modDisp (fun d => { d with
    frame := d.frame + 1, frameDt := s.dt, wait := if d.link then none else if d.wait = some true then d.wait else some false }) s
  match s.disp.modeChange with
  | some (late, false) => if s.disp.frame = 3 then modeEvent 0 late s else s
  | _ => s

/-- DISPLAY_FRAME_START. -/
def execDisplayFrameStart (t : DT) (s : State) : Out :=
  let s := advance t s
  let s := if s.disp.mode.output != 0 then pllRun 3 s.disp.mode.pclk s else s
  .next (if framesOut s then frameStartNow (psrLeave s) else s)

/-- EV_DISP_RELEASE of one replaced buffer. -/
def releaseEvent (r : Nat × Nat × Bool × Nat) (s : State) : State :=
  event 0x1701 0 0 [(16, 1, r.1), (17, 1, b2n r.2.2.1), (20, 4, r.2.2.2), (24, 8, r.2.1)] s

/-- DISPLAY_VERTICAL_ACTIVE_END (R341): not in the black frames of a mode change (Table 17-4). -/
def execDisplayVerticalActiveEnd (t : DT) (s : State) : Out :=
  let s := advance t s
  .next (if framesOut s && s.disp.frame != 0 && s.disp.modeChange.isNone then
    each s.disp.releases releaseEvent (modDisp (fun d => { d with releases := [] }) s)
  else s)

/-- Ticks times the pixel clock: lines of the mode. -/
def linesTk (n : Nat) (m : ModeCfg) : Nat := n * m.h.sum * 20480000

/-- R340: T lies at or before the close of the present frame's commit window: 8 lines before the end of its active area. -/
def windowOpen (point : DT) (s : State) : Bool :=
  let m := s.disp.mode
  decide (point.toNat * m.pclk ≤ s.disp.frameDt.toNat * m.pclk + linesTk (m.v.getD 0 0 - 8) m)

/-- R340: T belongs to the frame before: it lies at or before the end of that frame's active area. -/
def pointLate (point : DT) (s : State) : Bool :=
  let m := s.disp.mode
  decide (1 < s.disp.frame) &&
    decide (point.toNat * m.pclk + linesTk (m.v.sum - m.v.getD 0 0) m ≤ s.disp.frameDt.toNat * m.pclk)

/-- The display members of a bunch land now. -/
def displayBunch (id : Nat) (s : State) : State :=
  let b := getBunch id s
  let ws := (b.members.filter fun m => !m.landed && isDisplay m.write).map (·.write)
  let late := pointLate b.point s
  let s := modBunch id (fun b => { b with
    members := b.members.map fun m => if isDisplay m.write then { m with landed := true } else m
    lastLanding := if dtLe b.lastLanding s.dt then s.dt else b.lastLanding }) s
  let s := if late then modDisp (fun d => { d with late := satAdd u32max d.late 1 }) s else s
  finishBunch id (each ws (displayLand late) s)

/-- Bunches whose display members land at the end of this frame. -/
def displayDue (s : State) : List Nat :=
  (s.bunch.table.filter fun b => b.2.state == .landing && windowOpen b.2.point s &&
    b.2.members.any fun m => !m.landed && isDisplay m.write).map (·.1)

/-- R59: armed bunches with the display as their anchor whose T is the end of this frame. -/
def displayAnchored (s : State) : List Nat :=
  (s.bunch.table.filter fun b => b.2.state == .armed && b.2.anchor.any (fun c => c.cls == 0xE) && windowOpen b.2.point s &&
    startable (b.2.members.map (·.write)) s).map (·.1)

/-- R342: pixels a frame has sent transparent, by layer, and EV_DISP_UNDERFLOW at most once a second. (DEDUCED, unsafe: log 38.) -/
def underflows (counts : List Nat) (s : State) : State :=
  if counts.sum = 0 then s
  else
    let new := (counts.zipIdx.filter fun c => c.1 != 0).map fun c => (s.dt, c.2, c.1)
    let run := (s.disp.underflowRun.filter fun u => decide (dtSub s.dt u.1 < tkS)) ++ new
    let s := modDisp (fun d => { d with underflowed := satAdd u32max d.underflowed counts.sum, underflowRun := run }) s
    let due := match s.disp.underflowEvent with
      | none => true
      | some d => decide (tkS ≤ dtSub s.dt d)
    match new with
    | (_, layer, _) :: _ =>
      if due then
        event 0x1704 1 0 [(16, 1, layer), (20, 4, sat 4 ((run.filter fun u => u.2.1 == layer).map (·.2.2)).sum), (24, 8, s.disp.frame)]
          (modDisp (fun d => { d with underflowEvent := some s.dt }) s)
      else s
    | [] => s

/-- R344: after IDLE_FRAMES frames without a landing the panel refreshes itself, the bloom layer being off. -/
def psrEnter (s : State) : State :=
  let d := s.disp
  if d.psrMode != 0 && d.mode.output == 2 && d.link && d.modeChange.isNone && decide (d.idleFrames ≤ d.idleRun) && !(tget {} d.layers 0).enable then
    modDisp (fun d => { d with psrActive := true }) s else s

/-- DISPLAY_FRAME_END (R340): underflow holds the pixels not fetched in time, by layer. -/
def execDisplayFrameEnd (t : DT) (underflow : List Nat) (s : State) : Out :=
  let s := advance t s
  .next (if framesOut s && s.disp.frame != 0 then
    let s := if scansOut s then underflows (underflow.take 4) s else s
    let s := settle (fun _ => false) (modDisp (fun d => { d with update := [] }) s)
    let anchored := displayAnchored s
    let due := displayDue s ++ anchored
    let s := each anchored (fun id s => pointReached id s.dt s) s
    if due = [] then psrEnter (modDisp (fun d => { d with idleRun := d.idleRun + 1 }) s)
    else each due displayBunch (modDisp (fun d => { d with idleRun := 0 }) (psrLeave s))
  else s)

/-! ## The sink (R335, R343) -/

/-- EV_DISP_HPD: 0 unplugged, 1 plugged, 2 interrupt. -/
def hpdEvent (what : Nat) (s : State) : State := event 0x1703 1 0 [(16, 1, what), (24, 8, s.dt.toNat)] s

/-- HPD_UNPLUG: the main link stops; a mode change goes on without training. -/
def execHpdUnplug (t : DT) (s : State) : Out :=
  let s := advance t s
  .next (if s.fuse.display && s.disp.sink then
    hpdEvent 0 (modDisp (fun d => { d with sink := false, link := false, psrActive := false, update := [], modeChange := d.modeChange.map fun m => (m.1, false) }) s)
  else s)

/-- HPD_PLUG: the link is trained. -/
def execHpdPlug (t : DT) (s : State) : Out :=
  let s := advance t s
  .next (if s.fuse.display && !s.disp.sink then hpdEvent 1 (modDisp (fun d => { d with sink := true, retries := 0, wait := some true }) s) else s)

/-- HPD_IRQ: the link is trained again when the sink has lost lock. -/
def execHpdIrq (t : DT) (lost : Bool) (s : State) : Out :=
  let s := advance t s
  .next (if s.fuse.display && s.disp.sink then
    hpdEvent 2 (if lost then modDisp (fun d => { d with link := false, retries := 0 }) s else s)
  else s)

/-- LINK_TRAINING_DONE: the link is up, and frame 1 of a mode that waited for it starts; after two failed retries the
link stays idle. -/
def execLinkTrainingDone (t : DT) (ok : Bool) (s : State) : Out :=
  let s := advance t s
  let d := s.disp
  .next (if d.mode.output != 0 && (getPll 3 s).absent.isNone && d.sink && !d.link && decide (d.retries < 3) then
    let s := pllRun 3 d.mode.pclk s
    if ok then
      let s := modDisp (fun d => { d with link := true, retries := 0, modeChange := d.modeChange.map fun m => (m.1, false) }) s
      if d.modeChange.any (·.2) then frameStartNow s else s
    else
      let s := modDisp (fun d => { d with retries := d.retries + 1 }) s
      match d.modeChange with
      | some (late, true) => if d.retries = 2 then modeEvent 1 late s else s
      | _ => s
  else s)

end Sys2Proof.Machine
end

