-- ==== Sys2Proof/Machine/Dispatch.lean ====
section
/-! DEFINITION. One arm for each command of spec/opcode_table.json, in the table's order. -/

namespace Sys2Proof.Machine

open Sys2Proof

def exec (i : Instr) (s : State) : Host.Outcome State Fault Refusal :=
  match i with
  | .porNLow t => Sys2Proof.Machine.execPorNLow t s
  | .porNRise t => Sys2Proof.Machine.execPorNRise t s
  | .fusesValid t => Sys2Proof.Machine.execFusesValid t s
  | .sramWipeDone t => Sys2Proof.Machine.execSramWipeDone t s
  | .dramTrainingDone t ok => Sys2Proof.Machine.execDramTrainingDone t ok s
  | .dramWipeDone t => Sys2Proof.Machine.execDramWipeDone t s
  | .verifyDone t u v => Sys2Proof.Machine.execVerifyDone t u v s
  | .korsynStart t => Sys2Proof.Machine.execKorsynStart t s
  | .korsynReady t => Sys2Proof.Machine.execKorsynReady t s
  | .startTimeout t => Sys2Proof.Machine.execStartTimeout t s
  | .perstNAssert t => Sys2Proof.Machine.execPerstNAssert t s
  | .perstNRelease t => Sys2Proof.Machine.execPerstNRelease t s
  | .railUndervoltage t => Sys2Proof.Machine.execRailUndervoltage t s
  | .railRecovery t => Sys2Proof.Machine.execRailRecovery t s
  | .thermalTrip t => Sys2Proof.Machine.execThermalTrip t s
  | .thermalHoldEnd t => Sys2Proof.Machine.execThermalHoldEnd t s
  | .tempThreshold t sensor centi => Sys2Proof.Machine.execTempThreshold t sensor centi s
  | .bootCtrlDevReset t value => Sys2Proof.Machine.execBootCtrlDevReset t value s
  | .go t value => Sys2Proof.Machine.execGo t value s
  | .abort t value => Sys2Proof.Machine.execAbort t value s
  | .spiEnable t value => Sys2Proof.Machine.execSpiEnable t value s
  | .registerWrite t offset width value => Sys2Proof.Machine.execRegisterWrite t offset width value s
  | .dtSnapLoRead t => Sys2Proof.Machine.execDtSnapLoRead t s
  | .doorbellWrite t ring value => Sys2Proof.Machine.execDoorbellWrite t ring value s
  | .dmaDoorbell t number value => Sys2Proof.Machine.execDmaDoorbell t number value s
  | .imageStagingWrite t offset bytes => Sys2Proof.Machine.execImageStagingWrite t offset bytes s
  | .bootSpiWriteStaging t bytes => Sys2Proof.Machine.execBootSpiWriteStaging t bytes s
  | .bootSpiReadStaging t bytes len => Sys2Proof.Machine.execBootSpiReadStaging t bytes len s
  | .bootSpiReadStatus t bytes => Sys2Proof.Machine.execBootSpiReadStatus t bytes s
  | .bootSpiWriteBootLen t bytes => Sys2Proof.Machine.execBootSpiWriteBootLen t bytes s
  | .bootSpiGo t bytes => Sys2Proof.Machine.execBootSpiGo t bytes s
  | .bootSpiAbort t bytes => Sys2Proof.Machine.execBootSpiAbort t bytes s
  | .bootSpiUnknownTransaction t first => Sys2Proof.Machine.execBootSpiUnknownTransaction t first s
  | .bar4Read t offset len => Sys2Proof.Machine.execBar4Read t offset len s
  | .bar4Write t offset bytes => Sys2Proof.Machine.execBar4Write t offset bytes s
  | .devInfo c => Sys2Proof.Machine.execDevInfo c s
  | .devCaps c => Sys2Proof.Machine.execDevCaps c s
  | .devReset c => Sys2Proof.Machine.execDevReset c s
  | .devSetWindow c => Sys2Proof.Machine.execDevSetWindow c s
  | .devUpdate c u v => Sys2Proof.Machine.execDevUpdate c u v s
  | .devSetPower c pf1D3hot => Sys2Proof.Machine.execDevSetPower c pf1D3hot s
  | .ringCreate c => Sys2Proof.Machine.execRingCreate c s
  | .ringDestroy c => Sys2Proof.Machine.execRingDestroy c s
  | .ringModerate c => Sys2Proof.Machine.execRingModerate c s
  | .bunchOpen c => Sys2Proof.Machine.execBunchOpen c s
  | .bunchCommit c => Sys2Proof.Machine.execBunchCommit c s
  | .bunchAbort c => Sys2Proof.Machine.execBunchAbort c s
  | .bunchQuery c => Sys2Proof.Machine.execBunchQuery c s
  | .stagingCycle t => Sys2Proof.Machine.execStagingCycle t s
  | .bunchArmed t id => Sys2Proof.Machine.execBunchArmed t id s
  | .commitPoint t id => Sys2Proof.Machine.execCommitPoint t id s
  | .memberLanding t id member => Sys2Proof.Machine.execMemberLanding t id member s
  | .bunchTimeout t id => Sys2Proof.Machine.execBunchTimeout t id s
  | .domainStarted t domain => Sys2Proof.Machine.execDomainStarted t domain s
  | .clkStatus c => Sys2Proof.Machine.execClkStatus c s
  | .clkSetLockMode c => Sys2Proof.Machine.execClkSetLockMode c s
  | .clkSelectRef c => Sys2Proof.Machine.execClkSelectRef c s
  | .clkSyncArm c => Sys2Proof.Machine.execClkSyncArm c s
  | .clkSetSkew c => Sys2Proof.Machine.execClkSetSkew c s
  | .adpllLock t pll step => Sys2Proof.Machine.execAdpllLock t pll step s
  | .gatedOutputReturn t pll => Sys2Proof.Machine.execGatedOutputReturn t pll s
  | .adpllLockLoss t pll => Sys2Proof.Machine.execAdpllLockLoss t pll s
  | .refclkLoss t => Sys2Proof.Machine.execRefclkLoss t s
  | .refclkRestored t => Sys2Proof.Machine.execRefclkRestored t s
  | .timeGet c => Sys2Proof.Machine.execTimeGet c s
  | .timeSetTai c => Sys2Proof.Machine.execTimeSetTai c s
  | .timeConfig c => Sys2Proof.Machine.execTimeConfig c s
  | .ppsInEdge t falling => Sys2Proof.Machine.execPpsInEdge t falling s
  | .ppsLossTimeout t => Sys2Proof.Machine.execPpsLossTimeout t s
  | .syncInEdge t fraction marginPs => Sys2Proof.Machine.execSyncInEdge t fraction marginPs s
  | .syncOutLaunch t => Sys2Proof.Machine.execSyncOutLaunch t s
  | .syncArmTimeout t => Sys2Proof.Machine.execSyncArmTimeout t s
  | .ptpEventMessage t port received servo => Sys2Proof.Machine.execPtpEventMessage t port received servo s
  | .rfSetRange c => Sys2Proof.Machine.execRfSetRange c s
  | .rfStatus c => Sys2Proof.Machine.execRfStatus c s
  | .rfSetPadCount c => Sys2Proof.Machine.execRfSetPadCount c s
  | .calSetRf c => Sys2Proof.Machine.execCalSetRf c s
  | .rfGroup t channel codes => Sys2Proof.Machine.execRfGroup t channel codes s
  | .overdriveComparator t channel fires => Sys2Proof.Machine.execOverdriveComparator t channel fires s
  | .padSettleEnd t channel => Sys2Proof.Machine.execPadSettleEnd t channel s
  | .otpBurnDone t channel => Sys2Proof.Machine.execOtpBurnDone t channel s
  | .sliceSwap t channel fault => Sys2Proof.Machine.execSliceSwap t channel fault s
  | .opticalGroup t receiver codes => Sys2Proof.Machine.execOpticalGroup t receiver codes s
  | .ddcSet c => Sys2Proof.Machine.execDdcSet c s
  | .ddcSetDetect c => Sys2Proof.Machine.execDdcSetDetect c s
  | .ddcOutputGroup t path u => Sys2Proof.Machine.execDdcOutputGroup t path u s
  | .detectorWindowEnd t path => Sys2Proof.Machine.execDetectorWindowEnd t path s
  | .vdifFrame t ring u => Sys2Proof.Machine.execVdifFrame t ring u s
  | .pipAssign c => Sys2Proof.Machine.execPipAssign c s
  | .pipSetSpares c => Sys2Proof.Machine.execPipSetSpares c s
  | .pipStatus c => Sys2Proof.Machine.execPipStatus c s
  | .specSetFft c => Sys2Proof.Machine.execSpecSetFft c s
  | .specSetWindow c => Sys2Proof.Machine.execSpecSetWindow c s
  | .specSetTrace c => Sys2Proof.Machine.execSpecSetTrace c s
  | .pipFrameDone t personality upset => Sys2Proof.Machine.execPipFrameDone t personality upset s
  | .averagingBlockEnd t personality => Sys2Proof.Machine.execAveragingBlockEnd t personality s
  | .traceBlockEnd t personality trace => Sys2Proof.Machine.execTraceBlockEnd t personality trace s
  | .pipFault t pip cause => Sys2Proof.Machine.execPipFault t pip cause s
  | .pipRecomputeDone t pip poisoned u => Sys2Proof.Machine.execPipRecomputeDone t pip poisoned u s
  | .bloomSet c => Sys2Proof.Machine.execBloomSet c s
  | .bloomClear c => Sys2Proof.Machine.execBloomClear c s
  | .bloomRead c => Sys2Proof.Machine.execBloomRead c s
  | .bloomIngest t personality => Sys2Proof.Machine.execBloomIngest t personality s
  | .bloomDecay t map => Sys2Proof.Machine.execBloomDecay t map s
  | .decayPassDone t map => Sys2Proof.Machine.execDecayPassDone t map s
  | .bloomSnapshot t map => Sys2Proof.Machine.execBloomSnapshot t map s
  | .trigSetMask c => Sys2Proof.Machine.execTrigSetMask c s
  | .trigSetTd c => Sys2Proof.Machine.execTrigSetTd c s
  | .trigSetSeq c => Sys2Proof.Machine.execTrigSetSeq c s
  | .trigSetLimit c => Sys2Proof.Machine.execTrigSetLimit c s
  | .trigLimitResume c => Sys2Proof.Machine.execTrigLimitResume c s
  | .trigSetLog c => Sys2Proof.Machine.execTrigSetLog c s
  | .trigSetLineLog c => Sys2Proof.Machine.execTrigSetLineLog c s
  | .trigInEdge t line falling => Sys2Proof.Machine.execTrigInEdge t line falling s
  | .sequencerEvaluate t personality => Sys2Proof.Machine.execSequencerEvaluate t personality s
  | .sequencerStepTimeout t personality => Sys2Proof.Machine.execSequencerStepTimeout t personality s
  | .capSet c => Sys2Proof.Machine.execCapSet c s
  | .capArm c => Sys2Proof.Machine.execCapArm c s
  | .capForce c => Sys2Proof.Machine.execCapForce c s
  | .capRead c => Sys2Proof.Machine.execCapRead c s
  | .capStatus c => Sys2Proof.Machine.execCapStatus c s
  | .captureEnd t capture => Sys2Proof.Machine.execCaptureEnd t capture s
  | .captureOverflow t capture => Sys2Proof.Machine.execCaptureOverflow t capture s
  | .genSegment c => Sys2Proof.Machine.execGenSegment c s
  | .genLoad c => Sys2Proof.Machine.execGenLoad c s
  | .genStart c => Sys2Proof.Machine.execGenStart c s
  | .genCarrier c => Sys2Proof.Machine.execGenCarrier c s
  | .genJump c => Sys2Proof.Machine.execGenJump c s
  | .genRoute c => Sys2Proof.Machine.execGenRoute c s
  | .genStatus c => Sys2Proof.Machine.execGenStatus c s
  | .calSetGen c => Sys2Proof.Machine.execCalSetGen c s
  | .genLatchPoint t dac => Sys2Proof.Machine.execGenLatchPoint t dac s
  | .genSegmentStart t dac => Sys2Proof.Machine.execGenSegmentStart t dac s
  | .trigOutPulseEnd t line => Sys2Proof.Machine.execTrigOutPulseEnd t line s
  | .generatorUnderrun t dac => Sys2Proof.Machine.execGeneratorUnderrun t dac s
  | .dasStart c => Sys2Proof.Machine.execDasStart c s
  | .dasSetSlot c => Sys2Proof.Machine.execDasSetSlot c s
  | .dasSetGrid c => Sys2Proof.Machine.execDasSetGrid c s
  | .dasSetPmask c => Sys2Proof.Machine.execDasSetPmask c s
  | .dasStatus c => Sys2Proof.Machine.execDasStatus c s
  | .calSetFibre c => Sys2Proof.Machine.execCalSetFibre c s
  | .dasTraceReady t fibre slot => Sys2Proof.Machine.execDasTraceReady t fibre slot s
  | .dasBandWindowEnd t fibre => Sys2Proof.Machine.execDasBandWindowEnd t fibre s
  | .laserSetModcal c => Sys2Proof.Machine.execLaserSetModcal c s
  | .laserSetCaps c => Sys2Proof.Machine.execLaserSetCaps c s
  | .laserArm c => Sys2Proof.Machine.execLaserArm c s
  | .laserStatus c => Sys2Proof.Machine.execLaserStatus c s
  | .laserComparatorTrip t dac measure => Sys2Proof.Machine.execLaserComparatorTrip t dac measure s
  | .laserPermitLow t => Sys2Proof.Machine.execLaserPermitLow t s
  | .laserPermitHigh t => Sys2Proof.Machine.execLaserPermitHigh t s
  | .dtsStart c => Sys2Proof.Machine.execDtsStart c s
  | .dtsSet c => Sys2Proof.Machine.execDtsSet c s
  | .dtsStatus c => Sys2Proof.Machine.execDtsStatus c s
  | .dtsLaunch t fibre u => Sys2Proof.Machine.execDtsLaunch t fibre u s
  | .dtsStackEnd t fibre => Sys2Proof.Machine.execDtsStackEnd t fibre s
  | .dtsRecordReady t fibre => Sys2Proof.Machine.execDtsRecordReady t fibre s
  | .slowSetScan c => Sys2Proof.Machine.execSlowSetScan c s
  | .slowStart c => Sys2Proof.Machine.execSlowStart c s
  | .slowUrgent c => Sys2Proof.Machine.execSlowUrgent c s
  | .slowEntryDelayEnd t => Sys2Proof.Machine.execSlowEntryDelayEnd t s
  | .slowConversionEnd t code => Sys2Proof.Machine.execSlowConversionEnd t code s
  | .slowPartialEntryFlush t => Sys2Proof.Machine.execSlowPartialEntryFlush t s
  | .excSet c => Sys2Proof.Machine.execExcSet c s
  | .excStatus c => Sys2Proof.Machine.execExcStatus c s
  | .excBreakDetect t exc => Sys2Proof.Machine.execExcBreakDetect t exc s
  | .excBreakRestored t exc => Sys2Proof.Machine.execExcBreakRestored t exc s
  | .impedanceCheckDue t exc => Sys2Proof.Machine.execImpedanceCheckDue t exc s
  | .impedanceCheckDone t exc nanofarad microsiemens => Sys2Proof.Machine.execImpedanceCheckDone t exc nanofarad microsiemens s
  | .curSetBand c => Sys2Proof.Machine.execCurSetBand c s
  | .curStatus c => Sys2Proof.Machine.execCurStatus c s
  | .currantFault t currant cause => Sys2Proof.Machine.execCurrantFault t currant cause s
  | .currantRecomputeDone t currant slots => Sys2Proof.Machine.execCurrantRecomputeDone t currant slots s
  | .dmaSet c => Sys2Proof.Machine.execDmaSet c s
  | .dmaStart c => Sys2Proof.Machine.execDmaStart c s
  | .dmaStatus c => Sys2Proof.Machine.execDmaStatus c s
  | .dmaRequest c => Sys2Proof.Machine.execDmaRequest c s
  | .dmaMove t channel word => Sys2Proof.Machine.execDmaMove t channel word s
  | .dmaGather t channel word => Sys2Proof.Machine.execDmaGather t channel word s
  | .dmaScatter t channel word => Sys2Proof.Machine.execDmaScatter t channel word s
  | .dmaLoop t channel word => Sys2Proof.Machine.execDmaLoop t channel word s
  | .dmaWait t channel word => Sys2Proof.Machine.execDmaWait t channel word s
  | .dmaWaitSatisfied t channel => Sys2Proof.Machine.execDmaWaitSatisfied t channel s
  | .dmaSignal t channel word => Sys2Proof.Machine.execDmaSignal t channel word s
  | .dmaLink t channel word => Sys2Proof.Machine.execDmaLink t channel word s
  | .dmaEnd t channel word => Sys2Proof.Machine.execDmaEnd t channel word s
  | .dmaUndefinedOp t channel word => Sys2Proof.Machine.execDmaUndefinedOp t channel word s
  | .dmaBurst t channel => Sys2Proof.Machine.execDmaBurst t channel s
  | .dmaTransferDone t channel => Sys2Proof.Machine.execDmaTransferDone t channel s
  | .dmaErrorResponse t channel cause => Sys2Proof.Machine.execDmaErrorResponse t channel cause s
  | .requestLineRequest t line => Sys2Proof.Machine.execRequestLineRequest t line s
  | .msixModTimeExpiry t ring => Sys2Proof.Machine.execMsixModTimeExpiry t ring s
  | .msixUnmask t function vector => Sys2Proof.Machine.execMsixUnmask t function vector s
  | .memSetFreq c => Sys2Proof.Machine.execMemSetFreq c s
  | .memSetIdle c => Sys2Proof.Machine.execMemSetIdle c s
  | .memStatus c => Sys2Proof.Machine.execMemStatus c s
  | .memReadLog c => Sys2Proof.Machine.execMemReadLog c s
  | .memRepair c => Sys2Proof.Machine.execMemRepair c s
  | .dfsDone t => Sys2Proof.Machine.execDfsDone t s
  | .trainingWindow t => Sys2Proof.Machine.execTrainingWindow t s
  | .trainingWindowEnd t => Sys2Proof.Machine.execTrainingWindowEnd t s
  | .selfRefreshEntry t => Sys2Proof.Machine.execSelfRefreshEntry t s
  | .dramWake t => Sys2Proof.Machine.execDramWake t s
  | .dramRefresh t channel bank => Sys2Proof.Machine.execDramRefresh t channel bank s
  | .patrolScrub t address => Sys2Proof.Machine.execPatrolScrub t address s
  | .dramEccError t error => Sys2Proof.Machine.execDramEccError t error s
  | .sramEccError t error => Sys2Proof.Machine.execSramEccError t error s
  | .pcieLinkChange t width rate => Sys2Proof.Machine.execPcieLinkChange t width rate s
  | .pf1Flr t => Sys2Proof.Machine.execPf1Flr t s
  | .pf0D3hot t => Sys2Proof.Machine.execPf0D3hot t s
  | .netSetPort c => Sys2Proof.Machine.execNetSetPort c s
  | .netSetStream c => Sys2Proof.Machine.execNetSetStream c s
  | .netSetVdif c => Sys2Proof.Machine.execNetSetVdif c s
  | .netSetControl c => Sys2Proof.Machine.execNetSetControl c s
  | .netStatus c => Sys2Proof.Machine.execNetStatus c s
  | .ethFrameReceived t port frame => Sys2Proof.Machine.execEthFrameReceived t port frame s
  | .streamDatagramSend t ring => Sys2Proof.Machine.execStreamDatagramSend t ring s
  | .ethLinkChange t port up => Sys2Proof.Machine.execEthLinkChange t port up s
  | .controlCommandDatagram t datagram => Sys2Proof.Machine.execControlCommandDatagram t datagram s
  | .controlResendDatagram t datagram => Sys2Proof.Machine.execControlResendDatagram t datagram s
  | .streamDropReport t ring => Sys2Proof.Machine.execStreamDropReport t ring s
  | .dispSetMode c => Sys2Proof.Machine.execDispSetMode c s
  | .dispSetLayer c => Sys2Proof.Machine.execDispSetLayer c s
  | .dispSetPalette c => Sys2Proof.Machine.execDispSetPalette c s
  | .dispAlloc c => Sys2Proof.Machine.execDispAlloc c s
  | .dispSetPsr c => Sys2Proof.Machine.execDispSetPsr c s
  | .dispStatus c => Sys2Proof.Machine.execDispStatus c s
  | .displayFrameStart t => Sys2Proof.Machine.execDisplayFrameStart t s
  | .displayVerticalActiveEnd t => Sys2Proof.Machine.execDisplayVerticalActiveEnd t s
  | .displayFrameEnd t underflow => Sys2Proof.Machine.execDisplayFrameEnd t underflow s
  | .hpdUnplug t => Sys2Proof.Machine.execHpdUnplug t s
  | .hpdPlug t => Sys2Proof.Machine.execHpdPlug t s
  | .hpdIrq t lost => Sys2Proof.Machine.execHpdIrq t lost s
  | .linkTrainingDone t ok => Sys2Proof.Machine.execLinkTrainingDone t ok s
  | .healthStatus c => Sys2Proof.Machine.execHealthStatus c s
  | .healthSetRotation c => Sys2Proof.Machine.execHealthSetRotation c s
  | .healthReadFaults c => Sys2Proof.Machine.execHealthReadFaults c s
  | .healthSetRetired c => Sys2Proof.Machine.execHealthSetRetired c s
  | .rotationVisit t kind unit => Sys2Proof.Machine.execRotationVisit t kind unit s
  | .unitTestDone t kind unit pass => Sys2Proof.Machine.execUnitTestDone t kind unit pass s
  | .orxSliceSwap t receiver fault => Sys2Proof.Machine.execOrxSliceSwap t receiver fault s
  | .dacLoopback t dac deviationPpm => Sys2Proof.Machine.execDacLoopback t dac deviationPpm s
  | .dieReferenceCheck t die milliDy ppm => Sys2Proof.Machine.execDieReferenceCheck t die milliDy ppm s
  | .slowSelftestDue t => Sys2Proof.Machine.execSlowSelftestDue t s
  | .stewardFault t cause => Sys2Proof.Machine.execStewardFault t cause s
  | .stewardRestartDone t imageOk => Sys2Proof.Machine.execStewardRestartDone t imageOk s
  | .stewardOutageTimeout t => Sys2Proof.Machine.execStewardOutageTimeout t s
  | .handoverTimeout t => Sys2Proof.Machine.execHandoverTimeout t s
  | .readyEntry t => Sys2Proof.Machine.execReadyEntry t s
  | .standbyEntryDone t => Sys2Proof.Machine.execStandbyEntryDone t s
  | .wake t sources => Sys2Proof.Machine.execWake t sources s
  | .standbyRestoreDone t u v => Sys2Proof.Machine.execStandbyRestoreDone t u v s
  | .lcSecure c => Sys2Proof.Machine.execLcSecure c s
  | .lcService c u v => Sys2Proof.Machine.execLcService c u v s
  | .lcResume c => Sys2Proof.Machine.execLcResume c s
  | .lcReturn c u v => Sys2Proof.Machine.execLcReturn c u v s
  | .lcRetire c u v => Sys2Proof.Machine.execLcRetire c u v s
  | .lcRaiseFloor c => Sys2Proof.Machine.execLcRaiseFloor c s
  | .lcChallenge c => Sys2Proof.Machine.execLcChallenge c s
  | .xtalBRunning t => Sys2Proof.Machine.execXtalBRunning t s
  | .slowIntegrationStart t => Sys2Proof.Machine.execSlowIntegrationStart t s
  | .pf1BusMasterEnable t => Sys2Proof.Machine.execPf1BusMasterEnable t s

end Sys2Proof.Machine
end

