-- ==== Sys2Proof/Machine/Step.lean ====
section
/-! DEFINITION. One step: the command at the front of the queue acts on everything but the queue; with an empty queue
device time runs on by one cycle of its source (R76). -/

namespace Sys2Proof.Machine

/-- Take the front command and run it with the queue's rest; on an empty queue time passes (DESIGN CHOICE, unsafe: log 8). -/
def step (s : State) : Host.Outcome State Fault Refusal :=
  match s.pending with
  | [] => .next (idleTick s)
  | c :: rest => exec c { s with pending := rest }

/-- s with the command a table word spells put in front of its queue; s itself where the word spells none. -/
def State.withFetchWord (s : State) (nbits w : Nat) : State :=
  match decodeTableWord nbits w with
  | some c => { s with pending := c :: s.pending }
  | none => s

end Sys2Proof.Machine
end

