-- ==== Sys2Proof/Safety.lean ====
section
/-! DEFINITION. The words the statements use: when Korsyn takes a command, what a clean entry is, what an answer on the
completion ring is, what no answer and no event can change, and what a safe state is. -/

namespace Sys2Proof

/-! ## The fields of a command's entry (Table 2-16, R12) -/

/-- UNIT. -/
abbrev Cmd.unit (c : Cmd) : Nat := Machine.fld c.entry 10 2
/-- Unsigned fields of 1, 2, 4 and 8 bytes at an offset. -/
abbrev Cmd.u8 (c : Cmd) (off : Nat) : Nat := Machine.fld c.entry off 1
abbrev Cmd.u16 (c : Cmd) (off : Nat) : Nat := Machine.fld c.entry off 2
abbrev Cmd.u32 (c : Cmd) (off : Nat) : Nat := Machine.fld c.entry off 4
abbrev Cmd.u64 (c : Cmd) (off : Nat) : Nat := Machine.fld c.entry off 8
/-- Signed fields. -/
abbrev Cmd.i16 (c : Cmd) (off : Nat) : Int := Machine.fldInt c.entry off 2
abbrev Cmd.i32 (c : Cmd) (off : Nat) : Int := Machine.fldInt c.entry off 4

end Sys2Proof

namespace Sys2Proof.Machine

/-! ## A command and its answer (Tables 2-16 to 2-18, R46) -/

/-- Korsyn can take the command now, and it carries the opcode op (R42, R46). -/
def Sent (op : Nat) (c : Cmd) (s : State) : Prop := fld c.entry 0 2 = op ∧ canTake c.ring s = true

/-- R13: the bytes of an entry from one offset up to another are zero. -/
def ZeroBytes (e : Entry) (first last : Nat) : Prop := ∀ i, first ≤ i → i < last → fld e i 1 = 0

/-- The envelope of a command outside a bunch (Table 2-16): FLAGS 0, BUNCH_ID 0xFFFF, this UNIT, bytes 12 to 15 zero. -/
def Alone (unit : Nat) (c : Cmd) : Prop :=
  fld c.entry 2 2 = 0 ∧ fld c.entry 8 2 = 0xFFFF ∧ fld c.entry 10 2 = unit ∧ ZeroBytes c.entry 12 16

/-- The envelope of a member of an open bunch: FLAGS[0] alone, the bunch's ID, this UNIT, bytes 12 to 15 zero. -/
def Joining (id unit : Nat) (c : Cmd) : Prop :=
  fld c.entry 2 2 = 1 ∧ fld c.entry 8 2 = id ∧ fld c.entry 10 2 = unit ∧ ZeroBytes c.entry 12 16

/-- A taken command as its meaning sees it. -/
def ctxOf (c : Cmd) (s : State) : Ctx :=
  { ref := { ring := c.ring, index := (getRing c.ring s).cons.toNat, tag := fld c.entry 4 4, opcode := fld c.entry 0 2
             quiet := bit (fld c.entry 2 2) 1 }
    master := (getRing c.ring s).master, t := (advance c.t s).dt, e := c.entry }

/-- The state once Korsyn has taken a command: DT has come to it, its ring has one entry less and one command in flight, and
the round-robin stands at it. -/
def taken (c : Cmd) (s : State) : State :=
  modRing c.ring (fun r => { r with cons := r.cons + 1, inflight := r.inflight ++ [⟨(ctxOf c s).ref, none⟩] })
    (served c.ring (advance c.t s))

/-- Nothing of its command ring is in flight, so its completion leaves at once (R46); the ring is not its own completion
ring. -/
def Unhindered (c : Cmd) (s : State) : Prop := (getRing c.ring s).inflight = [] ∧ (getRing c.ring s).pair ≠ c.ring

/-- The memory a LOCATION names (Table 2-15). -/
def memAt (location : Nat) (s : State) : Mem :=
  if location < 2 then s.host else if location = 2 then s.dram else s.sram

/-- The completion ring of a command. -/
def answerRing (c : Cmd) (s : State) : Ring := getRing (getRing c.ring s).pair s

/-- The address of the next completion on it. -/
def answerAddr (c : Cmd) (s : State) : Nat := entryAddr (answerRing c s) (answerRing c s).prod.toNat

/-- The command has been taken and answered: its ring's consumer index is one up with nothing in flight, and the 16 bytes
of its completion (Table 2-17) stand in the completion ring, whose producer index is one up. -/
def Answered (c : Cmd) (d : Done) (s t : State) : Prop :=
  (getRing c.ring t).cons = (getRing c.ring s).cons + 1 ∧ (getRing c.ring t).inflight = [] ∧
  (getRing (getRing c.ring s).pair t).prod = (answerRing c s).prod + 1 ∧
  readBytes (memAt (answerRing c s).location t) (answerAddr c s) 16 =
    completionBytes (ctxOf c s).ref d (ringPhase (answerRing c s))

/-- Two LOCATIONs name one memory: 0 and 1 the host's, 2 DRAM, from 3 up SRAM. -/
def SameMemory (l k : Nat) : Prop := (l < 2 ∧ k < 2) ∨ (l = 2 ∧ k = 2) ∨ (2 < l ∧ 2 < k)

/-- Memory other than n bytes from an address up in the memory a LOCATION names reads as before. -/
def OnlyStored (location addr n : Nat) (s t : State) : Prop :=
  ∀ l a, (SameMemory l location → a < addr ∨ addr + n ≤ a) → readByte (memAt l t) a = readByte (memAt l s) a

/-- From u to t no byte of memory changes but the 16 bytes of the completion of a command taken in s. -/
def OnlyAnswerStored (c : Cmd) (s u t : State) : Prop := OnlyStored (answerRing c s).location (answerAddr c s) 16 u t

/-- Two states in which rings, Korsyn and the PCIe link stand alike, so that an answer goes to the same place in both. -/
def SameMail (s t : State) : Prop :=
  t.rings = s.rings ∧ t.steward.running = s.steward.running ∧ t.pcie.link = s.pcie.link ∧ t.pcie.pf1Enabled = s.pcie.pf1Enabled

/-- Every ring but two is as before. -/
def OtherRings (a b : Nat) (s t : State) : Prop := ∀ n, n ≠ a → n ≠ b → getRing n t = getRing n s

/-- A state after Korsyn has completed the command with OK and a RESULT. -/
def done (c : Cmd) (s : State) (result : Nat) (u : State) : State := ok (ctxOf c s).ref result u

/-! ## Configuration commands (R50 to R58) -/

/-- What a direct command to blocks that do not run rests on: no bunch holds or claims what it writes (R53, R56), its
configuration is admitted (R28, R57), the domains it needs are on and the first tests are over (R18, R355). -/
def Admits (m : Master) (ms : List Member) (s : State) : Prop :=
  (∀ m ∈ ms, claimHolder 64 m.claim s = none ∧ claimStaged 64 m.claim s = none) ∧
    admission (plannedFor m s) (applyAll (ms.map (·.write)) (plannedFor m s)) (ms.map (·.write)) = none ∧
    startable (ms.map (·.write)) s = true

/-- The command configures: to blocks that do not run it lands at once and completes with RESULT; to a running block it
becomes a bunch of its own (R58); in an OPEN bunch of its master with room it is staged (R50, R51, R55). -/
def Configures (i : Instr) (c : Cmd) (s : State) (ms : List Member) (result : Nat) (land : State → State) : Prop :=
  (Alone c.unit c → (∀ m ∈ ms, blockRuns m.write (taken c s) = false) → Admits (ctxOf c s).master ms (taken c s) →
    exec i s = .next (done c s result (land (taken c s)))) ∧
  (Alone c.unit c → (∃ m ∈ ms, blockRuns m.write (taken c s) = true) → freeId (taken c s) ≠ none →
    exec i s = .next (directBunch (ctxOf c s) ms result (taken c s))) ∧
  (∀ id, Joining id c.unit c → ownBunch (ctxOf c s) (taken c s) = true →
    bunchWrites id (taken c s) + (ms.map (·.weight)).sum ≤ 256 →
    exec i s = .next (stageMember (ctxOf c s) ms result (taken c s)))

/-! ## What posting an event or a completion leaves alone -/

/-- A state without what an event or a completion writes: rings, memories, messages, the endpoint's datagrams, port
counters, held events, the place of the round-robin, and the bunches of direct commands, whose IDs completions free. Two states
with equal blocks hold equal everything else. -/
def blocks (s : State) : State :=
  { s with
    rings := [], host := [], dram := [], sram := [], port := []
    pcie := { s.pcie with pendingVecs := [], sent := [] }
    endpoint := { s.endpoint with out := [] }
    steward := { s.steward with held := [], heldLost := false, lastRing := 0 }
    bunch := { s.bunch with table := s.bunch.table.filter fun b => b.2.direct.isNone }
    memCtl := { s.memCtl with poisoned := [] } }

/-! ## A safe stone domain (R40, R377, R379) -/

/-- LC_STATE agrees with the fuses, SERVICE over fuses that read SECURED apart; the fuses never read SERVICE; the floor is
at most 127; scan is enabled only with a zeroised key slot. -/
def StoneSafe (s : State) : Prop :=
  (s.stone.lifeCycle = s.fuse.lifeCycle ∨ (s.stone.lifeCycle = .service ∧ s.fuse.lifeCycle = .secured)) ∧
  s.fuse.lifeCycle ≠ .service ∧ s.fuse.floor ≤ 127 ∧ (s.stone.scanEn = true → s.stone.idKey = .zeroised)

/-- Table 19-5: the moves that burn life-cycle fuses. -/
def Burns (old new : LifeCycle) : Prop :=
  (old = .manufacture ∧ new = .secured) ∨ (old = .secured ∧ (new = .retirn ∨ new = .retired)) ∨ (old = .retirn ∧ new = .retired)

end Sys2Proof.Machine
end

