-- ==== Sys2Proof/Certificates/Slice0/Obligations.lean ====
section
/-! DEFINITION. The statements for the provers. Configuration commands are stated through Configures, which gives their three
outcomes as equations; commands that act at once, and events, are stated as the next state they answer. An event row carries
the DT at which it happens: u is the state with its DT brought there. -/

open Sys2Proof Sys2Proof.Machine

/-! ## The queue, the stone domain, memory, answers, events and bunches -/

/-- A step with a command at the front of the queue is exec of that command on the state with the queue's rest. -/
def Obligations.StepRunsFront : Prop := ∀ (c : Instr) rest (s : State), step { s with pending := c :: rest } = exec c { s with pending := rest }

/-- The model's choice of log 8: with nothing waiting, a step is one cycle of DT's source (R76, Table 4-3): one tick while
ADPLL-S is locked, with the fraction of a tick carried from cycle to cycle otherwise. -/
def Obligations.EmptyQueueIdles : Prop := ∀ s, s.pending = [] →
  step s = .next (idleTick s) ∧
  (s.power.state = .active → (getPll 0 s).locked = true → (getPll 0 s).absent = none → (idleTick s).dt = dtAdd s.dt ((s.clock.fifths + 5) / 5))

/-- After reset: POR_N low at stage POWER, DT 0, nothing running, no ring, LASER_EN low, no lock, all memories zero, no
command waiting (R30, R31, R388). -/
def Obligations.ResetState : Prop :=
  let s := State.reset
  s.pending = [] ∧ s.dt = 0 ∧ s.stone.porN = false ∧ s.stone.stage = .power ∧ s.stone.ifaceLevel = 0 ∧ s.stone.stoneErr = 0 ∧
  s.stone.scanEn = false ∧ s.steward.running = false ∧ s.laser.en = false ∧ s.sram = [] ∧ s.dram = [] ∧ s.rings = [] ∧
  (∀ n, (getPll n s).locked = false) ∧ (∀ a, readByte s.sram a = 0 ∧ readByte s.dram a = 0)

/-- The queue is first in, first out: every step answers a next state, and the queue there is the old one without its
front. -/
def Obligations.QueueIsFirstInFirstOut : Prop := ∀ s, ∃ t, step s = .next t ∧ t.pending = s.pending.tail

/-- The stone domain is safe at reset. -/
def Obligations.StoneSafeAtReset : Prop := StoneSafe State.reset

/-- Every step keeps the stone domain safe: LC_STATE agrees with the fuses but for SERVICE, the fuses never read SERVICE,
the floor is at most 127, and scan is enabled only with a zeroised key slot (R40, R377, R379). -/
def Obligations.StoneSafeKept : Prop := ∀ s t, StoneSafe s → step s = .next t → StoneSafe t

/-- No step undoes a burned life-cycle fuse: the fuses stay as they are or move as Table 19-5 lets them, and then only by the
LC command at the front of the queue (R377). -/
def Obligations.LifeCycleFusesOnlyBurn : Prop := ∀ s t, StoneSafe s → step s = .next t →
  t.fuse.lifeCycle = s.fuse.lifeCycle ∨ (Burns s.fuse.lifeCycle t.fuse.lifeCycle ∧ ∃ c,
    s.pending.head? = some (.lcSecure c) ∨ s.pending.head? = some (.lcReturn c) ∨ s.pending.head? = some (.lcRetire c))

/-- No step lowers the anti-rollback floor, and only LC.RAISE_FLOOR raises it, no further than the SEC_VERSION of the running
image (R40). -/
def Obligations.FloorOnlyRises : Prop := ∀ s t, step s = .next t →
  t.fuse.floor = s.fuse.floor ∨ (s.fuse.floor < t.fuse.floor ∧ t.fuse.floor ≤ s.stone.runSec ∧
    ∃ c, s.pending.head? = some (.lcRaiseFloor c))

/-- Every write of memory keeps its canonical form, a byte reads back as it was written, and every other byte reads as
before. -/
def Obligations.MemoryReadsBack : Prop := ∀ (m : Mem) a bs,
  (Mem.wf m → Mem.wf (writeBytes m a bs) ∧ Mem.wf (zeroRange a bs.length m)) ∧
  readBytes (writeBytes m a bs) a bs.length = bs ∧
  (∀ x, x < a ∨ a + bs.length ≤ x →
    readByte (writeBytes m a bs) x = readByte m x ∧ readByte (zeroRange a bs.length m) x = readByte m x) ∧
  (∀ x, a ≤ x → x < a + bs.length → readByte (zeroRange a bs.length m) x = 0)

/-- R398: the offset reported is that of a wrong field, and the lowest. -/
def Obligations.LowestWrongOffset : Prop := ∀ (cs : Checks) off,
  badOffset cs = some off ↔ (off, true) ∈ cs ∧ ∀ c ∈ cs, c.2 = true → off ≤ c.1

/-- A command taken and completed is answered in its completion ring, with OK and a RESULT or with a status and a REASON; past
what its own effect u did, nothing else of memory, of other rings or of the rest of the state changes (R46, Tables 2-16 to
2-18). A quiet command is answered unless it ends with OK. -/
def Obligations.CompletionsAnswer : Prop := ∀ c s r status reason u, canTake c.ring s = true → Unhindered c s → SameMail (taken c s) u →
  (bit (fld c.entry 2 2) 1 = false →
    let t := done c s r u
    Answered c { status := 0, result := r } s t ∧ OnlyAnswerStored c s u t ∧
      OtherRings c.ring (getRing c.ring s).pair s t ∧ blocks t = blocks u) ∧
  (status ≠ 0 →
    let t := fail (ctxOf c s).ref status reason u
    Answered c { status := status, reason := reason } s t ∧ OnlyAnswerStored c s u t ∧
      OtherRings c.ring (getRing c.ring s).pair s t ∧ blocks t = blocks u)

/-- An event reaches a ring with room as its next entry, with the ring's own SEQ and LOST; a full ring only counts it
(R46, Table 2-19). -/
def Obligations.EventsReachRings : Prop := ∀ e n s,
  let r := getRing n s
  let t := writeEvent e n s
  (getRing n t).seq = r.seq + 1 ∧ (∀ k, k ≠ n → getRing k t = getRing k s) ∧ blocks t = blocks s ∧
  (ringRoom r s = true → (getRing n t).prod = r.prod + 1 ∧ (getRing n t).lost = false ∧
    readBytes (memAt r.location t) (entryAddr r r.prod.toNat) 32 = eventBytes e (ringPhase r) r.lost r.seq.toNat ∧
    OnlyStored r.location (entryAddr r r.prod.toNat) 32 s t) ∧
  (ringRoom r s = false → (getRing n t).prod = r.prod ∧ (getRing n t).lost = true ∧
    ∀ l a, readByte (memAt l t) a = readByte (memAt l s) a)

/-- An event goes to every created event ring whose mask takes its namespace, once, and to no other ring (R47); the rings
of the state are in canonical form. -/
def Obligations.EventsReachOnlyTakers : Prop := ∀ e s k, twf {} s.rings = true →
  (takesEvent e.code (getRing k s) = false → getRing k (deliverEvent e s) = getRing k s) ∧
  (takesEvent e.code (getRing k s) = true → (getRing k (deliverEvent e s)).seq = (getRing k s).seq + 1)

/-- R52, R55, R58, R59: a direct write to a running block becomes a bunch of its own, ARMING with anchor NOW, that completes the
command when it ends; a member sent into an open bunch waits for the end of its staging cycle, and the bunch holds what it
held. Either way its claims stand last among the staged ones and no other bunch changes. -/
def Obligations.WritesAreStaged : Prop := ∀ x ms r s,
  (∀ id, freeId s = some id →
    let t := directBunch x ms r s
    getBunch id t = { state := .arming, master := x.master, direct := some x.ref, openedAt := x.t
                      point := nowPoint x.t (startDelay (ms.map (·.write)) s), result := r } ∧
    (∀ k, k ≠ id → getBunch k t = getBunch k s) ∧
    t.bunch.staged = s.bunch.staged ++ [{ id := id, master := x.master, members := ms, ref := some x.ref, result := r }]) ∧
  (let t := stageMember x ms r s
   t.bunch.staged = s.bunch.staged ++ [{ id := x.bunchId, master := x.master, members := ms, ref := some x.ref, result := r }] ∧
   (∀ k, k ≠ x.bunchId → getBunch k t = getBunch k s) ∧
   (let b := getBunch x.bunchId s
    let d := getBunch x.bunchId t
    d.state = b.state ∧ d.master = b.master ∧ d.members = b.members ∧ d.openedAt = b.openedAt))

/-- R51: every configuration command sent into a bunch that another master opened fails with BADARG and changes no bunch, and so do
BUNCH.COMMIT and BUNCH.ABORT of another master's bunch, while BUNCH.QUERY answers every master with OK. -/
def Obligations.OnlyTheOpenerActs : Prop :=
  (∀ c s, (getBunch (fld c.entry 8 2) s).master ≠ (getRing c.ring s).master → bit (fld c.entry 2 2) 0 = true →
    ∀ p ∈ [(0x0601, Instr.rfSetRange c), (0x1901, .calSetRf c), (0x0701, .ddcSet c), (0x0702, .ddcSetDetect c), (0x0801, .pipAssign
      c), (0x0901, .specSetFft c), (0x0902, .specSetWindow c), (0x0903, .specSetTrace c), (0x0A01, .bloomSet c), (0x0A02,
      .bloomClear c), (0x0B01, .trigSetMask c), (0x0B02, .trigSetTd c), (0x0B03, .trigSetSeq c), (0x0B04, .trigSetLimit c),
      (0x0B05, .trigLimitResume c), (0x0B06, .trigSetLog c), (0x0B07, .trigSetLineLog c), (0x0C01, .capSet c), (0x0C02,
      .capArm c), (0x0C03, .capForce c), (0x0D01, .genSegment c), (0x0D02, .genLoad c), (0x0D03, .genStart c), (0x0D04,
      .genCarrier c), (0x1902, .calSetGen c), (0x0F01, .dasStart c), (0x0F02, .dasSetSlot c), (0x0F03, .dasSetGrid c),
      (0x0F04, .dasSetPmask c), (0x1903, .calSetFibre c), (0x0E01, .laserSetModcal c), (0x0E02, .laserSetCaps c), (0x0E03,
      .laserArm c), (0x1001, .dtsStart c), (0x1002, .dtsSet c), (0x1101, .slowSetScan c), (0x1102, .slowStart c), (0x1201,
      .excSet c), (0x1302, .curSetBand c), (0x1602, .netSetStream c), (0x1603, .netSetVdif c), (0x1701, .dispSetMode c),
      (0x1702, .dispSetLayer c), (0x1703, .dispSetPalette c), (0x1705, .dispSetPsr c),
      (0x0A03, .bloomRead c)],
    Sent p.1 c s → ∃ off ≤ 8, exec p.2 s = .next (fail (ctxOf c s).ref stBadArg off (taken c s))) ∧
  (∀ c s, Sent 0x0302 c s → (getBunch (c.u16 16) s).master ≠ (getRing c.ring s).master →
    ∃ off ≤ 16, exec (.bunchCommit c) s = .next (fail (ctxOf c s).ref stBadArg off (taken c s))) ∧
  (∀ c s, Sent 0x0303 c s → (getBunch (c.u16 16) s).master ≠ (getRing c.ring s).master →
    ∃ off ≤ 16, exec (.bunchAbort c) s = .next (fail (ctxOf c s).ref stBadArg off (taken c s))) ∧
  (∀ c s, Sent 0x0304 c s → Alone 0xFFFF c → c.u16 16 < 64 → ZeroBytes c.entry 18 64 →
    ∃ r, exec (.bunchQuery c) s = .next (done c s r (taken c s)))

/-- R108: a DDC.SET with a frequency word above 2^47 completes with BADARG, on RF and slot paths alike; one staged into a bunch
of its master aborts that bunch. A path that a running fibre holds is there, as in every state a run reaches. -/
def Obligations.HighFrequencyWordsFail : Prop := ∀ c s, Sent 0x0701 c s →
  (slotHeld c.unit s = true → pathAbsent c.unit s = false) → 2 ^ 47 < c.u64 16 →
  ∃ off, exec (.ddcSet c) s = .next (memberFail (ctxOf c s) 2 stBadArg off (taken c s))

/-- R306: MEM.SET_FREQ to the point in force completes with OK at once and changes nothing else. -/
def Obligations.SameFrequencyPointIsOk : Prop := ∀ c s, Sent 0x1501 c s → Alone 0xFFFF c → c.u8 16 ≤ 3 → ZeroBytes c.entry 17 64 →
  c.u8 16 = s.memCtl.point → exec (.memSetFreq c) s = .next (done c s 0 (taken c s))

/-- R3: a command to a unit that is absent completes with ABSENT, its entry being right, and changes nothing else; in an open
bunch of its master with room for it (R52) it aborts the bunch with ABSENT. -/
def Obligations.AbsentUnitsAnswerAbsent : Prop := ∀ c s, ZeroBytes c.entry 24 64 →
  (Sent 0x0602 c s → c.unit < 4 → Alone c.unit c → rfPresent c.unit s = false →
    exec (.rfStatus c) s = .next (fail (ctxOf c s).ref stAbsent 0 (taken c s))) ∧
  (Sent 0x0D07 c s → c.unit < 2 → Alone c.unit c → dacPresent c.unit s = false →
    exec (.genStatus c) s = .next (fail (ctxOf c s).ref stAbsent 0 (taken c s))) ∧
  (Sent 0x0F05 c s → c.unit < 2 → Alone c.unit c → fibrePresent c.unit s = false →
    exec (.dasStatus c) s = .next (fail (ctxOf c s).ref stAbsent 0 (taken c s))) ∧
  (Sent 0x1706 c s → Alone 0 c → s.fuse.display = false →
    exec (.dispStatus c) s = .next (fail (ctxOf c s).ref stAbsent 0 (taken c s))) ∧
  (Sent 0x0902 c s → c.unit < 4 → Alone c.unit c → rfPresent c.unit s = false → c.u8 16 ≤ 4 → ZeroBytes c.entry 17 24 →
    exec (.specSetWindow c) s = .next (fail (ctxOf c s).ref stAbsent 0 (taken c s))) ∧
  (∀ id, Sent 0x0902 c s → c.unit < 4 → Joining id c.unit c → ownBunch (ctxOf c s) (taken c s) = true → rfPresent c.unit s = false →
    bunchWrites id s + 1 ≤ 256 → c.u8 16 ≤ 4 → ZeroBytes c.entry 17 24 →
    exec (.specSetWindow c) s = .next (abortBunch id 1 stAbsent 0 0x0902 (c.u32 4) (fail (ctxOf c s).ref stAbsent 0 (taken c s))))

/-- Table 2-18, R328: a command that only PF0 may send completes with DENIED and the life-cycle state when it comes from the
Ethernet endpoint, and changes nothing else. -/
def Obligations.PrivilegedCommandsDenied : Prop := ∀ c s, (getRing c.ring s).master ≠ .pf0 →
  let denied := Host.Outcome.next (fail (ctxOf c s).ref stDenied (lcCode s.stone.lifeCycle) (taken c s))
  (Sent 0x0103 c s → exec (.devReset c) s = denied) ∧ (Sent 0x0105 c s → exec (.devUpdate c) s = denied) ∧
  (∀ d, Sent 0x0106 c s → exec (.devSetPower c d) s = denied) ∧ (Sent 0x1604 c s → exec (.netSetControl c) s = denied) ∧
  (Sent 0x1A01 c s → exec (.lcSecure c) s = denied) ∧ (Sent 0x1A02 c s → exec (.lcService c) s = denied) ∧
  (Sent 0x1A03 c s → exec (.lcResume c) s = denied) ∧ (Sent 0x1A04 c s → exec (.lcReturn c) s = denied) ∧
  (Sent 0x1A06 c s → exec (.lcRetire c) s = denied) ∧ (Sent 0x1A05 c s → exec (.lcRaiseFloor c) s = denied) ∧
  (Sent 0x1A07 c s → exec (.lcChallenge c) s = denied)

/-! ## Commands that act at once -/

/-- The DEV commands with right fields, DEV.RESET, DEV.SET_POWER and DEV.UPDATE from PF0, do what Table 2-20 says: an image that
fails a check of R38 is REFUSED with 0x20 above its code, any other is taken over (R5, R30, R315, R364, R371). -/
def Obligations.DeviceCommands : Prop :=
  (∀ c s, Sent 0x0101 c s → Alone 0xFFFF c → ZeroBytes c.entry 16 64 →
    exec (.devInfo c) s = .next (done c s (3 + 2 ^ 8 * s.fuse.siRev + 2 ^ 16 * s.fuse.variant + 2 ^ 24 * lcCode s.stone.lifeCycle)
      (taken c s))) ∧
  (∀ c s, Sent 0x0102 c s → Alone 0xFFFF c → ZeroBytes c.entry 24 64 →
    exec (.devCaps c) s = .next (done c s 0 (toHost (c.u64 16) (capsBytes (taken c s)) (taken c s)))) ∧
  (∀ c s, Sent 0x0103 c s → Alone 0xFFFF c → (getRing c.ring s).master = .pf0 → ZeroBytes c.entry 16 64 →
    exec (.devReset c) s = .next (deviceReset false (laserCut (done c s 0 (taken c s))))) ∧
  (∀ c s, Sent 0x0104 c s → Alone 0xFFFF c → c.u64 16 % 2 ^ 30 = 0 → ZeroBytes c.entry 24 64 →
    exec (.devSetWindow c) s = .next (done c s 0 (let u := taken c s; { u with pcie := { u.pcie with windowBase := c.u64 16 } }))) ∧
  (∀ c s, Sent 0x0105 c s → Alone 0xFFFF c → (getRing c.ring s).master = .pf0 → 4096 ≤ c.u32 24 →
    c.u32 24 ≤ 0x800000 → c.u32 24 % 4 = 0 → ZeroBytes c.entry 28 64 →
    let u := taken c s
    let head := headerAt u.host (c.u64 16)
    let h : Handover := { ref := (ctxOf c s).ref, sec := head.sec, len := c.u32 24
                          image := readBytes u.host (c.u64 16) (c.u32 24), oldImage := [] }
    let t := { u with steward := { u.steward with closed := true, handover := some h } }
    let open_ := (u.bunch.table.filter fun b => b.2.state == .opened).map (·.1)
    exec (.devUpdate c) s = .next (match imageError u.host (c.u64 16) (c.u32 24) u with
      | some e => fail (ctxOf c s).ref stRefused (0x20 + e) u
      | none => handoverGo (each open_ (fun id => abortBunch id 9 0 0 0 0) t))) ∧
  (∀ c s, Sent 0x0106 c s → Alone 0xFFFF c → (getRing c.ring s).master = .pf0 → (c.u8 16 = 2 ∨ c.u8 16 = 3) →
    ZeroBytes c.entry 17 24 → ZeroBytes c.entry 32 64 → powerIdle (taken c s) = true →
    let t := each [0, 1, 2, 3] (fun p => portLink p false) (done c s 0 (taken c s))
    let deep : Power := if c.u8 16 = 2 then .standby else .off
    exec (.devSetPower c true) s = .next { t with
      steward := { t.steward with closed := true }
      power := { t.power with entering := some deep, wakeDt := BitVec.ofNat 64 (c.u64 24), wakePending := 0 } })

/-- The RING commands with right fields do what Table 2-20 says: a ring is created with its memory zeroed, destroyed when
nothing keeps it, and its moderation set (R44, R45, R296). -/
def Obligations.RingCommands : Prop :=
  (∀ c s, Sent 0x0201 c s → Alone 0xFFFF c → 3 ≤ c.u16 16 → c.u16 16 ≤ 8191 → c.u8 18 ≤ 3 → 2 ≤ c.u8 19 → c.u8 19 ≤ 15 →
    c.u8 20 ≤ 3 → (c.u8 20 = 0 → c.u8 18 ≤ 2) → (c.u8 20 = 1 → c.u8 18 = 3) → c.u8 21 ≤ 63 →
    (c.u8 18 = 3 → 64 ≤ c.u16 22 ∧ c.u16 22 % 64 = 0) → (c.u8 18 ≠ 3 → c.u16 22 = 0) → c.u64 24 % 4096 = 0 →
    (c.u8 18 = 0 → (getRing (c.u16 32) s).created = true ∧ (getRing (c.u16 32) s).kind = .completion) →
    (c.u8 18 = 1 ∨ c.u8 18 = 2 → c.u16 32 = 0xFFFF) → (c.u8 18 ≠ 2 → c.u32 40 = 0) → c.u32 40 % 2 = 0 → c.u32 40 < 2 ^ 27 →
    ZeroBytes c.entry 44 64 →
    let r : Ring := { created := true, kind := kindOf (c.u8 18), log2 := c.u8 19, location := c.u8 20, msix := c.u8 21
                      entrySize := entryBytes (c.u8 18) (c.u16 22), base := c.u64 24, pair := c.u16 32, modCount := c.u16 34
                      modTime := c.u32 36, nsMask := c.u32 40, master := (getRing c.ring s).master }
    ringBeyond r s = false → (getRing (c.u16 16) s).created = false → bellChannel (c.u16 16) s = none →
    (r.location = 2 → dramSpace (planned (taken c s)) + ringBytes r ≤ dramUsable s - 536870912) →
    exec (.ringCreate c) s = .next (done c s 0 (modRing (c.u16 16) (fun _ => r) (ringZero r (taken c s))))) ∧
  (∀ c s, Sent 0x0202 c s → Alone 0xFFFF c → 3 ≤ c.u16 16 → c.u16 16 ≤ 8191 → (getRing (c.u16 16) s).created = true →
    ZeroBytes c.entry 18 64 → c.ring ≠ c.u16 16 → ringHeldBy (c.u16 16) (taken c s) = false →
    exec (.ringDestroy c) s = .next (done c s 0 (modRing (c.u16 16) (fun _ => {}) (taken c s)))) ∧
  (∀ c s, Sent 0x0203 c s → Alone 0xFFFF c → c.u16 16 ≠ 0 → (getRing (c.u16 16) s).created = true → c.u8 18 ≤ 63 →
    ZeroBytes c.entry 19 20 → ZeroBytes c.entry 22 24 → ZeroBytes c.entry 28 64 →
    exec (.ringModerate c) s = .next (modRing (c.u16 16)
      (fun r => { r with msix := c.u8 18, modCount := c.u16 20, modTime := c.u32 24 }) (done c s 0 (taken c s))))

/-- The BUNCH commands with right fields do what Table 3-8 says: a COMMIT whose T lies less than L ahead aborts its bunch with
LATE (R50, R59 to R61). Maps and traces that fit no N are judged at COMMIT, as log 84 chooses. -/
def Obligations.BunchCommands : Prop :=
  (∀ c s id, Sent 0x0301 c s → Alone 0xFFFF c → c.u32 16 ≤ 600000 → ZeroBytes c.entry 20 64 → freeId s = some id →
    exec (.bunchOpen c) s = .next (done c s id (modBunch id (fun _ =>
      { state := .opened, master := (getRing c.ring s).master, timeoutMs := if c.u32 16 = 0 then 10000 else c.u32 16
        openedAt := (taken c s).dt }) (taken c s)))) ∧
  (∀ c s, Sent 0x0302 c s → Alone 0xFFFF c → c.u16 16 < 64 → (getBunch (c.u16 16) s).state = .opened →
    (getBunch (c.u16 16) s).master = (getRing c.ring s).master → (getBunch (c.u16 16) s).direct = none → c.u8 18 ≤ 2 →
    (c.u8 18 ≠ 2 → c.u8 19 = 0 ∧ c.u16 20 = 0) →
    (c.u8 18 = 2 → { cls := c.u8 19, inst := c.u16 20 } ∈ bunchClaims (c.u16 16) s) → (c.u8 18 ≠ 1 → c.u64 24 = 0) →
    c.u64 24 % 64 = 0 → ZeroBytes c.entry 22 24 → ZeroBytes c.entry 32 64 →
    let delay := delayOf (getBunch (c.u16 16) s).starts (getBunch (c.u16 16) s).tests
    let now := (taken c s).dt
    let v := modBunch (c.u16 16) (fun b => { b with
      state := .arming, commit := some (ctxOf c s).ref
      point := if c.u8 18 = 1 then BitVec.ofNat 64 (c.u64 24) else if c.u8 18 = 2 then dtAdd now (leadTk + delay) else nowPoint now delay
      anchor := if c.u8 18 = 2 then some { cls := c.u8 19, inst := c.u16 20 } else none }) (taken c s)
    geometryWrong (c.u16 16) v = false →
    exec (.bunchCommit c) s = .next (if c.u8 18 = 1 ∧ c.u64 24 < now.toNat + leadTk + delay then abortBunch (c.u16 16) 5 stLate 0 0 0 v
      else v)) ∧
  (∀ c s, Sent 0x0303 c s → Alone 0xFFFF c → c.u16 16 < 64 →
    ((getBunch (c.u16 16) s).state = .opened ∨ (getBunch (c.u16 16) s).state = .arming) →
    (getBunch (c.u16 16) s).master = (getRing c.ring s).master → (getBunch (c.u16 16) s).direct = none →
    ZeroBytes c.entry 18 64 →
    exec (.bunchAbort c) s = .next (done c s 0 (abortBunch (c.u16 16) 6 0 0 0 0 (taken c s)))) ∧
  (∀ c s, Sent 0x0304 c s → Alone 0xFFFF c → c.u16 16 < 64 → ZeroBytes c.entry 18 64 →
    let b := getBunch (c.u16 16) s
    exec (.bunchQuery c) s = .next (done c s (if b.state = .free then 0
      else bunchCode b.state + 256 * masterCode b.master + 65536 * bunchWrites (c.u16 16) (taken c s)) (taken c s)))

/-- The CLK commands with right fields do what Table 4-4 says; a skew makes ADPLL-S relock by hop, the lock it is making
being that hop, and a stopped ADPLL-S takes it at its next lock, as log 39 chooses (R65 to R72, R82, R84). -/
def Obligations.ClockCommands : Prop :=
  (∀ c s, Sent 0x0401 c s → Alone 0xFFFF c → ZeroBytes c.entry 16 64 →
    let u := taken c s
    exec (.clkStatus c) s = .next (done c s (pllByte 0 u + 2 ^ 8 * pllByte 1 u + 2 ^ 16 * pllByte 2 u + 2 ^ 24 * pllByte 3 u) u)) ∧
  (∀ c s, Sent 0x0402 c s → Alone 0xFFFF c → c.u8 16 ≤ 3 → c.u8 17 ≤ 1 → c.u8 18 ≤ 1 → ZeroBytes c.entry 19 64 →
    exec (.clkSetLockMode c) s = .next (done c s 0 (modPll (c.u8 16) (fun p => { p with
      cacheMode := c.u8 17 == 1, cache := if c.u8 18 = 1 then [] else p.cache }) (taken c s)))) ∧
  (∀ c s, Sent 0x0403 c s → Alone 0xFFFF c → c.u8 16 ≤ 1 → c.u8 17 ≤ 1 → ZeroBytes c.entry 18 64 →
    let u := taken c s
    relockRuns u = false → (c.u8 16 = 0 → u.clock.refOk = true) → (c.u8 17 = 0 → anyPersonality u = false) →
    exec (.clkSelectRef c) s = .next (relockTo (c.u8 16 == 1) false (some (ctxOf c s).ref) u)) ∧
  (∀ c s, Sent 0x0404 c s → Alone 0xFFFF c → c.u8 16 ≤ 3 → (c.u8 16 ≠ 2 → c.u8 17 = 0) → c.u8 18 ≤ 1 → c.u64 24 % 1024 = 0 →
    ZeroBytes c.entry 19 24 → ZeroBytes c.entry 36 64 →
    let u := taken c s
    syncBusy u = false → (c.u8 16 = 1 → u.dt.toNat ≤ c.u64 24) →
    let a : SyncArm := { mode := c.u8 16, position := c.u8 17, outEn := c.u8 18 == 1, d := BitVec.ofNat 64 (c.u64 24)
                         timeoutMs := if c.u32 32 = 0 then 10000 else c.u32 32, armedAt := u.dt }
    exec (.clkSyncArm c) s = .next (done c s 0 { u with clock := { u.clock with syncOut := false, sync := some a } })) ∧
  (∀ c s, Sent 0x0406 c s → Alone 0xFFFF c → -1024 ≤ c.i16 16 → c.i16 16 ≤ 1024 → ZeroBytes c.entry 18 64 →
    let u := taken c s
    syncBusy u = false →
    let v := { u with clock := { u.clock with skew := u.clock.skew + c.i16 16 } }
    let p := getPll 0 u
    let w := modPll 0 (fun p => { p with hopNext := true, locked := p.locked && !p.relocking }) v
    let x := { w with clock := { w.clock with skewWaiting := u.clock.skewWaiting ++ [(ctxOf c s).ref] } }
    (p.stopped = true → exec (.clkSetSkew c) s = .next (done c s 0 v)) ∧
    (p.stopped = false → p.relocking = false → (∀ r, u.clock.relock = some r → 0 ∉ r.remaining) →
      exec (.clkSetSkew c) s = .next (pllLeave 0 3 x)) ∧
    (p.stopped = false → (p.relocking = true ∨ ∃ r, u.clock.relock = some r ∧ 0 ∈ r.remaining) →
      exec (.clkSetSkew c) s = .next x))

/-- The TIME commands with right fields do what Table 4-4 says (R79 to R81). -/
def Obligations.TimeCommands : Prop :=
  (∀ c s, Sent 0x0501 c s → Alone 0xFFFF c → ZeroBytes c.entry 24 64 →
    exec (.timeGet c) s = .next (done c s 0 (toHost (c.u64 16) (timeRecord (taken c s)) (taken c s)))) ∧
  (∀ c s, Sent 0x0502 c s → Alone 0xFFFF c → c.u8 16 = 0 → c.u64 32 = 0 → c.u32 40 = 0 → ZeroBytes c.entry 17 24 →
    ZeroBytes c.entry 44 64 →
    let u := taken c s
    exec (.timeSetTai c) s = .next (done c s 0 { u with time := { u.time with nextTai := some (c.u64 24) } })) ∧
  (∀ c s, Sent 0x0502 c s → Alone 0xFFFF c → c.u8 16 = 1 → c.u32 40 ≤ 999999999 → ZeroBytes c.entry 17 24 →
    ZeroBytes c.entry 44 64 →
    let u := taken c s
    let epoch : Epoch := { u.time.epoch with dt := BitVec.ofNat 64 (c.u64 32), taiS := c.u64 24, taiNs := c.u32 40 }
    exec (.timeSetTai c) s = .next (done c s 0 { u with time := { u.time with epoch := epoch, epochSet := ppsSelected u } })) ∧
  (∀ c s, Sent 0x0503 c s → Alone 0xFFFF c → c.u8 16 ≤ 3 → c.u8 17 ≤ 1 → ZeroBytes c.entry 18 64 →
    let u := taken c s
    exec (.timeConfig c) s = .next (done c s 0 { u with time := { u.time with
      source := c.u8 16, fallingEdge := c.u8 17 == 1, ppsOk := false, ptpOk := false, holdover := false, rejected := 0
      candidate := none, accepted := [], epochSet := false } }))

/-- The commands of the receivers, pips, captures, generators, laser, fibres, slow converter and excitation that change or
report without configuring, with right fields, do what their tables say (R94, R148, R193, R211, R236, R252, R274). -/
def Obligations.UnitCommands : Prop :=
  (∀ c s, Sent 0x0603 c s → c.unit < 4 → Alone c.unit c → ZeroBytes c.entry 24 64 → rfPresent c.unit s = true →
    (getRf c.unit s).padMoved = false →
    exec (.rfSetPadCount c) s = .next (done c s 0 (burnDue c.unit (modRf c.unit
      (fun r => { r with padCount := max (c.u64 16) (otpFloor c.unit s) + 1 }) (taken c s))))) ∧
  (∀ c s, Sent 0x0802 c s → Alone 0xFFFF c → 2 ≤ c.u8 16 → c.u8 16 ≤ 8 → ZeroBytes c.entry 17 64 →
    let u := taken c s
    (pipsInUse u : Int) ≤ (pipsHealthy u : Int) - c.u8 16 →
    exec (.pipSetSpares c) s = .next (done c s 0 (rewriteCaps { u with health := { u.health with spares := c.u8 16 } }))) ∧
  (∀ c s, Sent 0x0C04 c s → c.unit < 16 → Alone c.unit c → ZeroBytes c.entry 17 18 → ZeroBytes c.entry 20 24 →
    ZeroBytes c.entry 40 64 →
    let u := taken c s
    let k := getCap c.unit u
    k.isSet = true → c.u8 16 < k.cfg.segments → (tget {} k.records (c.u8 16)).full = true →
    ((k.phase = 1 ∨ k.phase = 2) → k.segment ≠ c.u8 16) → badRing (c.u16 18) s = false →
    let bytes := capBytes c.unit (tget {} k.records (c.u8 16)) u
    let device := deviceDest (c.u64 24) bytes.length u
    let out := if (c.u16 18 = 0xFFFF ∧ device = false) ∨ (c.u16 18 ≠ 0xFFFF ∧ (getRing (c.u16 18) u).location = 1) then c.u64 32 else 0
    (c.u64 32 ≠ 0 → brokenBudget (planned u) (planned u) (c.u64 32) out = none) →
    let v := if c.u64 32 = 0 then u else readoutBegin (c.u64 32) out bytes.length u
    exec (.capRead c) s = .next (done c s 0
      (if c.u16 18 ≠ 0xFFFF then writeRecord (c.u16 18) bytes v else storeAt (if device = true then 2 else 0) (c.u64 24) bytes v))) ∧
  (∀ c s, Sent 0x0D05 c s → c.unit < 2 → Alone c.unit c → c.u8 16 ≤ 7 → ZeroBytes c.entry 17 64 → dacPresent c.unit s = true →
    exec (.genJump c) s = .next (done c s 0 (modGen c.unit (fun g =>
      if g.running = true ∧ (48 + c.u8 16) ∉ g.pending then { g with pending := g.pending ++ [48 + c.u8 16] } else g)
      (latchDue c.unit (taken c s))))) ∧
  (∀ c s, Sent 0x0D06 c s → Alone 0xFFFF c → c.u8 17 < 16 → 1 ≤ c.u8 18 → ZeroBytes c.entry 19 64 →
    routeAbsent (c.u8 16) (c.u8 17) s = false → (getGen 0 s).running = false → (getGen 1 s).running = false →
    let u := taken c s
    exec (.genRoute c) s = .next (done c s 0
      { u with route := { u.route with markDac := c.u8 16, trigDac := c.u8 17, width := c.u8 18 } })) ∧
  (∀ c s, Sent 0x1103 c s → c.unit = 0 → Alone 0 c →
    (∀ k ∈ scanChecks (fld c.entry 16 16), k.2 = false) → (scanEntryOf (fld c.entry 16 16)).repeats = 1 → ZeroBytes c.entry 32 64 →
    exec (.slowUrgent c) s = .next (slowKick (modSlow
      (fun y => { y with urgents := y.urgents ++ [(scanEntryOf (fld c.entry 16 16), (ctxOf c s).ref)] }) (taken c s))))

/-- The STATUS commands with right fields, to units that are there, write their record to the host address given (R46). -/
def Obligations.StatusCommands : Prop :=
  (∀ c s, ZeroBytes c.entry 24 64 →
    let u := taken c s
    (Sent 0x0602 c s → c.unit < 4 → Alone c.unit c → rfPresent c.unit s = true →
      exec (.rfStatus c) s = .next (done c s 0 (toHost (c.u64 16) (rfRecord c.unit u) u))) ∧
    (Sent 0x0803 c s → Alone 0xFFFF c →
      exec (.pipStatus c) s = .next (done c s 0 (toHost (c.u64 16) (((List.range 36).map fun n => pipByte n u) ++
        leBytes 1 u.health.spares ++ leBytes 1 (pipsHealthy u) ++ leBytes 26 0) u))) ∧
    (Sent 0x0C05 c s → c.unit < 16 → Alone c.unit c →
      let k := getCap c.unit u
      exec (.capStatus c) s = .next (done c s 0 (toHost (c.u64 16) (leBytes 1 k.phase ++
        leBytes 1 (k.records.filter fun r => r.2.full).length ++ leBytes 2 0 ++ leBytes 4 (sat 4 k.missed) ++
        leBytes 8 k.lastTrigger.toNat ++ leBytes 8 k.overwritten ++ leBytes 8 0) u))) ∧
    (Sent 0x0D07 c s → c.unit < 2 → Alone c.unit c → dacPresent c.unit s = true →
      let g := getGen c.unit u
      exec (.genStatus c) s = .next (done c s 0 (toHost (c.u64 16) (leBytes 1 (b2n g.running) ++ leBytes 1 0 ++ leBytes 2 g.entry ++
        leBytes 4 g.epoch ++ leBytes 4 g.underruns ++ leBytes 4 (residentBytes g) ++ leBytes 8 g.clip ++
        leBytes 4 (ceilDiv (refillCharge g) 1000000) ++ leBytes 4 0) u))) ∧
    (Sent 0x0E04 c s → Alone 0xFFFF c →
      let l := u.laser
      exec (.laserStatus c) s = .next (done c s 0 (toHost (c.u64 16) (leBytes 1 (b2n l.en) ++ leBytes 1 (b2n l.permit) ++
        leBytes 1 (maskOf 2 fun d => (getGov d u).armed) ++ leBytes 1 l.trip ++ leBytes 1 l.tripDac ++ leBytes 3 0 ++
        leBytes 8 l.cutAt.toNat ++ leBytes 16 0) u))) ∧
    (Sent 0x0F05 c s → c.unit < 2 → Alone c.unit c → fibrePresent c.unit s = true →
      let f := getFibre c.unit u
      exec (.dasStatus c) s = .next (done c s 0 (toHost (c.u64 16) (
        leBytes 1 (if !f.das then 0 else if f.degraded then 2 else 1) ++ leBytes 1 (maskOf 8 fun k => (tget {} f.slots k).enable) ++
        leBytes 1 (if f.das then f.pips.length else 0) ++ leBytes 1 (if f.das then f.currants.length else 0) ++
        leBytes 4 (sat 4 f.unpaired) ++ leBytes 8 f.traceSeq ++ leBytes 8 ((f.lastTrace.map (·.toNat)).getD 0) ++
        leBytes 4 (sat 4 f.shortIntervals) ++ leBytes 4 0) u))) ∧
    (Sent 0x1003 c s → c.unit < 2 → Alone c.unit c → fibrePresent c.unit s = true →
      let f := getFibre c.unit u
      exec (.dtsStatus c) s = .next (done c s 0 (toHost (c.u64 16) (leBytes 1 (b2n f.dts) ++ leBytes 3 0 ++ leBytes 4 f.stackSeq ++
        leBytes 8 f.stackEnd.toNat ++ leBytes 4 (sat 4 f.leftOut) ++ leBytes 4 f.tCoil ++ leBytes 8 0) u))) ∧
    (Sent 0x1301 c s → Alone 0xFFFF c →
      exec (.curStatus c) s = .next (done c s 0 (toHost (c.u64 16) (
        ((List.range 18).map fun n => leBytes 1 (currantByte n u)).flatten ++
        ((List.range 18).map fun n => leBytes 1 (if currantPresent n u then (getCurrant n u).kernel else 0xFF)).flatten ++
        leBytes 1 (currantsHealthy u) ++
        leBytes 1 ((List.range 18).filter fun n => currantHealthy n u && currantShown n u == .spare).length ++
        leBytes 26 0) u))) ∧
    (Sent 0x1403 c s → c.unit < 224 → Alone c.unit c →
      let k := getChan c.unit u
      exec (.dmaStatus c) s = .next (done c s 0 (toHost (c.u64 16) (leBytes 1 k.state ++ leBytes 1 (b2n k.done + 2 * b2n k.kick) ++
        leBytes 1 k.cause ++ leBytes 5 0 ++ leBytes 8 (dmaPosition k) ++ leBytes 8 k.remaining ++ leBytes 8 k.moved) u))) ∧
    (Sent 0x1503 c s → Alone 0xFFFF c →
      exec (.memStatus c) s = .next (done c s 0 (toHost (c.u64 16) (memRecord u) u))))

/-- EXC.STATUS, NET.STATUS, DISP.STATUS and HEALTH.STATUS do the same; a field that the spec does not state is a free value,
one draw each (logs 4 and 40; the records' other fields are those of R258, R331, R344 and R359's tables). -/
def Obligations.FreeStatusCommands : Prop :=
  (∀ c s, ZeroBytes c.entry 24 64 →
    (Sent 0x1202 c s → c.unit < 4 → Alone c.unit c →
      let a := draw s
      let b := draw a.2
      exec (.excStatus c) s = .next (done c b.2 0 (toHost (c.u64 16) (excStatusRecord c.unit a.1 b.1 (taken c b.2)) (taken c b.2)))) ∧
    (Sent 0x1605 c s → c.unit < 4 → Alone c.unit c →
      let u := taken c s
      let a := draw u
      let b := draw a.2
      exec (.netStatus c) s = .next (if (getPort c.unit u).fec = 0 then done c s 0 (toHost (c.u64 16) (netRecord c.unit 0 0 u) u)
        else done c s 0 (toHost (c.u64 16) (netRecord c.unit a.1 b.1 b.2) b.2))) ∧
    (Sent 0x1706 c s → c.unit = 0 → Alone 0 c → s.fuse.display = true →
      let v := draw (taken c s)
      exec (.dispStatus c) s = .next (done c s 0 (toHost (c.u64 16) (dispRecord v.1 v.2) v.2))) ∧
    (Sent 0x1801 c s → Alone 0xFFFF c →
      let v := draw (taken c s)
      exec (.healthStatus c) s = .next (done c s 0 (toHost (c.u64 16) (healthRecord v.1 v.2) v.2))))

/-- The DMA commands with right fields do what Table 14-8 says (R276, R277, R282, R284, R290). -/
def Obligations.DmaCommands : Prop :=
  (∀ c s, Sent 0x1401 c s → c.unit < 224 → Alone c.unit c → ZeroBytes c.entry 36 40 → c.u8 16 ≤ 1 → c.u8 17 ≤ 1 →
    c.u64 40 % 4096 = 0 → c.u64 48 % 16 = 0 →
    let b : Channel := { isSet := true, pf1 := c.u8 16 == 1, programSpace := c.u8 17, doorbell := c.u16 18
                         lines := [c.u16 20, c.u16 22, c.u16 24, c.u16 26], prodRings := [c.u16 28, c.u16 30]
                         consRings := [c.u16 32, c.u16 34], hostBase := c.u64 40, program := c.u64 48, rate := c.u64 56 }
    3 ≤ b.doorbell → b.doorbell ≤ 8191 → (getRing b.doorbell s).created = false →
    (∀ l ∈ b.lines, l = 0xFFFF ∨ lineListed l = true) → (∀ r ∈ b.prodRings ++ b.consRings, badRing r s = false) →
    let u := taken c s
    ((getChan c.unit u).state = 0 ∨ (getChan c.unit u).state = 4 ∨ (getChan c.unit u).state = 5) →
    bindingTaken c.unit b u = false →
    exec (.dmaSet c) s = .next (done c s 0 (bindRings c.unit b (modChan c.unit (fun _ => b) u)))) ∧
  (∀ c s, Sent 0x1402 c s → c.unit < 224 → Alone c.unit c → ZeroBytes c.entry 17 64 → (c.u8 16 = 1 ∨ c.u8 16 = 2) →
    let u := taken c s
    (getChan c.unit u).isSet = true → (getChan c.unit u).state ≠ 1 → (getChan c.unit u).state ≠ 2 → dmaAdmission c.unit u = none →
    exec (.dmaStart c) s = .next (done c s 0 (modChan c.unit (fun k =>
      if c.u8 16 = 1 then { k with state := 1, counters := [], pos := k.program, posSpace := k.programSpace, moved := 0
                                   remaining := 0, done := false, refetch := false }
      else { k with state := 1, done := false, refetch := k.state == 3 }) u))) ∧
  (∀ c s, Sent 0x1402 c s → c.unit < 224 → Alone c.unit c → ZeroBytes c.entry 17 64 → c.u8 16 = 0 →
    let u := taken c s
    (getChan c.unit u).isSet = true → (getChan c.unit u).transfer = none →
    exec (.dmaStart c) s = .next (done c s 0 (modChan c.unit (fun k =>
      { k with state := if (getChan c.unit u).state = 0 then 0 else 4, wait := none }) u))) ∧
  (∀ c s, Sent 0x1404 c s → Alone 0xFFFF c → 256 ≤ c.u16 16 → c.u16 16 ≤ 447 → 1 ≤ c.u16 18 → ZeroBytes c.entry 20 64 →
    exec (.dmaRequest c) s = .next (done c s 0 (raiseLine (c.u16 16) (c.u16 18) (taken c s))))

/-- The MEM commands with right fields do what Table 15-7 says (R301, R303 to R306, R309, R311). -/
def Obligations.MemoryCommands : Prop :=
  (∀ c s, Sent 0x1501 c s → Alone 0xFFFF c → ZeroBytes c.entry 17 64 →
    c.u8 16 ≤ 3 →
    c.u8 16 = s.memCtl.point → exec (.memSetFreq c) s = .next (done c s 0 (taken c s))) ∧
  (∀ c s, Sent 0x1501 c s → Alone 0xFFFF c → c.u8 16 ≤ 3 → ZeroBytes c.entry 17 64 →
    let u := taken c s
    c.u8 16 ≠ u.memCtl.point → u.memCtl.change = none → pipsShort (planned u) = false → currantsShort (planned u) = false →
    dramCharge (planned u) ≤ budgetAt (c.u8 16) →
    (anyPersonality u = true → hopReady (c.u8 16) u = true) →
    let v := modMem (fun m => { m with change := some (c.u8 16, (ctxOf c s).ref, u.dt, none) }) u
    exec (.memSetFreq c) s = .next (if v.memCtl.training then v else dfsBegin v)) ∧
  (∀ c s, Sent 0x1502 c s → Alone 0xFFFF c → c.u32 16 ≤ 1000000 → ZeroBytes c.entry 20 64 →
    exec (.memSetIdle c) s = .next (done c s 0 (modMem (fun m => { m with idleUs := c.u32 16 }) (taken c s)))) ∧
  (∀ c s, Sent 0x1504 c s → Alone 0xFFFF c → 1 ≤ c.u16 24 → c.u16 24 ≤ 256 → ZeroBytes c.entry 26 64 →
    let u := taken c s
    let es := (u.memCtl.log.filter fun e => !e.read).take (c.u16 24)
    let bytes := (es.zipIdx.map fun e => logBytes (u.memCtl.logLost && e.2 == 0) e.1).flatten
    exec (.memReadLog c) s = .next (done c s es.length (toHost (c.u64 16) bytes (modMem (fun m => { m with
      log := markRead (c.u16 24) m.log, logLost := m.logLost && es.isEmpty }) u)))) ∧
  (∀ c s, Sent 0x1505 c s → Alone 0xFFFF c → ZeroBytes c.entry 16 64 →
    let u := taken c s
    repairBusy u = false →
    let r := burnRows u.memCtl.remap 0 u
    exec (.memRepair c) s = .next (done c s r.1 r.2))

/-- NET.SET_PORT, NET.SET_CONTROL, DISP.ALLOC and the HEALTH commands with right fields do what Tables 16-5, 17-5 and 18-8 say
(R319, R327, R338, R345, R355). -/
def Obligations.LinkAndHealthCommands : Prop :=
  (∀ c s, Sent 0x1601 c s → c.unit < 4 → Alone c.unit c → c.u8 16 ≤ 3 → c.u8 17 ≤ 1 → (c.u8 16 = 1 ∨ c.u8 16 = 2 → c.u8 17 = 1) →
    c.u8 18 < 8 → ZeroBytes c.entry 19 20 → ZeroBytes c.entry 26 28 → ZeroBytes c.entry 52 64 →
    (bit (c.u8 18) 0 = true → ∀ p, p < 4 → p ≠ c.unit → bit (getPort p s).options 0 = false) → portBound c.unit (taken c s) = false →
    let u := taken c s
    let old := getPort c.unit u
    let v := if old.mode ≠ c.u8 16 ∨ old.fec ≠ c.u8 17 then portLink c.unit false u else u
    let w := modPort c.unit (fun y => { y with
      mode := c.u8 16, fec := c.u8 17, options := c.u8 18, mac := fld c.entry 20 6, ipv4 := c.u32 28, ipv6 := fld c.entry 32 16
      txDelay := c.i16 48, rxDelay := c.i16 50 }) v
    exec (.netSetPort c) s = .next (done c s 0 (if c.u8 16 = 0 then w else wakeDomains [.ethernet c.unit] w))) ∧
  (∀ c s, Sent 0x1604 c s → c.unit < 4 → Alone c.unit c → (getRing c.ring s).master = .pf0 → c.u8 16 = 1 → ZeroBytes c.entry 17 18 →
    ZeroBytes c.entry 38 64 → portBound c.unit (taken c s) = false →
    let u := taken c s
    let a := draw u
    let b := draw a.2
    let kept := u.endpoint.ring ≠ 0 ∧ (getRing u.endpoint.ring u).master = .ethernet
    (kept → exec (.netSetControl c) s = .next (endpointOn (ctxOf c s) u.endpoint.ring u)) ∧
    (¬ kept → ∀ n, freeTriple a.1 b.2 = some n →
      exec (.netSetControl c) s =
        .next (endpointOn (ctxOf c s) n (endpointRings n (0x810000 + 0x7000 * (b.1 % 292)) b.2)))) ∧
  (∀ c s, Sent 0x1604 c s → c.unit < 4 → Alone c.unit c → (getRing c.ring s).master = .pf0 → c.u8 16 = 0 → ZeroBytes c.entry 17 18 →
    ZeroBytes c.entry 38 64 → portBound c.unit (taken c s) = false →
    let u := taken c s
    exec (.netSetControl c) s = .next (done c s 0
      (if u.endpoint.port = some c.unit then { u with endpoint := { u.endpoint with port := none } } else u))) ∧
  (∀ c s, Sent 0x1704 c s → c.unit = 0 → Alone 0 c → s.fuse.display = true → c.u64 16 % 4096 = 0 → ZeroBytes c.entry 24 64 →
    let u := taken c s
    planeHeld u = false →
    (c.u64 16 = 0 → exec (.dispAlloc c) s = .next (done c s 0 (modDisp (fun d => { d with pool := none }) u))) ∧
    (c.u64 16 ≠ 0 → dramSpace (modDisp (fun d => { d with pool := some (0, c.u64 16) }) (planned u)) ≤ hostDram u →
      let v := draw u
      let page := v.1 % ((hostDram u - c.u64 16) / 4096 + 1)
      exec (.dispAlloc c) s = .next (done c s page (modDisp (fun d => { d with pool := some (4096 * page, c.u64 16) }) v.2)))) ∧
  (∀ c s, Sent 0x1802 c s → Alone 0xFFFF c → badPeriod (c.u32 16) = false → badPeriod (c.u32 20) = false → ZeroBytes c.entry 26 64 →
    let u := taken c s
    exec (.healthSetRotation c) s = .next (done c s 0 { u with health := { u.health with
      pipDue := dtAdd u.dt (visitSpacing (c.u32 16) (pipsHealthy u)), curDue := dtAdd u.dt (visitSpacing (c.u32 20) (currantsHealthy u))
      pipPeriod := c.u32 16, curPeriod := c.u32 20, tempWarn := if c.i16 24 = 0 then 9500 else c.i16 24 } })) ∧
  (∀ c s, Sent 0x1803 c s → Alone 0xFFFF c → 1 ≤ c.u8 24 → c.u8 24 ≤ 68 → ZeroBytes c.entry 25 64 →
    let u := taken c s
    let rs := (u.health.faults ++ u.health.closedFaults).take (c.u8 24)
    exec (.healthReadFaults c) s = .next (done c s rs.length (toHost (c.u64 16) (rs.map faultBytes).flatten u))) ∧
  (∀ c s, Sent 0x1804 c s → Alone 0xFFFF c → c.u64 16 < 2 ^ 36 → c.u32 24 < 2 ^ 18 → ZeroBytes c.entry 28 64 →
    let u := taken c s
    u.health.admitted = false →
    let v := each ((List.range 36).filter fun n => bit (c.u64 16) n && pipPresent n u) (fun n => retirePip n 0) u
    let w := each ((List.range 18).filter fun n => bit (c.u32 24) n && currantPresent n v) (fun n => retireCurrant n 0) v
    exec (.healthSetRetired c) s = .next (done c s 0 w))

/-- The LC commands from PF0 with right fields do what Table 19-5 says: a transition that the state allows completes with OK and
is made where, if it needs one, a token authorises it, else it is DENIED, and the nonce is used up; RAISE_FLOOR raises the floor; CHALLENGE gives a nonce, a free value (R40,
R377 to R379; log 4). -/
def Obligations.LifeCycleCommands : Prop :=
  (∀ c s, Sent 0x1A01 c s → Alone 0xFFFF c → (getRing c.ring s).master = .pf0 → ZeroBytes c.entry 16 64 →
    s.stone.lifeCycle = .manufacture →
    exec (.lcSecure c) s = .next (lcMove .secured (done c s 0 (modStone (fun x => { x with idKey := .held }) (taken c s))))) ∧
  (∀ c s, Sent 0x1A03 c s → Alone 0xFFFF c → (getRing c.ring s).master = .pf0 → ZeroBytes c.entry 16 64 →
    s.stone.lifeCycle = .service →
    exec (.lcResume c) s = .next (lcMove .secured (done c s 0 (taken c s)))) ∧
  (∀ c s, Alone 0xFFFF c → (getRing c.ring s).master = .pf0 → ZeroBytes c.entry 24 64 →
    let u := taken c s
    let used := modStone (fun x => { x with nonce := none }) u
    let outcome := fun (target : LifeCycle) => Host.Outcome.next (if tokenGood (c.u64 16) (lcCode target) u = true then lcMove target (done c s 0 used)
      else fail (ctxOf c s).ref stDenied (lcCode s.stone.lifeCycle) used)
    (tokenWrong (c.u64 16) u = false →
      (Sent 0x1A02 c s → s.stone.lifeCycle = .secured → exec (.lcService c) s = outcome .service) ∧
      (Sent 0x1A04 c s → s.stone.lifeCycle = .service → exec (.lcReturn c) s = outcome .retirn) ∧
      (Sent 0x1A06 c s → (s.stone.lifeCycle = .secured ∨ s.stone.lifeCycle = .service) → exec (.lcRetire c) s = outcome .retired)) ∧
    (tokenWrong (c.u64 16) u = true →
      (Sent 0x1A02 c s → exec (.lcService c) s = .next (fail (ctxOf c s).ref stBadArg 16 u)) ∧
      (Sent 0x1A04 c s → exec (.lcReturn c) s = .next (fail (ctxOf c s).ref stBadArg 16 u))) ∧
    (Sent 0x1A06 c s → s.stone.lifeCycle = .retirn → exec (.lcRetire c) s = .next (lcMove .retired (done c s 0 u)))) ∧
  (∀ c s, Sent 0x1A05 c s → Alone 0xFFFF c → (getRing c.ring s).master = .pf0 → ZeroBytes c.entry 16 64 →
    let u := taken c s
    let floor := max u.fuse.floor (min 127 u.stone.runSec)
    exec (.lcRaiseFloor c) s = .next (done c s floor (rewriteCaps { u with fuse := { u.fuse with floor := floor } }))) ∧
  (∀ c s, Sent 0x1A07 c s → Alone 0xFFFF c → (getRing c.ring s).master = .pf0 → ZeroBytes c.entry 24 64 →
    let v := draw (taken c s)
    exec (.lcChallenge c) s = .next (done c s 0 (toHost (c.u64 16) (leBytes 8 (v.1 % 2 ^ 64))
      (modStone (fun x => { x with nonce := some (v.1 % 2 ^ 64) }) v.2))))

/-! ## Commands that configure -/

/-- RF.SET_RANGE, CAL.SET_RF, DDC.SET and DDC.SET_DETECT with right fields, to a channel or path that is there, configure it:
the range, the port calibration, the path and its detectors become what the entry says (Tables 5-3, 5-6, 6-5, 6-7). -/
def Obligations.FrontEndConfigures : Prop :=
  (∀ c s, Sent 0x0601 c s → c.unit < 4 → rfPresent c.unit s = true → c.u8 16 ≤ 31 → c.u8 17 ≤ 1 → c.u8 18 ≤ 1 →
    ZeroBytes c.entry 19 64 → rangeTooFar (ctxOf c s) (taken c s) = false →
    let pad := c.u8 17 == 1
    let moves := (rangePlan (ctxOf c s) s).pad != pad
    let weight := 2 + b2n moves + b2n (c.u8 18 == 1)
    Configures (.rfSetRange c) c s [member (ctxOf c s) 1 c.unit weight (.rfRange c.unit pad (c.u8 16) (c.u8 18 == 1) moves)] 0
      (rangeLand c.unit pad (c.u8 16) (c.u8 18 == 1) moves)) ∧
  (∀ c s, Sent 0x1901 c s → c.unit < 4 → rfPresent c.unit s = true → c.u16 18 ≤ 4096 → (1 < c.u16 18 → c.u64 40 ≠ 0) →
    ZeroBytes c.entry 48 64 →
    let table := readI16s s.host (c.u64 24) (c.u16 18)
    Configures (.calSetRf c) c s
      [member (ctxOf c s) 3 c.unit 1 (.calRf c.unit (c.i16 16) table (c.i32 20) (c.u64 32) (c.u64 40))] 0
      fun u => modRf c.unit (fun x => { x with
        userOff := c.i16 16, userTable := table, delayTk := c.i32 20, fStart := c.u64 32, fStep := c.u64 40
        delays := (u.dt, c.i32 20) :: if x.delays = [] then [(0, x.delayTk)] else x.delays.take 255 }) u) ∧
  (∀ c s, Sent 0x0701 c s → isPath c.unit = true → pathAbsent c.unit s = false → slotHeld c.unit s = false →
    c.u64 16 ≤ 2 ^ 47 → c.u64 24 < 2 ^ 48 → badDecim c.unit (c.u8 32) s = false → c.u8 33 ≤ 8 → c.u8 34 ≤ 1 →
    ZeroBytes c.entry 35 64 →
    Configures (.ddcSet c) c s
      [member (ctxOf c s) 2 c.unit 1 (.ddcSet c.unit (c.u64 16) (c.u64 24) (c.u8 32) (c.u8 33) (c.u8 34 == 1))] 0
      (ddcSetLand c.unit (c.u64 16) (c.u64 24) (c.u8 32) (c.u8 33) (c.u8 34 == 1))) ∧
  (∀ c s, Sent 0x0702 c s → isPath c.unit = true → pathAbsent c.unit s = false → c.u8 16 ≤ 20 → c.u8 17 ≤ 16 → c.u8 18 < 8 →
    ZeroBytes c.entry 19 20 → ZeroBytes c.entry 22 64 →
    (c.u16 20 = 0xFFFF ∨ (notDataRing (c.u16 20) s = false ∧
      65536 ≤ 2 ^ c.u8 16 * outPeriod c.unit (getDdc c.unit (planned (taken c s))).decim)) →
    Configures (.ddcSetDetect c) c s
      [member (ctxOf c s) 2 c.unit 1 (.ddcDetect c.unit (c.u8 16) (c.u8 17) (c.u8 18) (c.u16 20))] 0
      fun u => modDdc c.unit (fun d => { d with detQueue := [] })
        (modDdc c.unit (fun d => { d with log2Win := c.u8 16, alpha := c.u8 17, detEnable := c.u8 18, detRing := c.u16 20 }) u))

/-- PIP.ASSIGN (which sets N to 4,096, so a map, trace, mask or log that fits no longer refuses it, as log 84 chooses), SPEC.SET_FFT, SPEC.SET_WINDOW and SPEC.SET_TRACE with right fields, to a channel that is there, configure its
personality (R148, Tables 7-6 and 8-5); PIP.ASSIGN completes with the pips the personality needs, or 0 for a stop. -/
def Obligations.SpectralConfigures : Prop :=
  (∀ c s, Sent 0x0801 c s → c.unit < 4 → rfHealthy c.unit s = true → c.u8 16 = 1 → ZeroBytes c.entry 17 64 →
    startBreaks (ctxOf c s) (taken c s) (planned (taken c s)) = false →
    let w : Write := .pipStart c.unit
    Configures (.pipAssign c) c s [member (ctxOf c s) 3 c.unit 1 w] (pipsNeeded c.unit (applyAll [w] (planned (taken c s))))
      fun u => pipStartLand [w] c.unit (startDomains [w] u)) ∧
  (∀ c s, Sent 0x0801 c s → c.unit < 4 → rfPresent c.unit s = true → c.u8 16 = 0 → ZeroBytes c.entry 17 64 →
    Configures (.pipAssign c) c s [member (ctxOf c s) 3 c.unit 1 (.pipStop c.unit)] 0
      fun u => if (getSpec c.unit u).running then rfPersonalityStop c.unit u else u) ∧
  (∀ c s, Sent 0x0901 c s → c.unit < 4 → rfPresent c.unit s = true → 10 ≤ c.u8 16 → c.u8 16 ≤ 16 → c.u8 17 ≤ 3 →
    1 ≤ c.u32 20 → c.u32 20 ≤ 16777216 →
    (c.u32 24 = 0xFFFFFFFF ∨ (1 ≤ c.u32 28 ∧ c.u32 24 + c.u32 28 ≤ 2 ^ c.u8 16)) → ZeroBytes c.entry 34 64 →
    (c.u16 32 = 0xFFFF ∨ (notDataRing (c.u16 32) s = false ∧ 64 ≤ (getRing (c.u16 32) s).entrySize)) →
    ((getSpec c.unit (planned (taken c s))).fft.log2N = c.u8 16 ∨
      brokenByN c.unit (2 ^ c.u8 16) (bunchPeers (ctxOf c s) (taken c s)) (planned (taken c s)) = false) →
    let cfg : FftCfg := { log2N := c.u8 16, overlap := c.u8 17, exclude := c.u16 18, avg := c.u32 20
                          bins := (if c.u32 24 = 0xFFFFFFFF then none else some (c.u32 24)).map fun f => (f, c.u32 28)
                          ring := c.u16 32 }
    Configures (.specSetFft c) c s [member (ctxOf c s) 3 c.unit 1 (.specFft c.unit cfg)] 0 fun u => fftLand c.unit cfg u.dt u) ∧
  (∀ c s, Sent 0x0902 c s → c.unit < 4 → rfPresent c.unit s = true → c.u8 16 ≤ 4 → ZeroBytes c.entry 17 64 →
    Configures (.specSetWindow c) c s [member (ctxOf c s) 3 c.unit 1 (.specWindow c.unit (c.u8 16))] 0
      fun u => windowLand c.unit (c.u8 16) u.dt u) ∧
  (∀ c s, Sent 0x0903 c s → c.unit < 4 → rfPresent c.unit s = true → c.u8 16 ≤ 3 → c.u8 17 ≤ 7 → 1 ≤ c.u8 18 → c.u8 18 ≤ 64 →
    c.u8 19 ≤ 1 → (c.u8 19 = 1 → c.u8 17 ≤ 2) → 1 ≤ c.u16 24 → c.u16 24 ≤ 8192 → 1 ≤ c.u32 28 → c.u32 28 ≤ 16777216 →
    ZeroBytes c.entry 34 64 → badRing (c.u16 32) s = false →
    binsFit (frameLen (getSpec c.unit (planned (taken c s))).fft) (optBin (ctxOf c s) 20) (c.u16 24 * c.u8 18) = true →
    limitStale (ctxOf c s) (taken c s) (planned (taken c s)) = false →
    let cfg : TraceCfg := { detector := c.u8 17, bpp := c.u8 18, hold := c.u8 19 == 1, firstBin := optBin (ctxOf c s) 20
                            points := c.u16 24, exclude := c.u16 26, interval := c.u32 28, ring := c.u16 32 }
    Configures (.specSetTrace c) c s [member (ctxOf c s) 5 c.unit 1 (.specTrace c.unit (c.u8 16) cfg)] 0 fun u =>
      modSpec c.unit (fun x => { x with traces := tput {} x.traces (c.u8 16) { cfg := cfg, start := blockStart x.frame cfg.interval } })
        (traceEnd c.unit (c.u8 16) u))

/-- BLOOM.SET sets a map of a channel that is there, or releases it; BLOOM.CLEAR clears a map that is set; BLOOM.READ with
READ_CLEAR = 1 writes its snapshot and clears it, with the snapshot's length as RESULT (Table 8-2, R150, R162, R164). -/
def Obligations.BloomConfigures : Prop :=
  (∀ c s, Sent 0x0A01 c s → c.unit < 4 → c.u8 16 < 4 → rfPresent (c.u8 16) s = true → 1 ≤ c.u8 17 → c.u8 17 ≤ 64 →
    1 ≤ c.u16 18 → c.u16 18 ≤ 8192 → 1 ≤ c.u16 20 → c.u16 20 ≤ 4096 → 1 ≤ c.u16 24 → c.u16 24 ≤ 256 → c.u32 32 ≤ 16777215 →
    (c.u32 32 = 0 ∨ c.u16 36 ≠ 0) → c.u8 38 < 2 → ZeroBytes c.entry 39 40 → ZeroBytes c.entry 42 44 → ZeroBytes c.entry 48 64 →
    badRing (c.u16 40) s = false →
    binsFit (frameLen (getSpec (c.u8 16) (planned (taken c s))).fft) (optBin (ctxOf c s) 28) (c.u16 18 * c.u8 17) = true →
    let cfg : BloomCfg := { personality := c.u8 16, bpc := c.u8 17, columns := c.u16 18, rows := c.u16 20, rowTop := c.i16 22
                            rowStep := c.u16 24, exclude := c.u16 26, firstBin := optBin (ctxOf c s) 28, decayK := c.u32 32
                            gain := c.u16 36, keepOnChange := bit (c.u8 38) 0, snapRing := c.u16 40, snapSpectra := c.u32 44 }
    mapBlocks cfg + blocksPlanned c.unit (taken c s) (planned (taken c s)) ≤ 512 →
    Configures (.bloomSet c) c s [member (ctxOf c s) 4 c.unit 1 (.bloomSet c.unit cfg)] 0 fun u => bloomLand c.unit cfg u.dt u) ∧
  (∀ c s, Sent 0x0A01 c s → c.unit < 4 → c.u8 16 = 0xFF → ZeroBytes c.entry 39 40 → ZeroBytes c.entry 42 44 →
    ZeroBytes c.entry 48 64 →
    Configures (.bloomSet c) c s [member (ctxOf c s) 4 c.unit 1 (.bloomRelease c.unit)] 0 (modBloom c.unit fun _ => {})) ∧
  (∀ c s, Sent 0x0A02 c s → c.unit < 4 → (getBloom c.unit (planned (taken c s))).set = true → ZeroBytes c.entry 16 64 →
    Configures (.bloomClear c) c s [member (ctxOf c s) 4 c.unit 1 (.bloomClear c.unit)] 0
      fun u => modBloom c.unit clearMap (mapBoundary c.unit true u)) ∧
  (∀ c s, Sent 0x0A03 c s → c.unit < 4 → (getBloom c.unit (planned (taken c s))).set = true → c.u8 24 = 1 →
    ZeroBytes c.entry 25 64 →
    let w : Write := .bloomReadClear c.unit (c.u64 16)
    Configures (.bloomRead c) c s [member (ctxOf c s) 4 c.unit 1 w]
      (snapshotLen (getBloom c.unit (applyAll [w] (planned (taken c s)))).cfg) (bloomReadClearLand c.unit (c.u64 16))) ∧
  (∀ c s, Sent 0x0A03 c s → Alone c.unit c → c.unit < 4 → (getBloom c.unit s).set = true → c.u8 24 = 0 → ZeroBytes c.entry 25 64 →
    let u := modBloom c.unit settleDecay (taken c s)
    exec (.bloomRead c) s = .next (done c s (snapshotLen (getBloom c.unit s).cfg)
      (toHost (c.u64 16) (snapshotBytes c.unit false u) u)))

/-- The TRIG commands with right fields, to a personality that is there, configure its masks, detector condition, sequencer,
limit test and change log, and the line log (Tables 9-4 to 9-7, R169 to R183, R194, R195). -/
def Obligations.TriggerConfigures : Prop :=
  (∀ c s, Sent 0x0B01 c s → c.unit < 4 → rfPresent c.unit s = true → c.u8 16 ≤ 3 → c.u8 17 ≤ 1 → 1 ≤ c.u8 18 → c.u8 18 ≤ 64 →
    c.u8 19 ≤ 1 → c.u16 24 ≤ 8192 → c.u16 26 ≤ c.u16 24 → 1 ≤ c.u16 26 → c.u16 28 ≤ 2047 → 1 ≤ c.u16 30 →
    ZeroBytes c.entry 34 40 → ZeroBytes c.entry 48 64 →
    binsFit (frameLen (getSpec c.unit (planned (taken c s))).fft) (optBin (ctxOf c s) 20) (c.u16 24 * c.u8 18) = true →
    let cfg : MaskCfg := { below := c.u8 17 == 1, bpp := c.u8 18, enable := c.u8 19 == 1, firstBin := optBin (ctxOf c s) 20
                           points := c.u16 24, minPoints := c.u16 26, hyst := c.u16 28, minSpectra := c.u16 30
                           ignore := c.u16 32, levels := readI16s s.host (c.u64 40) (c.u16 24) }
    Configures (.trigSetMask c) c s [member (ctxOf c s) 6 c.unit 1 (.trigMask c.unit (c.u8 16) cfg)] 0
      (modTrig c.unit fun u => { u with masks := tput none u.masks (c.u8 16) (some (freshMask cfg)) })) ∧
  (∀ c s, Sent 0x0B02 c s → c.unit < 6 → persAbsent c.unit s = false → c.u8 16 ≤ 2 → c.u8 17 ≤ 1 → c.u8 18 ≤ 1 →
    ownPath c.unit (c.u16 20) = true → c.u16 24 ≤ 2047 → 1 ≤ c.u16 26 → ZeroBytes c.entry 28 64 →
    let cfg : TdCfg := { detector := c.u8 16, below := c.u8 17 == 1, enable := c.u8 18 == 1, ignore := c.u8 19, path := c.u16 20
                         level := c.i16 22, hyst := c.u16 24, minWindows := c.u16 26 }
    Configures (.trigSetTd c) c s [member (ctxOf c s) 6 c.unit 1 (.trigTd c.unit cfg)] 0
      (modTrig c.unit fun u => { u with td := some (freshTd cfg) })) ∧
  (∀ c s, Sent 0x0B03 c s → c.unit < 6 → persAbsent c.unit s = false → c.u8 16 ≤ 8 → c.u8 17 ≤ 1 → c.u8 18 ≤ 1 →
    (∀ i, i < 8 → badSource (c.u16 (32 + 2 * i)) = false) → (∀ i, i < c.u8 16 → badStep s.host (c.u64 48 + 32 * i) = false) →
    ZeroBytes c.entry 19 24 → ZeroBytes c.entry 56 64 →
    let cfg : SeqCfg := { steps := (List.range (c.u8 16)).map fun i => stepAt s.host (c.u64 48 + 32 * i)
                          continuous := c.u8 17 == 1, arm := c.u8 18 == 1, holdoff := c.u64 24
                          inputs := (List.range 8).map fun i => c.u16 (32 + 2 * i) }
    Configures (.trigSetSeq c) c s [member (ctxOf c s) 6 c.unit 1 (.trigSeq c.unit cfg)] 0 (seqLand c.unit cfg)) ∧
  (∀ c s, Sent 0x0B04 c s → c.unit < 4 → rfPresent c.unit s = true → c.u8 16 ≤ 3 → c.u8 17 ≤ 1 → c.u8 18 ≤ 1 →
    ZeroBytes c.entry 19 20 → ZeroBytes c.entry 40 64 →
    let cfg : LimitCfg := { trace := c.u8 16, stop := c.u8 17 == 1, enable := c.u8 18 == 1, stopCaps := c.u16 20, ignore := c.u16 22
                            upper := readI16s s.host (c.u64 24) 8192, lower := readI16s s.host (c.u64 32) 8192 }
    Configures (.trigSetLimit c) c s [member (ctxOf c s) 6 c.unit 1 (.trigLimit c.unit cfg)] 0
      (modTrig c.unit fun u => { u with limit := some cfg })) ∧
  (∀ c s, Sent 0x0B05 c s → c.unit < 4 → rfPresent c.unit s = true → ZeroBytes c.entry 16 64 →
    Configures (.trigLimitResume c) c s [member (ctxOf c s) 6 c.unit 1 (.limitResume c.unit)] 0
      (limitResumeLand c.unit)) ∧
  (∀ c s, Sent 0x0B06 c s → c.unit < 4 → rfPresent c.unit s = true → c.u8 16 ≤ 1 → 1 ≤ c.u8 17 → c.u8 17 ≤ 64 →
    c.u16 18 ≤ 32767 → 1 ≤ c.u16 24 → c.u16 24 ≤ 8192 → ZeroBytes c.entry 34 36 → ZeroBytes c.entry 44 64 →
    binsFit (frameLen (getSpec c.unit (planned (taken c s))).fft) (optBin (ctxOf c s) 20) (c.u16 24 * c.u8 17) = true →
    notDataRing (c.u16 32) s = false →
    let cfg : ChangeLogCfg := { enable := c.u8 16 == 1, bpp := c.u8 17, thresh := c.u16 18, firstBin := optBin (ctxOf c s) 20
                                points := c.u16 24, ignore := c.u16 26, keyframe := c.u32 28, ring := c.u16 32
                                maxRate := c.u64 36 }
    Configures (.trigSetLog c) c s [member (ctxOf c s) 6 c.unit 1 (.trigLog c.unit cfg)] 0
      (modTrig c.unit fun u => { u with log := some (freshLog cfg) })) ∧
  (∀ c s, Sent 0x0B07 c s → c.unit = 0xFFFF → badRing (c.u16 28) s = false → c.u8 30 < 16 → ZeroBytes c.entry 31 64 →
    let cfg : LineLogCfg := { lines := c.u64 16, minGap := c.u32 24, ring := c.u16 28, fallingEdges := c.u8 30 }
    Configures (.trigSetLineLog c) c s [member (ctxOf c s) 6 0xFF 1 (.lineLog cfg)] 0
      fun u => { u with lineLog := { u.lineLog with cfg := cfg } })

/-- CAP.SET, CAP.ARM and CAP.FORCE with right fields configure a capture of a source that is there (Table 9-8, R185 to
R188). -/
def Obligations.CaptureConfigures : Prop :=
  (∀ c s, Sent 0x0C01 c s → c.unit < 16 → c.u8 16 ≤ 2 → isPath (c.u16 20) = true → badCapSource (c.u8 16) (c.u16 20) = false →
    (if c.u8 16 = 0 then pathAbsent (c.u16 20) s else !rfPresent (c.u16 20) s) = false →
    c.u8 17 ≤ 2 → (c.u8 18 ≤ 5 ∨ c.u8 18 = 0xFF) → 1 ≤ c.u8 19 → 0 < c.u64 24 → c.u64 24 % (c.u8 19 * 65536) = 0 →
    1 ≤ c.u64 40 → badRing (c.u16 22) s = false → ZeroBytes c.entry 52 64 →
    preTooLong (ctxOf c s) (planned (taken c s)) = false →
    let cfg : CapCfg := { kind := c.u8 16, mode := c.u8 17, trigUnit := c.u8 18, segments := c.u8 19, source := c.u16 20
                          spillRing := c.u16 22, bufSize := c.u64 24, pre := c.u64 32, post := c.u64 40, indexSize := c.u32 48 }
    Configures (.capSet c) c s [member (ctxOf c s) 7 c.unit 1 (.capSet c.unit cfg)] 0 (capSetLand c.unit cfg)) ∧
  (∀ c s, Sent 0x0C02 c s → c.unit < 16 → (getCap c.unit (planned (taken c s))).isSet = true → c.u8 16 ≤ 1 →
    ZeroBytes c.entry 17 64 →
    Configures (.capArm c) c s [member (ctxOf c s) 7 c.unit 1 (.capArm c.unit (c.u8 16 == 1))] 0
      (capArmLand c.unit (c.u8 16 == 1))) ∧
  (∀ c s, Sent 0x0C03 c s → c.unit < 16 → (getCap c.unit (planned (taken c s))).isSet = true → ZeroBytes c.entry 16 64 →
    Configures (.capForce c) c s [member (ctxOf c s) 7 c.unit 1 (.capForce c.unit)] 0
      fun u => capTrigger c.unit u.dt 0xFF capForced u)

/-- The GEN commands and CAL.SET_GEN with right fields, to a DAC that is there, configure its generator (Tables 10-1 to 10-5,
R199 to R215). -/
def Obligations.GeneratorConfigures : Prop :=
  (∀ c s, Sent 0x0D01 c s → c.unit < 2 → dacPresent c.unit s = true → c.u16 16 ≤ 4095 → c.u8 18 ≤ 1 → (c.u8 18 = 0 → c.u8 19 = 0) →
    c.u8 19 ≤ 8 → 16 ≤ c.u32 20 → c.u32 20 ≤ 16777215 → badCode (c.i16 24) = false → c.u8 26 ≤ 1 → c.u64 32 % 64 = 0 →
    ZeroBytes c.entry 27 32 → ZeroBytes c.entry 40 64 →
    let cfg : SegCfg := { carrier := c.u8 18 == 1, lanes := c.u8 19, length := c.u32 20, idle := c.i16 24
                          resident := c.u8 26 == 1, addr := c.u64 32 }
    let w : Write := .genSegment c.unit (c.u16 16) cfg
    c.u64 32 + c.u32 20 * granuleBytes cfg ≤ hostDram s →
    residencyHolds (genAfter c.unit w (planned (taken c s))) = true →
    bufferBusy (getGen c.unit s) (genAfter c.unit w (planned (taken c s))) = false →
    Configures (.genSegment c) c s [member (ctxOf c s) 8 c.unit 1 w] 0
      fun u => modGen c.unit (fun g => { g with
        segments := tput none g.segments (c.u16 16) (some cfg), held := tput [] g.held (c.u16 16) (heldCells u.dram cfg) }) u) ∧
  (∀ c s, Sent 0x0D02 c s → c.unit < 2 → dacPresent c.unit s = true → 1 ≤ c.u16 16 → c.u16 16 ≤ 4096 → c.u16 18 < c.u16 16 →
    ZeroBytes c.entry 20 24 → ZeroBytes c.entry 32 64 →
    let table := (List.range (c.u16 16)).map fun i => seqEntryAt s.host (c.u64 24 + 32 * i)
    let w : Write := .genLoad c.unit table (c.u16 18)
    (∀ e ∈ table.zipIdx, badSeqEntry (getGen c.unit (planned (taken c s))).segments (c.u16 16) e.2
      (readLe s.host (c.u64 24 + 32 * e.2 + 18) 14 == 0) e.1 = false) →
    residencyHolds (genAfter c.unit w (planned (taken c s))) = true →
    bufferBusy (getGen c.unit s) (genAfter c.unit w (planned (taken c s))) = false →
    Configures (.genLoad c) c s [member (ctxOf c s) 8 c.unit 1 w] 0 (genLoadLand c.unit table (c.u16 18))) ∧
  (∀ c s, Sent 0x0D03 c s → c.unit < 2 → dacHealthy c.unit s = true → c.u8 16 = 1 → c.u16 18 ≤ 4095 →
    c.u16 18 < (getGen c.unit (planned (taken c s))).table.length → ZeroBytes c.entry 17 18 → ZeroBytes c.entry 20 64 →
    let w : Write := .genStart c.unit (c.u16 18)
    Configures (.genStart c) c s [member (ctxOf c s) 8 c.unit 1 w] 0
      fun u => withEpoch c.unit (genStartLand c.unit (c.u16 18)) (startDomains [w] u)) ∧
  (∀ c s, Sent 0x0D03 c s → c.unit < 2 → dacPresent c.unit s = true → c.u8 16 = 0 → c.u16 18 ≤ 4095 →
    ZeroBytes c.entry 17 18 → ZeroBytes c.entry 20 64 →
    Configures (.genStart c) c s [member (ctxOf c s) 8 c.unit 1 (.genStop c.unit)] 0 (genStopLand c.unit)) ∧
  (∀ c s, Sent 0x0D04 c s → c.unit < 2 → dacPresent c.unit s = true → c.u8 16 ≤ 7 → c.u64 24 ≤ 2 ^ 46 → c.u64 32 < 2 ^ 48 →
    badCode (c.i16 40) = false → laneHeld c.unit (c.u8 16) (planned (taken c s)) = false → ZeroBytes c.entry 17 24 →
    ZeroBytes c.entry 42 64 →
    Configures (.genCarrier c) c s
      [member (ctxOf c s) 8 c.unit 1 (.genCarrier c.unit (c.u8 16) (c.u64 24) (c.u64 32) (c.i16 40))] 0
      (modGen c.unit fun x => { x with carriers := tput (0, 0) x.carriers (c.u8 16) (c.u64 24, c.u64 32), bias := c.i16 40 })) ∧
  (∀ c s, Sent 0x1902 c s → c.unit < 2 → dacPresent c.unit s = true → -65536 ≤ c.i32 16 → c.i32 16 ≤ 65536 → ZeroBytes c.entry 20 64 →
    Configures (.calSetGen c) c s [member (ctxOf c s) 8 c.unit 1 (.calGen c.unit (c.i32 16))] 0
      (modGen c.unit fun g => { g with delayTk := c.i32 16 }))

/-- LASER.SET_MODCAL, LASER.SET_CAPS and LASER.ARM with right fields, to a DAC that is there, configure its governor (Table
11-7, R234 to R236). -/
def Obligations.LaserConfigures : Prop :=
  (∀ c s, Sent 0x0E01 c s → c.unit < 2 → dacPresent c.unit s = true → ZeroBytes c.entry 20 24 → ZeroBytes c.entry 32 64 →
    let table := readU16s s.host (c.u64 24) 257
    Configures (.laserSetModcal c) c s [member (ctxOf c s) 9 c.unit 1 (.laserModcal c.unit (c.u32 16) table)] 0
      (modGov c.unit fun g => { g with modcal := some (c.u32 16, table) })) ∧
  (∀ c s, Sent 0x0E02 c s → c.unit < 2 → dacPresent c.unit s = true → 2048 ≤ c.u64 24 → c.u64 24 ≤ 20480000 →
    20480000 ≤ c.u64 40 → c.u64 40 ≤ 20480000000 → ZeroBytes c.entry 36 40 → ZeroBytes c.entry 48 64 →
    let cfg : LaserCaps := { peak := c.u32 16, pulse := c.u32 20, pulseWindow := c.u64 24, avg := c.u32 32, avgWindow := c.u64 40 }
    Configures (.laserSetCaps c) c s [member (ctxOf c s) 9 c.unit 1 (.laserCaps c.unit cfg)] 0
      (modGov c.unit fun g => { g with caps := some cfg })) ∧
  (∀ c s, Sent 0x0E03 c s → c.unit < 2 → dacPresent c.unit s = true → c.u8 16 ≤ 1 → ZeroBytes c.entry 17 64 →
    Configures (.laserArm c) c s [member (ctxOf c s) 9 c.unit 1 (.laserArm c.unit (c.u8 16 == 1))] 0
      (laserArmLand c.unit (c.u8 16 == 1)))

/-- DAS.START, DAS.SET_SLOT, DAS.SET_GRID, DAS.SET_PMASK, CAL.SET_FIBRE and CUR.SET_BAND with right fields, to a fibre whose
receivers are there, configure it (Tables 11-7, 11-8 and 13-2, R216 to R233, R270). -/
def Obligations.DasConfigures : Prop :=
  (∀ c s, Sent 0x0F01 c s → c.unit < 2 → c.u8 16 = 1 → 1 ≤ c.u8 17 → c.u8 17 ≤ 2 → (∀ k, k < c.u8 17 → orxHealthy (2 * c.unit + k) s = true) →
    dacHealthy c.unit s = true → ZeroBytes c.entry 18 64 →
    let w : Write := .dasStart c.unit (c.u8 17)
    Configures (.dasStart c) c s [member (ctxOf c s) 0xA c.unit 1 w] 0 fun u => dasLand c.unit (c.u8 17) (startDomains [w] u)) ∧
  (∀ c s, Sent 0x0F01 c s → c.unit < 2 → c.u8 16 = 0 → 1 ≤ c.u8 17 → c.u8 17 ≤ 2 → (∀ k, k < c.u8 17 → orxPresent (2 * c.unit + k) s = true) →
    ZeroBytes c.entry 18 64 →
    Configures (.dasStart c) c s [member (ctxOf c s) 0xA c.unit 1 (.dasStop c.unit)] 0
      fun u => if dasRuns c.unit u then fibreStop c.unit u else u) ∧
  (∀ c s, Sent 0x0F02 c s → c.unit < 2 → fibrePresent c.unit s = true → c.u8 16 ≤ 7 → c.u8 17 ≤ 1 → c.u8 18 ≤ 1 → c.u8 19 ≤ 1 →
    badSlotCode (slotOf (ctxOf c s)) = false → ZeroBytes c.entry 23 24 → ZeroBytes c.entry 36 64 →
    let plan := getFibre c.unit (planned (taken c s))
    let k := c.u8 16
    let cfg : SlotCfg := { enable := c.u8 17 == 1, golay := c.u8 18 == 1, taper := c.u8 19 == 1, length := c.u16 20, chip := c.u8 22
                           bandwidth := c.u32 24, entryA := c.u16 28, entryB := c.u16 30, offset := c.u32 32 }
    (plan.grid.combine = false ∨ entriesDiffer { plan with slots := tput {} plan.slots k cfg } = false) →
    let on := (c.u8 17 == 1) && plan.das
    let ms := member (ctxOf c s) 0xA c.unit 1 (.dasSlot c.unit k cfg) ::
      member (ctxOf c s) 8 c.unit 1 (.slotCarrier c.unit k (slotWord k)) ::
      (slotPaths c.unit k s).zipIdx.map fun p =>
        member (ctxOf c s) 2 p.1 (if p.2 = 0 then 1 else 0) (.slotPath p.1 (4 * slotWord k) on)
    Configures (.dasSetSlot c) c s ms 0 fun u =>
      each (slotPaths c.unit k s) (fun path v => ddcLand path (4 * slotWord k) 0 0 (getDdc path v).outShift on v)
        (modGen c.unit (fun g => { g with carriers := tput (0, 0) g.carriers k (slotWord k, 0) })
          (dasChanged c.unit (fun x => { x with slots := tput {} x.slots k cfg }) u))) ∧
  (∀ c s, Sent 0x0F03 c s → c.unit < 2 → fibrePresent c.unit s = true → 1 ≤ c.u32 20 → c.u32 20 ≤ 262144 → 1 ≤ c.u16 24 →
    c.u16 24 ≤ 64 → 1 ≤ c.u16 26 → c.u16 26 ≤ 1024 → c.u8 28 ≤ 1 → c.u8 29 ≤ 1 →
    (c.u32 36 = 0 ∨ (64 ≤ c.u32 36 ∧ c.u32 36 ≤ 65536)) → notDataRing (c.u16 30) s = false → ZeroBytes c.entry 40 64 →
    (c.u8 29 = 0 ∨ entriesDiffer (getFibre c.unit (planned (taken c s))) = false) →
    let cfg : GridCfg := { firstCell := c.u32 16, positions := c.u32 20, step := c.u16 24, gauge := c.u16 26, kind := c.u8 28
                           combine := c.u8 29 == 1, ring := c.u16 30, noiseFirst := c.u32 32, noiseCount := c.u32 36 }
    lastCell cfg ≤ 1048575 →
    Configures (.dasSetGrid c) c s [member (ctxOf c s) 0xA c.unit 1 (.dasGrid c.unit cfg)] 0
      (dasChanged c.unit fun x => bandReset { x with grid := cfg })) ∧
  (∀ c s, Sent 0x0F04 c s → c.unit < 2 → fibrePresent c.unit s = true → c.u8 16 ≤ 1 → 1 ≤ c.u8 17 → c.u8 17 ≤ 64 → c.u16 18 ≤ 32767 →
    1 ≤ c.u16 24 → c.u16 24 ≤ 8192 → 1 ≤ c.u16 26 → c.u8 28 < 32 → ZeroBytes c.entry 29 32 → ZeroBytes c.entry 40 64 →
    c.u32 20 + c.u16 24 * c.u8 17 ≤ (getFibre c.unit (planned (taken c s))).grid.positions →
    let cfg : PmaskCfg := { enable := c.u8 16 == 1, bpp := c.u8 17, hyst := c.u16 18, firstPos := c.u32 20, points := c.u16 24
                            minTraces := c.u16 26, ignore := c.u8 28, levels := readI16s s.host (c.u64 32) (c.u16 24) }
    Configures (.dasSetPmask c) c s [member (ctxOf c s) 0xA c.unit 1 (.dasPmask c.unit cfg)] 0
      (modFibre c.unit fun x => { x with pmask := cfg, pmaskViolated := [], pmaskRun := 0, pmaskFired := false })) ∧
  (∀ c s, Sent 0x1903 c s → c.unit < 2 → fibrePresent c.unit s = true → 1400000 ≤ c.u32 16 → c.u32 16 ≤ 1600000 →
    c.u32 20 ≤ 4194304 → (c.u16 28 = 0 ∨ (8 ≤ c.u16 28 ∧ c.u16 28 ≤ 4096)) → (c.u8 30 ≤ 63 ∨ c.u8 30 = 0xFF) → c.u8 31 ≤ 1 →
    ZeroBytes c.entry 52 64 →
    let cfg : FibreCal := { nG := c.u32 16, dFix := c.u32 20, coilFirst := c.u32 24, coilCells := c.u16 28, rtdEntry := c.u8 30
                            rtdType := c.u8 31, refOhm := c.u32 32, gamma := c.u32 36, dalpha := c.i32 40, tFixed := c.u32 44
                            maxAge := c.u32 48 }
    let w : Write := .calFibre c.unit cfg
    let ms := if dtsRuns c.unit s then [member (ctxOf c s) 0xA c.unit 1 .claimOnly, member (ctxOf c s) 0xB c.unit 1 w]
      else [member (ctxOf c s) 0xA c.unit 1 w, member (ctxOf c s) 0xB c.unit 1 .claimOnly]
    Configures (.calSetFibre c) c s ms 0 fun u =>
      let old := (getFibre c.unit u).cal
      let coil := old.coilFirst != cfg.coilFirst || old.coilCells != cfg.coilCells
      modFibre c.unit (fun x => { x with cal := cfg, restart := x.restart || (x.dts && coil) }) u) ∧
  (∀ c s, Sent 0x1302 c s → c.unit < 2 → fibrePresent c.unit s = true → c.u8 16 ≤ 1 → c.u8 17 ≤ 12 →
    (∀ i, i < 5 → badCoef (c.i32 (24 + 4 * i)) = false) → notDataRing (c.u16 20) s = false → ZeroBytes c.entry 22 24 →
    ZeroBytes c.entry 44 64 →
    let cfg : BandCfg := { enable := c.u8 16 == 1, log2Win := c.u8 17, thresh := c.i16 18, ring := c.u16 20
                           coef := (List.range 5).map fun i => c.i32 (24 + 4 * i) }
    Configures (.curSetBand c) c s [member (ctxOf c s) 0xA c.unit 1 (.curBand c.unit cfg)] 0
      (modFibre c.unit fun x => bandReset { x with band := cfg }))

/-- DTS.START, DTS.SET, SLOW.SET_SCAN, SLOW.START and EXC.SET with right fields, to receivers that are there, configure their
block (Tables 12-4 and 12-7, R237 to R257). -/
def Obligations.SensingConfigures : Prop :=
  (∀ c s, Sent 0x1001 c s → c.unit < 2 → c.u8 16 = 1 → orxHealthy (2 * c.unit) s = true → orxHealthy (2 * c.unit + 1) s = true →
    dacHealthy c.unit s = true → ZeroBytes c.entry 17 64 →
    Configures (.dtsStart c) c s [member (ctxOf c s) 0xB c.unit 1 (.dtsStart c.unit)] 0
      fun u => dtsLand c.unit (startDomains [.dtsStart c.unit] u)) ∧
  (∀ c s, Sent 0x1001 c s → c.unit < 2 → c.u8 16 = 0 → orxPresent (2 * c.unit) s = true → orxPresent (2 * c.unit + 1) s = true →
    ZeroBytes c.entry 17 64 →
    Configures (.dtsStart c) c s [member (ctxOf c s) 0xB c.unit 1 (.dtsStop c.unit)] 0
      fun u => if dtsRuns c.unit u then fibreStop c.unit u else u) ∧
  (∀ c s, Sent 0x1002 c s → c.unit < 2 → fibrePresent c.unit s = true → 1 ≤ c.u16 18 → c.u16 18 ≤ 64 → 1 ≤ c.u32 28 →
    c.u32 28 ≤ 262144 → 1 ≤ c.u16 32 → c.u16 32 ≤ 4096 → c.u8 34 < 4 → notDataRing (c.u16 36) s = false → ZeroBytes c.entry 35 36 →
    ZeroBytes c.entry 38 64 →
    let cfg : DtsCfg := { entry := c.u16 16, step := c.u16 18, offset := c.u32 20, firstCell := c.u32 24, positions := c.u32 28
                          parts := c.u16 32, content := c.u8 34, ring := c.u16 36 }
    Configures (.dtsSet c) c s [member (ctxOf c s) 0xB c.unit 1 (.dtsSet c.unit cfg)] 0 fun u =>
      let old := (getFibre c.unit u).dtsCfg
      let grid := old.firstCell != cfg.firstCell || old.positions != cfg.positions || old.step != cfg.step
      modFibre c.unit (fun x => { x with dtsCfg := cfg, restart := x.restart || grid }) u) ∧
  (∀ c s, Sent 0x1101 c s → c.unit = 0 → 1 ≤ c.u8 16 → c.u8 16 ≤ 64 → (c.u8 17 = 50 ∨ c.u8 17 = 60) →
    notDataRing (c.u16 18) s = false → (getRing (c.u16 18) s).entrySize = 64 → ZeroBytes c.entry 20 24 → ZeroBytes c.entry 32 64 →
    (∀ i, i < c.u8 16 → ∀ k ∈ scanChecks (readLe s.host (c.u64 24 + 16 * i) 16), k.2 = false) →
    let entries := (List.range (c.u8 16)).map fun i => scanEntryOf (readLe s.host (c.u64 24 + 16 * i) 16)
    Configures (.slowSetScan c) c s [member (ctxOf c s) 0xC 0 1 (.slowScan entries (c.u8 17) (c.u16 18))] 0
      (scanLand entries (c.u8 17) (c.u16 18))) ∧
  (∀ c s, Sent 0x1102 c s → c.unit = 0 → c.u8 16 = 1 → (planned (taken c s)).slow.table ≠ [] → ZeroBytes c.entry 17 64 →
    Configures (.slowStart c) c s [member (ctxOf c s) 0xC 0 1 .slowStart] 0 scanStartLand) ∧
  (∀ c s, Sent 0x1102 c s → c.unit = 0 → c.u8 16 = 0 → ZeroBytes c.entry 17 64 →
    Configures (.slowStart c) c s [member (ctxOf c s) 0xC 0 1 .slowStop] 0 scanStopLand) ∧
  (∀ c s, Sent 0x1201 c s → c.unit < 4 → c.u8 16 ≤ 1 → c.u16 18 ≤ 3600 → 1 ≤ c.u32 20 → c.u32 20 ≤ 20000 → ZeroBytes c.entry 17 18 →
    ZeroBytes c.entry 24 64 →
    let cfg : ExcCfg := { enable := c.u8 16 == 1, impPeriod := c.u16 18, cMax := c.u32 20 }
    Configures (.excSet c) c s [member (ctxOf c s) 0xD c.unit 1 (.excSet c.unit cfg)] 0
      fun u => modExc c.unit (fun x => { x with
        cfg := cfg, broken := x.broken && cfg.enable
        nextCheck := if cfg.enable && (!x.cfg.enable || x.cfg.impPeriod != cfg.impPeriod) then dtAdd u.dt (cfg.impPeriod * tkS)
          else x.nextCheck }) u)

/-- NET.SET_STREAM and NET.SET_VDIF with right fields, for a data ring, configure it (Table 16-5, R321 to R325). -/
def Obligations.StreamConfigures : Prop :=
  (∀ c s, Sent 0x1602 c s → notDataRing c.unit s = false → (getRing c.unit s).consChannel = none → c.u8 16 ≤ 3 → c.u8 17 ≤ 1 →
    c.u8 18 ≤ 1 → c.u8 19 < 64 → (c.u16 20 = 0xFFFF ∨ bit (c.u8 21) 4 = false) → ZeroBytes c.entry 48 64 →
    let cfg : StreamCfg := { port := c.u8 16, vdif := c.u8 17 == 1, ipv6 := c.u8 18 == 1, dscp := c.u8 19, vlan := c.u16 20
                             dstUdp := c.u16 22, dstMac := fld c.entry 24 6, srcUdp := c.u16 30, dstIp := fld c.entry 32 16 }
    frameBytes (getRing c.unit (planned (taken c s))) cfg ≤ 9216 →
    let w : Write := .netStream c.unit (some cfg)
    Configures (.netSetStream c) c s [member (ctxOf c s) 0xF c.unit 1 w] 0 fun u =>
      let v := startDomains [w] u
      modRing c.unit (fun r => { r with stream := some cfg, streamSeq := 0, published := List.replicate (ringHeld r) v.dt }) v) ∧
  (∀ c s, Sent 0x1602 c s → notDataRing c.unit s = false → c.u8 16 = 0xFF → c.u8 17 ≤ 1 →
    c.u8 18 ≤ 1 → c.u8 19 < 64 → (c.u16 20 = 0xFFFF ∨ bit (c.u8 21) 4 = false) → ZeroBytes c.entry 48 64 →
    Configures (.netSetStream c) c s [member (ctxOf c s) 0xF c.unit 1 (.netStream c.unit none)] 0 fun u =>
      modRing c.unit (fun r => { r with stream := none, streamSeq := 0, published := List.replicate (ringHeld r) u.dt }) u) ∧
  (∀ c s, Sent 0x1603 c s → notDataRing c.unit s = false → isPath (c.u16 16) = true → pathAbsent (c.u16 16) s = false →
    (c.u8 18 = 2 ∨ c.u8 18 = 4 ∨ c.u8 18 = 8 ∨ c.u8 18 = 16) → c.u16 20 ≤ 1023 → c.u32 24 % 8 = 0 → 1 ≤ c.u16 28 → c.u16 28 ≤ 32767 →
    c.u8 31 ≤ 63 → ZeroBytes c.entry 19 20 → ZeroBytes c.entry 32 64 →
    (getRing c.unit s).entrySize = ceilDiv (32 + c.u32 24) 64 * 64 →
    let cfg : VdifCfg := { path := c.u16 16, bits := c.u8 18, thread := c.u16 20, station := c.u16 22, payload := c.u32 24
                           thresh := c.u16 28, leap := c.u8 30, refEpoch := c.u8 31 }
    0 < vdifSamples cfg →
    20480000000 % (outPeriod cfg.path (getDdc cfg.path (planned (taken c s))).decim * vdifSamples cfg) = 0 →
    Configures (.netSetVdif c) c s [member (ctxOf c s) 0xF c.unit 1 (.netVdif c.unit cfg)] 0 fun u =>
      modRing c.unit (fun r => { r with vdif := some cfg, vdifFrame := 0, vdifSecond := none, vdifNext := some u.dt }) u)

/-- The DISP configuration commands with right fields, on a part with the display, configure it (Table 17-5, R332 to R344). -/
def Obligations.DisplayConfigures : Prop :=
  (∀ c s, Sent 0x1701 c s → c.unit = 0 → s.fuse.display = true → c.u8 16 = 0 → c.u8 40 < 4 → ZeroBytes c.entry 41 44 →
    ZeroBytes c.entry 48 64 →
    let cfg : ModeCfg := { background := c.u32 44 }
    Configures (.dispSetMode c) c s [member (ctxOf c s) 0xE 0 1 (.dispMode cfg)] 0 (modeLand cfg false)) ∧
  (∀ c s, Sent 0x1701 c s → c.unit = 0 → s.fuse.display = true → (c.u8 16 = 1 ∨ c.u8 16 = 2) → (c.u8 17 = 8 ∨ c.u8 17 = 10) →
    (c.u8 18 = 1 ∨ c.u8 18 = 2 ∨ c.u8 18 = 4) → c.u8 19 ≤ 3 → 25000 ≤ c.u32 20 → c.u32 20 ≤ 600000 → c.u16 24 ≤ 3840 →
    c.u16 32 ≤ 2160 → c.u8 40 < 4 → ZeroBytes c.entry 41 44 → ZeroBytes c.entry 48 64 →
    (∀ i, i < 4 → (tget {} (planned (taken c s)).disp.layers i).enable = true →
      let l := tget {} (planned (taken c s)).disp.layers i
      l.x + l.w ≤ c.u16 24 ∧ l.y + l.h ≤ c.u16 32) →
    ∀ rate, rateFor (c.u8 16) (c.u32 20) (c.u8 17) (c.u8 18) (c.u8 19) = some rate →
    let cfg : ModeCfg := { output := c.u8 16, bpc := c.u8 17, lanes := c.u8 18, rate := rate, pclk := c.u32 20
                           h := [c.u16 24, c.u16 26, c.u16 28, c.u16 30], v := [c.u16 32, c.u16 34, c.u16 36, c.u16 38]
                           syncPol := c.u8 40, background := c.u32 44 }
    Configures (.dispSetMode c) c s [member (ctxOf c s) 0xE 0 1 (.dispMode cfg)] 0
      fun u => modeLand cfg false (startDomains [.dispMode cfg] u)) ∧
  (∀ c s, Sent 0x1702 c s → c.unit = 0 → s.fuse.display = true → c.u8 16 ≤ 3 → c.u8 18 ≤ 3 →
    (if c.u8 16 = 0 then c.u8 29 < 2 ∧ c.u16 30 < 256 else c.u8 29 < 8) → ZeroBytes c.entry 52 64 →
    c.u8 17 ≤ 1 →
    (c.u8 17 = 1 → if c.u8 16 = 0 then
        c.u8 28 ≤ 3 ∧ 1 ≤ c.u8 30 % 16 ∧ c.u8 30 % 16 ≤ 8 ∧ 1 ≤ c.u8 30 / 16 ∧ c.u8 30 / 16 ≤ 8 ∧
          (c.u8 30 % 16 = 1 ∨ c.u8 30 / 16 = 1) ∧ (c.u8 29 % 2 = 1 ∨ c.u16 50 ≠ 0)
      else
        c.u8 28 ≤ 3 ∧ c.u8 29 % 4 ≠ 3 ∧ (c.u8 28 ≠ 0 → c.u16 24 % 2 = 0) ∧ (c.u8 28 = 1 ∨ c.u8 28 = 3 → c.u16 26 % 2 = 0) ∧
          c.u16 30 % 256 = 0 ∧ c.u16 24 * sampleBytes (c.u8 28) ≤ c.u16 30 ∧ c.u64 32 % 4096 = 0 ∧ outOfPool (c.u64 32) s = false ∧
          (c.u8 28 = 0 → c.u64 40 = 0) ∧
          (c.u8 28 ≠ 0 → c.u64 40 % 4096 = 0 ∧ outOfPool (c.u64 40) s = false ∧ c.u16 48 % 256 = 0 ∧
            c.u16 24 * sampleBytes (c.u8 28) ≤ c.u16 48)) →
    (c.u8 17 = 1 →
      let plan := planned (taken c s)
      (∀ i, i < 4 → i ≠ c.u8 16 → (tget {} plan.disp.layers i).enable = true → (tget {} plan.disp.layers i).z ≠ c.u8 18) ∧
        (plan.disp.mode.output ≠ 0 →
          c.u16 20 + c.u16 24 ≤ plan.disp.mode.h.getD 0 0 ∧ c.u16 22 + c.u16 26 ≤ plan.disp.mode.v.getD 0 0)) →
    let cfg : LayerCfg :=
      { enable := c.u8 17 == 1, z := c.u8 18, alpha := c.u8 19, x := c.u16 20, y := c.u16 22, w := c.u16 24, h := c.u16 26
        format := c.u8 28, csc := c.u8 29, pitch := c.u16 30, base0 := c.u64 32, base1 := c.u64 40, pitch1 := c.u16 48
        gain := c.u16 50 }
    Configures (.dispSetLayer c) c s [member (ctxOf c s) 0xE 0 1 (.dispLayer (c.u8 16) cfg)] 0
      (modDisp fun d => { d with layers := tput {} d.layers (c.u8 16) cfg })) ∧
  (∀ c s, Sent 0x1703 c s → c.unit = 0 → s.fuse.display = true → ZeroBytes c.entry 16 24 → ZeroBytes c.entry 32 64 →
    let entries := readU32s s.host (c.u64 24) 256
    Configures (.dispSetPalette c) c s [member (ctxOf c s) 0xE 0 1 (.dispPalette entries)] 0
      (modDisp fun d => { d with palette := entries })) ∧
  (∀ c s, Sent 0x1705 c s → c.unit = 0 → s.fuse.display = true → c.u8 16 ≤ 2 → 2 ≤ c.u8 17 → ZeroBytes c.entry 18 64 →
    (planned (taken c s)).disp.mode.output = 2 →
    Configures (.dispSetPsr c) c s [member (ctxOf c s) 0xE 0 1 (.dispPsr (c.u8 16) (c.u8 17))] 0
      (modDisp fun d => { d with psrMode := c.u8 16, idleFrames := c.u8 17 }))


/-! ## Events -/

/-- The rows of the power-up sequence, each in the stage it belongs to, answer these next states (R30 to R34, R38, R385, R392, R396). After
POR_N falls the sequence waits at POWER with no ring, no steward and LASER_EN low; after the last step the steward runs, with the
bootstrap rings of Table 2-14 created and their memory zero. -/
def Obligations.PowerUpEvents : Prop := ∀ t s,
  let u := advance t s
  (∃ v, exec (.porNLow t) s = .next v ∧ v.stone.porN = false ∧ v.stone.stage = .power ∧ v.stone.error = 0 ∧ v.stone.ifaceLevel = 0 ∧
    v.stone.stoneErr = 0 ∧ v.stone.hold = .none ∧ v.stone.idKey = u.stone.idKey ∧ v.stone.perstN = u.stone.perstN ∧ v.fuse = u.fuse ∧
    v.steward.running = false ∧ v.rings = [] ∧ v.bunch.table = [] ∧ v.laser.en = false ∧ v.dt = u.dt ∧
    (∀ n, (getPll n v).locked = false)) ∧
  (u.stone.porN = false → exec (.porNRise t) s = .next (modStone (fun x => { x with porN := true, seqStart := u.dt }) u)) ∧
  (u.stone.porN = true → u.stone.hold = .none → u.stone.stage = .power → u.stone.fusesValid = false →
    let lc := if u.stone.lifeCycle = .service then .service else fusedLifeCycle u
    let key := if keySlotOf lc = .zeroised then .zeroised else u.stone.idKey
    let v := modStone (fun x =>
      { x with fusesValid := true, lifeCycle := lc, idKey := key, scanEn := (lc == .retirn && key == .zeroised : Bool) }) u
    exec (.fusesValid t) s = .next (if lc = .retired then modStone (fun x => { x with stage := .haltError, error := 0x0A }) v else v)) ∧
  (u.stone.porN = true → u.stone.hold = .none → u.stone.stage = .power → u.stone.fusesValid = true →
    exec (.xtalBRunning t) s = .next (modStone (fun x => { x with xtalB := true, stage := .wipeSram }) u)) ∧
  (u.stone.stage = .wipeSram →
    exec (.sramWipeDone t) s = .next (pllBegin 2 (dramKHz 0) (modStone (fun x => { x with sramWiped := true, stage := .waitImage })
      (modPll 2 (fun p => { p with xtal := !u.clock.refOk }) { u with sram := [] })))) ∧
  (downloading u = true → u.stone.dramFill = false → u.stone.dramWiped = false → ∀ ok,
    exec (.dramTrainingDone t ok) s = .next (modStone (fun x =>
      if ok = true then { x with dramFill := true } else { x with stage := .haltError, error := 0x09 }) (pllRun 2 (dramKHz 0) u))) ∧
  (downloading u = true → u.stone.dramFill = true →
    exec (.dramWipeDone t) s = .next (modStone (fun x => { x with dramFill := false, dramWiped := true })
      { u with dram := [], memCtl := { u.memCtl with poisoned := [] } })) ∧
  (u.stone.stage = .verify → exec (.verifyDone t) s = .next (match imageError u.sram 0 u.stone.bootLen u with
    | none => modStone (fun x => { x with stage := .waitDram, imageLen := x.bootLen }) u
    | some e => modStone (fun x => { x with stage := .waitImage, error := e, src := .none }) (dropImage u))) ∧
  (u.stone.stage = .waitDram → u.stone.dramWiped = true →
    let v := each [1, 0, 3] (fun n => modPll n (fun p => { p with xtal := !u.clock.refOk })) u
    exec (.korsynStart t) s = .next (pllBegin 1 640000 (modStone (fun x => { x with stage := .start, startAt := u.dt }) v))) ∧
  (u.stone.stage = .start → ∃ v, exec (.korsynReady t) s = .next (event 0x0101 0 0xFFFF [] v) ∧ v.stone.stage = .ready ∧
    v.stone.ifaceLevel = 3 ∧ v.stone.src = .none ∧ v.stone.runSec = (headerAt u.sram 0).sec ∧ v.steward.running = true ∧
    v.rings = [(0, { created := true, kind := .command, log2 := 8, location := 3, entrySize := 64, base := 0x800000, pair := 1 }),
      (1, { created := true, kind := .completion, log2 := 8, location := 3, entrySize := 16, base := 0x804000 }),
      (2, { created := true, kind := .event, log2 := 8, location := 3, entrySize := 32, base := 0x805000 })]) ∧
  (u.stone.stage = .start → 500 * tkMs ≤ dtSub u.dt u.stone.startAt →
    exec (.startTimeout t) s = .next (modStone (fun x => { x with stage := .haltError, error := 0x08 }) u)) ∧
  exec (.perstNAssert t) s = .next (modStone (fun x => { x with perstN := false }) { u with pcie := { u.pcie with
    link := false, masked := [], pendingVecs := [], pf0D3 := false, aer := 0, wakeRequest := false } }) ∧
  (u.stone.perstN = false → exec (.perstNRelease t) s =
    .next (resumeRings (modStone (fun x => { x with perstN := true }) { u with pcie := { u.pcie with link := true } }))) ∧
  (u.stone.porN = true → u.stone.hold = .none →
    (∃ v, exec (.railUndervoltage t) s = .next v ∧ v.stone.hold = .undervoltage ∧ v.stone.stage = .power ∧ v.stone.porN = true ∧
      v.stone.seqStart = u.dt ∧ v.stone.stoneErr = u.stone.stoneErr ∧ v.steward.running = false ∧ v.rings = [] ∧ v.laser.en = false) ∧
    (∃ v, exec (.thermalTrip t) s = .next v ∧ v.stone.hold = .thermal ∧ v.stone.stage = .power ∧ v.stone.porN = true ∧
      v.stone.seqStart = u.dt ∧ v.stone.stoneErr = u.stone.stoneErr ∧ v.steward.running = false ∧ v.rings = [] ∧ v.laser.en = false)) ∧
  (u.stone.hold = .undervoltage →
    exec (.railRecovery t) s = .next (modStone (fun x => { x with hold := .none, seqStart := u.dt }) u)) ∧
  (u.stone.hold = .thermal → 10 * tkS ≤ dtSub u.dt u.stone.seqStart →
    exec (.thermalHoldEnd t) s = .next (modStone (fun x => { x with hold := .none, seqStart := u.dt }) u))

/-- What the host writes and reads over PCIe outside the rings, while BAR0 answers: BOOT_CTRL, the stone registers, doorbells and ring
indices, staging and the BAR4 window (Tables 2-3 to 2-10, R30, R33, R35, R36, R41, R43, R292, R294, R297, R316). That BAR4's
range is judged before the wipe, and that a stopped ring ignores its doorbell, are the model's choices (logs 74 and 75). -/
def Obligations.HostAccesses : Prop := ∀ t s,
  let u := advance t s
  bar0Serves u = true →
  (∀ v : U32, bit v.toNat 8 = true →
    let after := if v.toNat / 2 ^ 24 = 0xA5 then deviceReset false (laserCut u) else stoneFlag errResetKey u
    exec (.bootCtrlDevReset t v) s = .next after ∧ exec (.registerWrite t 0 4 v) s = .next after) ∧
  (∀ v : U32, bit v.toNat 8 = false →
    let a := modStone (fun x => { x with spiEnable := bit v.toNat 4 }) u
    let b := if bit v.toNat 1 = true ∧ a.stone.stage = .waitImage then
      modStone (fun x => { x with src := .none }) { a with sram := zeroRange 0 0x800000 a.sram } else a
    let after := if bit v.toNat 0 = true ∧ b.stone.stage = .waitImage then
      (if b.stone.src = .spi then stoneFlag errStageClaim b else modStone (fun x => { x with stage := .verify, error := 0 }) b) else b
    exec (.go t v) s = .next after ∧ exec (.abort t v) s = .next after ∧ exec (.spiEnable t v) s = .next after ∧
      exec (.registerWrite t 0 4 v) s = .next after) ∧
  (∀ v : U32,
    exec (.registerWrite t 0x08 4 v) s = .next (modStone (fun x => { x with bootLen := v.toNat % 2 ^ 24 }) u) ∧
    exec (.registerWrite t 0x28 4 v) s = .next (modStone (fun x => { x with wakeCtrl := v.setWidth 8 }) u) ∧
    exec (.registerWrite t 0x2C 4 v) s = .next (modStone (fun x => { x with wakeStat := x.wakeStat &&& ~~~(v.setWidth 8) }) u) ∧
    exec (.registerWrite t 0x30 4 v) s = .next (modStone (fun x => { x with stoneErr := x.stoneErr &&& ~~~(v.setWidth 6) }) u) ∧
    (∀ offset width, width ≠ 4 ∨ offset % 4 ≠ 0 ∨ (0x30 < offset ∧ offset < 0x8000) ∨ 0xFFFC < offset →
      exec (.registerWrite t offset width v) s = .next (stoneFlag errBadAccess u))) ∧
  exec (.dtSnapLoRead t) s = .next (answer (leBytes 4 (u.dt.toNat % 2 ^ 32))
    (modStone (fun x => { x with dtSnapHi := BitVec.ofNat 32 (u.dt.toNat / 2 ^ 32) }) u)) ∧
  (∀ n (v : U32), let r := getRing n u
    let i := BitVec.ofNat 16 v.toNat
    let faulted := event 0x0201 2 0xFFFF [(16, 2, n)] (modRing n (fun r => { r with stopped := true }) u)
    (u.stone.stage ≠ .ready ∨ (bellChannel n u = none ∧ r.created = false) →
      exec (.doorbellWrite t n v) s = .next (stoneFlag errDoorbell u)) ∧
    (u.stone.stage = .ready → bellChannel n u = none → r.created = true → r.stopped = true → exec (.doorbellWrite t n v) s = .next u) ∧
    (u.stone.stage = .ready → bellChannel n u = none → r.created = true → r.stopped = false → hostProduces r = true →
      exec (.doorbellWrite t n v) s = .next (if ringHeld r ≤ (i - r.cons).toNat ∧ (i - r.cons).toNat ≤ ringSize r then
        modRing n (fun r => { r with prod := i }) u else faulted)) ∧
    (u.stone.stage = .ready → bellChannel n u = none → r.created = true → r.stopped = false → hostProduces r = false →
      r.stream = none → r.kind ≠ .completion →
      exec (.doorbellWrite t n v) s = .next (if (r.prod - i).toNat ≤ ringHeld r then modRing n (fun r => { r with cons := i }) u
        else faulted)) ∧
    (u.stone.stage = .ready → ∀ k, bellChannel n u = some k → exec (.dmaDoorbell t n v) s = .next (modChan k (fun c =>
      if c.state = 3 then { c with state := 1, refetch := true } else { c with kick := true }) u))) ∧
  (asleep u = false → ∀ offset bytes,
    (u.stone.sramWiped = false → exec (.imageStagingWrite t offset bytes) s = .next (stoneFlag errEarlyWrite u)) ∧
    (u.stone.sramWiped = true → u.stone.stage = .waitImage → u.stone.src ≠ .spi → offset < 0x800000 →
      ∃ at_, exec (.imageStagingWrite t offset bytes) s = .next (modStone (fun x => { x with src := .pcie, claimAt := at_ })
        { u with sram := writeBytes u.sram offset (bytes.take (0x800000 - offset)) })) ∧
    (u.stone.sramWiped = true → u.stone.stage ≠ .waitImage → offset < 0x800000 →
      exec (.imageStagingWrite t offset bytes) s = .next (if u.stone.src = .spi then stoneFlag errStageClaim u else u)) ∧
    (u.stone.sramWiped = true → 0x800000 ≤ offset → offset + bytes.length ≤ 0xFF0000 →
      exec (.imageStagingWrite t offset bytes) s = .next { u with sram := writeBytes u.sram offset bytes })) ∧
  (asleep u = false → ∀ offset, let a := u.pcie.windowBase + offset
    let touched := { u with memCtl := { u.memCtl with selfRefresh := false, lastRequest := u.dt } }
    (∀ len, a + len ≤ hostDram u → u.stone.dramWiped = true → dramStalled u = false →
      (poisonedIn a len u = false → exec (.bar4Read t offset len) s = .next (answer (readBytes u.dram a len) touched)) ∧
      (poisonedIn a len u = true → exec (.bar4Read t offset len) s = .next (completerAbort touched))) ∧
    (∀ bytes, a + bytes.length ≤ hostDram u → u.stone.dramWiped = true → dramStalled u = false →
      exec (.bar4Write t offset bytes) s = .next (storeAt 2 a bytes touched)) ∧
    (∀ len, a + len ≤ hostDram u → u.stone.dramWiped = false →
      exec (.bar4Read t offset len) s = .next (answer (List.replicate len 0) u)) ∧
    (∀ bytes, a + bytes.length ≤ hostDram u → u.stone.dramWiped = false → exec (.bar4Write t offset bytes) s = .next u) ∧
    (∀ len, hostDram u < a + len → exec (.bar4Read t offset len) s = .next (completerAbort u)) ∧
    (∀ bytes, hostDram u < a + bytes.length → exec (.bar4Write t offset bytes) s = .next (aerReport u)))

/-- The BOOT_SPI transactions with the right byte count act in WAIT_IMAGE with SPI_ENABLE = 1; READ_STATUS acts in every stage; a
wrong byte count or an unknown first byte sets SPI_FRAME in every stage (Table 2-12, R41, R397). That an offset without a data
byte is a wrong byte count is the model's choice (log 73). -/
def Obligations.BootSpi : Prop := ∀ t s,
  let u := advance t s
  u.stone.porN = true →
  (u.stone.stage = .waitImage → u.stone.spiEnable = true → ∀ bytes,
    (4 ≤ bytes.length → u.stone.src = .pcie → exec (.bootSpiWriteStaging t bytes) s = .next (stoneFlag errStageClaim u)) ∧
    (4 ≤ bytes.length → u.stone.src ≠ .pcie → let a := leNat (bytes.take 3)
      ∃ at_, exec (.bootSpiWriteStaging t bytes) s = .next (modStone (fun x => { x with src := .spi, claimAt := at_ })
        { u with sram := writeBytes u.sram a ((bytes.drop 3).take (0x800000 - a)) })) ∧
    (bytes.length = 4 → ∀ len, let a := leNat (bytes.take 3)
      exec (.bootSpiReadStaging t bytes len) s =
        .next (answer ((readBytes u.sram a len).zipIdx.map fun b => if a + b.2 < 0x800000 then b.1 else 0) u)) ∧
    (bytes.length = 4 → exec (.bootSpiWriteBootLen t bytes) s = .next (modStone (fun x => { x with bootLen := leNat bytes % 2 ^ 24 }) u)) ∧
    exec (.bootSpiGo t []) s = .next (if u.stone.src = .pcie then stoneFlag errStageClaim u
      else modStone (fun x => { x with stage := .verify, error := 0 }) u) ∧
    exec (.bootSpiAbort t []) s = .next (modStone (fun x => { x with src := .none }) { u with sram := zeroRange 0 0x800000 u.sram })) ∧
  (u.stone.stage ≠ .waitImage ∨ u.stone.spiEnable = false → ∀ bytes len,
    (4 ≤ bytes.length → exec (.bootSpiWriteStaging t bytes) s = .next u) ∧
    (bytes.length = 4 → exec (.bootSpiReadStaging t bytes len) s = .next (answer (List.replicate len 0) u)) ∧
    exec (.bootSpiGo t []) s = .next u ∧ exec (.bootSpiAbort t []) s = .next u) ∧
  exec (.bootSpiReadStatus t []) s = .next (answer (leBytes 4 (stageCode u.stone.stage * 2 ^ 28 + sourceCode u.stone.src * 2 ^ 26 +
    u.stone.error * 2 ^ 16 + u.stone.ifaceLevel * 2 ^ 8 + 2 * b2n u.stone.dramWiped + b2n u.stone.sramWiped)) u) ∧
  (∀ bytes, bytes ≠ [] →
    exec (.bootSpiReadStatus t bytes) s = .next (stoneFlag errSpiFrame u) ∧
    exec (.bootSpiGo t bytes) s = .next (stoneFlag errSpiFrame u) ∧ exec (.bootSpiAbort t bytes) s = .next (stoneFlag errSpiFrame u)) ∧
  (∀ bytes, bytes.length ≠ 4 →
    (∀ len, exec (.bootSpiReadStaging t bytes len) s = .next (stoneFlag errSpiFrame u)) ∧
    exec (.bootSpiWriteBootLen t bytes) s = .next (stoneFlag errSpiFrame u)) ∧
  (∀ bytes, bytes.length < 4 → exec (.bootSpiWriteStaging t bytes) s = .next (stoneFlag errSpiFrame u)) ∧
  (∀ first : Byte, first ≠ 0x02 → first ≠ 0x0B → first ≠ 0x05 → first ≠ 0x31 → first ≠ 0x3A → first ≠ 0x3B →
    exec (.bootSpiUnknownTransaction t first) s = .next (stoneFlag errSpiFrame u))

/-- The rows of bunches and domains answer these next states. The staging cycle at a DT that is a multiple of 20,480 tk (R55) drops
the budget that lingers (R57), admits a lone command whose claims are free (it joins its bunch and completes with OK and the member
writes held so far, R52) and turns one away whose claim another bunch holds (CONFLICT with its master, the bunch aborts, R56, R64);
a bunch that waits for nothing staged completes its COMMIT (R60); at T a bunch is LANDING, at a boundary of an anchor unit T is that
boundary (R49, R59); a member lands at its boundary, the last one ends the bunch with EV_BUNCH_APPLIED or the completion of the
direct command (R50, R54); a bunch OPEN past TIMEOUT_MS aborts with cause 7 (R64); a domain has started (R18). -/
def Obligations.BunchEvents : Prop := ∀ t s,
  let u := advance t s
  (u.dt.toNat % 20480 = 0 → u.steward.running = true → u.bunch.retries = [] → u.steward.handover = none →
    (u.bunch.staged = [] →
      exec (.stagingCycle t) s = .next (fabricPoint { u with bunch := { u.bunch with lingering := [] } })) ∧
    (∀ g, u.bunch.staged = [g] → (getBunch g.id u).direct = none → (getBunch g.id u).retry = false →
      let empty := { u with bunch := { u.bunch with staged := [] } }
      let joined := modBunch g.id (fun b => { b with members := b.members ++ g.members }) empty
      (holderAgainst g u = none → admission (planned empty) (planned joined) (g.members.map (·.write)) = none →
        let v := completeOpt g.ref { status := stOk, result := ((getBunch g.id joined).members.map (·.weight)).sum } joined
        exec (.stagingCycle t) s = .next (fabricPoint { v with bunch := { v.bunch with lingering := [] } })) ∧
      (∀ h first rest, holderAgainst g u = some h → g.members = first :: rest → g.ref ≠ none →
        let v := abortBunch g.id 4 stConflict (masterCode h) first.opcode first.tag
          (completeOpt g.ref { status := stConflict, reason := masterCode h } empty)
        exec (.stagingCycle t) s = .next (fabricPoint { v with bunch := { v.bunch with lingering := [] } })))) ∧
  (∀ id, let b := getBunch id u
    let ended := fun (w : State) =>
      let e := getBunch id w
      if e.members.all (·.landed) = true then
        match e.direct with
        | some ref => freeDone id ref (ok ref e.result w)
        | none =>
          let v := eventAt e.lastLanding 0x0301 0 0xFFFF [(16, 8, e.point.toNat), (24, 2, id), (26, 6, dtSub e.lastLanding e.point)] w
          if w.steward.running = true then freeBunch id v else v
      else w
    (b.state = .arming → b.direct = none → b.retry = false → u.steward.running = true → (∀ g ∈ u.bunch.staged, g.id ≠ id) →
      exec (.bunchArmed t id) s = .next (completeOpt b.commit { status := stOk, result := (b.members.map (·.weight)).sum }
        (modBunch id (fun b => { b with state := .armed, commit := none }) u))) ∧
    (b.state = .armed → startable (b.members.map (·.write)) u = true →
      let go := fun (at_ : DT) (rest : Bool) => modBunch id (fun b => { b with
        state := .landing, point := at_, anchor := none, lastLanding := at_
        members := b.members.map fun m => { m with atRest := rest } }) u
      ((∀ m ∈ b.members, blockRuns m.write u = true) →
        (b.anchor = none → dtLe b.point u.dt = true →
          exec (.commitPoint t id) s = .next (if b.members = [] then ended (go b.point false) else go b.point false)) ∧
        (∀ c at_, b.anchor = some c → unitPoint b c u = some at_ → exec (.commitPoint t id) s = .next (go at_ false))) ∧
      (∀ m, b.members = [m] → blockRuns m.write u = false → b.anchor = none → dtLe b.point u.dt = true →
        exec (.commitPoint t id) s = .next (ended (keepArmed m.write (landWrite [m.write] b.point m.write
          (modBunch id (fun b => { b with members := [{ m with atRest := true, landed := true }] }) (go b.point true))))))) ∧
    (∀ i m at_, b.members[i]? = some m → b.state = .landing → memberWaits b i m u = false → memberAt b.point m u = some at_ →
      exec (.memberLanding t id i) s = .next (ended (rangesStand b i m.write (keepArmed m.write
        (landWrite (b.members.map (·.write)) at_ m.write (modBunch id (fun b => { b with
          members := b.members.modify i (fun m => { m with landed := true })
          lastLanding := if dtLe b.lastLanding at_ then at_ else b.lastLanding }) u)))))) ∧
    (b.state = .opened → u.steward.running = true → b.timeoutMs * tkMs ≤ dtSub u.dt b.openedAt → b.direct = none → b.retry = false →
      (∀ g ∈ u.bunch.staged, g.id ≠ id) →
      exec (.bunchTimeout t id) s = .next (freeBunch id (event 0x0302 1 0xFFFF [(16, 1, 7), (17, 1, masterCode b.master), (18, 2, id),
        (20, 1, 0), (21, 1, 0), (22, 2, 0), (24, 4, 0)] (modBunch id (fun b => { b with state := .aborted })
          { u with bunch := { u.bunch with lingering := u.bunch.lingering ++ b.members } }))))) ∧
  (∀ d ∈ u.power.starting, ∃ v, exec (.domainStarted t d) s = .next (applyDeferred v) ∧ domainOn d v = true ∧ d ∉ v.power.starting ∧
    v.bunch = u.bunch ∧ (u.bunch.deferred = [] → exec (.domainStarted t d) s = .next v))

/-- The clock rows answer these next states. An ADPLL locks in its turn, and ADPLL-S then steps DT forward unless ALIGNED (R66, R67,
R77); its gated output returns with EV_CLK_LOCK and what waited for it goes on (R68, R71, R84); a loss of lock posts
EV_CLK_UNLOCK and, once the output had returned, begins an absence (R67, R69, R73); without REFCLK every running ADPLL leaves
for XTAL_B (R70); REFCLK back is only reported (R70). -/
def Obligations.ClockEvents : Prop := ∀ t s,
  let u := advance t s
  (∀ n step, let p := getPll n u
    (p.relocking = true → p.locked = false → lockTurn n u = true →
      let v := pllLock n u
      exec (.adpllLock t n step) s =
        .next (if n = 0 ∧ u.clock.aligned = false then { v with dt := dtAdd u.dt (step % 1024) } else v) ∧
      (getPll n v).locked = true ∧ (getPll n v).stopped = false ∧ (getPll n v).absent = p.absent ∧ v.dt = u.dt ∧
      (∀ k, k ≠ n → getPll k v = getPll k u)) ∧
    (∀ since, p.absent = some since → p.locked = true →
      let v := event 0x0402 0 n [(16, 1, n), (17, 1, b2n p.hop), (18, 1, b2n p.xtal), (24, 8, since.toNat)]
        (modPll n (fun p => { p with absent := none, bypass := false, relocking := false }) u)
      (n = 3 → v.clock.relock = none → exec (.gatedOutputReturn t n) s = .next (alignedSettle v)) ∧
      (n = 2 → v.clock.relock = none → exec (.gatedOutputReturn t n) s =
        .next (alignedSettle (dramResumed { v with memCtl := { v.memCtl with selfRefresh := dramStalled v } }))) ∧
      (n = 1 → v.clock.relock = none → exec (.gatedOutputReturn t n) s = .next (alignedSettle (planeBack v))) ∧
      (n = 0 → (planeBack v).clock.relock = none → (planeBack v).clock.skewWaiting = [] →
        exec (.gatedOutputReturn t n) s = .next (alignedSettle (planeBack v))) ∧
      (n ≤ 3 → let w := if n ≤ 1 then planeBack v
          else if n = 2 then dramResumed { v with memCtl := { v.memCtl with selfRefresh := dramStalled v } } else v
        let x := if n = 0 then each w.clock.skewWaiting (fun r => complete r { status := stOk })
          { w with clock := { w.clock with skewWaiting := [] } } else w
        exec (.gatedOutputReturn t n) s = .next (alignedSettle (relockGo { x with clock := { x.clock with
          relock := x.clock.relock.map fun r => { r with remaining := r.remaining.filter (· != n) } } })))) ∧
    (p.absent = none → p.locked = true → n ≠ 0 →
      exec (.gatedOutputReturn t n) s = .next (modPll n (fun p => { p with bypass := false, relocking := false }) u)) ∧
    (p.locked = true → p.absent.isSome = true ∨ p.relocking = true →
      exec (.adpllLockLoss t n) s = .next (event 0x0401 2 n [(16, 1, n), (17, 1, 1)]
        (modPll n (fun p => { p with locked := false, relocking := true }) u))) ∧
    (p.locked = true → p.absent = none → p.relocking = false →
      let v := event 0x0401 2 n [(16, 1, n), (17, 1, 1)] (modPll n (fun p => { p with locked := false, relocking := true })
        (modPll n (fun p => { p with absent := some u.dt, bypass := n != 0 }) u))
      exec (.adpllLockLoss t n) s = .next (alignedSettle (if n ≤ 1 then planeGone v
        else if n = 2 then { v with memCtl := { v.memCtl with selfRefresh := true } } else v)))) ∧
  (u.clock.refOk = true →
    let v := event 0x0403 3 0xFFFF [] { u with clock := { u.clock with refOk := false } }
    ((∀ n, n < 4 → (getPll n v).xtal = true) → exec (.refclkLoss t) s = .next (alignedSettle v)) ∧
    ((∃ n, n < 4 ∧ (getPll n v).xtal = false) →
      let w := skewDone stBusy v
      let x := each ([2, 1, 0, 3].filter fun n => !(getPll n w).stopped) (fun n s =>
        let s := modPll n (fun c => { c with xtal := true, locked := false, hopNext := false }) s
        if (getPll n s).relocking = true then s else pllLeave n 2 s) w
      exec (.refclkLoss t) s = .next (alignedSettle
        (relockTo true (v.clock.relock.any fun r => r.busy || !r.toXtal) (v.clock.relock.bind (·.waiting)) x)))) ∧
  (u.clock.refOk = false →
    exec (.refclkRestored t) s = .next (event 0x0404 1 0xFFFF [] { u with clock := { u.clock with refOk := true } }))

/-- The rows of TAI and SYNC answer these next states. On the chosen edge of the selected PPS_IN a pulse a second after the last
accepted one is accepted and the epoch follows it, another is counted while pulses are followed, and two a second apart end an
acquisition (R80, R81); 1.5 s without one begin a holdover (R80); a PTP event message is stamped, and the servo's epoch taken
unless pulses are followed (R80, R81, R326); SYNC_IN is stamped and loads DT where its mode says so, SYNC_OUT rises at the
master's D, and an arming ends at its timeout (R82, R83). -/
def Obligations.TimeEvents : Prop := ∀ t s,
  let u := advance t s
  let x := u.time
  (ppsSelected u = true → u.steward.running = true →
    (∀ prev rest k, x.accepted = (prev, some k) :: rest → secondLater prev u.dt = true → x.nextTai = none → x.epochSet = false →
      let acc := ((u.dt, some (k + 1)) :: x.accepted).take 16
      exec (.ppsInEdge t x.fallingEdge) s = .next { u with time := { x with
        accepted := acc, candidate := none, ppsOk := true
        epoch := { dt := u.dt, taiS := k + 1, taiNs := 0, ratePpt := fitRate (acc.map (·.1.toNat)) } } }) ∧
    (∀ prev rest, x.accepted = prev :: rest → secondLater prev.1 u.dt = true →
      exec (.ppsInEdge t x.fallingEdge) s = .next { u with time := ppsAccept u.dt x }) ∧
    (∀ prev rest, x.accepted = prev :: rest → secondLater prev.1 u.dt = false →
      exec (.ppsInEdge t x.fallingEdge) s = .next (if x.ppsOk = true then
        { u with time := { x with rejected := min 65535 (x.rejected + 1) } } else u)) ∧
    (x.accepted = [] → x.candidate = none →
      exec (.ppsInEdge t x.fallingEdge) s = .next { u with time := { x with candidate := some u.dt } }) ∧
    (∀ c, x.accepted = [] → x.candidate = some c → secondLater c u.dt = false →
      exec (.ppsInEdge t x.fallingEdge) s = .next { u with time := { x with candidate := some u.dt } }) ∧
    (∀ c, x.accepted = [] → x.candidate = some c → secondLater c u.dt = true → x.holdover = false →
      exec (.ppsInEdge t x.fallingEdge) s =
        .next { u with time := { ppsAccept u.dt { ppsAccept c x with epochSet := false } with holdover := false } })) ∧
  (∀ prev rest, ppsSelected u = true → x.accepted = prev :: rest → 30720000000 ≤ dtSub u.dt prev.1 →
    exec (.ppsLossTimeout t) s = .next (event 0x0501 1 0xFFFF [(16, 8, prev.1.toNat)]
      { u with time := { x with ppsOk := false, holdover := true, accepted := [], candidate := none } })) ∧
  (∀ n received, let p := getPort n u
    p.up = true → bit p.options 0 = true →
    let stamp := u.dt + BitVec.ofInt 64 (if received = true then -p.rxDelay else p.txDelay)
    let v := modPort n (fun p => { p with ptpStamps := (stamp :: p.ptpStamps).take 16 }) u
    exec (.ptpEventMessage t n received none) s = .next v ∧
    (∀ e,
      (x.source = 2 → exec (.ptpEventMessage t n received (some e)) s =
        .next { v with time := { x with epoch := e, ptpOk := true, holdover := false } }) ∧
      (x.source = 3 → x.ppsOk = true → exec (.ptpEventMessage t n received (some e)) s =
        .next { v with time := { x with ptpOk := true } }) ∧
      (x.source = 3 → x.ppsOk = false → exec (.ptpEventMessage t n received (some e)) s =
        .next { v with time := { x with epoch := e, ptpOk := true, epochSet := true } }) ∧
      (x.source ≠ 2 → x.source ≠ 3 → exec (.ptpEventMessage t n received (some e)) s = .next v))) ∧
  (∀ a fraction marginPs, u.clock.sync = some a → a.mode ≠ 1 → u.clock.refOk = true →
    let low := decide (marginPs < 1000) || decide (9000 < marginPs)
    let v := { u with clock := { u.clock with sync := none, syncOut := u.clock.syncOut || (a.mode == 2 && a.outEn) } }
    let load := fun (target : DT) (old : Nat) => { v with
      dt := target
      time := { x with epoch := { x.epoch with dt := x.epoch.dt + (target - BitVec.ofNat 64 old) } }
      clock := { v.clock with fifths := 0, aligned := true } }
    let w := if a.mode = 0 then load a.d (dtAtLoad u.dt fraction marginPs 5)
      else if a.mode = 2 then load (dtAdd a.d (1024 * a.position)) (dtAtLoad u.dt fraction marginPs 4) else v
    exec (.syncInEdge t fraction marginPs) s = .next (event 0x0405 0 0xFFFF [(16, 8, u.dt.toNat), (24, 1, fraction),
      (25, 1, b2n low + 2 * b2n (a.mode != 3)), (26, 2, sat 2 marginPs)] w)) ∧
  (∀ a, u.clock.sync = some a → a.mode = 1 → u.dt = a.d → u.clock.refOk = true →
    exec (.syncOutLaunch t) s = .next { u with clock := { u.clock with sync := none, syncOut := true } }) ∧
  (∀ a, u.clock.sync = some a → a.timeoutMs * tkMs ≤ dtSub u.dt a.armedAt →
    exec (.syncArmTimeout t) s = .next { u with clock := { u.clock with sync := none } })

/-- The converter rows answer these next states; what lands at a group boundary lands first (settle, R54). A group of 64 codes of a
powered channel at a multiple of 64 tk is scaled and kept, its sideband formed with OVR where it clips or the comparator is on
(R89, R98 to R100, Table 5-5), and offered to the captures; the comparator marks the group in which it fires (R100); settling
ends (R91); a burned OTP bit lets the pad move that waited go on (R88, R93); a due swap rotates the slices, and a slice out of
tolerance that is the spare is retired (R96, R97); 16 optical codes carry OVR where they clip (R218); a DDC path gives its next
group of 64 outputs (R113); a full detector window is written and tested (R124, R125). -/
def Obligations.ConverterEvents : Prop := ∀ t s,
  let u := advance t s
  let v := settle (· == .group) u
  (∀ n codes, let r := getRf n v
    r.powered = true → planeRuns v = true → codes.length = 64 → (∀ c ∈ codes, -2048 ≤ c ∧ c ≤ 2047) →
    v.dt.toNat % 64 = 0 → r.lastGroup ≠ some v.dt →
    let w := groupArrive n codes v
    exec (.rfGroup t n codes) s = .next (capRawGroup n codes w) ∧ (getRf n w).lastGroup = some v.dt ∧ w.dt = v.dt ∧
    (getRf n w).input.head? = some (v.dt, codes.map fun c => gained c (rfK r)) ∧ (getRf n w).invalidLeft = r.invalidLeft - 1 ∧
    ((∀ c ∈ codes, c ≠ 2047 ∧ c ≠ -2048) → r.recovery = 0 → r.overdrive = false → r.overdriveUntil.toNat ≤ v.dt.toNat →
      (getRf n w).ovrGroups = r.ovrGroups ∧ (getRf n w).sideband = BitVec.ofNat 16 (r.atten % 32 + 32 * b2n r.pad +
        128 * b2n (neighbourAt n v.dt.toNat v) + 256 * b2n (decide (v.dt.toNat < r.rangingUntil.toNat)) +
        512 * b2n (decide (v.dt.toNat < r.settleUntil.toNat)) + 1024 * b2n (r.invalidLeft == 0))) ∧
    ((∃ c ∈ codes, c = 2047 ∨ c = -2048) ∨ 0 < r.recovery ∨ r.overdrive = true → (getRf n w).sideband.getLsbD 6 = true ∧
      (getRf n w).lastOvr = some v.dt)) ∧
  (∀ n, let r := getRf n u
    r.powered = true →
    (r.overdrive = true → exec (.overdriveComparator t n false) s =
      .next (modRf n (fun r => { r with overdrive := false, overdriveUntil := dtAdd u.dt 1024 }) u)) ∧
    (r.overdrive = false → let v := modRf n (fun r => { r with overdrive := true }) u
      (r.lastGroup = none → exec (.overdriveComparator t n true) s = .next v) ∧
      (∀ g, r.lastGroup = some g →
        (dtSub u.dt g < 64 → r.sideband.getLsbD 6 = false → exec (.overdriveComparator t n true) s =
          .next (capRawIndex (partner n) g (capRawIndex n g (overloadReport n g (markOvr n g v))))) ∧
        (64 ≤ dtSub u.dt g → exec (.overdriveComparator t n true) s = .next v)))) ∧
  (∀ n, dtLe (getRf n u).settleUntil u.dt = true →
    exec (.padSettleEnd t n) s = .next (modRf n (fun r => { r with settleUntil := 0 }) u)) ∧
  (∀ n, let r := getRf n u
    r.burning = true →
    let v := modRf n (fun r => { r with burning := false, burnBit := 0 }) { u with fuse := { u.fuse with
      padBits := tput 0 u.fuse.padBits n (tget 0 u.fuse.padBits n ||| 2 ^ (r.burnBit - 1)) } }
    (r.returnPending = true → exec (.otpBurnDone t n) s = .next (rfPowerDown n (padChange n v))) ∧
    (r.returnPending = false → r.padTarget = none → exec (.otpBurnDone t n) s = .next v) ∧
    (∀ pad, r.returnPending = false → r.padTarget = some pad →
      let w := modRf n (fun r => { r with padTarget := none }) v
      exec (.otpBurnDone t n) s = .next (if r.pad = pad then w else rangeNote n (padMove n w)))) ∧
  (∀ n, let r := getRf n u
    r.powered = true → planeRuns u = true →
    (∀ spare, r.spare = some spare → swapHere n u = true → exec (.sliceSwap t n none) s = .next (modRf n (fun r => { r with
      positions := r.positions.set r.nextPos spare, spare := r.positions[r.nextPos]?, nextPos := (r.nextPos + 1) % 16
      swapDue := dtAdd r.swapDue (2 * tkS) }) u)) ∧
    (∀ slice kind, r.spare = some slice → r.retired = [] → swapHere n (sliceFault n slice kind u) = false →
      exec (.sliceSwap t n (some (slice, kind))) s = .next (faultArrive 3 kind n n outRetired [{ cls := 1, inst := n }]
        (event 0x0603 2 n [(16, 1, slice), (17, 1, kind), (18, 1, 1)]
          (rewriteCaps (modRf n (fun r => { r with retired := [slice], spare := none }) u)))))) ∧
  (∀ n codes, orxPresent n v = true → fibreRuns (n / 2) v = true → planeRuns v = true → codes.length = 16 →
    (∀ c ∈ codes, -8192 ≤ c ∧ c ≤ 8191) → v.dt.toNat % 64 = 0 →
    ∃ w, exec (.opticalGroup t n codes) s = .next w ∧ (getOrx n w).input.head? = some (v.dt, codes) ∧
      (getOrx n w).ovr = ((codes.any fun c => c == 8191 || c == -8192) || decide (0 < (getOrx n v).recovery)) ∧
      (∀ k, k ≠ n → getOrx k w = getOrx k v) ∧ { w with orx := v.orx } = v) ∧
  (∀ path, groupDue path v = true →
    let x := capDdcGroup path v
    let d := getDdc path x
    ∃ w, exec (.ddcOutputGroup t path) s = .next w ∧ (getDdc path w).groups.head? = some (groupInfo path (chainOut d) x) ∧
      (d.old = [] → (getDdc path w).nextGroup = dtAdd d.nextGroup (64 * outPeriod path d.decim)) ∧ { w with ddc := x.ddc } = x) ∧
  (∀ path, let d := getDdc path u
    d.enable = true → d.detEnable ≠ 0 → 2 ^ d.log2Win ≤ d.detQueue.length →
    exec (.detectorWindowEnd t path) s = .next (detectorEnd path u) ∧
    (d.detRing = 0xFFFF → isSlotPath path = true →
      let r := windowEnd d
      exec (.detectorWindowEnd t path) s = .next (tdTest (4 + (path - 16) / 16) path
        (r.1.zipIdx.map fun v => if bit d.detEnable v.2 = true then v.1 else below) 0 r.2.1 (bit r.2.1 1)
        (dtAdd r.2.2.1 (2 ^ d.log2Win * outPeriod path d.decim)) (modDdc path (fun _ => r.2.2.2) u))))

/-- The rows of pips, averages, traces, bloom maps, triggers and captures answer these next states. A complete frame joins those
that wait to leave in order, or the Parseval check finds its pip at fault (R132, R144); a block that is over writes its record
and begins anew (R139, R142, R166, R168, R183); a fault of an idle pip is recorded and the pip goes into test (R353, R356); a
repair posts EV_PIP_REPAIRED (R144, R149); the bloom counts the oldest waiting spectrum of the personality whose turn it is (R153,
R156), a due decay and a due snapshot are made (R159, R160, R164); an accepted edge of TRIG_IN is stamped and one within 64 tk
of it merged (R177); a sequencer evaluates what is delivered, in ascending DT, and times out (R179, R180); a capture ends with
EV_CAP_DONE or is lost with EV_CAP_OVERFLOW (R183, R186, R191). -/
def Obligations.SpectralEvents : Prop := ∀ t s,
  let u := advance t s
  (∀ p upset, p < 4 →
    let v := pump p u
    let g := getSpec p v
    let m := nextDealt (g.missing ++ g.lost) 64 g.completed
    let w := modSpec p (fun x => { x with completed := m + 1 }) v
    framesRun p v = true → planeRuns v = true → frameComplete p m v = true →
    exec (.pipFrameDone t p upset) s = .next (pump p (if parsevalFails (frameDataOf p m upset w) = true
      then pipFaulted (pipOf g m) 1 (modSpec p (fun x => { x with missing := x.missing ++ [m] }) w)
      else modSpec p (fun x => { x with waiting := x.waiting ++ [(m, pipOf g m, 0, upset)] }) w))) ∧
  (∀ p, let x := getSpec p u
    averageDue x = true →
    let r := selected x.fft
    let bytes := spectrumRecord p x.fft x.avgInfo (portDt p x.firstDt.toNat u) x.firstSeq
      (blockFlags x.avgFlags x.summed x.fft.avg x.accSat) x.summed x.lastPip ((List.range r.2).map fun i =>
        if x.summed = 0 then below
        else averagedLevel (x.acc.getD (r.1 + i) 0) x.summed x.avgInfo.shift (x.avgTerms.getD (r.1 + i) 0))
    let anew := modSpec p fun x => { x with seen := 0, summed := 0, avgFlags := 0, accSat := false, acc := [], avgTerms := [] }
    (x.limitStopped = false → exec (.averagingBlockEnd t p) s =
      .next (capSpectrum p x.avgInfo.f x.firstDt bytes (anew (writeRecord x.fft.ring bytes u)))) ∧
    (x.limitStopped = true → exec (.averagingBlockEnd t p) s = .next (anew u))) ∧
  (∀ p i, let x := getSpec p u
    let tr := tget {} x.traces i
    traceDue x tr = true → (getTrig p u).limit = none →
    let bytes := traceRecordBytes p i tr (blockFlags tr.flags tr.summed tr.cfg.interval tr.accSat)
      (tracePoints tr (frameLen x.fft) tr.info.shift) u
    exec (.traceBlockEnd t p i) s = .next (modSpec p (fun x => { x with traces := tmod {} x.traces i (fun tr =>
      { tr with seen := 0, summed := 0, flags := 0, accSat := false
                acc := if tr.cfg.hold then tr.acc else [], terms := if tr.cfg.hold then tr.terms else [] }) })
      (if x.limitStopped then u else writeRecord tr.cfg.ring bytes u))) ∧
  (∀ n cause, pipHealthy n u = true → 1 ≤ cause → cause ≤ 4 →
    exec (.pipFault t n cause) s = .next (pipFaulted n cause u) ∧
    ((getPip n u).personality = 0xF → (getPip n u).strike = none → u.health.faults = [] → u.health.halting = [] →
      let v := modPip n (fun c => { c with state := .inTest, personality := 0xF, strike := some u.dt }) u
      let r : FaultRecord := { opened := u.dt, closed := u.dt, cls := 1, cause := cause, unit := n, state := 2, outcome := 1
                               personality := 0xFF, nest := 1, spare := none }
      exec (.pipFault t n cause) s =
        .next { v with health := { v.health with closedFaults := (r :: v.health.closedFaults).take 64 } })) ∧
  (∀ n poisoned,
    let mine := u.health.faults.find? fun r => r.cls == 1 && r.unit == n && r.state == 1 && r.spare.isSome
    (mine = none → exec (.pipRecomputeDone t n poisoned) s = .next (each [0, 1, 2, 3] pump u)) ∧
    (∀ r k, mine = some r → r.spare = some k → r.personality < 4 →
      let p := r.personality
      let due := (getSpec p u).missing.filter fun m => pipOf (getSpec p u) m == k
      let v := modSpec p (fun x => { x with
        missing := x.missing.filter fun m => !due.contains m
        waiting := x.waiting ++ due.map fun m => (m, k, 256 + 128 * b2n poisoned, []) }) u
      exec (.pipRecomputeDone t n poisoned) s = .next (each [0, 1, 2, 3] pump (finishRecord 1 n 1 (struckPip n r.cause
        (eventAt r.opened 0x0801 1 p [(16, 1, p), (17, 1, n), (18, 1, k), (19, 1, due.length), (20, 8, due.headD 0),
          (28, 2, sat 2 ((due.map fun m => (u.dt.toNat - frameDue p m u) / tkUs).foldl max 0)), (30, 1, r.cause)]
          { v with health := { v.health with pipRepairs := v.health.pipRepairs + 1 } })))))) ∧
  (∀ p q rest, let v := settle (· == .spectrum p) u
    (getSpec p v).queue = q :: rest → bloomTurn p v = true → bloomFresh v ≠ [] →
    exec (.bloomIngest t p) s = .next (each (mapsOf p v) (fun k => mapIngest k q.2 (Nat.log2 q.2.levels.length))
      (modSpec p (fun x => { x with queue := rest, served := true }) v))) ∧
  (∀ m, (getBloom m u).owed = true → ∃ v, exec (.bloomDecay t m) s = .next v ∧
    getBloom m v = { getBloom m u with
      cells := ((getBloom m u).cells.map fun c => (c.1, c.2 * (getBloom m u).cfg.gain / 65536)).filter fun c => c.2 != 0
      decays := (getBloom m u).decays + 1, owed := false } ∧
    (∀ k, k ≠ m → getBloom k v = getBloom k u) ∧ { v with bloom := u.bloom } = u) ∧
  (∀ m, (getBloom m u).decaying = true → (getBloom m u).owed = false →
    exec (.decayPassDone t m) s = .next (modBloom m (fun b => { b with decaying := false }) u)) ∧
  (∀ m, let v := settle (· == .spectrum (getBloom m u).cfg.personality) u
    snapshotDue (getBloom m v) = true →
    let w := modBloom m (fun b => { b with snapAt := b.spectra }) (modBloom m settleDecay v)
    exec (.bloomSnapshot t m) s =
      .next (writeRecord (getBloom m w).cfg.snapRing (snapshotBytes m (clearFollows m v) w) w)) ∧
  (∀ line, line < 4 → u.stone.stage ≠ .power →
    let falling := bit u.lineLog.cfg.fallingEdges line
    ((∀ d, tget none u.trigIn line = some d → ¬ (u.dt.toNat < d.toNat + 64 ∧ dtLe d u.dt = true)) →
      let v := deliverTrig (0x300 + line) u.dt u.dt { u with trigIn := tput none u.trigIn line (some u.dt) }
      exec (.trigInEdge t line falling) s =
        .next (lineLog (0x10 + line) (b2n (!falling)) 0 v.dt (raiseLine (120 + line) 1 (genRequest 2 line v)))) ∧
    (∀ d, tget none u.trigIn line = some d → u.dt.toNat < d.toNat + 64 → dtLe d u.dt = true →
      exec (.trigInEdge t line falling) s = .next (lineMerge (0x10 + line) u)) ∧
    exec (.trigInEdge t line (!falling)) s = .next u) ∧
  (∀ p, (getTrig p u).seq.steps ≠ [] →
    let ripe := fun (e : TrigEvent) => decide (e.dt.toNat ≤ u.dt.toNat - seqLat p u)
    let sorted := ((getTrig p u).events.filter ripe).foldl (fun l e => insertEvent e l) []
    exec (.sequencerEvaluate t p) s = .next (each (groupEvents sorted) (seqGroup p)
      (modTrig p (fun x => { x with events := x.events.filter fun e => !ripe e }) u))) ∧
  (∀ p, let v := seqEvaluate p u
    (getTrig p v).armed = true →
    let upTo := v.dt.toNat - seqLat p v
    ∃ w, exec (.sequencerStepTimeout t p) s = .next w ∧ w = modTrig p (seqTimeouts (dtAdd 0 upTo)) v ∧
      (∀ e, (getTrig p v).step ≠ 0 → (getTrig p v).seq.steps[(getTrig p v).step]? = some e → e.timeout ≠ 0 →
        (getTrig p v).entered.toNat + e.timeout ≤ upTo % 2 ^ 64 → (getTrig p w).step = 0 ∧ (getTrig p w).count = 0)) ∧
  (∀ k, let c := getCap k u
    let ended := fun (extra : Nat) (goOn : Bool) =>
      let r := capRecord k extra u
      let last := (r.units.getLast?.map (·.1)).getD u.dt
      eventAt last 0x0C01 0 k [(16, 1, k), (17, 1, c.segment), (18, 2, r.flags), (24, 8, r.units.length)]
        (modCap k (fun c => capNext { c with records := tput {} c.records c.segment r } last goOn) u)
    (c.phase = 2 → postDone c = true → exec (.captureEnd t k) s = .next (ended 0 true)) ∧
    (c.phase = 1 ∨ c.phase = 2 → postDone c = false → ∀ d, c.stopAt = some d → dtLe d u.dt = true →
      exec (.captureEnd t k) s = .next (ended 128 false)) ∧
    (c.phase = 1 ∨ c.phase = 2 →
      let last := (c.units.head?.map (·.1)).getD u.dt
      exec (.captureOverflow t k) s =
        .next (eventAt last 0x0C02 2 k [(16, 1, k), (17, 1, c.segment), (24, 8, last.toNat)] (ended 32 false))))

/-- The generator and laser rows answer these next states. At a latch point the stop wins over the jump and the jump over the
repeats, and the pending bit it acts on is consumed (R208, R209); at the end of a play what lands at the segment start does, and
the latched entry's play begins, or the sequence stops with EV_GEN_STOPPED (R205, R211; settle, R54); a missing granule counts an
underrun, latches the next RESUME entry or a stop and posts EV_GEN_UNDERRUN (R214); a trip of an owned DAC drops LASER_EN, is
latched and posts EV_LASER_TRIP, and a change of LASER_PERMIT posts its event (R236). -/
def Obligations.GeneratorEvents : Prop := ∀ t s,
  let u := advance t s
  (∀ d e, let g := getGen d u
    g.running = true → g.latched = none → dtLe (playEnd g) (dtAdd u.dt 512) = true → g.table[g.entry]? = some e →
    ∃ v, exec (.genLatchPoint t d) s = .next v ∧ v = modGen d (fun _ => getGen d v) u ∧
    (condPending g e.stopCond = true → getGen d v = { g with
      latched := some (none, 2), pending := g.pending.filter fun b => condBit e.stopCond != some b }) ∧
    (condPending g e.stopCond = false → condPending g e.jumpCond = true → getGen d v = { g with
      latched := some (some e.jumpTo, 1), plays := 1, loops := tput 0 g.loops g.entry 0
      pending := g.pending.filter fun b => condBit e.jumpCond != some b }) ∧
    (condPending g e.stopCond = false → condPending g e.jumpCond = false →
      (e.repeats = 0 → getGen d v = { g with latched := some (some g.entry, 0) }) ∧
      (g.plays < e.repeats → getGen d v = { g with latched := some (some g.entry, 0), plays := g.plays + 1 }) ∧
      (0 < e.repeats → e.repeats ≤ g.plays → tget 0 g.loops g.entry < e.loopCount → getGen d v = { g with
        latched := some (some e.loopTo, 1), plays := 1, loops := tmod 0 g.loops g.entry (· + 1) }) ∧
      (0 < e.repeats → e.repeats ≤ g.plays → e.loopCount ≤ tget 0 g.loops g.entry → bit e.flags 8 = true →
        getGen d v = { g with latched := some (none, 1) }) ∧
      (0 < e.repeats → e.repeats ≤ g.plays → e.loopCount ≤ tget 0 g.loops g.entry → bit e.flags 8 = false → e.next ≠ 0xFFFF →
        getGen d v = { g with latched := some (some e.next, 1), plays := 1, loops := tput 0 g.loops g.entry 0 }))) ∧
  (∀ d, let v := settle (fun b => b == .segment d || b == .epoch d || b == .stack d) u
    let g := getGen d v
    g.running = true → playEnd g = v.dt →
    (∀ e k, g.latched = some (some e, k) → exec (.genSegmentStart t d) s = .next (withEpoch d (fun v =>
      playBegin d (playEnd g) { entry := e, plays := g.plays, loops := g.loops } (k == 1) (playOut d (playOf g e) v)) v)) ∧
    (∀ k, g.latched = some (none, k) → exec (.genSegmentStart t d) s = .next (withEpoch d (genEnd d k) v))) ∧
  (∀ line, bit u.route.trigOut line = true →
    exec (.trigOutPulseEnd t line) s = .next { u with route := { u.route with trigOut := u.route.trigOut - 2 ^ line } }) ∧
  (∀ d, let g := getGen d u
    g.running = true → g.missing = none →
    let r := resumeEntry g g.entry
    exec (.generatorUnderrun t d) s =
      .next (event 0x0D01 2 d [(16, 1, d), (18, 2, g.entry), (20, 2, r.getD 0xFFFF), (24, 8, (granuleStart g u.dt).toNat)]
        (markUnderrun d (modGen d (fun g => { g with
          underruns := g.underruns + 1, plays := 1, loops := [], latched := some (r, if r.isSome then 1 else 4) }) u)))) ∧
  (∀ d measure, dacOwned d u = true → (getGen d u).running = true → (getGov d u).caps.isSome = true → 1 ≤ measure → measure ≤ 3 →
    let v := laserTrip measure d u
    exec (.laserComparatorTrip t d measure) s = .next (event 0x0E01 3 d [(16, 1, d), (17, 1, measure), (24, 8, u.dt.toNat)] v) ∧
    v.laser.en = false ∧ v.laser.trip = measure ∧ v.laser.tripDac = d ∧ (d < 2 → (getGov d v).tripped = true)) ∧
  (u.laser.permit = true →
    let v := { u with laser := { u.laser with permit := false, permitAt := u.dt } }
    (dacOwned 0 u = false → dacOwned 1 u = false →
      exec (.laserPermitLow t) s = .next (event 0x0E02 1 0xFFFF [(16, 1, 0), (24, 8, u.dt.toNat)] v)) ∧
    (dacOwned 0 u = true ∨ dacOwned 1 u = true →
      let w := laserTrip 4 0 v
      exec (.laserPermitLow t) s = .next (event 0x0E02 1 0xFFFF [(16, 1, 0), (24, 8, u.dt.toNat)] w) ∧
      w.laser.en = false ∧ w.laser.trip = 4)) ∧
  (u.laser.permit = false →
    exec (.laserPermitHigh t) s = .next (event 0x0E02 1 0xFFFF [(16, 1, 1), (24, 8, u.dt.toNat)]
      { u with laser := { u.laser with permit := true, permitAt := u.dt } }))

/-- The rows of the fibres, the slow converter, the excitation outputs and the currants answer these next states. A trace is
computed from the optical samples and leaves in launch order (R226, R228, R267); a full band window is written (R270); a complete
DTS launch is stacked, or left out with its causes (R239, R240); a stack ends, and ADPLL-F may hop (R72, R240); a DTS record is
written (R245); a conversion starts after its delay, integrates after 0.8 ms of power-up and ends with its result (R248, R253,
R254); a break aborts a conversion on its output or is latched (R255); impedance checks fall due and end (R257); a currant's
fault is recorded, and its repair posts EV_CUR_REPAIRED (R272, R356). What lands at a stack or a conversion boundary lands there
(settle, R54); the choices behind them are logs 6, 40, 42, 62, 65, 70 and 86. -/
def Obligations.FibreEvents : Prop := ∀ t s,
  let u := advance t s
  (∀ f slot tr, let x := getFibre f u
    x.das = true → traceOfSlot f slot u = some tr →
    exec (.dasTraceReady t f slot) s = .next (dasReady f [(tr, false)] u) ∧
    (∀ l rest, x.launches = l :: rest → x.ready = [] → l.slot ≠ slot → exec (.dasTraceReady t f slot) s =
      .next (modFibre f (fun x => { x with ready := [(tr, false)] }) u))) ∧
  (∀ f l seq, let x := getFibre f u
    x.das = true → bandFull x = true → x.bandFirst = some (l, seq) →
    let es := (List.range l.grid.positions).map fun p =>
      if x.bandBad.contains p then below else bandLevel (x.bandTaps.getD p {}).sum
    let bits := (List.range (ceilDiv l.grid.positions 8)).map fun i =>
      ((List.range 8).map fun j => if x.band.thresh < es.getD (8 * i + j) below then 2 ^ j else 0).sum
    exec (.dasBandWindowEnd t f) s = .next (modFibre f
      (fun x => { bandReset x with bandTaps := x.bandTaps.map fun t => { t with sum := 0 } })
      (writeRecord x.band.ring (padZero 64 (dasHeader 8 f x.cal l seq (bandLen l.grid.positions) x.bandFlags x.bandLength ++
        (es.map (leInt 2)).flatten ++ (bits.map (leBytes 1)).flatten)) u))) ∧
  (∀ f l rest, let v := settle (· == .stack f) u
    let x := getFibre f v
    x.hopped = false → x.dts = true → x.launches = l :: rest → x.stackSeen < dtsRequested x → launchComplete f l v = true →
    let causes := leftOutCauses x l (launchOvr f l v)
    let y := { x with
      launches := rest, prevLaunch := some l.dt, stackSeen := x.stackSeen + 1, stackLast := l.dt
      stackFirst := if x.stackSeen = 0 then l.dt else x.stackFirst, stackFlags := x.stackFlags ||| causes }
    (causes = 0 → let a := launchCells f 0 l v
      let b := launchCells f 1 l v
      exec (.dtsLaunch t f) s = .next (modFibre f (fun _ => { y with
        stackSummed := y.stackSummed + 1, sumA := addCells y.sumA a, sumS := addCells y.sumS b
        stackSat := y.stackSat || cellsSat y.sumA a || cellsSat y.sumS b }) v)) ∧
    (causes ≠ 0 → exec (.dtsLaunch t f) s = .next (modFibre f (fun _ => { y with leftOut := y.leftOut + 1 }) v))) ∧
  (∀ f, let x := getFibre f u
    x.dts = true → dtsRequested x ≤ x.stackSeen →
    let v := dtsStackEnd f u
    exec (.dtsStackEnd t f) s = .next (settle (· == .stack f) (stackHop v)) ∧
    (getFibre f v).record = some (dtsRecord f x) ∧ (getFibre f v).stackSeq = x.stackSeq + 1 ∧ (getFibre f v).stackSeen = 0 ∧
    (getFibre f v).sumA = [] ∧ (getFibre f v).sumS = [] ∧ ∀ k, k ≠ f → getFibre k v = getFibre k u) ∧
  (∀ f bytes, (getFibre f u).record = some bytes → exec (.dtsRecordReady t f) s =
    .next (writeRecord (getFibre f u).dtsCfg.ring bytes (modFibre f (fun x => { x with record := none }) u))) ∧
  (let v := settle (· == .conversion) u
   jobDelayed v = true → notStarted v = true → dtLe (convStart v) v.dt = true → exec (.slowEntryDelayEnd t) s =
      .next (modSlow (fun x => { x with poweredUp := true, since := convStart v }) v)) ∧
  (let v := powerUp (settle (· == .conversion) u)
   integrationDue v = true →
   let e := jobEntry v
   let start := dtAdd v.slow.since powerUpTk
   let begun := fun (bits : Nat) (w : State) => modSlow (fun x => { x with
     integrating := true, since := start, poweredUp := true, lastGain := some e.gain
     startFlags := bits + 8 * b2n (gainChanged v) + 16 * b2n (v.slow.lastOvr.any fun d => decide (dtSub start d < 2 * tkMs)) }) w
   ((getExc e.exc v).cfg.enable = false → exec (.slowIntegrationStart t) s = .next (begun 2 v)) ∧
   ((getExc e.exc v).cfg.enable = true →
     exec (.slowIntegrationStart t) s = .next (begun (4 * b2n ((draw v).1 % 2 == 1)) (draw v).2))) ∧
  (∀ code, u.slow.integrating = true → dtLe (convEnd u) u.dt = true →
    let dt := convEnd u
    let e := jobEntry u
    let off := bit u.slow.startFlags 1
    let c := if off then 0x7FFFFF else (rangeCode e.gain code).1
    let status := u.slow.startFlags ||| (if off then 0 else (rangeCode e.gain code).2) ||| 128 * b2n (getExc e.exc u).breakLatched
    let v := modExc e.exc (fun x => { x with breakLatched := false }) u
    let w := if bit status 6 then modSlow (fun x => { x with lastOvr := some dt }) v else v
    exec (.slowConversionEnd t code) s = .next (settle (· == .conversion) (nextJob (dtAdd dt resultTk)
      (jobDone dt c status (slowResult dt c status (jobNames u).1 (jobNames u).2 w))))) ∧
  (u.slow.partials ≠ [] → 100 * tkMs ≤ dtSub u.dt u.slow.partialFirst →
    let v := modSlow (fun x => { x with partials := [] }) u
    (ringRoom (getRing u.slow.ring v) v = true → exec (.slowPartialEntryFlush t) s = .next (publish u.slow.ring
      (u.slow.partials.flatten ++ (List.replicate (4 - u.slow.partials.length) resultPadding).flatten) v)) ∧
    (ringRoom (getRing u.slow.ring v) v = false → exec (.slowPartialEntryFlush t) s = .next (modSlow (fun y => { y with
      lost := y.lost + u.slow.partials.length, lostFirst := if y.lost = 0 then u.slow.partialFirst else y.lostFirst }) v))) ∧
  (∀ n, let x := getExc n u
    let broken := fun (latch : Bool) => event 0x1201 2 n [(16, 1, n), (17, 1, 1), (24, 8, u.dt.toNat)]
      (modExc n (fun x => { x with broken := true, breakLatched := x.breakLatched || latch }) u)
    (x.cfg.enable = true → x.broken = false →
      (converting n u = false → exec (.excBreakDetect t n) s = .next (broken true)) ∧
      (converting n u = true → exec (.excBreakDetect t n) s =
        .next (settle (· == .conversion) (slowAbort (broken false))))) ∧
    (x.broken = true → exec (.excBreakRestored t n) s =
      .next (event 0x1201 2 n [(16, 1, n), (17, 1, 0), (24, 8, u.dt.toNat)] (modExc n (fun x => { x with broken := false }) u))) ∧
    (x.cfg.enable = true → x.cfg.impPeriod ≠ 0 → n < 4 → dtLe x.nextCheck u.dt = true → n ∉ u.slow.checksDue →
      let v := modSlow (fun y => { y with checksDue := y.checksDue ++ [n] })
        (modExc n (fun x => { x with nextCheck := dtAdd x.nextCheck (x.cfg.impPeriod * tkS) }) u)
      exec (.impedanceCheckDue t n) s = .next (slowKick v) ∧
      (u.slow.job ≠ none → exec (.impedanceCheckDue t n) s = .next v)) ∧
    (∀ nF uS : Nat, u.slow.job = some (.impedance n) → let dt := dtAdd u.slow.since toneTk
      dtLe dt u.dt = true →
      let v := slowResult dt (min nF 0x7FFFFF) (128 * b2n x.breakLatched) 0xFE (0x10 + n) (modExc n (fun x =>
        { x with breakLatched := false, lastC := nF, lastG := uS, lastCheck := dt }) u)
      (nF ≤ x.cfg.cMax → exec (.impedanceCheckDone t n nF uS) s = .next (settle (· == .conversion) (nextJob dt v))) ∧
      (x.cfg.cMax < nF → exec (.impedanceCheckDone t n nF uS) s = .next (settle (· == .conversion)
        (nextJob dt (event 0x1202 1 n [(16, 1, n), (20, 4, sat 4 nF), (24, 8, dt.toNat)] v)))))) ∧
  (∀ n cause, currantHealthy n u = true → 1 ≤ cause → cause ≤ 4 →
    exec (.currantFault t n cause) s = .next (currantFaulted n cause u) ∧
    ((getCurrant n u).personality = 0xF → (getCurrant n u).strike = none → u.health.faults = [] → u.health.halting = [] →
      let v := modCurrant n (fun c => { c with state := .inTest, personality := 0xF, kernel := 0, strike := some u.dt }) u
      let r : FaultRecord := { opened := u.dt, closed := u.dt, cls := 2, cause := cause, unit := n, state := 2, outcome := 1
                               personality := 0xFF, nest := 1, spare := none }
      exec (.currantFault t n cause) s =
        .next { v with health := { v.health with closedFaults := (r :: v.health.closedFaults).take 64 } })) ∧
  (∀ n slots,
    let mine := u.health.faults.find? fun r => r.cls == 2 && r.unit == n && r.state == 1 && r.spare.isSome
    (mine = none → exec (.currantRecomputeDone t n slots) s = .next u) ∧
    (∀ r, mine = some r → (getFibre (r.personality - 4) u).das = true →
      let f := r.personality - 4
      let due := (slots.take 2).filter fun k => (traceOfSlot f k u).isSome
      let first := ((due.head?.bind (launchDue (getFibre f u))).map (·.dt.toNat)).getD 0
      let v := each due (fun k v => match traceOfSlot f k v with
        | some tr => dasReady f [(tr, true)] v
        | none => v) { u with health := { u.health with curRepairs := u.health.curRepairs + 1 } }
      exec (.currantRecomputeDone t n slots) s = .next (finishRecord 2 n 1 (struckCurrant n r.cause
        (event 0x1301 1 r.personality [(16, 1, r.personality), (17, 1, n), (18, 1, r.spare.getD 0), (19, 1, due.length),
          (20, 1, r.cause), (24, 8, first)] v)))))

/-- A ready channel that stands at an instruction it can fetch runs it (R278), and these next states follow: MOVE, GATHER and
SCATTER without a fault begin a transfer of their pieces (R279, R280); LOOP counts down and jumps back, or goes on (R282); WAIT
waits, or passes when its DT is past (R283); SIGNAL publishes or consumes ring entries, posts EV_DMA_SIGNAL, adds to a semaphore
or raises a request line (R284); LINK moves on and END parks or fetches its address again after a kick (R278, R293); a reserved
field or an undefined OP stops the channel with its cause (R288). That a row which names another instruction, or comes early,
only lets time pass is the model's choice (log 9), and SCATTER's source is that of log 48. -/
def Obligations.DmaInstructions : Prop := ∀ t n (w : U128) s,
  let u := advance t s
  let c := getChan n u
  dmaReady c = true → spaceWaits c c.posSpace u = false → dmaNoFetch c u = false → dmaWordAt c u = w.toNat →
  let next := fun (v : State) => modChan n (fun c => { c with pos := c.pos + 16, refetch := false, done := true }) v
  let stop := fun (cause : Nat) => dmaStop n cause u
  let begun := fun (pieces : List (Nat × Nat × Nat × Nat × Nat)) => modChan n (fun c => { c with
    transfer := some { pieces := pieces, burst := 16 * 2 ^ wbits w 11 8, req := bit w.toNat 4, line := wbits w 20 12
                       flush := pieces.any fun p => p.2.2.1 == 1 }
    remaining := (pieces.map fun p => p.2.2.2.2).sum, done := false, refetch := false }) u
  (w.toNat % 16 = 1 → transferError c w = none → let len := wbits w 43 21
    (len % 4 ≠ 0 → exec (.dmaMove t n w) s = .next (stop 5)) ∧
    (len % 4 = 0 → sideError c false true (wbits w 45 44) (wbits w 85 46) len u = none →
      sideError c true true (wbits w 87 86) (wbits w 127 88) len u = none →
      exec (.dmaMove t n w) s = .next (begun [(wbits w 45 44, wbits w 85 46, wbits w 87 86, wbits w 127 88, len)]))) ∧
  (spaceWaits c (wbits w 45 44) u = false → ∀ items, dmaList c w u = .inr items →
    (w.toNat % 16 = 2 → sideError c true false (wbits w 87 86) (wbits w 127 88) ((items.map fun i => i.2.2).sum) u = none →
      (∀ i ∈ items, sideError c false false i.1 i.2.1 i.2.2 u = none) → exec (.dmaGather t n w) s =
        .next (begun ((items.zip (runs (wbits w 87 86) (wbits w 127 88) (items.map fun i => i.2.2))).map fun i =>
          (i.1.1, i.1.2.1, wbits w 87 86, i.2, i.1.2.2)))) ∧
    (w.toNat % 16 = 3 → (∀ i ∈ items, sideError c true false i.1 i.2.1 i.2.2 u = none) →
      exec (.dmaScatter t n w) s = .next (begun (items.map fun i => (2, 0, i.1, i.2.1, i.2.2))))) ∧
  (spaceWaits c (wbits w 45 44) u = false → ∀ cause, dmaList c w u = .inl cause →
    (w.toNat % 16 = 2 → exec (.dmaGather t n w) s = .next (stop cause)) ∧
    (w.toNat % 16 = 3 → exec (.dmaScatter t n w) s = .next (stop cause))) ∧
  (w.toNat % 16 = 4 → let k := wbits w 5 4
    let back := wbits w 47 32
    (wbits w 7 6 ≠ 0 ∨ wbits w 127 48 ≠ 0 ∨ back = 0 ∨ c.pos < 16 * back → exec (.dmaLoop t n w) s = .next (stop 5)) ∧
    (wbits w 7 6 = 0 → wbits w 127 48 = 0 → back ≠ 0 → 16 * back ≤ c.pos →
      ((tget none c.counters k).getD (wbits w 31 8) = 0 → exec (.dmaLoop t n w) s =
        .next (next (modChan n (fun c => { c with counters := tput none c.counters k none }) u))) ∧
      (∀ v, (tget none c.counters k).getD (wbits w 31 8) = v + 1 → exec (.dmaLoop t n w) s = .next (modChan n (fun c => { c with
        counters := tput none c.counters k (some v), pos := c.pos - 16 * back, refetch := false, done := true }) u)))) ∧
  (w.toNat % 16 = 5 → waitError c w = none →
    (wbits w 5 4 = 3 → wbits w 127 64 ≤ u.dt.toNat → exec (.dmaWait t n w) s =
      .next (next (modChan n (fun c => { c with state := 1, wait := none }) u))) ∧
    (wbits w 5 4 ≠ 3 ∨ u.dt.toNat < wbits w 127 64 → exec (.dmaWait t n w) s =
      .next (modChan n (fun c => { c with state := 2, wait := some w, done := false, refetch := false }) u))) ∧
  (w.toNat % 16 = 6 → wbits w 7 7 = 0 → wbits w 63 45 = 0 → wbits w 127 96 = 0 →
    let obj := wbits w 44 32
    let count := wbits w 31 8
    let r := getRing obj u
    (wbits w 5 4 = 0 → count ≠ 0 → bit w.toNat 6 = true → boundCons c obj = true → count ≤ ringHeld r →
      exec (.dmaSignal t n w) s = .next (next (modRing obj (fun r => { r with cons := r.cons + BitVec.ofNat 16 count }) u))) ∧
    (wbits w 5 4 = 0 → count ≠ 0 → bit w.toNat 6 = false → boundProd c obj = true → count ≤ ringFree r →
      exec (.dmaSignal t n w) s = .next (next (publishMany obj count u))) ∧
    (wbits w 5 4 = 1 → exec (.dmaSignal t n w) s =
      .next (next (event 0x1403 0 n [(16, 1, n), (20, 4, wbits w 95 64), (24, 8, dmaPosition c)] u))) ∧
    (wbits w 5 4 = 2 → count ≠ 0 → obj < 768 → exec (.dmaSignal t n w) s = .next (next
      { u with dma := { u.dma with semaphores := tmod 0 u.dma.semaphores obj fun v => min 65535 (v + count) } })) ∧
    (wbits w 5 4 = 3 → count ≠ 0 → 256 ≤ obj → obj ≤ 447 →
      exec (.dmaSignal t n w) s = .next (next (raiseLine obj count u)))) ∧
  (w.toNat % 16 = 7 → let a := wbits w 127 64
    (wbits w 63 6 = 0 → wbits w 5 4 ≤ 1 → a % 16 = 0 → (wbits w 5 4 = 1 → a < 2 ^ 40) → exec (.dmaLink t n w) s =
      .next (modChan n (fun c => { c with pos := a, posSpace := wbits w 5 4, refetch := false, done := true }) u)) ∧
    (wbits w 63 6 ≠ 0 ∨ 1 < wbits w 5 4 ∨ a % 16 ≠ 0 ∨ (wbits w 5 4 = 1 ∧ 2 ^ 40 ≤ a) →
      exec (.dmaLink t n w) s = .next (stop 5))) ∧
  (w.toNat % 16 = 0 →
    let v := modChan n (fun c => if c.kick then { c with kick := false, refetch := true, done := true }
                                 else { c with state := 3, done := true, refetch := false }) u
    (bit w.toNat 4 = false ∨ c.refetch = true → exec (.dmaEnd t n w) s = .next v) ∧
    (bit w.toNat 4 = true → c.refetch = false → exec (.dmaEnd t n w) s =
      .next (event 0x1402 0 n [(16, 1, n), (24, 8, dmaPosition c)] v))) ∧
  (8 ≤ w.toNat % 16 → exec (.dmaUndefinedOp t n w) s = .next (stop 4) ∧
    (c.stopRef = none → exec (.dmaUndefinedOp t n w) s =
      .next (event 0x1401 2 n [(16, 1, n), (17, 1, 4), (20, 4, sat 4 c.remaining), (24, 8, dmaPosition c)]
        (modChan n (fun c => { c with state := 5, cause := 4, done := false, transfer := none, wait := none }) u))))

/-- The rows of transfers, request lines and messages answer these next states. A WAIT that holds passes and takes what it waited
for, the lowest channel first (R283); a burst that may be issued moves its bytes and stops the channel where its source or its
destination is beyond capacity or its source is poisoned (R279, R280, R288, R297); a transfer without pieces left is done, and a
host destination waits for the flush read (R287); an error response stops the channel, and an issued burst leaves free bytes
(R288, R289); a request of a listed line is counted (R285); a moderated ring signals when MOD_TIME is over (R295), and an
unmasked vector that is pending sends one message (R296). RATE's window is log 61's. -/
def Obligations.DmaEvents : Prop := ∀ t s,
  let u := advance t s
  (∀ n w, (getChan n u).wait = some w → (getChan n u).state = 2 → waitHolds w u = true → waitFirst n w u = true →
    let obj := wbits w 44 32
    let count := wbits w 31 8
    let pass := fun (v : State) => modChan n (fun c => { c with pos := c.pos + 16, refetch := false, done := true })
      (modChan n (fun c => { c with state := 1, wait := none }) v)
    (wbits w 5 4 = 0 → exec (.dmaWaitSatisfied t n) s =
      .next (pass { u with dma := { u.dma with lines := tmod 0 u.dma.lines obj (· - count) } })) ∧
    (wbits w 5 4 = 1 → exec (.dmaWaitSatisfied t n) s =
      .next (pass { u with dma := { u.dma with semaphores := tmod 0 u.dma.semaphores obj (· - count) } })) ∧
    (2 ≤ wbits w 5 4 → exec (.dmaWaitSatisfied t n) s = .next (pass u))) ∧
  (∀ n x p rest, let c := getChan n u
    c.transfer = some x → x.pieces = p :: rest → burstReady c x u = true →
    (p.1 = 0 ∨ p.2.2.1 = 0 → dramStalled u = false) →
    let len := min x.burst p.2.2.2.2
    let bad := p.1 = 0 ∧ (inDram p.2.1 len u = false ∨ poisonedIn p.2.1 len u = true)
    let out := p.2.2.1 = 0 ∧ inDram p.2.2.2.1 len u = false
    let w := if p.1 = 0 ∨ p.2.2.1 = 0 then dramTouch u else u
    (bad → exec (.dmaBurst t n) s = .next (dmaStop n 1 (burstMove n c x p true w))) ∧
    (¬ bad → out → exec (.dmaBurst t n) s = .next (dmaStop n 2 (burstMove n c x p false w))) ∧
    (¬ bad → ¬ out → exec (.dmaBurst t n) s = .next (burstMove n c x p false w) ∧
      (p.1 = 0 → p.2.2.1 = 0 → x.req = false → c.rate = 0 →
        let left := p.2.2.2.2 - len
        exec (.dmaBurst t n) s = .next (modChan n (fun c => { c with
          remaining := c.remaining - len, moved := c.moved + len, recent := []
          transfer := some { x with pieces := if left = 0 then rest else
            (0, p.2.1 + len, 0, p.2.2.2.1 + len, left) :: rest } })
          (storeAt 2 p.2.2.2.1 (readBytes u.dram p.2.1 len) w))))) ∧
  (∀ n x, (getChan n u).transfer = some x → x.pieces = [] → (getChan n u).state = 1 →
    (x.flush = true → dmaHostUp (getChan n u) u = true) →
    let v := modChan n (fun c => { c with pos := c.pos + 16, refetch := false, done := true })
      (modChan n (fun c => { c with transfer := none }) u)
    ((getChan n u).stopRef = none → exec (.dmaTransferDone t n) s = .next v) ∧
    (∀ r, (getChan n u).stopRef = some r → exec (.dmaTransferDone t n) s =
      .next (ok r 0 (modChan n (fun c => { c with stopRef := none, state := 4, wait := none }) v)))) ∧
  (∀ n x cause, (getChan n u).transfer = some x → (getChan n u).state = 1 → cause = 1 ∨ cause = 2 →
    (burstReady (getChan n u) x u = false → exec (.dmaErrorResponse t n cause) s = .next (dmaStop n cause u)) ∧
    (∀ p rest, burstReady (getChan n u) x u = true → x.pieces = p :: rest →
      exec (.dmaErrorResponse t n cause) s = .next (dmaStop n cause (burstMove n (getChan n u) x p true u)))) ∧
  (∀ n, dmaReady (getChan n u) = true → exec (.dmaErrorResponse t n 3) s = .next (dmaStop n 3 u)) ∧
  (∀ line, lineListed line = true →
    (tget 0 u.dma.lines line < 65535 → exec (.requestLineRequest t line) s =
      .next { u with dma := { u.dma with lines := tput 0 u.dma.lines line (tget 0 u.dma.lines line + 1) } }) ∧
    (tget 0 u.dma.lines line = 65535 →
      let old := tget (0, 0) u.dma.lost line
      let first := if old.1 = 0 then u.dt else old.2
      exec (.requestLineRequest t line) s =
        .next (event 0x1404 1 0xFFFF [(16, 2, line), (20, 4, sat 4 (old.1 + 1)), (24, 8, first.toNat)]
          { u with dma := { u.dma with lines := tput 0 u.dma.lines line 65535
                                       lost := tput (0, 0) u.dma.lost line (old.1 + 1, first) } }))) ∧
  (∀ n, let r := getRing n u
    r.created = true → 0 < r.unsignalled → r.modTime ≠ 0 → r.modTime * tkUs ≤ dtSub u.dt r.firstUnsignalled → ringStalled r u = false →
    exec (.msixModTimeExpiry t n) s =
      .next (sendMsi (ringFunction r) r.msix (modRing n (fun r => { r with unsignalled := 0 }) u))) ∧
  (∀ function vector, let key := 64 * function + vector
    let v := { u with pcie := { u.pcie with
      masked := u.pcie.masked.filter (· != key), pendingVecs := u.pcie.pendingVecs.filter (· != key) } }
    (key ∉ u.pcie.pendingVecs → exec (.msixUnmask t function vector) s = .next v) ∧
    (key ∈ u.pcie.pendingVecs → u.pcie.link = true → function = 0 ∨ u.pcie.pf1Enabled = true →
      exec (.msixUnmask t function vector) s =
        .next { v with pcie := { v.pcie with sent := tmod 0 u.pcie.sent key (· + 1) } }))

/-- The memory rows answer these next states. A point change that is under way ends with its completion and EV_MEM_FREQ (R304);
training holds the DRAM for its window and a change taken meanwhile begins after it (R305); self-refresh is entered after IDLE_US
without a request and left at the next (R301), and a bank is refreshed (R302); an error that is like none of the last second is
logged and counted, and a correctable one reported once a second (R307, R309); a third corrected read of a row within 24 h, and
every uncorrectable error, remaps the row (R310); an uncorrectable error poisons its word and has its requester's response
(R308, Table 15-3); an SRAM error spares its row (R312). When EV_MEM_FREQ's times round and how SRAM rows are counted are logs 7
and 55. -/
def Obligations.MemoryEvents : Prop := ∀ t s,
  let u := advance t s
  (∀ target ref taken began, u.memCtl.change = some (target, ref, taken, some began) → (getPll 2 u).absent = none →
    let w := pllRun 2 (dramKHz target) u
    let v := dramResumed { w with memCtl := { w.memCtl with point := target, change := none, selfRefresh := false } }
    exec (.dfsDone t) s = .next (event 0x1502 0 0xFFFF [(16, 1, target), (17, 1, b2n !(getPll 2 v).hop),
      (18, 2, sat 2 (micros began v.dt)), (20, 4, sat 4 (micros taken began))] (ok ref 0 v))) ∧
  (u.stone.dramWiped = true → u.memCtl.training = false → dramStalled u = false →
    exec (.trainingWindow t) s = .next { u with memCtl := { u.memCtl with training := true, lastTraining := u.dt } }) ∧
  (u.memCtl.training = true → let v := { u with memCtl := { u.memCtl with training := false } }
    exec (.trainingWindowEnd t) s = .next (dfsBegin v) ∧
    (u.memCtl.change = none → exec (.trainingWindowEnd t) s = .next v)) ∧
  (u.stone.dramWiped = true → u.memCtl.idleUs ≠ 0 → dramBusy u = false → dramStalled u = false →
    u.memCtl.idleUs * tkUs ≤ dtSub u.dt u.memCtl.lastRequest →
    exec (.selfRefreshEntry t) s = .next { u with memCtl := { u.memCtl with selfRefresh := true } }) ∧
  (refreshHeld u = false → exec (.dramWake t) s =
    .next { u with memCtl := { u.memCtl with selfRefresh := false, lastRequest := u.dt } }) ∧
  (∀ channel bank, u.stone.dramWiped = true → channel < 16 → u.memCtl.selfRefresh = false →
    exec (.dramRefresh t channel bank) s = .next { u with memCtl := { u.memCtl with
      refreshes := u.memCtl.refreshes + 1, lastRefresh := some (channel, bank) } }) ∧
  (∀ address, let word := address / 8 * 8
    let v := { u with memCtl := { u.memCtl with scrubbed := address } }
    (word ∉ u.memCtl.poisoned → exec (.patrolScrub t address) s = .next v) ∧
    (word ∈ u.memCtl.poisoned → let p := tget (0, 0, 0, 0) u.memCtl.places word
      exec (.patrolScrub t address) s = .next (memError (newEntry u 2 0 p.1 p.2.2.1 p.2.2.2 p.2.1 0xFF word) p.1 true
        { v with memCtl := { v.memCtl with dramUe := satAdd u32max u.memCtl.dramUe 1 } }))) ∧
  (∀ (r : DramError), u.stone.dramWiped = true →
    let cls := requesterClass r.requester u
    let word := r.addr / 8 * 8
    let logged := fun (e : LogEntry) => { u with memCtl := { u.memCtl with log := u.memCtl.log ++ [e] } }
    let anew := fun (e : LogEntry) => u.memCtl.log.length < 256 ∧
      ∀ o ∈ u.memCtl.log, sameError o e = false ∨ o.read = true ∨ tkS ≤ dtSub u.dt o.dt
    (r.kind = 3 → let e := newEntry u 3 cls r.channel r.row r.column r.bank r.bit r.addr
      anew e → (∀ p ∈ u.memCtl.ceEvent, p.1 ≠ r.channel) → exec (.dramEccError t r) s = .next (
        event 0x1501 1 r.channel [(16, 1, 3), (17, 1, cls), (18, 2, r.channel), (20, 4, 1), (24, 8, r.addr)]
        { logged e with memCtl := { (logged e).memCtl with ceEvent := u.memCtl.ceEvent ++ [(r.channel, u.dt)] } })) ∧
    (r.kind = 1 → exec (.dramEccError t r) s = .next (countRow cls r.channel r.bank r.row r.column r.addr
      (memError (newEntry u 1 cls r.channel r.row r.column r.bank r.bit r.addr) r.channel false
        { u with memCtl := { u.memCtl with dramCe := satAdd u32max u.memCtl.dramCe 1 } }))) ∧
    (r.kind = 2 →
      let v := { u with memCtl := { u.memCtl with
        dramUe := satAdd u32max u.memCtl.dramUe 1
        poisoned := if word ∈ u.memCtl.poisoned then u.memCtl.poisoned else u.memCtl.poisoned ++ [word]
        places := tput (0, 0, 0, 0) u.memCtl.places word (r.channel, r.bank, r.row, r.column) } }
      let w := remapRow cls r.channel r.bank r.row r.column r.addr
        (memError (newEntry u 2 cls r.channel r.row r.column r.bank 0xFF r.addr) r.channel true v)
      exec (.dramEccError t r) s = .next (faultArrive 7 2 r.channel 0xF 1 [] (poisonResponse r.requester w)) ∧
      word ∈ v.memCtl.poisoned)) ∧
  (∀ (r : SramError), 1 ≤ r.block → r.block ≤ 7 →
    let unit := r.block * 256 + r.inst % 256
    (r.uncorrectable = true →
      let v := sramLost r.block r.inst (spareSramRow r.block r.inst r.row r.addr
        (memError (newEntry u 5 0 unit r.row 0 0 0xFF r.addr) (16 + r.block) true
          { u with memCtl := { u.memCtl with sramUe := satAdd u32max u.memCtl.sramUe 1 } }))
      (r.block = 1 ∨ r.block = 3 ∨ r.block = 6 → exec (.sramEccError t r) s = .next v) ∧
      (r.block = 2 ∨ r.block = 4 ∨ r.block = 5 ∨ r.block = 7 →
        exec (.sramEccError t r) s = .next (faultArrive 6 5 unit 0xF 1 [] v))) ∧
    (r.uncorrectable = false →
      let w := memError (newEntry u 4 0 unit r.row 0 0 r.bit r.addr) (16 + r.block) false
        { u with memCtl := { u.memCtl with
          sramCe := satAdd u32max u.memCtl.sramCe 1
          sramHistory := (u.memCtl.sramHistory.filter fun h => decide (dtSub u.dt h.2 < 86400 * tkS)) ++
            [((r.block, r.inst, r.row), u.dt)] } }
      let seen := (w.memCtl.sramHistory.filter fun h => h.1 == (r.block, r.inst, r.row)).length
      (seen < 2 → exec (.sramEccError t r) s = .next w) ∧
      (2 ≤ seen → exec (.sramEccError t r) s = .next (spareSramRow r.block r.inst r.row r.addr w))))

/-- The link rows answer these next states. A PCIe width or rate is recorded, and one below 32 GT/s x8 reported (R318); a function
level reset of PF1 stalls its rings and clears its vectors, and bus mastering resumes them (R317); a port's link is reported, and
a frame received is answered, taken or discarded and counted (R319, R320); a bound ring sends its oldest entry, or drops it while
the link is down (R321, R331), and its drops are reported after a second (R330); the frame of a VDIF stream whose samples have
all left the path is written (R323 to R325); the peer's command datagram with the next SEQ enters the command ring, and a
resend with count 0 is answered with the endpoint's state (R328, R329). Endpoint checks are log 57's. -/
def Obligations.LinkEvents : Prop := ∀ t s,
  let u := advance t s
  (∀ width rate, let v := { u with pcie := { u.pcie with width := width, rate := rate } }
    ¬ (u.pcie.width = width ∧ u.pcie.rate = rate) →
    (8 ≤ width → 32 ≤ rate → exec (.pcieLinkChange t width rate) s = .next v) ∧
    (width < 8 ∨ rate < 32 → exec (.pcieLinkChange t width rate) s =
      .next (event 0x0104 1 0xFFFF [(16, 1, width), (17, 1, rate), (20, 4, pf1Budget v / 1000000)] v))) ∧
  (∃ w, exec (.pf1Flr t) s = .next w ∧ w.pcie.pf1Enabled = false ∧
    (∀ k ∈ w.pcie.masked, k < 64) ∧ (∀ k ∈ w.pcie.pendingVecs, k < 64) ∧
    ((∀ c ∈ u.dma.channels, c.2.pf1 = false ∨ (c.2.state ≠ 1 ∧ c.2.state ≠ 2)) → w = { u with pcie := { u.pcie with
      pf1Enabled := false, masked := u.pcie.masked.filter fun k => decide (k < 64)
      pendingVecs := u.pcie.pendingVecs.filter fun k => decide (k < 64) } })) ∧
  exec (.pf1BusMasterEnable t) s = .next (resumeRings { u with pcie := { u.pcie with pf1Enabled := true } }) ∧
  exec (.pf0D3hot t) s = .next { u with pcie := { u.pcie with pf0D3 := true } } ∧
  (∀ port up, (getPort port u).mode ≠ 0 → (getPort port u).up ≠ up → exec (.ethLinkChange t port up) s =
    .next (event 0x1601 1 port [(16, 1, port), (17, 1, b2n up), (24, 8, u.dt.toNat)]
      (modPort port (fun x => { x with up := up }) u))) ∧
  (∀ port frame, (getPort port u).up = true →
    (frame = .arp ∨ frame = .neighbour ∨ frame = .icmp → u.steward.running = true →
      exec (.ethFrameReceived t port frame) s = .next (modPort port (fun x => { x with sent := x.sent + 1 }) u)) ∧
    (frame = .ptp → bit (getPort port u).options 0 = true → exec (.ethFrameReceived t port frame) s = .next u) ∧
    (frame = .other → exec (.ethFrameReceived t port frame) s =
      .next (modPort port (fun x => { x with rxDiscarded := x.rxDiscarded + 1 }) u))) ∧
  (∀ ring c, let u := settle (· == .stream ring) u
    let r := getRing ring u
    r.stream = some c → ringHeld r ≠ 0 → r.stopped = false → ringReach r u = true →
    ((getPort c.port u).up = true → exec (.streamDatagramSend t ring) s =
      .next (modPort c.port (fun p => { p with sent := p.sent + 1 })
        (modPort c.port (fun p => { p with lastPayload := datagramBytes ring c u }) (modRing ring (fun r => { r with
          cons := r.cons + 1, published := r.published.drop 1, streamSeq := r.streamSeq + 1 }) u)))) ∧
    ((getPort c.port u).up = false → exec (.streamDatagramSend t ring) s =
      .next (drop ring 2 (modPort c.port (fun p => { p with discardedDown := p.discardedDown + 1 })
        (modRing ring (fun r => { r with cons := r.cons + 1, published := r.published.drop 1 }) u))))) ∧
  (∀ ring d, (getRing ring u).dropEvent = some d → tkS ≤ dtSub u.dt d → 0 < (getRing ring u).drops →
    exec (.streamDropReport t ring) s = .next (reportDrops ring u)) ∧
  (∀ ring c next base, let u := settle (· == .stream ring) u
    let r := getRing ring u
    let p := outPeriod c.path (getDdc c.path u).decim
    let ts := (List.range (vdifSamples c)).map fun i => next.toNat + i * p
    r.vdif = some c → r.vdifNext = some next → r.vdifSecond = some base → (getDdc c.path u).enable = true →
    vdifSkip c.path p (vdifSamples c) next.toNat u = 0 → (∀ x ∈ ts, (groupAt c.path p x u).isSome = true) →
    exec (.vdifFrame t ring) s =
      .next (vdifWrite ring c next.toNat r.vdifFrame base (ts.map fun x => pathSample c.path p x u) u)) ∧
  (∀ d, let n := u.endpoint.ring
    fromPeer d u = true → d.kind = 1 → d.ring = n → d.count = d.entries.length → d.seq = (u.endpoint.lastSeq + 1).toNat →
    d.first = (getRing n u).prod.toNat → ringHeld (getRing n u) + d.count ≤ ringSize (getRing n u) →
    ∃ v, exec (.controlCommandDatagram t d) s = .next v ∧ v.endpoint = { u.endpoint with
      lastSeq := BitVec.ofNat 32 d.seq, lastFirst := d.first, lastCount := d.count } ∧
    (getRing n v).prod = (getRing n u).prod + BitVec.ofNat 16 d.count ∧ v.rings = tmod {} u.rings n (fun r =>
      { r with prod := r.prod + BitVec.ofNat 16 d.count })) ∧
  (∀ d p, let n := u.endpoint.ring
    fromPeer d u = true → d.kind = 4 → d.count = 0 → u.endpoint.port = some p →
    exec (.controlResendDatagram t d) s = .next (modPort p (fun x => { x with sent := x.sent + 1 }) { u with
      endpoint := { u.endpoint with
        out := u.endpoint.out ++ [(4, some u.endpoint.lastSeq.toNat, n, (getRing n u).prod.toNat, 0)] } }))

/-- The display rows answer these next states. A frame that starts is counted and stamped, and the third of a new mode ends its
change (R335, R343); the end of its active area releases the buffers replaced (R341); at its end underflow is counted (R342), the
display members that are due land, and an idle panel may refresh itself (R340, R344); the sink is unplugged, plugged and
interrupts with EV_DISP_HPD (R335); training ends with the link up, or is tried again, and the third failure ends a mode change
that waited for it (R343). The rate EV_DISP_UNDERFLOW counts over is log 38's. -/
def Obligations.DisplayEvents : Prop := ∀ t s,
  let u := advance t s
  (u.disp.mode.output ≠ 0 → let v := pllRun 3 u.disp.mode.pclk u
    framesOut v = true → ∃ w, exec (.displayFrameStart t) s = .next w ∧ w = frameStartNow (psrLeave v) ∧
      w.disp.frame = u.disp.frame + 1 ∧ w.disp.frameDt = v.dt) ∧
  (framesOut u = true → u.disp.frame ≠ 0 → u.disp.modeChange = none → exec (.displayVerticalActiveEnd t) s =
    .next (each u.disp.releases releaseEvent { u with disp := { u.disp with releases := [] } })) ∧
  (∀ underflow, framesOut u = true → u.disp.frame ≠ 0 →
    let w := if scansOut u = true then underflows (underflow.take 4) u else u
    let v := settle (fun _ => false) { w with disp := { w.disp with update := [] } }
    let idle := { v with disp := { v.disp with idleRun := v.disp.idleRun + 1 } }
    displayAnchored v = [] →
    (displayDue v = [] → exec (.displayFrameEnd t underflow) s = .next (psrEnter idle) ∧
      (v.disp.psrMode = 0 → exec (.displayFrameEnd t underflow) s = .next idle)) ∧
    (displayDue v ≠ [] → exec (.displayFrameEnd t underflow) s =
      .next (each (displayDue v) displayBunch (modDisp (fun d => { d with idleRun := 0 }) (psrLeave v))))) ∧
  (let hpd := fun (what : Nat) (v : State) => event 0x1703 1 0 [(16, 1, what), (24, 8, v.dt.toNat)] v
   u.fuse.display = true →
   (u.disp.sink = true → exec (.hpdUnplug t) s = .next (hpd 0 { u with disp := { u.disp with
     sink := false, link := false, psrActive := false, update := [], modeChange := u.disp.modeChange.map fun m => (m.1, false) } })) ∧
   (u.disp.sink = false → exec (.hpdPlug t) s =
     .next (hpd 1 { u with disp := { u.disp with sink := true, retries := 0, wait := some true } })) ∧
   (u.disp.sink = true →
     exec (.hpdIrq t true) s = .next (hpd 2 { u with disp := { u.disp with link := false, retries := 0 } }) ∧
     exec (.hpdIrq t false) s = .next (hpd 2 u))) ∧
  (u.disp.mode.output ≠ 0 → (getPll 3 u).absent = none → u.disp.sink = true → u.disp.link = false → u.disp.retries < 3 →
    let v := pllRun 3 u.disp.mode.pclk u
    let up := { v with disp := { v.disp with
      link := true, retries := 0, modeChange := v.disp.modeChange.map fun m => (m.1, false) } }
    let again := { v with disp := { v.disp with retries := v.disp.retries + 1 } }
    ((∀ m ∈ u.disp.modeChange, m.2 = false) → exec (.linkTrainingDone t true) s = .next up) ∧
    (∀ late, u.disp.modeChange = some (late, true) → exec (.linkTrainingDone t true) s = .next (frameStartNow up)) ∧
    (u.disp.modeChange = none ∨ u.disp.retries < 2 → exec (.linkTrainingDone t false) s = .next again) ∧
    (∀ late, u.disp.modeChange = some (late, true) → u.disp.retries = 2 →
      exec (.linkTrainingDone t false) s = .next (modeEvent 1 late again)))

/-- The health rows answer these next states. A sensor reads its new temperature, and a warning level that changes is reported
(R392, Table 18-8); the due visit of the unit whose turn it is relieves an assigned pip or currant by a scheduled bunch and tests
any other in place (R345, R346, R348); a test that passes gives a spare and one that fails retires the unit (R348, R353); a swap
that is due rotates an optical receiver's slices (R350); the second deviation of a loopback in a row retires the DAC (R351); a
reference that drifts corrects the gain and is reported (R351), and the slow converter's self-tests are queued (R350). The spacing
of the visits and swaps is log 79's, what a failed receiver halts is log 68's. -/
def Obligations.HealthEvents : Prop := ∀ t s,
  let u := advance t s
  (∀ sensor centi, let r := tempStep u.health.tempWarn (tget 0 u.health.tempLevel sensor) centi
    let v := { u with health := { u.health with
      temps := tput 2500 u.health.temps sensor centi, tempLevel := tput 0 u.health.tempLevel sensor r.1 } }
    (r.2 = none → exec (.tempThreshold t sensor centi) s = .next v) ∧
    (∀ sev, r.2 = some sev → exec (.tempThreshold t sensor centi) s =
      .next (event 0x1808 sev sensor [(16, 1, sensor), (18, 2, enc 2 centi)] v))) ∧
  (∀ n, rotationHeld 1 u = false → u.health.admitted = true → u.health.firstTest = false → n = nextPipVisit u →
    pipHealthy n u = true →
    let on := fun (v : State) => { v with health := { v.health with
      nextPip := n + 1, pipDue := dtAdd v.health.pipDue (visitSpacing v.health.pipPeriod (pipsHealthy v)) } }
    let p := (getPip n u).personality
    ((getPip n u).state = .spare → exec (.rotationVisit t 1 n) s =
      .next (on (modPip n (fun c => { c with state := .inTest, personality := 0xF }) u))) ∧
    (∀ k, (getPip n u).state = .assigned → idlePip u = some k → hostHolds { cls := 3, inst := p } u = false →
      exec (.rotationVisit t 1 n) s =
        .next (on (schedule [({ cls := 3, inst := p }, .relievePip p n k)] (pipTo .relieving p k u)))) ∧
    (∀ k, (getPip n u).state = .assigned → idlePip u = some k → hostHolds { cls := 3, inst := p } u = true →
      exec (.rotationVisit t 1 n) s = .next u)) ∧
  (∀ n, rotationHeld 2 u = false → u.health.admitted = true → u.health.firstTest = false → n = nextCurrantVisit u →
    currantHealthy n u = true →
    let on := fun (v : State) => { v with health := { v.health with
      nextCurrant := n + 1, curDue := dtAdd v.health.curDue (visitSpacing v.health.curPeriod (currantsHealthy v)) } }
    let p := (getCurrant n u).personality
    let claim : Claim := { cls := if dasRuns (p - 4) u then 0xA else 0xB, inst := p - 4 }
    ((getCurrant n u).state = .spare → exec (.rotationVisit t 2 n) s =
      .next (on (modCurrant n (fun c => { c with state := .inTest, personality := 0xF, kernel := 0 }) u))) ∧
    (∀ k, (getCurrant n u).state = .assigned → idleCurrant u = some k → hostHolds claim u = false →
      exec (.rotationVisit t 2 n) s =
        .next (on (schedule [(claim, .relieveCurrant p n k)] (currantTo .relieving p 0xFF k u))))) ∧
  (∀ n, u.steward.running = true → u.health.firstTest = false →
    (pipHealthy n u = true → (getPip n u).state = .inTest →
      exec (.unitTestDone t 1 n true) s =
        .next (testOutcome 1 n 2 (modPip n (fun c => { c with state := .spare, personality := 0xF }) u)) ∧
      exec (.unitTestDone t 1 n false) s =
        .next (firstTestEnd (testOutcome 1 n 3 (retirePip n 3 (event 0x1806 2 n [(16, 1, 6), (17, 1, n), (18, 1, 2)] u))))) ∧
    (currantHealthy n u = true → (getCurrant n u).state = .inTest →
      exec (.unitTestDone t 2 n true) s = .next (testOutcome 2 n 2
        (modCurrant n (fun c => { c with state := .spare, personality := 0xF, kernel := 0xFF }) u)) ∧
      exec (.unitTestDone t 2 n false) s =
        .next (firstTestEnd (testOutcome 2 n 3 (retireCurrant n 4 (event 0x1806 2 n [(16, 1, 7), (17, 1, n), (18, 1, 2)] u)))))) ∧
  (∀ n, orxHealthy n u = true → fibreRuns (n / 2) u = true → planeRuns u = true →
    (∀ sp, orxSwapHere n u = true → (getOrx n u).spare = some sp → exec (.orxSliceSwap t n none) s =
      .next (modOrx n (fun c => { c with
        positions := c.positions.set c.nextPos sp, spare := c.positions[c.nextPos]?, nextPos := (c.nextPos + 1) % 4
        swapDue := dtAdd c.swapDue (2 * tkS) }) u)) ∧
    (∀ ppm, let v := orxFault n ppm u
      orxSwapHere n v = false → exec (.orxSliceSwap t n (some ppm)) s = .next v)) ∧
  (∀ dac (ppm : Int), dacHealthy dac u = true → u.steward.running = true →
    let n := tget 0 u.health.loopFails dac + 1
    let v := { u with health := { u.health with loopFails := tput 0 u.health.loopFails dac n } }
    (ppm.natAbs ≤ 20000 → exec (.dacLoopback t dac ppm) s =
      .next { u with health := { u.health with loopFails := tput 0 u.health.loopFails dac 0 } }) ∧
    (20000 < ppm.natAbs → n ≠ 2 → exec (.dacLoopback t dac ppm) s = .next v) ∧
    (20000 < ppm.natAbs → n = 2 → exec (.dacLoopback t dac ppm) s = .next (dacRetire dac ppm v))) ∧
  (∀ die (milliDy ppm : Int), tget false u.power.dies die = true → u.steward.running = true →
    let v := { u with health := { u.health with
      gainCorrection := tput 0 u.health.gainCorrection die (tget 0 u.health.gainCorrection die - milliDy) } }
    (milliDy.natAbs ≤ 50 → exec (.dieReferenceCheck t die milliDy ppm) s = .next u) ∧
    (50 < milliDy.natAbs → milliDy.natAbs ≤ 250 → exec (.dieReferenceCheck t die milliDy ppm) s = .next v) ∧
    (250 < milliDy.natAbs → exec (.dieReferenceCheck t die milliDy ppm) s =
      .next (event 0x1806 1 die [(16, 1, 3), (17, 1, die), (18, 1, 1), (20, 4, enc 4 ppm)] v))) ∧
  (u.steward.running = true →
    let v := { u with slow := { u.slow with selfTestsDue := u.slow.selfTestsDue ++ [false, true] } }
    exec (.slowSelftestDue t) s = .next (slowKick v) ∧
    (u.slow.job ≠ none → exec (.slowSelftestDue t) s = .next v))

/-- The steward rows answer these next states. A fault closes the steward, starts an outage and leaves of its SRAM what a restart
keeps (R360, R361, log 25); a restart with a good image ends the outage, with a running steward and EV_STEWARD_RESTART among the
events, and one without leaves the steward halted (R361, R365, Table 18-7); 2 s out drop LASER_EN and stop both generators (R362);
a new image that does not answer in 500 ms gives way to the old one (R366). -/
def Obligations.StewardEvents : Prop := ∀ t s,
  let u := advance t s
  (∀ cause, u.stone.stage = .ready → u.steward.running = true → exec (.stewardFault t cause) s =
    .next { u with
      sram := u.sram.filter fun c => sramKept u c.1
      steward := { u.steward with
        running := false, outage := some (cause, u.dt), held := [], heldLost := false, handover := none } }) ∧
  (∀ cause since, u.steward.outage = some (cause, since) →
    (∃ v, exec (.stewardRestartDone t true) s = .next v ∧ v = stewardBack cause since u ∧ v.steward.running = true ∧
      v.steward.closed = false ∧ v.steward.outage = none ∧ v.dt = u.dt ∧
      (cause ≠ 3 → cause ≠ 4 → v.steward.restartCount = satAdd 65535 u.steward.restartCount 1)) ∧
    (cause ≠ 3 → cause ≠ 4 → exec (.stewardRestartDone t false) s =
      .next { u with steward := { u.steward with halted := true, outage := none } })) ∧
  (∀ cause since, u.steward.running = false → u.stone.stage = .ready → u.steward.outage = some (cause, since) →
    2 * tkS ≤ dtSub u.dt since →
    ∃ v, exec (.stewardOutageTimeout t) s = .next v ∧ v = genEnd 1 3 (genEnd 0 3 (laserCut u)) ∧ v.laser.en = false ∧
      (getGen 0 v).running = false ∧ (getGen 1 v).running = false) ∧
  (∀ since h, u.steward.outage = some (3, since) → u.steward.handover = some h → 500 * tkMs ≤ dtSub u.dt since →
    exec (.handoverTimeout t) s = .next { u with
      sram := writeCells (zeroRange 0 0x800000 u.sram) h.oldImage
      steward := { u.steward with outage := some (4, since) } })

/-- The power rows answer these next states. Ready is entered when no domain is used: the domains are gated and ADPLL-S and -D
stop (R369, R370); the stone domain takes over at the end of an entry, and Off loses the DRAM (R372); a source that fires during
an entry waits for its end, and one that fires asleep wakes the part (R373, R374, log 29); a restore whose image verifies resumes
in Ready, and another falls to WIPE_SRAM with its error (R375, R396). -/
def Obligations.PowerEvents : Prop := ∀ t s,
  let u := advance t s
  (u.power.state = .active → domainUsed u = false → u.steward.running = true →
    let w := pllBegin 1 640000 (pllStop 3 (pllStop 0 (domainsDown u)))
    exec (.readyEntry t) s = .next (alignedSettle (powerChange .ready 0 w.dt (relockGo w)))) ∧
  (∀ deep, u.power.entering = some deep →
    let v := dramResumed (each [0, 1, 2, 3] pllStop (domainsDown (laserCut u)))
    let w := alignedSettle { v with
      dram := if deep = .off then [] else v.dram
      memCtl := { v.memCtl with selfRefresh := true, poisoned := if deep = .off then [] else v.memCtl.poisoned }
      clock := { v.clock with relock := none }
      steward := { v.steward with running := false }
      power := { v.power with state := deep, entering := none } }
    (w.power.wakePending = 0 → exec (.standbyEntryDone t) s = .next w) ∧
    (w.power.wakePending ≠ 0 → exec (.standbyEntryDone t) s = .next (wakeUp w.power.wakePending w))) ∧
  (∀ sources deep, u.power.entering = some deep → exec (.wake t sources) s =
    .next { u with power := { u.power with wakePending := u.power.wakePending ||| wakeFired deep sources u } }) ∧
  (∀ sources, u.power.entering = none → asleep u = true → u.stone.restoring = false →
    let fired := wakeFired u.power.state sources u
    let v := { u with stone := { u.stone with wakeStat := if u.stone.wakeStat = 0 then fired else u.stone.wakeStat } }
    let v := if fired &&& 1 = 0 then { v with pcie := { v.pcie with wakeRequest := true } } else v
    (fired = 0 → exec (.wake t sources) s = .next u) ∧
    (fired ≠ 0 → u.power.state ≠ .standby → exec (.wake t sources) s = .next (deviceReset false v)) ∧
    (fired ≠ 0 → u.power.state = .standby → ∃ w, exec (.wake t sources) s = .next w ∧ w.stone.restoring = true ∧
      w.stone.xtalB = true ∧ w.power.wakeEdge = u.dt ∧ w.power.wakePending = 0 ∧ w.stone.wakeStat = v.stone.wakeStat ∧
      w.sram = u.sram ∧ w.dram = u.dram)) ∧
  (u.stone.restoring = true →
    let v := standbyBack u
    let w := deviceReset false u
    exec (.standbyRestoreDone t) s = .next (match imageError u.sram 0 u.stone.imageLen u with
      | none => v
      | some e => { w with stone := { w.stone with error := e } }) ∧
    v.stone.restoring = false ∧ v.steward.running = true ∧ v.time.holdover = true)
end

