-- ==== Sys2Proof/Laws/Kept.lean ====
section
/-! SUPPORT. What almost nothing changes: the life-cycle fuses, the floor, the life-cycle state in force, the key slot, scan and the
queue. One lemma per operation; device resets and LC commands have theirs in Laws/Stone.lean. -/

namespace Sys2Proof.Machine
/-- The life-cycle fuses, the floor, LC_STATE, the key slot, SCAN_EN and the queue. -/
def kept (s : State) : LifeCycle × Nat × LifeCycle × KeySlot × Bool × List Instr :=
  (s.fuse.lifeCycle, s.fuse.floor, s.stone.lifeCycle, s.stone.idKey, s.stone.scanEn, s.pending)
@[simp ↓, simp] theorem kept_ite (c : Prop) [Decidable c] (a b : State) : kept (if c then a else b) = if c then kept a else kept b := by
  split <;> rfl
theorem kept_foldl {α : Type} (f : State → α → State) (h : ∀ s x, kept (f s x) = kept s) (xs : List α) (s : State) :
    kept (xs.foldl f s) = kept s := by
  induction xs generalizing s with
  | nil => rfl
  | cons x xs ih => rw [List.foldl_cons, ih, h]
@[simp ↓, simp] theorem kept_mk (s : State) a_dt a_power a_steward a_rings a_bunch a_clock a_time a_rf a_orx a_ddc a_spec a_bloom a_trig a_lineLog a_trigIn a_cap a_gen a_route a_laser a_fibre a_slow a_exc a_dma a_memCtl a_pcie a_port a_endpoint a_disp a_health a_host a_dram a_sram a_freeCount : kept (State.mk a_dt s.fuse s.stone a_power a_steward a_rings a_bunch a_clock a_time a_rf a_orx a_ddc a_spec a_bloom a_trig a_lineLog a_trigIn a_cap a_gen a_route a_laser a_fibre a_slow a_exc a_dma a_memCtl a_pcie a_port a_endpoint a_disp a_health a_host a_dram a_sram a_freeCount s.pending) = kept s := rfl
@[simp ↓, simp] theorem kept_stone (s : State) a_dt a_power a_steward a_rings a_bunch a_clock a_time a_rf a_orx a_ddc a_spec a_bloom a_trig a_lineLog a_trigIn a_cap a_gen a_route a_laser a_fibre a_slow a_exc a_dma a_memCtl a_pcie a_port a_endpoint a_disp a_health a_host a_dram a_sram a_freeCount c_porN c_perstN c_stage c_src c_error c_ifaceLevel c_dramWiped c_sramWiped c_spiEnable c_bootLen c_fusesValid c_xtalB c_dtSnapHi c_wakeCtrl c_wakeStat c_stoneErr c_nonce c_hold c_seqStart c_imageLen c_runSec c_claimAt c_dramFill c_startAt c_restoring : kept (State.mk a_dt s.fuse (Stone.mk c_porN c_perstN c_stage c_src c_error c_ifaceLevel c_dramWiped c_sramWiped c_spiEnable c_bootLen c_fusesValid c_xtalB c_dtSnapHi c_wakeCtrl c_wakeStat c_stoneErr s.stone.lifeCycle s.stone.scanEn s.stone.idKey c_nonce c_hold c_seqStart c_imageLen c_runSec c_claimAt c_dramFill c_startAt c_restoring) a_power a_steward a_rings a_bunch a_clock a_time a_rf a_orx a_ddc a_spec a_bloom a_trig a_lineLog a_trigIn a_cap a_gen a_route a_laser a_fibre a_slow a_exc a_dma a_memCtl a_pcie a_port a_endpoint a_disp a_health a_host a_dram a_sram a_freeCount s.pending) = kept s := rfl
@[simp ↓, simp] theorem kept_fuse (s : State) a_dt a_power a_steward a_rings a_bunch a_clock a_time a_rf a_orx a_ddc a_spec a_bloom a_trig a_lineLog a_trigIn a_cap a_gen a_route a_laser a_fibre a_slow a_exc a_dma a_memCtl a_pcie a_port a_endpoint a_disp a_health a_host a_dram a_sram a_freeCount c_variant c_siRev c_pips c_currants c_presetOnly c_dram c_display c_dacs c_orx c_rf c_revoked c_keyDigests c_repaired c_padBits : kept (State.mk a_dt (Fuses.mk c_variant c_siRev c_pips c_currants c_presetOnly c_dram c_display c_dacs c_orx c_rf s.fuse.floor c_revoked c_keyDigests s.fuse.lifeCycle c_repaired c_padBits) s.stone a_power a_steward a_rings a_bunch a_clock a_time a_rf a_orx a_ddc a_spec a_bloom a_trig a_lineLog a_trigIn a_cap a_gen a_route a_laser a_fibre a_slow a_exc a_dma a_memCtl a_pcie a_port a_endpoint a_disp a_health a_host a_dram a_sram a_freeCount s.pending) = kept s := rfl

@[simp ↓, simp] theorem kept_advance (b1 : DT) (b2 : State) : kept (advance b1 b2) = kept b2 := by
  unfold advance
  simp

@[simp ↓, simp] theorem kept_draw (b1 : State) : kept (draw b1).2 = kept b1 := by
  unfold draw
  simp

@[simp ↓, simp] theorem kept_modRing (b1 : Nat) (b2 : Ring → Ring) (b3 : State) : kept (modRing b1 b2 b3) = kept b3 := by
  unfold modRing
  simp

@[simp ↓, simp] theorem kept_modBunch (b1 : Nat) (b2 : Bunch → Bunch) (b3 : State) : kept (modBunch b1 b2 b3) = kept b3 := by
  unfold modBunch
  simp

@[simp ↓, simp] theorem kept_modPll (b1 : Nat) (b2 : Pll → Pll) (b3 : State) : kept (modPll b1 b2 b3) = kept b3 := by
  unfold modPll
  simp

@[simp ↓, simp] theorem kept_modRf (b1 : Nat) (b2 : RfChan → RfChan) (b3 : State) : kept (modRf b1 b2 b3) = kept b3 := by
  unfold modRf
  simp

@[simp ↓, simp] theorem kept_modOrx (b1 : Nat) (b2 : OrxChan → OrxChan) (b3 : State) : kept (modOrx b1 b2 b3) = kept b3 := by
  unfold modOrx
  simp

@[simp ↓, simp] theorem kept_modDdc (b1 : Nat) (b2 : DdcPath → DdcPath) (b3 : State) : kept (modDdc b1 b2 b3) = kept b3 := by
  unfold modDdc
  simp

@[simp ↓, simp] theorem kept_modSpec (b1 : Nat) (b2 : Spectral → Spectral) (b3 : State) : kept (modSpec b1 b2 b3) = kept b3 := by
  unfold modSpec
  simp

@[simp ↓, simp] theorem kept_modBloom (b1 : Nat) (b2 : BloomMap → BloomMap) (b3 : State) : kept (modBloom b1 b2 b3) = kept b3 := by
  unfold modBloom
  simp

@[simp ↓, simp] theorem kept_modTrig (b1 : Nat) (b2 : TrigUnit → TrigUnit) (b3 : State) : kept (modTrig b1 b2 b3) = kept b3 := by
  unfold modTrig
  simp

@[simp ↓, simp] theorem kept_modCap (b1 : Nat) (b2 : Capture → Capture) (b3 : State) : kept (modCap b1 b2 b3) = kept b3 := by
  unfold modCap
  simp

@[simp ↓, simp] theorem kept_modGen (b1 : Nat) (b2 : Gen → Gen) (b3 : State) : kept (modGen b1 b2 b3) = kept b3 := by
  unfold modGen
  simp

@[simp ↓, simp] theorem kept_modGov (b1 : Nat) (b2 : Governor → Governor) (b3 : State) : kept (modGov b1 b2 b3) = kept b3 := by
  unfold modGov
  simp

@[simp ↓, simp] theorem kept_modFibre (b1 : Nat) (b2 : Fibre → Fibre) (b3 : State) : kept (modFibre b1 b2 b3) = kept b3 := by
  unfold modFibre
  simp

@[simp ↓, simp] theorem kept_modExc (b1 : Nat) (b2 : Exc → Exc) (b3 : State) : kept (modExc b1 b2 b3) = kept b3 := by
  unfold modExc
  simp

@[simp ↓, simp] theorem kept_modChan (b1 : Nat) (b2 : Channel → Channel) (b3 : State) : kept (modChan b1 b2 b3) = kept b3 := by
  unfold modChan
  simp

@[simp ↓, simp] theorem kept_modPort (b1 : Nat) (b2 : Port → Port) (b3 : State) : kept (modPort b1 b2 b3) = kept b3 := by
  unfold modPort
  simp

@[simp ↓, simp] theorem kept_modPip (b1 : Nat) (b2 : Core → Core) (b3 : State) : kept (modPip b1 b2 b3) = kept b3 := by
  unfold modPip
  simp

@[simp ↓, simp] theorem kept_modCurrant (b1 : Nat) (b2 : Core → Core) (b3 : State) : kept (modCurrant b1 b2 b3) = kept b3 := by
  unfold modCurrant
  simp

@[simp ↓, simp] theorem kept_each {b1 : Type} (b2 : List b1) (b3 : b1 → State → State) (b4 : State) (h2 : ∀ v0 v1, kept (b3 v0 v1) = kept v1) : kept (each b2 b3 b4) = kept b4 := by
  simp only [each]
  exact kept_foldl _ (fun s x => h2 x s) _ _

@[simp ↓, simp] theorem kept_unpoison (b1 : Nat) (b2 : Nat) (b3 : State) : kept (unpoison b1 b2 b3) = kept b3 := by
  unfold unpoison
  simp

@[simp ↓, simp] theorem kept_storeAt (b1 : Nat) (b2 : Nat) (b3 : List Byte) (b4 : State) : kept (storeAt b1 b2 b3 b4) = kept b4 := by
  unfold storeAt
  simp

@[simp ↓, simp] theorem kept_toHost (b1 : Nat) (b2 : List Byte) (b3 : State) : kept (toHost b1 b2 b3) = kept b3 := by
  unfold toHost
  simp

@[simp ↓, simp] theorem kept_sendMsi (b1 : Nat) (b2 : Nat) (b3 : State) : kept (sendMsi b1 b2 b3) = kept b3 := by
  unfold sendMsi
  simp

@[simp ↓, simp] theorem kept_signalRing (b1 : Nat) (b2 : State) : kept (signalRing b1 b2) = kept b2 := by
  unfold signalRing
  simp

@[simp ↓, simp] theorem kept_endpointSend (b1 : Nat) (b2 : Nat) (b3 : Nat) (b4 : State) : kept (endpointSend b1 b2 b3 b4) = kept b4 := by
  unfold endpointSend
  dsimp only
  repeat' (first | with_reducible rfl | (simp; done) | split)

@[simp ↓, simp] theorem kept_publishMany (b1 : Nat) (b2 : Nat) (b3 : State) : kept (publishMany b1 b2 b3) = kept b3 := by
  unfold publishMany
  simp

@[simp ↓, simp] theorem kept_publish (b1 : Nat) (b2 : List Byte) (b3 : State) : kept (publish b1 b2 b3) = kept b3 := by
  unfold publish
  simp

@[simp ↓, simp] theorem kept_writeEvent (b1 : Event) (b2 : Nat) (b3 : State) : kept (writeEvent b1 b2 b3) = kept b3 := by
  unfold writeEvent
  simp

@[simp ↓, simp] theorem kept_deliverEvent (b1 : Event) (b2 : State) : kept (deliverEvent b1 b2) = kept b2 := by
  unfold deliverEvent
  simp

@[simp ↓, simp] theorem kept_postEvent (b1 : Event) (b2 : State) : kept (postEvent b1 b2) = kept b2 := by
  unfold postEvent
  simp

@[simp ↓, simp] theorem kept_event (b1 : Nat) (b2 : Nat) (b3 : Nat) (b4 : List (Nat × Nat × Nat)) (b5 : State) : kept (event b1 b2 b3 b4 b5) = kept b5 := by
  unfold event
  simp

@[simp ↓, simp] theorem kept_eventAt (b1 : DT) (b2 : Nat) (b3 : Nat) (b4 : Nat) (b5 : List (Nat × Nat × Nat)) (b6 : State) : kept (eventAt b1 b2 b3 b4 b5 b6) = kept b6 := by
  unfold eventAt
  simp

@[simp ↓, simp] theorem kept_freeDirect (b1 : CmdRef) (b2 : State) : kept (freeDirect b1 b2) = kept b2 := by
  unfold freeDirect
  simp

@[simp ↓, simp] theorem kept_flushCompletions (b1 : Nat) (b2 : Nat) (b3 : State) : kept (flushCompletions b1 b2 b3) = kept b3 := by
  induction b2 generalizing b3 with
  | zero => rfl
  | succ n ih =>
    unfold flushCompletions
    try dsimp only
    repeat' (first | with_reducible rfl | (simp [ih]; done) | split)

@[simp ↓, simp] theorem kept_complete (b1 : CmdRef) (b2 : Done) (b3 : State) : kept (complete b1 b2 b3) = kept b3 := by
  unfold complete
  simp

@[simp ↓, simp] theorem kept_ok (b1 : CmdRef) (b2 : Nat) (b3 : State) : kept (ok b1 b2 b3) = kept b3 := by
  unfold ok
  simp

@[simp ↓, simp] theorem kept_fail (b1 : CmdRef) (b2 : Nat) (b3 : Nat) (b4 : State) : kept (fail b1 b2 b3 b4) = kept b4 := by
  unfold fail
  simp

@[simp ↓, simp] theorem kept_completeOpt (b1 : Option CmdRef) (b2 : Done) (b3 : State) : kept (completeOpt b1 b2 b3) = kept b3 := by
  unfold completeOpt
  repeat' (first | with_reducible rfl | (simp; done) | split)

@[simp ↓, simp] theorem kept_flushPaired (b1 : Nat) (b2 : State) : kept (flushPaired b1 b2) = kept b2 := by
  unfold flushPaired
  simp

@[simp ↓, simp] theorem kept_resumeRings (b1 : State) : kept (resumeRings b1) = kept b1 := by
  unfold resumeRings
  simp

@[simp ↓, simp] theorem kept_laserSwitch (b1 : Bool) (b2 : State) : kept (laserSwitch b1 b2) = kept b2 := by
  unfold laserSwitch
  simp

@[simp ↓, simp] theorem kept_laserCut (b1 : State) : kept (laserCut b1) = kept b1 := by
  unfold laserCut
  simp

@[simp ↓, simp] theorem kept_served (b1 : Nat) (b2 : State) : kept (served b1 b2) = kept b2 := by
  unfold served
  simp

@[simp ↓, simp] theorem kept_takeCommand (b1 : Nat) (b2 : Ctx → State → State) (b3 : Cmd) (b4 : State) (h1 : ∀ v0 v1, kept (b2 v0 v1) = kept v1) : kept (takeCommand b1 b2 b3 b4) = kept b4 := by
  unfold takeCommand
  simp [h1]

@[simp ↓, simp] theorem kept_plainCommand (b1 : Nat) (b2 : UnitRule) (b3 : Ctx → State → Checks) (b4 : Ctx → State → State) (b5 : Cmd) (b6 : State) (h3 : ∀ v0 v1, kept (b4 v0 v1) = kept v1) : kept (plainCommand b1 b2 b3 b4 b5 b6) = kept b6 := by
  unfold plainCommand
  repeat' (first | apply kept_takeCommand | apply kept_plainCommand | apply kept_clashCommand | apply kept_pf0Only | intro _)
  repeat' (first | with_reducible rfl | (simp [h3]; done) | split)

@[simp ↓, simp] theorem kept_pf0Only (b1 : Ctx → State → State) (b2 : Ctx) (b3 : State) (h0 : ∀ v0 v1, kept (b1 v0 v1) = kept v1) : kept (pf0Only b1 b2 b3) = kept b3 := by
  unfold pf0Only
  simp [h0]

@[simp ↓, simp] theorem kept_rangeNote (b1 : Nat) (b2 : State) : kept (rangeNote b1 b2) = kept b2 := by
  unfold rangeNote
  simp

@[simp ↓, simp] theorem kept_burnDue (b1 : Nat) (b2 : State) : kept (burnDue b1 b2) = kept b2 := by
  unfold burnDue
  simp

@[simp ↓, simp] theorem kept_padChange (b1 : Nat) (b2 : State) : kept (padChange b1 b2) = kept b2 := by
  unfold padChange
  simp

@[simp ↓, simp] theorem kept_rangeLand (b1 : Nat) (b2 : Bool) (b3 : Nat) (b4 : Bool) (b5 : Bool) (b6 : State) : kept (rangeLand b1 b2 b3 b4 b5 b6) = kept b6 := by
  unfold rangeLand
  simp

@[simp ↓, simp] theorem kept_padMove (b1 : Nat) (b2 : State) : kept (padMove b1 b2) = kept b2 := by
  unfold padMove
  simp

@[simp ↓, simp] theorem kept_rfPowerUp (b1 : Nat) (b2 : State) : kept (rfPowerUp b1 b2) = kept b2 := by
  unfold rfPowerUp
  simp

@[simp ↓, simp] theorem kept_rfPowerDown (b1 : Nat) (b2 : State) : kept (rfPowerDown b1 b2) = kept b2 := by
  unfold rfPowerDown
  simp

@[simp ↓, simp] theorem kept_rfStop (b1 : Nat) (b2 : State) : kept (rfStop b1 b2) = kept b2 := by
  unfold rfStop
  simp

@[simp ↓, simp] theorem kept_overloadReport (b1 : Nat) (b2 : DT) (b3 : State) : kept (overloadReport b1 b2 b3) = kept b3 := by
  unfold overloadReport
  simp

@[simp ↓, simp] theorem kept_markOvr (b1 : Nat) (b2 : DT) (b3 : State) : kept (markOvr b1 b2 b3) = kept b3 := by
  unfold markOvr
  simp

@[simp ↓, simp] theorem kept_groupArrive (b1 : Nat) (b2 : List Int) (b3 : State) : kept (groupArrive b1 b2 b3) = kept b3 := by
  unfold groupArrive
  simp

@[simp ↓, simp] theorem kept_ddcLand (b1 : Nat) (b2 : Nat) (b3 : Nat) (b4 : Nat) (b5 : Nat) (b6 : Bool) (b7 : State) : kept (ddcLand b1 b2 b3 b4 b5 b6 b7) = kept b7 := by
  unfold ddcLand
  simp

@[simp ↓, simp] theorem kept_groupOut (b1 : Nat) (b2 : State) : kept (groupOut b1 b2) = kept b2 := by
  unfold groupOut
  simp

@[simp ↓, simp] theorem kept_reportDrops (b1 : Nat) (b2 : State) : kept (reportDrops b1 b2) = kept b2 := by
  unfold reportDrops
  simp

@[simp ↓, simp] theorem kept_drop (b1 : Nat) (b2 : Nat) (b3 : State) : kept (drop b1 b2 b3) = kept b3 := by
  unfold drop
  dsimp only
  repeat' (first | with_reducible rfl | (simp; done) | split)

@[simp ↓, simp] theorem kept_writeRecord (b1 : Nat) (b2 : List Byte) (b3 : State) : kept (writeRecord b1 b2 b3) = kept b3 := by
  unfold writeRecord
  simp

@[simp ↓, simp] theorem kept_raiseLine (b1 : Nat) (b2 : Nat) (b3 : State) : kept (raiseLine b1 b2 b3) = kept b3 := by
  unfold raiseLine
  simp

@[simp ↓, simp] theorem kept_endAverage (b1 : Nat) (b2 : State) : kept (endAverage b1 b2).2 = kept b2 := by
  unfold endAverage
  dsimp only
  repeat' (first | with_reducible rfl | (simp; done) | split)

@[simp ↓, simp] theorem kept_averageAdd (b1 : Nat) (b2 : Nat) (b3 : Spectrum) (b4 : FrameData) (b5 : FrameInfo) (b6 : List Int) (b7 : State) : kept (averageAdd b1 b2 b3 b4 b5 b6 b7) = kept b7 := by
  unfold averageAdd
  simp

@[simp ↓, simp] theorem kept_traceAdd (b1 : Nat) (b2 : Nat) (b3 : Spectrum) (b4 : FrameData) (b5 : FrameInfo) (b6 : List Int) (b7 : State) : kept (traceAdd b1 b2 b3 b4 b5 b6 b7) = kept b7 := by
  unfold traceAdd
  simp

@[simp ↓, simp] theorem kept_endTrace (b1 : Nat) (b2 : Nat) (b3 : State) : kept (endTrace b1 b2 b3).2.2 = kept b3 := by
  unfold endTrace
  simp

@[simp ↓, simp] theorem kept_mapIngest (b1 : Nat) (b2 : Spectrum) (b3 : Nat) (b4 : State) : kept (mapIngest b1 b2 b3 b4) = kept b4 := by
  unfold mapIngest
  dsimp only
  repeat' (first | with_reducible rfl | (simp; done) | split)

@[simp ↓, simp] theorem kept_bloomOffer (b1 : Nat) (b2 : Nat) (b3 : Spectrum) (b4 : State) : kept (bloomOffer b1 b2 b3 b4) = kept b4 := by
  unfold bloomOffer
  simp

@[simp ↓, simp] theorem kept_mapBoundary (b1 : Nat) (b2 : Bool) (b3 : State) : kept (mapBoundary b1 b2 b3) = kept b3 := by
  unfold mapBoundary
  simp

@[simp ↓, simp] theorem kept_bloomLand (b1 : Nat) (b2 : BloomCfg) (b3 : DT) (b4 : State) : kept (bloomLand b1 b2 b3 b4) = kept b4 := by
  unfold bloomLand
  simp

@[simp ↓, simp] theorem kept_bloomClearLand (b1 : Nat) (b2 : State) : kept (bloomClearLand b1 b2) = kept b2 := by
  unfold bloomClearLand
  simp

@[simp ↓, simp] theorem kept_mapsClearDue (b1 : Nat) (b2 : Nat) (b3 : DT) (b4 : State) : kept (mapsClearDue b1 b2 b3 b4) = kept b4 := by
  unfold mapsClearDue
  simp

@[simp ↓, simp] theorem kept_packBytes (b1 : Nat) (b2 : List Byte) (b3 : State) : kept (packBytes b1 b2 b3) = kept b3 := by
  unfold packBytes
  simp

@[simp ↓, simp] theorem kept_lineLog (b1 : Nat) (b2 : Nat) (b3 : Nat) (b4 : DT) (b5 : State) : kept (lineLog b1 b2 b3 b4 b5) = kept b5 := by
  unfold lineLog
  simp

@[simp ↓, simp] theorem kept_deliverTrig (b1 : Nat) (b2 : DT) (b3 : DT) (b4 : State) : kept (deliverTrig b1 b2 b3 b4) = kept b4 := by
  unfold deliverTrig
  simp

@[simp ↓, simp] theorem kept_maskTest (b1 : Nat) (b2 : Nat) (b3 : Spectrum) (b4 : State) : kept (maskTest b1 b2 b3 b4) = kept b4 := by
  unfold maskTest
  repeat' (first | with_reducible rfl | (simp; done) | split)

@[simp ↓, simp] theorem kept_tdTest (b1 : Nat) (b2 : Nat) (b3 : List Int) (b4 : Int) (b5 : Nat) (b6 : Bool) (b7 : DT) (b8 : State) : kept (tdTest b1 b2 b3 b4 b5 b6 b7 b8) = kept b8 := by
  unfold tdTest
  repeat' (first | with_reducible rfl | (simp; done) | split)

@[simp ↓, simp] theorem kept_logWrite (b1 : Nat) (b2 : List Byte) (b3 : ChangeLog) (b4 : State) : kept (logWrite b1 b2 b3 b4) = kept b4 := by
  unfold logWrite
  simp

@[simp ↓, simp] theorem kept_logTest (b1 : Nat) (b2 : Spectrum) (b3 : State) : kept (logTest b1 b2 b3) = kept b3 := by
  unfold logTest
  dsimp only
  repeat' (first | with_reducible rfl | (simp; done) | split)

@[simp ↓, simp] theorem kept_capTrigger (b1 : Nat) (b2 : DT) (b3 : Nat) (b4 : Nat) (b5 : State) : kept (capTrigger b1 b2 b3 b4 b5) = kept b5 := by
  unfold capTrigger
  simp

@[simp ↓, simp] theorem kept_capEnd (b1 : Nat) (b2 : Nat) (b3 : Bool) (b4 : State) : kept (capEnd b1 b2 b3 b4) = kept b4 := by
  unfold capEnd
  simp

@[simp ↓, simp] theorem kept_capSpill (b1 : Nat) (b2 : DT × Nat) (b3 : State) : kept (capSpill b1 b2 b3) = kept b3 := by
  unfold capSpill
  simp

@[simp ↓, simp] theorem kept_capFeed (b1 : Nat) (b2 : DT × Nat) (b3 : State) : kept (capFeed b1 b2 b3) = kept b3 := by
  unfold capFeed
  dsimp only
  repeat' (first | with_reducible rfl | (simp; done) | split)

@[simp ↓, simp] theorem kept_capIndex (b1 : Nat) (b2 : DT) (b3 : Nat) (b4 : State) : kept (capIndex b1 b2 b3 b4) = kept b4 := by
  unfold capIndex
  simp

@[simp ↓, simp] theorem kept_capNote (b1 : Nat) (b2 : DT) (b3 : Nat × Nat × Nat) (b4 : State) : kept (capNote b1 b2 b3 b4) = kept b4 := by
  unfold capNote
  simp

@[simp ↓, simp] theorem kept_capDdcGroup (b1 : Nat) (b2 : State) : kept (capDdcGroup b1 b2) = kept b2 := by
  unfold capDdcGroup
  simp

@[simp ↓, simp] theorem kept_capRawIndex (b1 : Nat) (b2 : DT) (b3 : State) : kept (capRawIndex b1 b2 b3) = kept b3 := by
  unfold capRawIndex
  simp

@[simp ↓, simp] theorem kept_capRawGroup (b1 : Nat) (b2 : List Int) (b3 : State) : kept (capRawGroup b1 b2 b3) = kept b3 := by
  unfold capRawGroup
  simp

@[simp ↓, simp] theorem kept_capSpectrum (b1 : Nat) (b2 : Nat) (b3 : DT) (b4 : List Byte) (b5 : State) : kept (capSpectrum b1 b2 b3 b4 b5) = kept b5 := by
  unfold capSpectrum
  simp

@[simp ↓, simp] theorem kept_capArmLand (b1 : Nat) (b2 : Bool) (b3 : State) : kept (capArmLand b1 b2 b3) = kept b3 := by
  unfold capArmLand
  simp

@[simp ↓, simp] theorem kept_capGapAt (b1 : Nat) (b2 : State) : kept (capGapAt b1 b2) = kept b2 := by
  unfold capGapAt
  simp

@[simp ↓, simp] theorem kept_capsStop (b1 : List Nat) (b2 : Nat) (b3 : State) : kept (capsStop b1 b2 b3) = kept b3 := by
  unfold capsStop
  simp

@[simp ↓, simp] theorem kept_capsStopAt (b1 : List Nat) (b2 : DT) (b3 : State) : kept (capsStopAt b1 b2 b3) = kept b3 := by
  unfold capsStopAt
  simp

@[simp ↓, simp] theorem kept_markersTo (b1 : Nat) (b2 : Nat) (b3 : DT) (b4 : State) : kept (markersTo b1 b2 b3 b4) = kept b4 := by
  unfold markersTo
  simp

@[simp ↓, simp] theorem kept_sampleOut (b1 : Nat) (b2 : Option Play) (b3 : Nat) (b4 : State) : kept (sampleOut b1 b2 b3 b4) = kept b4 := by
  unfold sampleOut
  simp

@[simp ↓, simp] theorem kept_playOut (b1 : Nat) (b2 : Option Play) (b3 : State) : kept (playOut b1 b2 b3) = kept b3 := by
  unfold playOut
  simp

@[simp ↓, simp] theorem kept_laserRise (b1 : Nat) (b2 : State) : kept (laserRise b1 b2) = kept b2 := by
  unfold laserRise
  simp

@[simp ↓, simp] theorem kept_laserTrip (b1 : Nat) (b2 : Nat) (b3 : State) : kept (laserTrip b1 b2 b3) = kept b3 := by
  unfold laserTrip
  simp

@[simp ↓, simp] theorem kept_laserArmLand (b1 : Nat) (b2 : Bool) (b3 : State) : kept (laserArmLand b1 b2 b3) = kept b3 := by
  unfold laserArmLand
  simp

@[simp ↓, simp] theorem kept_trigOutPulse (b1 : Nat) (b2 : Nat) (b3 : Nat) (b4 : State) : kept (trigOutPulse b1 b2 b3 b4) = kept b4 := by
  unfold trigOutPulse
  simp

@[simp ↓, simp] theorem kept_epochStart (b1 : Nat) (b2 : Nat) (b3 : State) : kept (epochStart b1 b2 b3) = kept b3 := by
  unfold epochStart
  simp

@[simp ↓, simp] theorem kept_segmentMarks (b1 : Nat) (b2 : Nat) (b3 : Bool) (b4 : State) : kept (segmentMarks b1 b2 b3 b4) = kept b4 := by
  unfold segmentMarks
  repeat' (first | with_reducible rfl | (simp; done) | split)

@[simp ↓, simp] theorem kept_playBegin (b1 : Nat) (b2 : DT) (b3 : Walk) (b4 : Bool) (b5 : State) : kept (playBegin b1 b2 b3 b4 b5) = kept b5 := by
  unfold playBegin
  simp

@[simp ↓, simp] theorem kept_genBegin (b1 : Nat) (b2 : Nat) (b3 : State) : kept (genBegin b1 b2 b3) = kept b3 := by
  unfold genBegin
  simp

@[simp ↓, simp] theorem kept_genEnd (b1 : Nat) (b2 : Nat) (b3 : State) : kept (genEnd b1 b2 b3) = kept b3 := by
  unfold genEnd
  simp

@[simp ↓, simp] theorem kept_genLatch (b1 : Nat) (b2 : State) : kept (genLatch b1 b2) = kept b2 := by
  unfold genLatch
  dsimp only
  repeat' (first | with_reducible rfl | (simp; done) | split)

@[simp ↓, simp] theorem kept_latchDue (b1 : Nat) (b2 : State) : kept (latchDue b1 b2) = kept b2 := by
  unfold latchDue
  simp

@[simp ↓, simp] theorem kept_genPend (b1 : Nat) (b2 : Nat) (b3 : State) : kept (genPend b1 b2 b3) = kept b3 := by
  unfold genPend
  simp

@[simp ↓, simp] theorem kept_genRequest (b1 : Nat) (b2 : Nat) (b3 : State) : kept (genRequest b1 b2 b3) = kept b3 := by
  unfold genRequest
  simp

@[simp ↓, simp] theorem kept_markEpoch (b1 : Nat) (b2 : State) : kept (markEpoch b1 b2) = kept b2 := by
  unfold markEpoch
  simp

@[simp ↓, simp] theorem kept_markUnderrun (b1 : Nat) (b2 : State) : kept (markUnderrun b1 b2) = kept b2 := by
  unfold markUnderrun
  simp

@[simp ↓, simp] theorem kept_genUnderrun (b1 : Nat) (b2 : State) : kept (genUnderrun b1 b2) = kept b2 := by
  unfold genUnderrun
  simp

@[simp ↓, simp] theorem kept_genGap (b1 : Nat) (b2 : State) : kept (genGap b1 b2) = kept b2 := by
  unfold genGap
  simp

@[simp ↓, simp] theorem kept_genStartLand (b1 : Nat) (b2 : Nat) (b3 : State) : kept (genStartLand b1 b2 b3) = kept b3 := by
  unfold genStartLand
  simp

@[simp ↓, simp] theorem kept_genStopLand (b1 : Nat) (b2 : State) : kept (genStopLand b1 b2) = kept b2 := by
  unfold genStopLand
  simp

@[simp ↓, simp] theorem kept_genLoadLand (b1 : Nat) (b2 : List SeqEntry) (b3 : Nat) (b4 : State) : kept (genLoadLand b1 b2 b3 b4) = kept b4 := by
  unfold genLoadLand
  simp

@[simp ↓, simp] theorem kept_genAdvance (b1 : Nat) (b2 : State) : kept (genAdvance b1 b2) = kept b2 := by
  unfold genAdvance
  dsimp only
  repeat' (first | with_reducible rfl | (simp; done) | split)

@[simp ↓, simp] theorem kept_fibreEpoch (b1 : Nat) (b2 : State) : kept (fibreEpoch b1 b2) = kept b2 := by
  unfold fibreEpoch
  simp

@[simp ↓, simp] theorem kept_withEpoch (b1 : Nat) (b2 : State → State) (b3 : State) (h1 : ∀ v0, kept (b2 v0) = kept v0) : kept (withEpoch b1 b2 b3) = kept b3 := by
  unfold withEpoch
  simp [h1]

@[simp ↓, simp] theorem kept_fibreGap (b1 : State) : kept (fibreGap b1) = kept b1 := by
  unfold fibreGap
  simp

@[simp ↓, simp] theorem kept_pmaskTest (b1 : Nat) (b2 : Launch) (b3 : Nat) (b4 : List (Nat × Nat)) (b5 : State) : kept (pmaskTest b1 b2 b3 b4 b5) = kept b5 := by
  unfold pmaskTest
  simp

@[simp ↓, simp] theorem kept_shortReport (b1 : Nat) (b2 : Launch) (b3 : State) : kept (shortReport b1 b2 b3) = kept b3 := by
  unfold shortReport
  simp

@[simp ↓, simp] theorem kept_bandEnd (b1 : Nat) (b2 : State) : kept (bandEnd b1 b2) = kept b2 := by
  unfold bandEnd
  dsimp only
  repeat' (first | with_reducible rfl | (simp; done) | split)

@[simp ↓, simp] theorem kept_dasTrace (b1 : Nat) (b2 : Launch) (b3 : TraceData) (b4 : Bool) (b5 : State) : kept (dasTrace b1 b2 b3 b4 b5) = kept b5 := by
  unfold dasTrace
  simp

@[simp ↓, simp] theorem kept_dasDeliver (b1 : Nat) (b2 : Nat) (b3 : State) : kept (dasDeliver b1 b2 b3) = kept b3 := by
  induction b2 generalizing b3 with
  | zero => rfl
  | succ n ih =>
    unfold dasDeliver
    try dsimp only
    repeat' (first | with_reducible rfl | (simp [ih]; done) | split)

@[simp ↓, simp] theorem kept_dasReady (b1 : Nat) (b2 : List (TraceData × Bool)) (b3 : State) : kept (dasReady b1 b2 b3) = kept b3 := by
  unfold dasReady
  simp

@[simp ↓, simp] theorem kept_dtsLaunch (b1 : Nat) (b2 : List Int) (b3 : List Int) (b4 : Bool) (b5 : State) : kept (dtsLaunch b1 b2 b3 b4 b5) = kept b5 := by
  unfold dtsLaunch
  simp

@[simp ↓, simp] theorem kept_dtsStackEnd (b1 : Nat) (b2 : State) : kept (dtsStackEnd b1 b2) = kept b2 := by
  unfold dtsStackEnd
  simp

@[simp ↓, simp] theorem kept_dasStartLand (b1 : Nat) (b2 : Nat) (b3 : State) : kept (dasStartLand b1 b2 b3) = kept b3 := by
  unfold dasStartLand
  simp

@[simp ↓, simp] theorem kept_dtsStartLand (b1 : Nat) (b2 : State) : kept (dtsStartLand b1 b2) = kept b2 := by
  unfold dtsStartLand
  simp

@[simp ↓, simp] theorem kept_modSlow (b1 : Slow → Slow) (b2 : State) : kept (modSlow b1 b2) = kept b2 := by
  unfold modSlow
  simp

@[simp ↓, simp] theorem kept_powerUp (b1 : State) : kept (powerUp b1) = kept b1 := by
  unfold powerUp
  simp

@[simp ↓, simp] theorem kept_nextJob (b1 : DT) (b2 : State) : kept (nextJob b1 b2) = kept b2 := by
  unfold nextJob
  dsimp only
  repeat' (first | with_reducible rfl | (simp; done) | split)

@[simp ↓, simp] theorem kept_slowKick (b1 : State) : kept (slowKick b1) = kept b1 := by
  unfold slowKick
  simp

@[simp ↓, simp] theorem kept_slowFlush (b1 : State) : kept (slowFlush b1) = kept b1 := by
  unfold slowFlush
  simp

@[simp ↓, simp] theorem kept_slowResult (b1 : DT) (b2 : Int) (b3 : Nat) (b4 : Nat) (b5 : Nat) (b6 : State) : kept (slowResult b1 b2 b3 b4 b5 b6) = kept b6 := by
  unfold slowResult
  simp

@[simp ↓, simp] theorem kept_slowToFibres (b1 : Nat) (b2 : Nat) (b3 : DT) (b4 : Int) (b5 : State) : kept (slowToFibres b1 b2 b3 b4 b5) = kept b5 := by
  unfold slowToFibres
  simp

@[simp ↓, simp] theorem kept_slowBegin (b1 : State) : kept (slowBegin b1) = kept b1 := by
  unfold slowBegin
  simp

@[simp ↓, simp] theorem kept_jobDone (b1 : DT) (b2 : Int) (b3 : Nat) (b4 : State) : kept (jobDone b1 b2 b3 b4) = kept b4 := by
  unfold jobDone
  repeat' (first | with_reducible rfl | (simp; done) | split)

@[simp ↓, simp] theorem kept_slowEnd (b1 : Int) (b2 : Nat) (b3 : State) : kept (slowEnd b1 b2 b3) = kept b3 := by
  unfold slowEnd
  simp

@[simp ↓, simp] theorem kept_slowAbort (b1 : State) : kept (slowAbort b1) = kept b1 := by
  unfold slowAbort
  simp

@[simp ↓, simp] theorem kept_impedanceEnd (b1 : Nat) (b2 : Nat) (b3 : Nat) (b4 : State) : kept (impedanceEnd b1 b2 b3 b4) = kept b4 := by
  unfold impedanceEnd
  simp

@[simp ↓, simp] theorem kept_excLand (b1 : Nat) (b2 : ExcCfg) (b3 : State) : kept (excLand b1 b2 b3) = kept b3 := by
  unfold excLand
  simp

@[simp ↓, simp] theorem kept_scanLand (b1 : List ScanEntry) (b2 : Nat) (b3 : Nat) (b4 : State) : kept (scanLand b1 b2 b3 b4) = kept b4 := by
  unfold scanLand
  dsimp only
  repeat' (first | with_reducible rfl | (simp; done) | split)

@[simp ↓, simp] theorem kept_scanStartLand (b1 : State) : kept (scanStartLand b1) = kept b1 := by
  unfold scanStartLand
  simp

@[simp ↓, simp] theorem kept_scanStopLand (b1 : State) : kept (scanStopLand b1) = kept b1 := by
  unfold scanStopLand
  dsimp only
  repeat' (first | with_reducible rfl | (simp; done) | split)

@[simp ↓, simp] theorem kept_degradeCfg (b1 : Nat) (b2 : Nat) (b3 : Nat) (b4 : State) : kept (degradeCfg b1 b2 b3 b4) = kept b4 := by
  unfold degradeCfg
  simp

@[simp ↓, simp] theorem kept_applyCfg (b1 : List Write) (b2 : Write) (b3 : State) : kept (applyCfg b1 b2 b3) = kept b3 := by
  unfold applyCfg
  repeat' (first | with_reducible rfl | (simp; done) | split)

@[simp ↓, simp] theorem kept_applyAll (b1 : List Write) (b2 : State) : kept (applyAll b1 b2) = kept b2 := by
  unfold applyAll
  exact kept_foldl _ (fun s x => by simp) _ _

@[simp ↓, simp] theorem kept_planned (b1 : State) : kept (planned b1) = kept b1 := by
  unfold planned
  exact kept_foldl _ (fun s x => by simp) _ _

@[simp ↓, simp] theorem kept_freeBunch (b1 : Nat) (b2 : State) : kept (freeBunch b1 b2) = kept b2 := by
  unfold freeBunch
  simp

@[simp ↓, simp] theorem kept_freeDone (b1 : Nat) (b2 : CmdRef) (b3 : State) : kept (freeDone b1 b2 b3) = kept b3 := by
  unfold freeDone
  simp

@[simp ↓, simp] theorem kept_abortBunch (b1 : Nat) (b2 : Nat) (b3 : Nat) (b4 : Nat) (b5 : Nat) (b6 : Nat) (b7 : State) : kept (abortBunch b1 b2 b3 b4 b5 b6 b7) = kept b7 := by
  unfold abortBunch
  extract_lets b mine gone t s1 s2 named s3 s4 s5
  have h1 : kept s2 = kept b7 := by simp [s2, s1]
  have h3 : kept s3 = kept s2 := by simp only [s3]; (repeat' (first | with_reducible rfl | (simp; done) | split))
  have h4 : kept s4 = kept s3 := by simp only [s4]; (repeat' (first | with_reducible rfl | (simp; done) | split))
  have h5 : kept s5 = kept s4 := by simp only [s5]; (repeat' (first | with_reducible rfl | (simp; done) | split))
  refine (kept_each _ _ _ ?_).trans (h5.trans (h4.trans (h3.trans h1)))
  intro g s
  split <;> simp

@[simp ↓, simp] theorem kept_handoverGo (b1 : State) : kept (handoverGo b1) = kept b1 := by
  unfold handoverGo
  repeat' (first | with_reducible rfl | (simp; done) | split)

@[simp ↓, simp] theorem kept_abortOnFault (b1 : Nat) (b2 : List Claim) (b3 : State) : kept (abortOnFault b1 b2 b3) = kept b3 := by
  unfold abortOnFault
  simp

@[simp ↓, simp] theorem kept_averageEnd (b1 : Nat) (b2 : State) : kept (averageEnd b1 b2) = kept b2 := by
  unfold averageEnd
  dsimp only
  repeat' (first | with_reducible rfl | (simp; done) | split)

@[simp ↓, simp] theorem kept_limitViolation (b1 : Nat) (b2 : Nat) (b3 : Nat) (b4 : LimitCfg) (b5 : DT) (b6 : Nat) (b7 : State) : kept (limitViolation b1 b2 b3 b4 b5 b6 b7) = kept b7 := by
  unfold limitViolation
  simp

@[simp ↓, simp] theorem kept_limitTest (b1 : Nat) (b2 : Nat) (b3 : List Int) (b4 : Nat) (b5 : DT) (b6 : Nat) (b7 : State) : kept (limitTest b1 b2 b3 b4 b5 b6 b7) = kept b7 := by
  unfold limitTest
  repeat' (first | with_reducible rfl | (simp; done) | split)

@[simp ↓, simp] theorem kept_traceEnd (b1 : Nat) (b2 : Nat) (b3 : State) : kept (traceEnd b1 b2 b3) = kept b3 := by
  unfold traceEnd
  simp

@[simp ↓, simp] theorem kept_blocksEnd (b1 : Nat) (b2 : State) : kept (blocksEnd b1 b2) = kept b2 := by
  unfold blocksEnd
  simp

@[simp ↓, simp] theorem kept_trigClearDue (b1 : Nat) (b2 : Spectrum) (b3 : State) : kept (trigClearDue b1 b2 b3) = kept b3 := by
  unfold trigClearDue
  simp

@[simp ↓, simp] theorem kept_deliverFrame (b1 : Nat) (b2 : Nat) (b3 : Nat) (b4 : Nat) (b5 : List (Int × Int)) (b6 : State) : kept (deliverFrame b1 b2 b3 b4 b5 b6) = kept b6 := by
  unfold deliverFrame
  simp

@[simp ↓, simp] theorem kept_leaveNext (b1 : Nat) (b2 : State) : kept (leaveNext b1 b2) = kept b2 := by
  unfold leaveNext
  dsimp only
  repeat' (first | with_reducible rfl | (simp; done) | split)

@[simp ↓, simp] theorem kept_gridRestart (b1 : Nat) (b2 : DT) (b3 : State) : kept (gridRestart b1 b2 b3) = kept b3 := by
  unfold gridRestart
  simp

@[simp ↓, simp] theorem kept_gridQueue (b1 : Nat) (b2 : Nat) (b3 : Nat) (b4 : Nat) (b5 : State) : kept (gridQueue b1 b2 b3 b4 b5) = kept b5 := by
  unfold gridQueue
  simp

@[simp ↓, simp] theorem kept_detectorEnd (b1 : Nat) (b2 : State) : kept (detectorEnd b1 b2) = kept b2 := by
  unfold detectorEnd
  simp

@[simp ↓, simp] theorem kept_issueTrigger (b1 : Nat) (b2 : DT) (b3 : Nat) (b4 : DT) (b5 : State) : kept (issueTrigger b1 b2 b3 b4 b5) = kept b5 := by
  unfold issueTrigger
  simp

@[simp ↓, simp] theorem kept_seqInput (b1 : Nat) (b2 : Nat) (b3 : TrigEvent) (b4 : State) : kept (seqInput b1 b2 b3 b4) = kept b4 := by
  unfold seqInput
  simp

@[simp ↓, simp] theorem kept_seqGroup (b1 : Nat) (b2 : List TrigEvent) (b3 : State) : kept (seqGroup b1 b2 b3) = kept b3 := by
  unfold seqGroup
  repeat' (first | with_reducible rfl | (simp; done) | split)

@[simp ↓, simp] theorem kept_seqEvaluate (b1 : Nat) (b2 : State) : kept (seqEvaluate b1 b2) = kept b2 := by
  unfold seqEvaluate
  simp

@[simp ↓, simp] theorem kept_rewriteCaps (b1 : State) : kept (rewriteCaps b1) = kept b1 := by
  unfold rewriteCaps
  simp

@[simp ↓, simp] theorem kept_pipTo (b1 : UnitState) (b2 : Nat) (b3 : Nat) (b4 : State) : kept (pipTo b1 b2 b3 b4) = kept b4 := by
  unfold pipTo
  simp

@[simp ↓, simp] theorem kept_currantTo (b1 : UnitState) (b2 : Nat) (b3 : Nat) (b4 : Nat) (b5 : State) : kept (currantTo b1 b2 b3 b4 b5) = kept b5 := by
  unfold currantTo
  simp

@[simp ↓, simp] theorem kept_setPips (b1 : Nat) (b2 : List Nat) (b3 : State) : kept (setPips b1 b2 b3) = kept b3 := by
  unfold setPips
  simp

@[simp ↓, simp] theorem kept_assignPips (b1 : Nat) (b2 : Nat) (b3 : State) : kept (assignPips b1 b2 b3) = kept b3 := by
  induction b2 generalizing b3 with
  | zero => rfl
  | succ n ih =>
    unfold assignPips
    try dsimp only
    repeat' (first | with_reducible rfl | (simp [ih]; done) | split)

@[simp ↓, simp] theorem kept_assignCurrants (b1 : Nat) (b2 : Nat) (b3 : State) : kept (assignCurrants b1 b2 b3) = kept b3 := by
  induction b2 generalizing b3 with
  | zero => rfl
  | succ n ih =>
    unfold assignCurrants
    try dsimp only
    repeat' (first | with_reducible rfl | (simp [ih]; done) | split)

@[simp ↓, simp] theorem kept_assignUnits (b1 : Nat) (b2 : State) : kept (assignUnits b1 b2) = kept b2 := by
  unfold assignUnits
  simp

@[simp ↓, simp] theorem kept_firstAdmission (b1 : State) : kept (firstAdmission b1) = kept b1 := by
  unfold firstAdmission
  simp

@[simp ↓, simp] theorem kept_rfPersonalityStop (b1 : Nat) (b2 : State) : kept (rfPersonalityStop b1 b2) = kept b2 := by
  unfold rfPersonalityStop
  simp

@[simp ↓, simp] theorem kept_fibreStop (b1 : Nat) (b2 : State) : kept (fibreStop b1 b2) = kept b2 := by
  unfold fibreStop
  simp

@[simp ↓, simp] theorem kept_haltNow (b1 : Nat) (b2 : Nat) (b3 : State) : kept (haltNow b1 b2 b3) = kept b3 := by
  unfold haltNow
  simp

@[simp ↓, simp] theorem kept_haltLater (b1 : Nat) (b2 : Nat) (b3 : State) : kept (haltLater b1 b2 b3) = kept b3 := by
  unfold haltLater
  simp

@[simp ↓, simp] theorem kept_haltPersonality (b1 : Nat) (b2 : Nat) (b3 : State) : kept (haltPersonality b1 b2 b3) = kept b3 := by
  unfold haltPersonality
  simp

@[simp ↓, simp] theorem kept_schedule (b1 : List (Claim × Write)) (b2 : State) : kept (schedule b1 b2) = kept b2 := by
  unfold schedule
  simp

@[simp ↓, simp] theorem kept_sparesShort (b1 : State) : kept (sparesShort b1) = kept b1 := by
  unfold sparesShort
  simp

@[simp ↓, simp] theorem kept_retirePip (b1 : Nat) (b2 : Nat) (b3 : State) : kept (retirePip b1 b2 b3) = kept b3 := by
  unfold retirePip
  simp

@[simp ↓, simp] theorem kept_retireCurrant (b1 : Nat) (b2 : Nat) (b3 : State) : kept (retireCurrant b1 b2 b3) = kept b3 := by
  unfold retireCurrant
  simp

@[simp ↓, simp] theorem kept_struckPip (b1 : Nat) (b2 : Nat) (b3 : State) : kept (struckPip b1 b2 b3) = kept b3 := by
  unfold struckPip
  simp

@[simp ↓, simp] theorem kept_struckCurrant (b1 : Nat) (b2 : Nat) (b3 : State) : kept (struckCurrant b1 b2 b3) = kept b3 := by
  unfold struckCurrant
  simp

@[simp ↓, simp] theorem kept_closeRecord (b1 : Nat) (b2 : Nat) (b3 : Nat) (b4 : State) : kept (closeRecord b1 b2 b3 b4) = kept b4 := by
  unfold closeRecord
  dsimp only
  repeat' (first | with_reducible rfl | (simp; done) | split)

@[simp ↓, simp] theorem kept_testOutcome (b1 : Nat) (b2 : Nat) (b3 : Nat) (b4 : State) : kept (testOutcome b1 b2 b3 b4) = kept b4 := by
  unfold testOutcome
  simp

@[simp ↓, simp] theorem kept_noteSpare (b1 : Nat) (b2 : Nat) (b3 : Option Nat) (b4 : State) : kept (noteSpare b1 b2 b3 b4) = kept b4 := by
  unfold noteSpare
  simp

@[simp ↓, simp] theorem kept_degradePip (b1 : Nat) (b2 : Nat) (b3 : State) : kept (degradePip b1 b2 b3) = kept b3 := by
  unfold degradePip
  dsimp only
  repeat' (first | with_reducible rfl | (simp; done) | split)

@[simp ↓, simp] theorem kept_degradeSlots (b1 : Nat) (b2 : Nat) (b3 : State) : kept (degradeSlots b1 b2 b3) = kept b3 := by
  unfold degradeSlots
  simp

@[simp ↓, simp] theorem kept_fibreHeld (b1 : Nat) (b2 : State) : kept (fibreHeld b1 b2) = kept b2 := by
  unfold fibreHeld
  simp

@[simp ↓, simp] theorem kept_handlePip (b1 : Nat) (b2 : Nat) (b3 : State) : kept (handlePip b1 b2 b3).2 = kept b3 := by
  unfold handlePip
  dsimp only
  repeat' (first | with_reducible rfl | (simp; done) | split)

@[simp ↓, simp] theorem kept_handleCurrant (b1 : Nat) (b2 : Nat) (b3 : State) : kept (handleCurrant b1 b2 b3).2 = kept b3 := by
  unfold handleCurrant
  dsimp only
  repeat' (first | with_reducible rfl | (simp; done) | split)

@[simp ↓, simp] theorem kept_runRecords (b1 : Nat) (b2 : State) : kept (runRecords b1 b2) = kept b2 := by
  induction b1 generalizing b2 with
  | zero => rfl
  | succ n ih =>
    unfold runRecords
    try dsimp only
    repeat' (first | with_reducible rfl | (simp [ih]; done) | split)

@[simp ↓, simp] theorem kept_errorStorm (b1 : Nat) (b2 : Nat) (b3 : Nat) (b4 : State) : kept (errorStorm b1 b2 b3 b4) = kept b4 := by
  unfold errorStorm
  simp

@[simp ↓, simp] theorem kept_retireNamed (b1 : Nat) (b2 : Nat) (b3 : Nat) (b4 : State) : kept (retireNamed b1 b2 b3 b4) = kept b4 := by
  unfold retireNamed
  dsimp only
  repeat' (first | with_reducible rfl | (simp; done) | split)

@[simp ↓, simp] theorem kept_faultArrive (b1 : Nat) (b2 : Nat) (b3 : Nat) (b4 : Nat) (b5 : Nat) (b6 : List Claim) (b7 : State) : kept (faultArrive b1 b2 b3 b4 b5 b6 b7) = kept b7 := by
  unfold faultArrive
  simp

@[simp ↓, simp] theorem kept_pipFaulted (b1 : Nat) (b2 : Nat) (b3 : State) : kept (pipFaulted b1 b2 b3) = kept b3 := by
  unfold pipFaulted
  simp

@[simp ↓, simp] theorem kept_currantFaulted (b1 : Nat) (b2 : Nat) (b3 : State) : kept (currantFaulted b1 b2 b3) = kept b3 := by
  unfold currantFaulted
  simp

@[simp ↓, simp] theorem kept_finishRecord (b1 : Nat) (b2 : Nat) (b3 : Nat) (b4 : State) : kept (finishRecord b1 b2 b3 b4) = kept b4 := by
  unfold finishRecord
  simp

@[simp ↓, simp] theorem kept_finishHalted (b1 : Nat) (b2 : State) : kept (finishHalted b1 b2) = kept b2 := by
  unfold finishHalted
  repeat' (first | with_reducible rfl | (simp; done) | split)

@[simp ↓, simp] theorem kept_haltsSettle (b1 : Boundary → Bool) (b2 : State) : kept (haltsSettle b1 b2) = kept b2 := by
  unfold haltsSettle
  simp

@[simp ↓, simp] theorem kept_gridSwitch (b1 : Nat) (b2 : State) : kept (gridSwitch b1 b2) = kept b2 := by
  unfold gridSwitch
  dsimp only
  repeat' (first | with_reducible rfl | (simp; done) | split)

@[simp ↓, simp] theorem kept_pathRestarted (b1 : Nat) (b2 : Nat) (b3 : State) : kept (pathRestarted b1 b2 b3) = kept b3 := by
  unfold pathRestarted
  simp

@[simp ↓, simp] theorem kept_pipRepaired (b1 : Nat) (b2 : Bool) (b3 : State) : kept (pipRepaired b1 b2 b3) = kept b3 := by
  unfold pipRepaired pipRepaired.pipDone
  dsimp only
  repeat' (first | with_reducible rfl | (simp; done) | split)

@[simp ↓, simp] theorem kept_currantRepaired (b1 : Nat) (b2 : List Nat) (b3 : State) : kept (currantRepaired b1 b2 b3) = kept b3 := by
  unfold currantRepaired
  split
  · rfl
  · dsimp only
    simp only [kept_finishRecord, kept_struckCurrant, kept_event]
    split
    · refine (kept_each _ _ _ ?_).trans ?_
      · intro k s
        split <;> simp
      · simp
    · simp

@[simp ↓, simp] theorem kept_degradeEvents (b1 : Nat) (b2 : Nat) (b3 : Nat) (b4 : Nat) (b5 : Nat) (b6 : State) : kept (degradeEvents b1 b2 b3 b4 b5 b6) = kept b6 := by
  unfold degradeEvents
  simp

@[simp ↓, simp] theorem kept_finishDegraded (b1 : Nat) (b2 : State) : kept (finishDegraded b1 b2) = kept b2 := by
  unfold finishDegraded
  repeat' (first | with_reducible rfl | (simp; done) | split)

@[simp ↓, simp] theorem kept_relieveLand (b1 : Bool) (b2 : Nat) (b3 : Nat) (b4 : Nat) (b5 : State) : kept (relieveLand b1 b2 b3 b4 b5) = kept b5 := by
  unfold relieveLand
  simp

@[simp ↓, simp] theorem kept_pllLock (b1 : Nat) (b2 : State) : kept (pllLock b1 b2) = kept b2 := by
  unfold pllLock
  simp

@[simp ↓, simp] theorem kept_pllBegin (b1 : Nat) (b2 : Nat) (b3 : State) : kept (pllBegin b1 b2 b3) = kept b3 := by
  unfold pllBegin
  simp

@[simp ↓, simp] theorem kept_dtStep (b1 : Nat) (b2 : State) : kept (dtStep b1 b2) = kept b2 := by
  unfold dtStep
  simp

@[simp ↓, simp] theorem kept_pllRun (b1 : Nat) (b2 : Nat) (b3 : State) : kept (pllRun b1 b2 b3) = kept b3 := by
  unfold pllRun
  simp

@[simp ↓, simp] theorem kept_pllStop (b1 : Nat) (b2 : State) : kept (pllStop b1 b2) = kept b2 := by
  unfold pllStop
  simp

@[simp ↓, simp] theorem kept_modDisp (b1 : Display → Display) (b2 : State) : kept (modDisp b1 b2) = kept b2 := by
  unfold modDisp
  simp

@[simp ↓, simp] theorem kept_modeLand (b1 : ModeCfg) (b2 : Bool) (b3 : State) : kept (modeLand b1 b2 b3) = kept b3 := by
  unfold modeLand
  simp

@[simp ↓, simp] theorem kept_layerLand (b1 : Nat) (b2 : LayerCfg) (b3 : Bool) (b4 : State) : kept (layerLand b1 b2 b3 b4) = kept b4 := by
  unfold layerLand
  simp

@[simp ↓, simp] theorem kept_displayLand (b1 : Bool) (b2 : Write) (b3 : State) : kept (displayLand b1 b2 b3) = kept b3 := by
  unfold displayLand
  repeat' (first | with_reducible rfl | (simp; done) | split)

@[simp ↓, simp] theorem kept_displayRest (b1 : Write) (b2 : State) : kept (displayRest b1 b2) = kept b2 := by
  unfold displayRest
  repeat' (first | with_reducible rfl | (simp; done) | split)

@[simp ↓, simp] theorem kept_settingsChanged (b1 : Nat) (b2 : Nat) (b3 : DT) (b4 : State) : kept (settingsChanged b1 b2 b3 b4) = kept b4 := by
  unfold settingsChanged
  simp

@[simp ↓, simp] theorem kept_blocksFresh (b1 : Nat) (b2 : State) : kept (blocksFresh b1 b2) = kept b2 := by
  unfold blocksFresh
  simp

@[simp ↓, simp] theorem kept_tracesEnd (b1 : Nat) (b2 : State) : kept (tracesEnd b1 b2) = kept b2 := by
  unfold tracesEnd
  simp

@[simp ↓, simp] theorem kept_ddcSetLand (b1 : Nat) (b2 : Nat) (b3 : Nat) (b4 : Nat) (b5 : Nat) (b6 : Bool) (b7 : State) : kept (ddcSetLand b1 b2 b3 b4 b5 b6 b7) = kept b7 := by
  unfold ddcSetLand
  simp

@[simp ↓, simp] theorem kept_pipStartLand (b1 : List Write) (b2 : Nat) (b3 : State) : kept (pipStartLand b1 b2 b3) = kept b3 := by
  unfold pipStartLand
  simp

@[simp ↓, simp] theorem kept_fftLand (b1 : Nat) (b2 : FftCfg) (b3 : DT) (b4 : State) : kept (fftLand b1 b2 b3 b4) = kept b4 := by
  unfold fftLand
  simp

@[simp ↓, simp] theorem kept_windowLand (b1 : Nat) (b2 : Nat) (b3 : DT) (b4 : State) : kept (windowLand b1 b2 b3 b4) = kept b4 := by
  unfold windowLand
  simp

@[simp ↓, simp] theorem kept_traceLand (b1 : Nat) (b2 : Nat) (b3 : TraceCfg) (b4 : State) : kept (traceLand b1 b2 b3 b4) = kept b4 := by
  unfold traceLand
  simp

@[simp ↓, simp] theorem kept_limitResumeLand (b1 : Nat) (b2 : State) : kept (limitResumeLand b1 b2) = kept b2 := by
  unfold limitResumeLand
  simp

@[simp ↓, simp] theorem kept_calRfLand (b1 : Nat) (b2 : Int) (b3 : List Int) (b4 : Int) (b5 : Nat) (b6 : Nat) (b7 : DT) (b8 : State) : kept (calRfLand b1 b2 b3 b4 b5 b6 b7 b8) = kept b8 := by
  unfold calRfLand
  simp

@[simp ↓, simp] theorem kept_detectLand (b1 : Nat) (b2 : Nat) (b3 : Nat) (b4 : Nat) (b5 : Nat) (b6 : State) : kept (detectLand b1 b2 b3 b4 b5 b6) = kept b6 := by
  unfold detectLand
  simp

@[simp ↓, simp] theorem kept_bloomReleaseLand (b1 : Nat) (b2 : State) : kept (bloomReleaseLand b1 b2) = kept b2 := by
  unfold bloomReleaseLand
  simp

@[simp ↓, simp] theorem kept_bloomReadClearLand (b1 : Nat) (b2 : Nat) (b3 : State) : kept (bloomReadClearLand b1 b2 b3) = kept b3 := by
  unfold bloomReadClearLand
  simp

@[simp ↓, simp] theorem kept_seqLand (b1 : Nat) (b2 : SeqCfg) (b3 : State) : kept (seqLand b1 b2 b3) = kept b3 := by
  unfold seqLand
  simp

@[simp ↓, simp] theorem kept_capSetLand (b1 : Nat) (b2 : CapCfg) (b3 : State) : kept (capSetLand b1 b2 b3) = kept b3 := by
  unfold capSetLand
  simp

@[simp ↓, simp] theorem kept_swapsAnew (b1 : Nat) (b2 : State) : kept (swapsAnew b1 b2) = kept b2 := by
  unfold swapsAnew
  simp

@[simp ↓, simp] theorem kept_dasLand (b1 : Nat) (b2 : Nat) (b3 : State) : kept (dasLand b1 b2 b3) = kept b3 := by
  unfold dasLand
  simp

@[simp ↓, simp] theorem kept_dtsLand (b1 : Nat) (b2 : State) : kept (dtsLand b1 b2) = kept b2 := by
  unfold dtsLand
  simp

@[simp ↓, simp] theorem kept_dasChanged (b1 : Nat) (b2 : Fibre → Fibre) (b3 : State) : kept (dasChanged b1 b2 b3) = kept b3 := by
  unfold dasChanged
  simp

@[simp ↓, simp] theorem kept_degradeRfLand (b1 : Nat) (b2 : Nat) (b3 : Nat) (b4 : DT) (b5 : State) : kept (degradeRfLand b1 b2 b3 b4 b5) = kept b5 := by
  unfold degradeRfLand
  simp

@[simp ↓, simp] theorem kept_degradeDasLand (b1 : Nat) (b2 : Nat) (b3 : State) : kept (degradeDasLand b1 b2 b3) = kept b3 := by
  unfold degradeDasLand
  simp

@[simp ↓, simp] theorem kept_degradeDtsLand (b1 : Nat) (b2 : State) : kept (degradeDtsLand b1 b2) = kept b2 := by
  unfold degradeDtsLand
  simp

@[simp ↓, simp] theorem kept_landWrite (b1 : List Write) (b2 : DT) (b3 : Write) (b4 : State) : kept (landWrite b1 b2 b3 b4) = kept b4 := by
  unfold landWrite
  repeat' (first | with_reducible rfl | (simp; done) | split)

@[simp ↓, simp] theorem kept_powerChange (b1 : Power) (b2 : Nat) (b3 : DT) (b4 : State) : kept (powerChange b1 b2 b3 b4) = kept b4 := by
  unfold powerChange
  simp

@[simp ↓, simp] theorem kept_domainPll (b1 : Nat → Nat → State → State) (b2 : Domain) (b3 : State) (h0 : ∀ v0 v1 v2, kept (b1 v0 v1 v2) = kept v2) : kept (domainPll b1 b2 b3) = kept b3 := by
  unfold domainPll
  repeat' (first | with_reducible rfl | (simp [h0]; done) | split)

@[simp ↓, simp] theorem kept_wakeDomains (b1 : List Domain) (b2 : State) : kept (wakeDomains b1 b2) = kept b2 := by
  unfold wakeDomains
  simp

@[simp ↓, simp] theorem kept_startDomains (b1 : List Write) (b2 : State) : kept (startDomains b1 b2) = kept b2 := by
  unfold startDomains
  simp

@[simp ↓, simp] theorem kept_domainUp (b1 : Domain) (b2 : State) : kept (domainUp b1 b2) = kept b2 := by
  unfold domainUp
  repeat' (first | with_reducible rfl | (simp; done) | split)

@[simp ↓, simp] theorem kept_fabricPoint (b1 : State) : kept (fabricPoint b1) = kept b1 := by
  unfold fabricPoint
  simp

@[simp ↓, simp] theorem kept_memberFail (b1 : Ctx) (b2 : Nat) (b3 : Nat) (b4 : Nat) (b5 : State) : kept (memberFail b1 b2 b3 b4 b5) = kept b5 := by
  unfold memberFail
  simp

@[simp ↓, simp] theorem kept_applyNow (b1 : Ctx) (b2 : List Member) (b3 : Nat) (b4 : State) : kept (applyNow b1 b2 b3 b4) = kept b4 := by
  unfold applyNow
  dsimp only
  repeat' (first | with_reducible rfl | (simp; done) | split)

@[simp ↓, simp] theorem kept_directBunch (b1 : Ctx) (b2 : List Member) (b3 : Nat) (b4 : State) : kept (directBunch b1 b2 b3 b4) = kept b4 := by
  unfold directBunch
  repeat' (first | with_reducible rfl | (simp; done) | split)

@[simp ↓, simp] theorem kept_stageMember (b1 : Ctx) (b2 : List Member) (b3 : Nat) (b4 : State) : kept (stageMember b1 b2 b3 b4) = kept b4 := by
  unfold stageMember
  simp

@[simp ↓, simp] theorem kept_clashCommand (b1 : Nat) (b2 : UnitRule) (b3 : Ctx → State → State → Checks) (b4 : Ctx → State → State → Checks) (b5 : Ctx → State → Bool) (b6 : Ctx → State → State → Bool) (b7 : Ctx → State → List Member) (b8 : Ctx → State → Nat) (b9 : Cmd) (b10 : State) : kept (clashCommand b1 b2 b3 b4 b5 b6 b7 b8 b9 b10) = kept b10 := by
  unfold clashCommand
  refine kept_takeCommand _ _ _ _ ?_
  intro x s
  dsimp only
  repeat' (first | with_reducible rfl | (simp; done) | split)

@[simp ↓, simp] theorem kept_memberCommand (b1 : Nat) (b2 : UnitRule) (b3 : Ctx → State → State → Checks) (b4 : Ctx → State → Bool) (b5 : Ctx → State → State → Bool) (b6 : Ctx → State → List Member) (b7 : Ctx → State → Nat) (b8 : Cmd) (b9 : State) : kept (memberCommand b1 b2 b3 b4 b5 b6 b7 b8 b9) = kept b9 := by
  unfold memberCommand
  simp

@[simp ↓, simp] theorem kept_loseStaged (b1 : Staged) (b2 : Nat) (b3 : Nat) (b4 : Nat) (b5 : State) : kept (loseStaged b1 b2 b3 b4 b5) = kept b5 := by
  unfold loseStaged
  simp

@[simp ↓, simp] theorem kept_refuseHeld (b1 : Staged) (b2 : State) : kept (refuseHeld b1 b2) = kept b2 := by
  unfold refuseHeld
  repeat' (first | with_reducible rfl | (simp; done) | split)

@[simp ↓, simp] theorem kept_arbitrate (b1 : Staged) (b2 : State) : kept (arbitrate b1 b2) = kept b2 := by
  unfold arbitrate
  dsimp only
  repeat' (first | with_reducible rfl | (simp; done) | split)

@[simp ↓, simp] theorem kept_claimScheduled (b1 : List Member) (b2 : State) : kept (claimScheduled b1 b2) = kept b2 := by
  unfold claimScheduled
  repeat' (first | with_reducible rfl | (simp; done) | split)

@[simp ↓, simp] theorem kept_stagingCycle (b1 : State) : kept (stagingCycle b1) = kept b1 := by
  unfold stagingCycle
  simp

@[simp ↓, simp] theorem kept_finishBunch (b1 : Nat) (b2 : State) : kept (finishBunch b1 b2) = kept b2 := by
  unfold finishBunch
  dsimp only
  repeat' (first | with_reducible rfl | (simp; done) | split)

@[simp ↓, simp] theorem kept_keepArmed (b1 : Write) (b2 : State) : kept (keepArmed b1 b2) = kept b2 := by
  unfold keepArmed
  repeat' (first | with_reducible rfl | (simp; done) | split)

@[simp ↓, simp] theorem kept_rangesStand (b1 : Bunch) (b2 : Nat) (b3 : Write) (b4 : State) : kept (rangesStand b1 b2 b3 b4) = kept b4 := by
  unfold rangesStand
  split
  · refine kept_each _ _ _ ?_
    intro m s
    split
    · split <;> simp
    · rfl
  · rfl

@[simp ↓, simp] theorem kept_landMember (b1 : Nat) (b2 : Nat) (b3 : State) : kept (landMember b1 b2 b3) = kept b3 := by
  unfold landMember
  dsimp only
  repeat' (first | with_reducible rfl | (simp; done) | split)

@[simp ↓, simp] theorem kept_landAll (b1 : Member → State → Bool) (b2 : Nat) (b3 : State) : kept (landAll b1 b2 b3) = kept b3 := by
  unfold landAll
  simp

@[simp ↓, simp] theorem kept_pointReached (b1 : Nat) (b2 : DT) (b3 : State) : kept (pointReached b1 b2 b3) = kept b3 := by
  unfold pointReached
  simp

@[simp ↓, simp] theorem kept_reachPoint (b1 : Member → State → Bool) (b2 : Nat) (b3 : State) : kept (reachPoint b1 b2 b3) = kept b3 := by
  unfold reachPoint
  dsimp only
  repeat' (first | with_reducible rfl | (simp; done) | split)

@[simp ↓, simp] theorem kept_settle (b1 : Boundary → Bool) (b2 : State) : kept (settle b1 b2) = kept b2 := by
  unfold settle
  simp

@[simp ↓, simp] theorem kept_leaveAll (b1 : Nat) (b2 : Nat) (b3 : State) : kept (leaveAll b1 b2 b3) = kept b3 := by
  induction b2 generalizing b3 with
  | zero => rfl
  | succ n ih =>
    unfold leaveAll
    simp [ih]

@[simp ↓, simp] theorem kept_pump (b1 : Nat) (b2 : State) : kept (pump b1 b2) = kept b2 := by
  unfold pump
  simp

@[simp ↓, simp] theorem kept_applyDeferred (b1 : State) : kept (applyDeferred b1) = kept b1 := by
  unfold applyDeferred
  simp

@[simp ↓, simp] theorem kept_bunchOpen (b1 : Cmd) (b2 : State) : kept (bunchOpen b1 b2) = kept b2 := by
  unfold bunchOpen
  repeat' (first | apply kept_takeCommand | apply kept_plainCommand | apply kept_clashCommand | apply kept_pf0Only | intro _)
  dsimp only
  repeat' (first | with_reducible rfl | (simp; done) | split)

@[simp ↓, simp] theorem kept_bunchCommit (b1 : Cmd) (b2 : State) : kept (bunchCommit b1 b2) = kept b2 := by
  unfold bunchCommit
  simp

@[simp ↓, simp] theorem kept_bunchAbort (b1 : Cmd) (b2 : State) : kept (bunchAbort b1 b2) = kept b2 := by
  unfold bunchAbort
  simp

@[simp ↓, simp] theorem kept_bunchQuery (b1 : Cmd) (b2 : State) : kept (bunchQuery b1 b2) = kept b2 := by
  unfold bunchQuery
  simp

@[simp ↓, simp] theorem kept_rfSetRange (b1 : Cmd) (b2 : State) : kept (rfSetRange b1 b2) = kept b2 := by
  unfold rfSetRange
  simp

@[simp ↓, simp] theorem kept_statusCommand (b1 : Nat) (b2 : UnitRule) (b3 : Ctx → State → Bool) (b4 : Ctx → State → List Byte) (b5 : Cmd) (b6 : State) : kept (statusCommand b1 b2 b3 b4 b5 b6) = kept b6 := by
  unfold statusCommand
  simp

@[simp ↓, simp] theorem kept_rfStatus (b1 : Cmd) (b2 : State) : kept (rfStatus b1 b2) = kept b2 := by
  unfold rfStatus
  simp

@[simp ↓, simp] theorem kept_rfSetPadCount (b1 : Cmd) (b2 : State) : kept (rfSetPadCount b1 b2) = kept b2 := by
  unfold rfSetPadCount
  simp

@[simp ↓, simp] theorem kept_calSetRf (b1 : Cmd) (b2 : State) : kept (calSetRf b1 b2) = kept b2 := by
  unfold calSetRf
  simp

@[simp ↓, simp] theorem kept_overdriveGroup (b1 : Nat) (b2 : State) : kept (overdriveGroup b1 b2) = kept b2 := by
  unfold overdriveGroup
  repeat' (first | with_reducible rfl | (simp; done) | split)

@[simp ↓, simp] theorem kept_burnFollows (b1 : Nat) (b2 : State) : kept (burnFollows b1 b2) = kept b2 := by
  unfold burnFollows
  dsimp only
  repeat' (first | with_reducible rfl | (simp; done) | split)

@[simp ↓, simp] theorem kept_sliceFault (b1 : Nat) (b2 : Nat) (b3 : Nat) (b4 : State) : kept (sliceFault b1 b2 b3 b4) = kept b4 := by
  unfold sliceFault
  simp

@[simp ↓, simp] theorem kept_opticalArrive (b1 : Nat) (b2 : List Int) (b3 : State) : kept (opticalArrive b1 b2 b3) = kept b3 := by
  unfold opticalArrive
  simp

@[simp ↓, simp] theorem kept_ddcSet (b1 : Cmd) (b2 : State) : kept (ddcSet b1 b2) = kept b2 := by
  unfold ddcSet
  simp

@[simp ↓, simp] theorem kept_ddcSetDetect (b1 : Cmd) (b2 : State) : kept (ddcSetDetect b1 b2) = kept b2 := by
  unfold ddcSetDetect
  simp

@[simp ↓, simp] theorem kept_pipAssign (b1 : Cmd) (b2 : State) : kept (pipAssign b1 b2) = kept b2 := by
  unfold pipAssign
  simp

@[simp ↓, simp] theorem kept_pipSetSpares (b1 : Cmd) (b2 : State) : kept (pipSetSpares b1 b2) = kept b2 := by
  unfold pipSetSpares
  simp

@[simp ↓, simp] theorem kept_pipStatus (b1 : Cmd) (b2 : State) : kept (pipStatus b1 b2) = kept b2 := by
  unfold pipStatus
  simp

@[simp ↓, simp] theorem kept_specSetFft (b1 : Cmd) (b2 : State) : kept (specSetFft b1 b2) = kept b2 := by
  unfold specSetFft
  simp

@[simp ↓, simp] theorem kept_specSetWindow (b1 : Cmd) (b2 : State) : kept (specSetWindow b1 b2) = kept b2 := by
  unfold specSetWindow
  simp

@[simp ↓, simp] theorem kept_specSetTrace (b1 : Cmd) (b2 : State) : kept (specSetTrace b1 b2) = kept b2 := by
  unfold specSetTrace
  simp

@[simp ↓, simp] theorem kept_frameDone (b1 : Nat) (b2 : List (Int × Int)) (b3 : State) : kept (frameDone b1 b2 b3) = kept b3 := by
  unfold frameDone
  simp

@[simp ↓, simp] theorem kept_bloomSet (b1 : Cmd) (b2 : State) : kept (bloomSet b1 b2) = kept b2 := by
  unfold bloomSet
  simp

@[simp ↓, simp] theorem kept_bloomClear (b1 : Cmd) (b2 : State) : kept (bloomClear b1 b2) = kept b2 := by
  unfold bloomClear
  simp

@[simp ↓, simp] theorem kept_bloomReadNow (b1 : Ctx) (b2 : State) : kept (bloomReadNow b1 b2) = kept b2 := by
  unfold bloomReadNow
  dsimp only
  repeat' (first | with_reducible rfl | (simp; done) | split)

@[simp ↓, simp] theorem kept_bloomReadClear (b1 : Cmd) (b2 : State) : kept (bloomReadClear b1 b2) = kept b2 := by
  unfold bloomReadClear
  simp

@[simp ↓, simp] theorem kept_bloomRead (b1 : Cmd) (b2 : State) : kept (bloomRead b1 b2) = kept b2 := by
  unfold bloomRead
  simp

@[simp ↓, simp] theorem kept_bloomServe (b1 : Nat) (b2 : State) : kept (bloomServe b1 b2) = kept b2 := by
  unfold bloomServe
  dsimp only
  repeat' (first | with_reducible rfl | (simp; done) | split)

@[simp ↓, simp] theorem kept_trigSetMask (b1 : Cmd) (b2 : State) : kept (trigSetMask b1 b2) = kept b2 := by
  unfold trigSetMask
  simp

@[simp ↓, simp] theorem kept_trigSetTd (b1 : Cmd) (b2 : State) : kept (trigSetTd b1 b2) = kept b2 := by
  unfold trigSetTd
  simp

@[simp ↓, simp] theorem kept_trigSetSeq (b1 : Cmd) (b2 : State) : kept (trigSetSeq b1 b2) = kept b2 := by
  unfold trigSetSeq
  simp

@[simp ↓, simp] theorem kept_trigSetLimit (b1 : Cmd) (b2 : State) : kept (trigSetLimit b1 b2) = kept b2 := by
  unfold trigSetLimit
  simp

@[simp ↓, simp] theorem kept_trigLimitResume (b1 : Cmd) (b2 : State) : kept (trigLimitResume b1 b2) = kept b2 := by
  unfold trigLimitResume
  simp

@[simp ↓, simp] theorem kept_trigSetLog (b1 : Cmd) (b2 : State) : kept (trigSetLog b1 b2) = kept b2 := by
  unfold trigSetLog
  simp

@[simp ↓, simp] theorem kept_trigSetLineLog (b1 : Cmd) (b2 : State) : kept (trigSetLineLog b1 b2) = kept b2 := by
  unfold trigSetLineLog
  simp

@[simp ↓, simp] theorem kept_lineMerge (b1 : Nat) (b2 : State) : kept (lineMerge b1 b2) = kept b2 := by
  unfold lineMerge
  simp

@[simp ↓, simp] theorem kept_trigInStamp (b1 : Nat) (b2 : Nat) (b3 : State) : kept (trigInStamp b1 b2 b3) = kept b3 := by
  unfold trigInStamp trigInStamp.accept
  dsimp only
  repeat' (first | with_reducible rfl | (simp; done) | split)

@[simp ↓, simp] theorem kept_capSet (b1 : Cmd) (b2 : State) : kept (capSet b1 b2) = kept b2 := by
  unfold capSet
  simp

@[simp ↓, simp] theorem kept_capArm (b1 : Cmd) (b2 : State) : kept (capArm b1 b2) = kept b2 := by
  unfold capArm
  simp

@[simp ↓, simp] theorem kept_capForce (b1 : Cmd) (b2 : State) : kept (capForce b1 b2) = kept b2 := by
  unfold capForce
  simp

@[simp ↓, simp] theorem kept_readoutBegin (b1 : Nat) (b2 : Nat) (b3 : Nat) (b4 : State) : kept (readoutBegin b1 b2 b3 b4) = kept b4 := by
  unfold readoutBegin
  simp

@[simp ↓, simp] theorem kept_capRead (b1 : Cmd) (b2 : State) : kept (capRead b1 b2) = kept b2 := by
  unfold capRead
  repeat' (first | apply kept_takeCommand | apply kept_plainCommand | apply kept_clashCommand | apply kept_pf0Only | intro _)
  dsimp only
  repeat' (first | with_reducible rfl | (simp; done) | split)

@[simp ↓, simp] theorem kept_capStatus (b1 : Cmd) (b2 : State) : kept (capStatus b1 b2) = kept b2 := by
  unfold capStatus
  simp

@[simp ↓, simp] theorem kept_capLost (b1 : Nat) (b2 : State) : kept (capLost b1 b2) = kept b2 := by
  unfold capLost
  simp

@[simp ↓, simp] theorem kept_genSegment (b1 : Cmd) (b2 : State) : kept (genSegment b1 b2) = kept b2 := by
  unfold genSegment
  simp

@[simp ↓, simp] theorem kept_genLoad (b1 : Cmd) (b2 : State) : kept (genLoad b1 b2) = kept b2 := by
  unfold genLoad
  simp

@[simp ↓, simp] theorem kept_genStart (b1 : Cmd) (b2 : State) : kept (genStart b1 b2) = kept b2 := by
  unfold genStart
  simp

@[simp ↓, simp] theorem kept_genCarrier (b1 : Cmd) (b2 : State) : kept (genCarrier b1 b2) = kept b2 := by
  unfold genCarrier
  simp

@[simp ↓, simp] theorem kept_calSetGen (b1 : Cmd) (b2 : State) : kept (calSetGen b1 b2) = kept b2 := by
  unfold calSetGen
  simp

@[simp ↓, simp] theorem kept_genJump (b1 : Cmd) (b2 : State) : kept (genJump b1 b2) = kept b2 := by
  unfold genJump
  simp

@[simp ↓, simp] theorem kept_genRoute (b1 : Cmd) (b2 : State) : kept (genRoute b1 b2) = kept b2 := by
  unfold genRoute
  simp

@[simp ↓, simp] theorem kept_genStatus (b1 : Cmd) (b2 : State) : kept (genStatus b1 b2) = kept b2 := by
  unfold genStatus
  simp

@[simp ↓, simp] theorem kept_laserSetModcal (b1 : Cmd) (b2 : State) : kept (laserSetModcal b1 b2) = kept b2 := by
  unfold laserSetModcal
  simp

@[simp ↓, simp] theorem kept_laserSetCaps (b1 : Cmd) (b2 : State) : kept (laserSetCaps b1 b2) = kept b2 := by
  unfold laserSetCaps
  simp

@[simp ↓, simp] theorem kept_laserArm (b1 : Cmd) (b2 : State) : kept (laserArm b1 b2) = kept b2 := by
  unfold laserArm
  simp

@[simp ↓, simp] theorem kept_laserStatus (b1 : Cmd) (b2 : State) : kept (laserStatus b1 b2) = kept b2 := by
  unfold laserStatus
  simp

@[simp ↓, simp] theorem kept_dasStart (b1 : Cmd) (b2 : State) : kept (dasStart b1 b2) = kept b2 := by
  unfold dasStart
  simp

@[simp ↓, simp] theorem kept_dasSetSlot (b1 : Cmd) (b2 : State) : kept (dasSetSlot b1 b2) = kept b2 := by
  unfold dasSetSlot
  simp

@[simp ↓, simp] theorem kept_dasSetGrid (b1 : Cmd) (b2 : State) : kept (dasSetGrid b1 b2) = kept b2 := by
  unfold dasSetGrid
  simp

@[simp ↓, simp] theorem kept_dasSetPmask (b1 : Cmd) (b2 : State) : kept (dasSetPmask b1 b2) = kept b2 := by
  unfold dasSetPmask
  simp

@[simp ↓, simp] theorem kept_dasStatus (b1 : Cmd) (b2 : State) : kept (dasStatus b1 b2) = kept b2 := by
  unfold dasStatus
  simp

@[simp ↓, simp] theorem kept_calSetFibre (b1 : Cmd) (b2 : State) : kept (calSetFibre b1 b2) = kept b2 := by
  unfold calSetFibre
  simp

@[simp ↓, simp] theorem kept_dtsStart (b1 : Cmd) (b2 : State) : kept (dtsStart b1 b2) = kept b2 := by
  unfold dtsStart
  simp

@[simp ↓, simp] theorem kept_dtsSet (b1 : Cmd) (b2 : State) : kept (dtsSet b1 b2) = kept b2 := by
  unfold dtsSet
  simp

@[simp ↓, simp] theorem kept_dtsStatus (b1 : Cmd) (b2 : State) : kept (dtsStatus b1 b2) = kept b2 := by
  unfold dtsStatus
  simp

@[simp ↓, simp] theorem kept_slowSetScan (b1 : Cmd) (b2 : State) : kept (slowSetScan b1 b2) = kept b2 := by
  unfold slowSetScan
  simp

@[simp ↓, simp] theorem kept_slowStart (b1 : Cmd) (b2 : State) : kept (slowStart b1 b2) = kept b2 := by
  unfold slowStart
  simp

@[simp ↓, simp] theorem kept_slowUrgent (b1 : Cmd) (b2 : State) : kept (slowUrgent b1 b2) = kept b2 := by
  unfold slowUrgent
  simp

@[simp ↓, simp] theorem kept_excSet (b1 : Cmd) (b2 : State) : kept (excSet b1 b2) = kept b2 := by
  unfold excSet
  simp

@[simp ↓, simp] theorem kept_excStatus (b1 : Cmd) (b2 : State) : kept (excStatus b1 b2) = kept b2 := by
  unfold excStatus
  simp

@[simp ↓, simp] theorem kept_curSetBand (b1 : Cmd) (b2 : State) : kept (curSetBand b1 b2) = kept b2 := by
  unfold curSetBand
  simp

@[simp ↓, simp] theorem kept_curStatus (b1 : Cmd) (b2 : State) : kept (curStatus b1 b2) = kept b2 := by
  unfold curStatus
  simp

@[simp ↓, simp] theorem kept_stackPoint (b1 : State) : kept (stackPoint b1).2 = kept b1 := by
  unfold stackPoint
  repeat' (first | with_reducible rfl | (simp; done) | split)

@[simp ↓, simp] theorem kept_stackHop (b1 : State) : kept (stackHop b1) = kept b1 := by
  unfold stackHop
  simp

@[simp ↓, simp] theorem kept_modStone (b1 : Stone → Stone) (b2 : State) (h0 : ∀ x, (b1 x).lifeCycle = x.lifeCycle ∧ (b1 x).idKey = x.idKey ∧ (b1 x).scanEn = x.scanEn) : kept (modStone b1 b2) = kept b2 := by
  simp [modStone, kept, h0]

@[simp ↓, simp] theorem kept_stoneFlag (b1 : BitVec 6) (b2 : State) : kept (stoneFlag b1 b2) = kept b2 := by
  unfold stoneFlag
  simp

@[simp ↓, simp] theorem kept_answer (b1 : List Byte) (b2 : State) : kept (answer b1 b2) = kept b2 := by
  unfold answer
  simp

@[simp ↓, simp] theorem kept_holdEnd (b1 : Hold) (b2 : State) : kept (holdEnd b1 b2) = kept b2 := by
  unfold holdEnd
  simp

@[simp ↓, simp] theorem kept_dropImage (b1 : State) : kept (dropImage b1) = kept b1 := by
  unfold dropImage
  simp

@[simp ↓, simp] theorem kept_goFrom (b1 : Source) (b2 : State) : kept (goFrom b1 b2) = kept b2 := by
  unfold goFrom
  simp

@[simp ↓, simp] theorem kept_abortImage (b1 : State) : kept (abortImage b1) = kept b1 := by
  unfold abortImage
  simp

@[simp ↓, simp] theorem kept_dtLatch (b1 : State) : kept (dtLatch b1) = kept b1 := by
  unfold dtLatch
  simp

@[simp ↓, simp] theorem kept_bar2Read (b1 : Nat) (b2 : Nat) (b3 : State) : kept (bar2Read b1 b2 b3) = kept b3 := by
  unfold bar2Read
  simp

@[simp ↓, simp] theorem kept_stageWrite (b1 : Source) (b2 : Nat) (b3 : List Byte) (b4 : State) : kept (stageWrite b1 b2 b3 b4) = kept b4 := by
  unfold stageWrite
  simp

@[simp ↓, simp] theorem kept_stageFrom (b1 : Source) (b2 : Nat) (b3 : List Byte) (b4 : State) : kept (stageFrom b1 b2 b3 b4) = kept b4 := by
  unfold stageFrom
  simp

@[simp ↓, simp] theorem kept_vectorControl (b1 : Nat) (b2 : Nat) (b3 : Bool) (b4 : State) : kept (vectorControl b1 b2 b3 b4) = kept b4 := by
  unfold vectorControl
  simp

@[simp ↓, simp] theorem kept_vectorsWritten (b1 : Nat) (b2 : List Byte) (b3 : State) : kept (vectorsWritten b1 b2 b3) = kept b3 := by
  unfold vectorsWritten
  simp

@[simp ↓, simp] theorem kept_spiActs (b1 : Bool) (b2 : State → State) (b3 : State → State) (b4 : State) (h1 : ∀ v0, kept (b2 v0) = kept v0) (h2 : ∀ v0, kept (b3 v0) = kept v0) : kept (spiActs b1 b2 b3 b4) = kept b4 := by
  unfold spiActs
  simp [h1, h2]

@[simp ↓, simp] theorem kept_aerReport (b1 : State) : kept (aerReport b1) = kept b1 := by
  unfold aerReport
  simp

@[simp ↓, simp] theorem kept_completerAbort (b1 : State) : kept (completerAbort b1) = kept b1 := by
  unfold completerAbort
  simp

@[simp ↓, simp] theorem kept_dramTouch (b1 : State) : kept (dramTouch b1) = kept b1 := by
  unfold dramTouch
  simp

@[simp ↓, simp] theorem kept_bar4Serve (b1 : Nat) (b2 : Nat) (b3 : State) : kept (bar4Serve b1 b2 b3) = kept b3 := by
  unfold bar4Serve
  simp

@[simp ↓, simp] theorem kept_bar4Hold (b1 : Nat) (b2 : Nat) (b3 : List Byte) (b4 : State) : kept (bar4Hold b1 b2 b3 b4) = kept b4 := by
  unfold bar4Hold
  simp

@[simp ↓, simp] theorem kept_dramResumed (b1 : State) : kept (dramResumed b1) = kept b1 := by
  unfold dramResumed
  simp

@[simp ↓, simp] theorem kept_dmaSettle (b1 : Nat) (b2 : State) : kept (dmaSettle b1 b2) = kept b2 := by
  unfold dmaSettle
  repeat' (first | with_reducible rfl | (simp; done) | split)

@[simp ↓, simp] theorem kept_dmaStop (b1 : Nat) (b2 : Nat) (b3 : State) : kept (dmaStop b1 b2 b3) = kept b3 := by
  unfold dmaStop
  simp

@[simp ↓, simp] theorem kept_dmaFetch (b1 : DT) (b2 : Nat) (b3 : Nat) (b4 : U128) (b5 : Channel → State → State) (b6 : State) (h4 : ∀ v0 v1, kept (b5 v0 v1) = kept v1) : kept (dmaFetch b1 b2 b3 b4 b5 b6) = kept b6 := by
  unfold dmaFetch
  simp [h4]

@[simp ↓, simp] theorem kept_dmaNext (b1 : Nat) (b2 : State) : kept (dmaNext b1 b2) = kept b2 := by
  unfold dmaNext
  simp

@[simp ↓, simp] theorem kept_dmaBegin (b1 : Nat) (b2 : U128) (b3 : List (Nat × Nat × Nat × Nat × Nat)) (b4 : State) : kept (dmaBegin b1 b2 b3 b4) = kept b4 := by
  unfold dmaBegin
  simp

@[simp ↓, simp] theorem kept_dmaMove (b1 : Nat) (b2 : U128) (b3 : Channel) (b4 : State) : kept (dmaMove b1 b2 b3 b4) = kept b4 := by
  unfold dmaMove
  dsimp only
  repeat' (first | with_reducible rfl | (simp; done) | split)

@[simp ↓, simp] theorem kept_dmaGather (b1 : Nat) (b2 : U128) (b3 : Channel) (b4 : State) : kept (dmaGather b1 b2 b3 b4) = kept b4 := by
  unfold dmaGather
  dsimp only
  repeat' (first | with_reducible rfl | (simp; done) | split)

@[simp ↓, simp] theorem kept_dmaScatter (b1 : Nat) (b2 : U128) (b3 : Channel) (b4 : State) : kept (dmaScatter b1 b2 b3 b4) = kept b4 := by
  unfold dmaScatter
  repeat' (first | with_reducible rfl | (simp; done) | split)

@[simp ↓, simp] theorem kept_drawBytes (b1 : Nat) (b2 : State) : kept (drawBytes b1 b2).2 = kept b2 := by
  induction b1 generalizing b2 with
  | zero => rfl
  | succ n ih =>
    unfold drawBytes
    try dsimp only
    repeat' (first | with_reducible rfl | (simp [ih]; done) | split)

@[simp ↓, simp] theorem kept_sideRead (b1 : Channel) (b2 : Nat) (b3 : Nat) (b4 : Nat) (b5 : State) : kept (sideRead b1 b2 b3 b4 b5).2 = kept b5 := by
  unfold sideRead
  repeat' (first | with_reducible rfl | (simp; done) | split)

@[simp ↓, simp] theorem kept_sideWrite (b1 : Channel) (b2 : Nat) (b3 : Nat) (b4 : List Byte) (b5 : State) : kept (sideWrite b1 b2 b3 b4 b5) = kept b5 := by
  unfold sideWrite
  simp

@[simp ↓, simp] theorem kept_burstMove (b1 : Nat) (b2 : Channel) (b3 : Transfer) (b4 : Nat × Nat × Nat × Nat × Nat) (b5 : Bool) (b6 : State) : kept (burstMove b1 b2 b3 b4 b5 b6) = kept b6 := by
  unfold burstMove
  repeat' (first | with_reducible rfl | (simp; done) | split)

@[simp ↓, simp] theorem kept_dmaBurst (b1 : Nat) (b2 : State) : kept (dmaBurst b1 b2) = kept b2 := by
  unfold dmaBurst
  dsimp only
  repeat' (first | with_reducible rfl | (simp; done) | split)

@[simp ↓, simp] theorem kept_dmaLoop (b1 : Nat) (b2 : U128) (b3 : Channel) (b4 : State) : kept (dmaLoop b1 b2 b3 b4) = kept b4 := by
  unfold dmaLoop
  dsimp only
  repeat' (first | with_reducible rfl | (simp; done) | split)

@[simp ↓, simp] theorem kept_waitPass (b1 : Nat) (b2 : U128) (b3 : State) : kept (waitPass b1 b2 b3) = kept b3 := by
  unfold waitPass
  simp

@[simp ↓, simp] theorem kept_dmaWait (b1 : Nat) (b2 : U128) (b3 : Channel) (b4 : State) : kept (dmaWait b1 b2 b3 b4) = kept b4 := by
  unfold dmaWait
  repeat' (first | with_reducible rfl | (simp; done) | split)

@[simp ↓, simp] theorem kept_dmaSignal (b1 : Nat) (b2 : U128) (b3 : Channel) (b4 : State) : kept (dmaSignal b1 b2 b3 b4) = kept b4 := by
  unfold dmaSignal
  simp

@[simp ↓, simp] theorem kept_dmaLink (b1 : Nat) (b2 : U128) (b3 : Channel) (b4 : State) : kept (dmaLink b1 b2 b3 b4) = kept b4 := by
  unfold dmaLink
  simp

@[simp ↓, simp] theorem kept_dmaEnd (b1 : Nat) (b2 : U128) (b3 : Channel) (b4 : State) : kept (dmaEnd b1 b2 b3 b4) = kept b4 := by
  unfold dmaEnd
  simp

@[simp ↓, simp] theorem kept_dmaBell (b1 : Nat) (b2 : State) : kept (dmaBell b1 b2) = kept b2 := by
  unfold dmaBell
  simp

@[simp ↓, simp] theorem kept_bindRings (b1 : Nat) (b2 : Channel) (b3 : State) : kept (bindRings b1 b2 b3) = kept b3 := by
  unfold bindRings
  simp

@[simp ↓, simp] theorem kept_dmaSet (b1 : Cmd) (b2 : State) : kept (dmaSet b1 b2) = kept b2 := by
  unfold dmaSet
  simp

@[simp ↓, simp] theorem kept_dmaHalt (b1 : Nat) (b2 : CmdRef) (b3 : State) : kept (dmaHalt b1 b2 b3) = kept b3 := by
  unfold dmaHalt
  simp

@[simp ↓, simp] theorem kept_dmaStart (b1 : Cmd) (b2 : State) : kept (dmaStart b1 b2) = kept b2 := by
  unfold dmaStart
  repeat' (first | apply kept_takeCommand | apply kept_plainCommand | apply kept_clashCommand | apply kept_pf0Only | intro _)
  dsimp only
  repeat' (first | with_reducible rfl | (simp; done) | split)

@[simp ↓, simp] theorem kept_dmaStatus (b1 : Cmd) (b2 : State) : kept (dmaStatus b1 b2) = kept b2 := by
  unfold dmaStatus
  simp

@[simp ↓, simp] theorem kept_dmaRequest (b1 : Cmd) (b2 : State) : kept (dmaRequest b1 b2) = kept b2 := by
  unfold dmaRequest
  simp

@[simp ↓, simp] theorem kept_devInfo (b1 : Cmd) (b2 : State) : kept (devInfo b1 b2) = kept b2 := by
  unfold devInfo
  simp

@[simp ↓, simp] theorem kept_devCaps (b1 : Cmd) (b2 : State) : kept (devCaps b1 b2) = kept b2 := by
  unfold devCaps
  simp

@[simp ↓, simp] theorem kept_devSetWindow (b1 : Cmd) (b2 : State) : kept (devSetWindow b1 b2) = kept b2 := by
  unfold devSetWindow
  simp

@[simp ↓, simp] theorem kept_ringZero (b1 : Ring) (b2 : State) : kept (ringZero b1 b2) = kept b2 := by
  unfold ringZero
  simp

@[simp ↓, simp] theorem kept_ringCreate (b1 : Cmd) (b2 : State) : kept (ringCreate b1 b2) = kept b2 := by
  unfold ringCreate
  simp

@[simp ↓, simp] theorem kept_ringDestroy (b1 : Cmd) (b2 : State) : kept (ringDestroy b1 b2) = kept b2 := by
  unfold ringDestroy
  simp

@[simp ↓, simp] theorem kept_ringModerate (b1 : Cmd) (b2 : State) : kept (ringModerate b1 b2) = kept b2 := by
  unfold ringModerate
  simp

@[simp ↓, simp] theorem kept_ringFault (b1 : Nat) (b2 : State) : kept (ringFault b1 b2) = kept b2 := by
  unfold ringFault
  simp

@[simp ↓, simp] theorem kept_hostIndex (b1 : Nat) (b2 : BitVec 16) (b3 : State) : kept (hostIndex b1 b2 b3) = kept b3 := by
  unfold hostIndex
  simp

@[simp ↓, simp] theorem kept_doorbell (b1 : Nat) (b2 : U32) (b3 : State) : kept (doorbell b1 b2 b3) = kept b3 := by
  unfold doorbell
  repeat' (first | with_reducible rfl | (simp; done) | split)

@[simp ↓, simp] theorem kept_bar0Read (b1 : Nat) (b2 : Nat) (b3 : State) : kept (bar0Read b1 b2 b3) = kept b3 := by
  unfold bar0Read
  simp

@[simp ↓, simp] theorem kept_idleTick (b1 : State) : kept (idleTick b1) = kept b1 := by
  unfold idleTick
  simp

@[simp ↓, simp] theorem kept_planeGone (b1 : State) : kept (planeGone b1) = kept b1 := by
  unfold planeGone
  simp

@[simp ↓, simp] theorem kept_genRestart (b1 : Nat) (b2 : State) : kept (genRestart b1 b2) = kept b2 := by
  unfold genRestart
  dsimp only
  repeat' (first | with_reducible rfl | (simp; done) | split)

@[simp ↓, simp] theorem kept_planeBack (b1 : State) : kept (planeBack b1) = kept b1 := by
  unfold planeBack
  simp

@[simp ↓, simp] theorem kept_alignedSettle (b1 : State) : kept (alignedSettle b1) = kept b1 := by
  unfold alignedSettle
  simp

@[simp ↓, simp] theorem kept_lockLost (b1 : Nat) (b2 : Nat) (b3 : State) : kept (lockLost b1 b2 b3) = kept b3 := by
  unfold lockLost
  simp

@[simp ↓, simp] theorem kept_pllLeave (b1 : Nat) (b2 : Nat) (b3 : State) : kept (pllLeave b1 b2 b3) = kept b3 := by
  unfold pllLeave
  simp

@[simp ↓, simp] theorem kept_relockGo (b1 : State) : kept (relockGo b1) = kept b1 := by
  unfold relockGo
  repeat' (first | with_reducible rfl | (simp; done) | split)

@[simp ↓, simp] theorem kept_clkStatus (b1 : Cmd) (b2 : State) : kept (clkStatus b1 b2) = kept b2 := by
  unfold clkStatus
  simp

@[simp ↓, simp] theorem kept_clkSetLockMode (b1 : Cmd) (b2 : State) : kept (clkSetLockMode b1 b2) = kept b2 := by
  unfold clkSetLockMode
  simp

@[simp ↓, simp] theorem kept_relockTo (b1 : Bool) (b2 : Bool) (b3 : Option CmdRef) (b4 : State) : kept (relockTo b1 b2 b3 b4) = kept b4 := by
  unfold relockTo
  simp

@[simp ↓, simp] theorem kept_clkSelectRef (b1 : Cmd) (b2 : State) : kept (clkSelectRef b1 b2) = kept b2 := by
  unfold clkSelectRef
  simp

@[simp ↓, simp] theorem kept_clkSyncArm (b1 : Cmd) (b2 : State) : kept (clkSyncArm b1 b2) = kept b2 := by
  unfold clkSyncArm
  simp

@[simp ↓, simp] theorem kept_clkSetSkew (b1 : Cmd) (b2 : State) : kept (clkSetSkew b1 b2) = kept b2 := by
  unfold clkSetSkew
  simp

@[simp ↓, simp] theorem kept_skewDone (b1 : Nat) (b2 : State) : kept (skewDone b1 b2) = kept b2 := by
  unfold skewDone
  simp

@[simp ↓, simp] theorem kept_timeGet (b1 : Cmd) (b2 : State) : kept (timeGet b1 b2) = kept b2 := by
  unfold timeGet
  simp

@[simp ↓, simp] theorem kept_timeSetTai (b1 : Cmd) (b2 : State) : kept (timeSetTai b1 b2) = kept b2 := by
  unfold timeSetTai
  simp

@[simp ↓, simp] theorem kept_timeConfig (b1 : Cmd) (b2 : State) : kept (timeConfig b1 b2) = kept b2 := by
  unfold timeConfig
  simp

@[simp ↓, simp] theorem kept_ppsAcquire (b1 : DT) (b2 : DT) (b3 : State) : kept (ppsAcquire b1 b2 b3) = kept b3 := by
  unfold ppsAcquire
  simp

@[simp ↓, simp] theorem kept_dtLoad (b1 : DT) (b2 : Nat) (b3 : State) : kept (dtLoad b1 b2 b3) = kept b3 := by
  unfold dtLoad
  simp

@[simp ↓, simp] theorem kept_portLink (b1 : Nat) (b2 : Bool) (b3 : State) : kept (portLink b1 b2 b3) = kept b3 := by
  unfold portLink
  simp

@[simp ↓, simp] theorem kept_netSetPort (b1 : Cmd) (b2 : State) : kept (netSetPort b1 b2) = kept b2 := by
  unfold netSetPort
  simp

@[simp ↓, simp] theorem kept_netStatus (b1 : Cmd) (b2 : State) : kept (netStatus b1 b2) = kept b2 := by
  unfold netStatus
  simp

@[simp ↓, simp] theorem kept_portSent (b1 : Nat) (b2 : State) : kept (portSent b1 b2) = kept b2 := by
  unfold portSent
  simp

@[simp ↓, simp] theorem kept_portDiscard (b1 : Nat) (b2 : State) : kept (portDiscard b1 b2) = kept b2 := by
  unfold portDiscard
  simp

@[simp ↓, simp] theorem kept_netSetStream (b1 : Cmd) (b2 : State) : kept (netSetStream b1 b2) = kept b2 := by
  unfold netSetStream
  simp

@[simp ↓, simp] theorem kept_netSetVdif (b1 : Cmd) (b2 : State) : kept (netSetVdif b1 b2) = kept b2 := by
  unfold netSetVdif
  simp

@[simp ↓, simp] theorem kept_vdifWrite (b1 : Nat) (b2 : VdifCfg) (b3 : Nat) (b4 : Nat) (b5 : Nat) (b6 : List (Int × Int)) (b7 : State) : kept (vdifWrite b1 b2 b3 b4 b5 b6 b7) = kept b7 := by
  unfold vdifWrite
  simp

@[simp ↓, simp] theorem kept_endpointRings (b1 : Nat) (b2 : Nat) (b3 : State) : kept (endpointRings b1 b2 b3) = kept b3 := by
  unfold endpointRings
  simp

@[simp ↓, simp] theorem kept_endpointOn (b1 : Ctx) (b2 : Nat) (b3 : State) : kept (endpointOn b1 b2 b3) = kept b3 := by
  unfold endpointOn
  simp

@[simp ↓, simp] theorem kept_netSetControl (b1 : Cmd) (b2 : State) : kept (netSetControl b1 b2) = kept b2 := by
  unfold netSetControl
  repeat' (first | apply kept_takeCommand | apply kept_plainCommand | apply kept_clashCommand | apply kept_pf0Only | intro _)
  dsimp only
  repeat' (first | with_reducible rfl | (simp; done) | split)

@[simp ↓, simp] theorem kept_endpointEmit (b1 : Nat) (b2 : Option Nat) (b3 : Nat) (b4 : Nat) (b5 : Nat) (b6 : State) : kept (endpointEmit b1 b2 b3 b4 b5 b6) = kept b6 := by
  unfold endpointEmit
  repeat' (first | with_reducible rfl | (simp; done) | split)

@[simp ↓, simp] theorem kept_resendIndices (b1 : Nat) (b2 : Nat) (b3 : List Nat) (b4 : State) : kept (resendIndices b1 b2 b3 b4) = kept b4 := by
  unfold resendIndices
  repeat' (first | with_reducible rfl | (simp; done) | split)

@[simp ↓, simp] theorem kept_acceptEntries (b1 : Datagram) (b2 : Nat) (b3 : State) : kept (acceptEntries b1 b2 b3) = kept b3 := by
  unfold acceptEntries
  simp

@[simp ↓, simp] theorem kept_stewardDown (b1 : Nat) (b2 : State) : kept (stewardDown b1 b2) = kept b2 := by
  unfold stewardDown
  simp

@[simp ↓, simp] theorem kept_faultTaken (b1 : Option CmdRef) (b2 : State) : kept (faultTaken b1 b2) = kept b2 := by
  unfold faultTaken
  simp

@[simp ↓, simp] theorem kept_restartAborts (b1 : State) : kept (restartAborts b1) = kept b1 := by
  unfold restartAborts
  simp

@[simp ↓, simp] theorem kept_postHeld (b1 : List Event) (b2 : Bool) (b3 : State) : kept (postHeld b1 b2 b3) = kept b3 := by
  unfold postHeld
  simp

@[simp ↓, simp] theorem kept_stewardStorm (b1 : State) : kept (stewardStorm b1) = kept b1 := by
  unfold stewardStorm
  simp

@[simp ↓, simp] theorem kept_flushAll (b1 : State) : kept (flushAll b1) = kept b1 := by
  unfold flushAll
  simp

@[simp ↓, simp] theorem kept_freeLanded (b1 : State) : kept (freeLanded b1) = kept b1 := by
  unfold freeLanded
  simp

@[simp ↓, simp] theorem kept_stewardBack (b1 : Nat) (b2 : DT) (b3 : State) : kept (stewardBack b1 b2 b3) = kept b3 := by
  unfold stewardBack
  extract_lets old fault recent h s1 s2 record u s3 s4 s5 s6 s7 s8
  clear_value h
  have h1 : kept s1 = kept b3 := rfl
  have h2 : kept s2 = kept s1 := by simp only [s2]; (repeat' (first | with_reducible rfl | (simp; done) | split))
  have h3 : kept s3 = kept s2 := by simp only [s3]; (repeat' (first | with_reducible rfl | (simp; done) | split))
  have h4 : kept s4 = kept s3 := by simp [s4]
  have h5 : kept s5 = kept s4 := by simp [s5]
  have h6 : kept s6 = kept s5 := by simp [s6]
  have h7 : kept s7 = kept s6 := by simp only [s7]; (repeat' (first | with_reducible rfl | (simp; done) | split))
  have h8 : kept s8 = kept s7 := by simp [s8]
  have all := h8.trans (h7.trans (h6.trans (h5.trans (h4.trans (h3.trans (h2.trans h1))))))
  split
  · exact (kept_stewardStorm _).trans all
  · exact all

@[simp ↓, simp] theorem kept_devUpdate (b1 : Cmd) (b2 : State) : kept (devUpdate b1 b2) = kept b2 := by
  unfold devUpdate
  repeat' (first | apply kept_takeCommand | apply kept_plainCommand | apply kept_clashCommand | apply kept_pf0Only | intro _)
  dsimp only
  repeat' (first | with_reducible rfl | (simp; done) | split)

@[simp ↓, simp] theorem kept_healthStatus (b1 : Cmd) (b2 : State) : kept (healthStatus b1 b2) = kept b2 := by
  unfold healthStatus
  simp

@[simp ↓, simp] theorem kept_healthSetRotation (b1 : Cmd) (b2 : State) : kept (healthSetRotation b1 b2) = kept b2 := by
  unfold healthSetRotation
  simp

@[simp ↓, simp] theorem kept_healthReadFaults (b1 : Cmd) (b2 : State) : kept (healthReadFaults b1 b2) = kept b2 := by
  unfold healthReadFaults
  simp

@[simp ↓, simp] theorem kept_healthSetRetired (b1 : Cmd) (b2 : State) : kept (healthSetRetired b1 b2) = kept b2 := by
  unfold healthSetRetired
  simp

@[simp ↓, simp] theorem kept_visitPip (b1 : Nat) (b2 : State) : kept (visitPip b1 b2) = kept b2 := by
  unfold visitPip
  dsimp only
  repeat' (first | with_reducible rfl | (simp; done) | split)

@[simp ↓, simp] theorem kept_visitCurrant (b1 : Nat) (b2 : State) : kept (visitCurrant b1 b2) = kept b2 := by
  unfold visitCurrant
  dsimp only
  repeat' (first | with_reducible rfl | (simp; done) | split)

@[simp ↓, simp] theorem kept_pipTested (b1 : Nat) (b2 : Bool) (b3 : State) : kept (pipTested b1 b2 b3) = kept b3 := by
  unfold pipTested
  simp

@[simp ↓, simp] theorem kept_currantTested (b1 : Nat) (b2 : Bool) (b3 : State) : kept (currantTested b1 b2 b3) = kept b3 := by
  unfold currantTested
  simp

@[simp ↓, simp] theorem kept_firstTestEnd (b1 : State) : kept (firstTestEnd b1) = kept b1 := by
  unfold firstTestEnd
  simp

@[simp ↓, simp] theorem kept_orxFault (b1 : Nat) (b2 : Int) (b3 : State) : kept (orxFault b1 b2 b3) = kept b3 := by
  unfold orxFault
  simp

@[simp ↓, simp] theorem kept_dacRetire (b1 : Nat) (b2 : Int) (b3 : State) : kept (dacRetire b1 b2 b3) = kept b3 := by
  unfold dacRetire
  simp

@[simp ↓, simp] theorem kept_modMem (b1 : MemCtl → MemCtl) (b2 : State) : kept (modMem b1 b2) = kept b2 := by
  unfold modMem
  simp

@[simp ↓, simp] theorem kept_dfsBegin (b1 : State) : kept (dfsBegin b1) = kept b1 := by
  unfold dfsBegin
  repeat' (first | with_reducible rfl | (simp; done) | split)

@[simp ↓, simp] theorem kept_memSetFreq (b1 : Cmd) (b2 : State) : kept (memSetFreq b1 b2) = kept b2 := by
  unfold memSetFreq
  simp

@[simp ↓, simp] theorem kept_memSetIdle (b1 : Cmd) (b2 : State) : kept (memSetIdle b1 b2) = kept b2 := by
  unfold memSetIdle
  simp

@[simp ↓, simp] theorem kept_logError (b1 : LogEntry) (b2 : State) : kept (logError b1 b2).2 = kept b2 := by
  unfold logError
  dsimp only
  repeat' (first | with_reducible rfl | (simp; done) | split)

@[simp ↓, simp] theorem kept_reportError (b1 : LogEntry) (b2 : Nat) (b3 : Nat) (b4 : Bool) (b5 : State) : kept (reportError b1 b2 b3 b4 b5) = kept b5 := by
  unfold reportError
  simp

@[simp ↓, simp] theorem kept_memError (b1 : LogEntry) (b2 : Nat) (b3 : Bool) (b4 : State) : kept (memError b1 b2 b3 b4) = kept b4 := by
  unfold memError
  simp

@[simp ↓, simp] theorem kept_repairEvent (b1 : Nat) (b2 : Nat) (b3 : Nat) (b4 : Nat) (b5 : State) : kept (repairEvent b1 b2 b3 b4 b5) = kept b5 := by
  unfold repairEvent
  simp

@[simp ↓, simp] theorem kept_remapRow (b1 : Nat) (b2 : Nat) (b3 : Nat) (b4 : Nat) (b5 : Nat) (b6 : Nat) (b7 : State) : kept (remapRow b1 b2 b3 b4 b5 b6 b7) = kept b7 := by
  unfold remapRow
  simp

@[simp ↓, simp] theorem kept_countRow (b1 : Nat) (b2 : Nat) (b3 : Nat) (b4 : Nat) (b5 : Nat) (b6 : Nat) (b7 : State) : kept (countRow b1 b2 b3 b4 b5 b6 b7) = kept b7 := by
  unfold countRow
  simp

@[simp ↓, simp] theorem kept_burnRows (b1 : List (Nat × Nat × Nat)) (b2 : Nat) (b3 : State) : kept (burnRows b1 b2 b3).2 = kept b3 := by
  induction b1 generalizing b2 b3 with
  | nil => rfl
  | cons r rest ih =>
    obtain ⟨ch, bank, row⟩ := r
    unfold burnRows
    (repeat' (first | with_reducible rfl | (simp [ih]; done) | split))

@[simp ↓, simp] theorem kept_memRepair (b1 : Cmd) (b2 : State) : kept (memRepair b1 b2) = kept b2 := by
  unfold memRepair
  simp

@[simp ↓, simp] theorem kept_poisonResponse (b1 : Requester) (b2 : State) : kept (poisonResponse b1 b2) = kept b2 := by
  unfold poisonResponse
  repeat' (first | with_reducible rfl | (simp; done) | split)

@[simp ↓, simp] theorem kept_retireOwner (b1 : Nat) (b2 : Nat) (b3 : State) : kept (retireOwner b1 b2 b3) = kept b3 := by
  unfold retireOwner
  simp

@[simp ↓, simp] theorem kept_spareSramRow (b1 : Nat) (b2 : Nat) (b3 : Nat) (b4 : Nat) (b5 : State) : kept (spareSramRow b1 b2 b3 b4 b5) = kept b5 := by
  unfold spareSramRow
  simp

@[simp ↓, simp] theorem kept_sramLost (b1 : Nat) (b2 : Nat) (b3 : State) : kept (sramLost b1 b2 b3) = kept b3 := by
  unfold sramLost
  simp

@[simp ↓, simp] theorem kept_memStatus (b1 : Cmd) (b2 : State) : kept (memStatus b1 b2) = kept b2 := by
  unfold memStatus
  simp

@[simp ↓, simp] theorem kept_memReadLog (b1 : Cmd) (b2 : State) : kept (memReadLog b1 b2) = kept b2 := by
  unfold memReadLog
  simp

@[simp ↓, simp] theorem kept_devSetPower (b1 : Bool) (b2 : Cmd) (b3 : State) : kept (devSetPower b1 b2 b3) = kept b3 := by
  unfold devSetPower
  repeat' (first | apply kept_takeCommand | apply kept_plainCommand | apply kept_clashCommand | apply kept_pf0Only | intro _)
  repeat' (first | with_reducible rfl | (simp; done) | split)

@[simp ↓, simp] theorem kept_mapsGone (b1 : State) : kept (mapsGone b1) = kept b1 := by
  unfold mapsGone
  simp

@[simp ↓, simp] theorem kept_domainsDown (b1 : State) : kept (domainsDown b1) = kept b1 := by
  unfold domainsDown
  simp

@[simp ↓, simp] theorem kept_standbyBack (b1 : State) : kept (standbyBack b1) = kept b1 := by
  unfold standbyBack
  simp

@[simp ↓, simp] theorem kept_lcDenied (b1 : Ctx) (b2 : State) : kept (lcDenied b1 b2) = kept b2 := by
  unfold lcDenied
  simp

@[simp ↓, simp] theorem kept_nonceUsed (b1 : State) : kept (nonceUsed b1) = kept b1 := by
  unfold nonceUsed
  simp

@[simp ↓, simp] theorem kept_lcChallenge (b1 : Cmd) (b2 : State) : kept (lcChallenge b1 b2) = kept b2 := by
  unfold lcChallenge
  repeat' (first | apply kept_takeCommand | apply kept_plainCommand | apply kept_clashCommand | apply kept_pf0Only | intro _)
  repeat' (first | with_reducible rfl | (simp; done) | split)

@[simp ↓, simp] theorem kept_dispSetMode (b1 : Cmd) (b2 : State) : kept (dispSetMode b1 b2) = kept b2 := by
  unfold dispSetMode
  simp

@[simp ↓, simp] theorem kept_dispSetLayer (b1 : Cmd) (b2 : State) : kept (dispSetLayer b1 b2) = kept b2 := by
  unfold dispSetLayer
  simp

@[simp ↓, simp] theorem kept_dispSetPalette (b1 : Cmd) (b2 : State) : kept (dispSetPalette b1 b2) = kept b2 := by
  unfold dispSetPalette
  simp

@[simp ↓, simp] theorem kept_dispSetPsr (b1 : Cmd) (b2 : State) : kept (dispSetPsr b1 b2) = kept b2 := by
  unfold dispSetPsr
  simp

@[simp ↓, simp] theorem kept_dispAlloc (b1 : Cmd) (b2 : State) : kept (dispAlloc b1 b2) = kept b2 := by
  unfold dispAlloc
  simp

@[simp ↓, simp] theorem kept_dispStatus (b1 : Cmd) (b2 : State) : kept (dispStatus b1 b2) = kept b2 := by
  unfold dispStatus
  simp

@[simp ↓, simp] theorem kept_modeEvent (b1 : Nat) (b2 : Bool) (b3 : State) : kept (modeEvent b1 b2 b3) = kept b3 := by
  unfold modeEvent
  simp

@[simp ↓, simp] theorem kept_psrLeave (b1 : State) : kept (psrLeave b1) = kept b1 := by
  unfold psrLeave
  simp

@[simp ↓, simp] theorem kept_frameStartNow (b1 : State) : kept (frameStartNow b1) = kept b1 := by
  unfold frameStartNow
  dsimp only
  repeat' (first | with_reducible rfl | (simp; done) | split)

@[simp ↓, simp] theorem kept_releaseEvent (b1 : Nat × Nat × Bool × Nat) (b2 : State) : kept (releaseEvent b1 b2) = kept b2 := by
  unfold releaseEvent
  simp

@[simp ↓, simp] theorem kept_displayBunch (b1 : Nat) (b2 : State) : kept (displayBunch b1 b2) = kept b2 := by
  unfold displayBunch
  simp

@[simp ↓, simp] theorem kept_underflows (b1 : List Nat) (b2 : State) : kept (underflows b1 b2) = kept b2 := by
  unfold underflows
  dsimp only
  repeat' (first | with_reducible rfl | (simp; done) | split)

@[simp ↓, simp] theorem kept_psrEnter (b1 : State) : kept (psrEnter b1) = kept b1 := by
  unfold psrEnter
  simp

@[simp ↓, simp] theorem kept_hpdEvent (b1 : Nat) (b2 : State) : kept (hpdEvent b1 b2) = kept b2 := by
  unfold hpdEvent
  simp

end Sys2Proof.Machine
end

