-- ==== Sys2Proof/Laws/Inert.lean ====
section
/-! SUPPORT. The commands that keep the fuses, the floor, LC_STATE, the key slot, scan and the queue, one lemma each. -/

namespace Sys2Proof.Machine

open Sys2Proof

theorem exec_porNRise_kept {a} (s : State) : ∃ t, exec (.porNRise a) s = .next t ∧ kept t = kept s :=
  ⟨_, rfl, by simp⟩

theorem exec_sramWipeDone_kept {a} (s : State) : ∃ t, exec (.sramWipeDone a) s = .next t ∧ kept t = kept s :=
  ⟨_, rfl, by simp⟩

theorem exec_dramTrainingDone_kept {a b} (s : State) : ∃ t, exec (.dramTrainingDone a b) s = .next t ∧ kept t = kept s :=
  ⟨_, rfl, by repeat' (first | with_reducible rfl | (simp; done) | split)⟩

theorem exec_dramWipeDone_kept {a} (s : State) : ∃ t, exec (.dramWipeDone a) s = .next t ∧ kept t = kept s :=
  ⟨_, rfl, by simp⟩

theorem exec_verifyDone_kept {a} (s : State) : ∃ t, exec (.verifyDone a) s = .next t ∧ kept t = kept s :=
  ⟨_, rfl, by repeat' (first | with_reducible rfl | (simp; done) | split)⟩

theorem exec_korsynStart_kept {a} (s : State) : ∃ t, exec (.korsynStart a) s = .next t ∧ kept t = kept s :=
  ⟨_, rfl, by simp⟩

theorem exec_korsynReady_kept {a} (s : State) : ∃ t, exec (.korsynReady a) s = .next t ∧ kept t = kept s :=
  ⟨_, rfl, by simp⟩

theorem exec_startTimeout_kept {a} (s : State) : ∃ t, exec (.startTimeout a) s = .next t ∧ kept t = kept s :=
  ⟨_, rfl, by simp⟩

theorem exec_perstNAssert_kept {a} (s : State) : ∃ t, exec (.perstNAssert a) s = .next t ∧ kept t = kept s :=
  ⟨_, rfl, by simp⟩

theorem exec_perstNRelease_kept {a} (s : State) : ∃ t, exec (.perstNRelease a) s = .next t ∧ kept t = kept s :=
  ⟨_, rfl, by simp⟩

theorem exec_railRecovery_kept {a} (s : State) : ∃ t, exec (.railRecovery a) s = .next t ∧ kept t = kept s :=
  ⟨_, rfl, by simp⟩

theorem exec_thermalHoldEnd_kept {a} (s : State) : ∃ t, exec (.thermalHoldEnd a) s = .next t ∧ kept t = kept s :=
  ⟨_, rfl, by simp⟩

theorem exec_tempThreshold_kept {a b c} (s : State) : ∃ t, exec (.tempThreshold a b c) s = .next t ∧ kept t = kept s :=
  ⟨_, rfl, by dsimp only; (repeat' (first | with_reducible rfl | (simp; done) | split))⟩

theorem exec_dtSnapLoRead_kept {a} (s : State) : ∃ t, exec (.dtSnapLoRead a) s = .next t ∧ kept t = kept s :=
  ⟨_, rfl, by simp⟩

theorem exec_doorbellWrite_kept {a b c} (s : State) : ∃ t, exec (.doorbellWrite a b c) s = .next t ∧ kept t = kept s :=
  ⟨_, rfl, by simp⟩

theorem exec_dmaDoorbell_kept {a b c} (s : State) : ∃ t, exec (.dmaDoorbell a b c) s = .next t ∧ kept t = kept s :=
  ⟨_, rfl, by simp⟩

theorem exec_imageStagingWrite_kept {a b c} (s : State) : ∃ t, exec (.imageStagingWrite a b c) s = .next t ∧ kept t = kept s :=
  ⟨_, rfl, by simp⟩

theorem exec_bootSpiWriteStaging_kept {a b} (s : State) : ∃ t, exec (.bootSpiWriteStaging a b) s = .next t ∧ kept t = kept s :=
  ⟨_, rfl, by simp⟩

theorem exec_bootSpiReadStaging_kept {a b c} (s : State) : ∃ t, exec (.bootSpiReadStaging a b c) s = .next t ∧ kept t = kept s :=
  ⟨_, rfl, by simp⟩

theorem exec_bootSpiReadStatus_kept {a b} (s : State) : ∃ t, exec (.bootSpiReadStatus a b) s = .next t ∧ kept t = kept s :=
  ⟨_, rfl, by simp⟩

theorem exec_bootSpiWriteBootLen_kept {a b} (s : State) : ∃ t, exec (.bootSpiWriteBootLen a b) s = .next t ∧ kept t = kept s :=
  ⟨_, rfl, by simp⟩

theorem exec_bootSpiGo_kept {a b} (s : State) : ∃ t, exec (.bootSpiGo a b) s = .next t ∧ kept t = kept s :=
  ⟨_, rfl, by simp⟩

theorem exec_bootSpiAbort_kept {a b} (s : State) : ∃ t, exec (.bootSpiAbort a b) s = .next t ∧ kept t = kept s :=
  ⟨_, rfl, by simp⟩

theorem exec_bootSpiUnknownTransaction_kept {a b} (s : State) : ∃ t, exec (.bootSpiUnknownTransaction a b) s = .next t ∧ kept t = kept s :=
  ⟨_, rfl, by simp⟩

theorem exec_bar4Read_kept {a b c} (s : State) : ∃ t, exec (.bar4Read a b c) s = .next t ∧ kept t = kept s :=
  ⟨_, rfl, by simp⟩

theorem exec_bar4Write_kept {a b c} (s : State) : ∃ t, exec (.bar4Write a b c) s = .next t ∧ kept t = kept s :=
  ⟨_, rfl, by simp⟩

theorem exec_devInfo_kept {a} (s : State) : ∃ t, exec (.devInfo a) s = .next t ∧ kept t = kept s :=
  ⟨_, rfl, by simp⟩

theorem exec_devCaps_kept {a} (s : State) : ∃ t, exec (.devCaps a) s = .next t ∧ kept t = kept s :=
  ⟨_, rfl, by simp⟩

theorem exec_devSetWindow_kept {a} (s : State) : ∃ t, exec (.devSetWindow a) s = .next t ∧ kept t = kept s :=
  ⟨_, rfl, by simp⟩

theorem exec_devUpdate_kept {a} (s : State) : ∃ t, exec (.devUpdate a) s = .next t ∧ kept t = kept s :=
  ⟨_, rfl, by simp⟩

theorem exec_devSetPower_kept {a b} (s : State) : ∃ t, exec (.devSetPower a b) s = .next t ∧ kept t = kept s :=
  ⟨_, rfl, by simp⟩

theorem exec_ringCreate_kept {a} (s : State) : ∃ t, exec (.ringCreate a) s = .next t ∧ kept t = kept s :=
  ⟨_, rfl, by simp⟩

theorem exec_ringDestroy_kept {a} (s : State) : ∃ t, exec (.ringDestroy a) s = .next t ∧ kept t = kept s :=
  ⟨_, rfl, by simp⟩

theorem exec_ringModerate_kept {a} (s : State) : ∃ t, exec (.ringModerate a) s = .next t ∧ kept t = kept s :=
  ⟨_, rfl, by simp⟩

theorem exec_bunchOpen_kept {a} (s : State) : ∃ t, exec (.bunchOpen a) s = .next t ∧ kept t = kept s :=
  ⟨_, rfl, by simp⟩

theorem exec_bunchCommit_kept {a} (s : State) : ∃ t, exec (.bunchCommit a) s = .next t ∧ kept t = kept s :=
  ⟨_, rfl, by simp⟩

theorem exec_bunchAbort_kept {a} (s : State) : ∃ t, exec (.bunchAbort a) s = .next t ∧ kept t = kept s :=
  ⟨_, rfl, by simp⟩

theorem exec_bunchQuery_kept {a} (s : State) : ∃ t, exec (.bunchQuery a) s = .next t ∧ kept t = kept s :=
  ⟨_, rfl, by simp⟩

theorem exec_stagingCycle_kept {a} (s : State) : ∃ t, exec (.stagingCycle a) s = .next t ∧ kept t = kept s :=
  ⟨_, rfl, by simp⟩

theorem exec_bunchArmed_kept {a b} (s : State) : ∃ t, exec (.bunchArmed a b) s = .next t ∧ kept t = kept s :=
  ⟨_, rfl, by simp⟩

theorem exec_commitPoint_kept {a b} (s : State) : ∃ t, exec (.commitPoint a b) s = .next t ∧ kept t = kept s :=
  ⟨_, rfl, by simp⟩

theorem exec_memberLanding_kept {a b c} (s : State) : ∃ t, exec (.memberLanding a b c) s = .next t ∧ kept t = kept s :=
  ⟨_, rfl, by simp⟩

theorem exec_bunchTimeout_kept {a b} (s : State) : ∃ t, exec (.bunchTimeout a b) s = .next t ∧ kept t = kept s :=
  ⟨_, rfl, by simp⟩

theorem exec_domainStarted_kept {a b} (s : State) : ∃ t, exec (.domainStarted a b) s = .next t ∧ kept t = kept s :=
  ⟨_, rfl, by simp⟩

theorem exec_clkStatus_kept {a} (s : State) : ∃ t, exec (.clkStatus a) s = .next t ∧ kept t = kept s :=
  ⟨_, rfl, by simp⟩

theorem exec_clkSetLockMode_kept {a} (s : State) : ∃ t, exec (.clkSetLockMode a) s = .next t ∧ kept t = kept s :=
  ⟨_, rfl, by simp⟩

theorem exec_clkSelectRef_kept {a} (s : State) : ∃ t, exec (.clkSelectRef a) s = .next t ∧ kept t = kept s :=
  ⟨_, rfl, by simp⟩

theorem exec_clkSyncArm_kept {a} (s : State) : ∃ t, exec (.clkSyncArm a) s = .next t ∧ kept t = kept s :=
  ⟨_, rfl, by simp⟩

theorem exec_clkSetSkew_kept {a} (s : State) : ∃ t, exec (.clkSetSkew a) s = .next t ∧ kept t = kept s :=
  ⟨_, rfl, by simp⟩

theorem exec_adpllLock_kept {a b c} (s : State) : ∃ t, exec (.adpllLock a b c) s = .next t ∧ kept t = kept s :=
  ⟨_, rfl, by simp⟩

theorem exec_gatedOutputReturn_kept {a b} (s : State) : ∃ t, exec (.gatedOutputReturn a b) s = .next t ∧ kept t = kept s :=
  ⟨_, rfl, by dsimp only; (repeat' (first | with_reducible rfl | (simp; done) | split))⟩

theorem exec_adpllLockLoss_kept {a b} (s : State) : ∃ t, exec (.adpllLockLoss a b) s = .next t ∧ kept t = kept s :=
  ⟨_, rfl, by simp⟩

theorem exec_refclkLoss_kept {a} (s : State) : ∃ t, exec (.refclkLoss a) s = .next t ∧ kept t = kept s :=
  ⟨_, rfl, by simp⟩

theorem exec_refclkRestored_kept {a} (s : State) : ∃ t, exec (.refclkRestored a) s = .next t ∧ kept t = kept s :=
  ⟨_, rfl, by simp⟩

theorem exec_timeGet_kept {a} (s : State) : ∃ t, exec (.timeGet a) s = .next t ∧ kept t = kept s :=
  ⟨_, rfl, by simp⟩

theorem exec_timeSetTai_kept {a} (s : State) : ∃ t, exec (.timeSetTai a) s = .next t ∧ kept t = kept s :=
  ⟨_, rfl, by simp⟩

theorem exec_timeConfig_kept {a} (s : State) : ∃ t, exec (.timeConfig a) s = .next t ∧ kept t = kept s :=
  ⟨_, rfl, by simp⟩

theorem exec_ppsInEdge_kept {a b} (s : State) : ∃ t, exec (.ppsInEdge a b) s = .next t ∧ kept t = kept s :=
  ⟨_, rfl, by repeat' (first | with_reducible rfl | (simp; done) | split)⟩

theorem exec_ppsLossTimeout_kept {a} (s : State) : ∃ t, exec (.ppsLossTimeout a) s = .next t ∧ kept t = kept s :=
  ⟨_, rfl, by repeat' (first | with_reducible rfl | (simp; done) | split)⟩

theorem exec_syncInEdge_kept {a b c} (s : State) : ∃ t, exec (.syncInEdge a b c) s = .next t ∧ kept t = kept s :=
  ⟨_, rfl, by dsimp only; (repeat' (first | with_reducible rfl | (simp; done) | split))⟩

theorem exec_syncOutLaunch_kept {a} (s : State) : ∃ t, exec (.syncOutLaunch a) s = .next t ∧ kept t = kept s :=
  ⟨_, rfl, by dsimp only; (repeat' (first | with_reducible rfl | (simp; done) | split))⟩

theorem exec_syncArmTimeout_kept {a} (s : State) : ∃ t, exec (.syncArmTimeout a) s = .next t ∧ kept t = kept s :=
  ⟨_, rfl, by dsimp only; (repeat' (first | with_reducible rfl | (simp; done) | split))⟩

theorem exec_ptpEventMessage_kept {a b c d} (s : State) : ∃ t, exec (.ptpEventMessage a b c d) s = .next t ∧ kept t = kept s :=
  ⟨_, rfl, by dsimp only; (repeat' (first | with_reducible rfl | (simp; done) | split))⟩

theorem exec_rfSetRange_kept {a} (s : State) : ∃ t, exec (.rfSetRange a) s = .next t ∧ kept t = kept s :=
  ⟨_, rfl, by simp⟩

theorem exec_rfStatus_kept {a} (s : State) : ∃ t, exec (.rfStatus a) s = .next t ∧ kept t = kept s :=
  ⟨_, rfl, by simp⟩

theorem exec_rfSetPadCount_kept {a} (s : State) : ∃ t, exec (.rfSetPadCount a) s = .next t ∧ kept t = kept s :=
  ⟨_, rfl, by simp⟩

theorem exec_calSetRf_kept {a} (s : State) : ∃ t, exec (.calSetRf a) s = .next t ∧ kept t = kept s :=
  ⟨_, rfl, by simp⟩

theorem exec_rfGroup_kept {a b c} (s : State) : ∃ t, exec (.rfGroup a b c) s = .next t ∧ kept t = kept s :=
  ⟨_, rfl, by simp⟩

theorem exec_overdriveComparator_kept {a b c} (s : State) : ∃ t, exec (.overdriveComparator a b c) s = .next t ∧ kept t = kept s :=
  ⟨_, rfl, by simp⟩

theorem exec_padSettleEnd_kept {a b} (s : State) : ∃ t, exec (.padSettleEnd a b) s = .next t ∧ kept t = kept s :=
  ⟨_, rfl, by simp⟩

theorem exec_otpBurnDone_kept {a b} (s : State) : ∃ t, exec (.otpBurnDone a b) s = .next t ∧ kept t = kept s :=
  ⟨_, rfl, by simp⟩

theorem exec_sliceSwap_kept {a b c} (s : State) : ∃ t, exec (.sliceSwap a b c) s = .next t ∧ kept t = kept s :=
  ⟨_, rfl, by dsimp only; (repeat' (first | with_reducible rfl | (simp; done) | split))⟩

theorem exec_opticalGroup_kept {a b c} (s : State) : ∃ t, exec (.opticalGroup a b c) s = .next t ∧ kept t = kept s :=
  ⟨_, rfl, by simp⟩

theorem exec_ddcSet_kept {a} (s : State) : ∃ t, exec (.ddcSet a) s = .next t ∧ kept t = kept s :=
  ⟨_, rfl, by simp⟩

theorem exec_ddcSetDetect_kept {a} (s : State) : ∃ t, exec (.ddcSetDetect a) s = .next t ∧ kept t = kept s :=
  ⟨_, rfl, by simp⟩

theorem exec_ddcOutputGroup_kept {a b} (s : State) : ∃ t, exec (.ddcOutputGroup a b) s = .next t ∧ kept t = kept s :=
  ⟨_, rfl, by simp⟩

theorem exec_detectorWindowEnd_kept {a b} (s : State) : ∃ t, exec (.detectorWindowEnd a b) s = .next t ∧ kept t = kept s :=
  ⟨_, rfl, by simp⟩

theorem exec_vdifFrame_kept {a b} (s : State) : ∃ t, exec (.vdifFrame a b) s = .next t ∧ kept t = kept s :=
  ⟨_, rfl, by dsimp only; (repeat' (first | with_reducible rfl | (simp; done) | split))⟩

theorem exec_pipAssign_kept {a} (s : State) : ∃ t, exec (.pipAssign a) s = .next t ∧ kept t = kept s :=
  ⟨_, rfl, by simp⟩

theorem exec_pipSetSpares_kept {a} (s : State) : ∃ t, exec (.pipSetSpares a) s = .next t ∧ kept t = kept s :=
  ⟨_, rfl, by simp⟩

theorem exec_pipStatus_kept {a} (s : State) : ∃ t, exec (.pipStatus a) s = .next t ∧ kept t = kept s :=
  ⟨_, rfl, by simp⟩

theorem exec_specSetFft_kept {a} (s : State) : ∃ t, exec (.specSetFft a) s = .next t ∧ kept t = kept s :=
  ⟨_, rfl, by simp⟩

theorem exec_specSetWindow_kept {a} (s : State) : ∃ t, exec (.specSetWindow a) s = .next t ∧ kept t = kept s :=
  ⟨_, rfl, by simp⟩

theorem exec_specSetTrace_kept {a} (s : State) : ∃ t, exec (.specSetTrace a) s = .next t ∧ kept t = kept s :=
  ⟨_, rfl, by simp⟩

theorem exec_pipFrameDone_kept {a b c} (s : State) : ∃ t, exec (.pipFrameDone a b c) s = .next t ∧ kept t = kept s :=
  ⟨_, rfl, by simp⟩

theorem exec_averagingBlockEnd_kept {a b} (s : State) : ∃ t, exec (.averagingBlockEnd a b) s = .next t ∧ kept t = kept s :=
  ⟨_, rfl, by simp⟩

theorem exec_traceBlockEnd_kept {a b c} (s : State) : ∃ t, exec (.traceBlockEnd a b c) s = .next t ∧ kept t = kept s :=
  ⟨_, rfl, by simp⟩

theorem exec_pipFault_kept {a b c} (s : State) : ∃ t, exec (.pipFault a b c) s = .next t ∧ kept t = kept s :=
  ⟨_, rfl, by simp⟩

theorem exec_pipRecomputeDone_kept {a b c} (s : State) : ∃ t, exec (.pipRecomputeDone a b c) s = .next t ∧ kept t = kept s :=
  ⟨_, rfl, by simp⟩

theorem exec_bloomSet_kept {a} (s : State) : ∃ t, exec (.bloomSet a) s = .next t ∧ kept t = kept s :=
  ⟨_, rfl, by simp⟩

theorem exec_bloomClear_kept {a} (s : State) : ∃ t, exec (.bloomClear a) s = .next t ∧ kept t = kept s :=
  ⟨_, rfl, by simp⟩

theorem exec_bloomRead_kept {a} (s : State) : ∃ t, exec (.bloomRead a) s = .next t ∧ kept t = kept s :=
  ⟨_, rfl, by simp⟩

theorem exec_bloomIngest_kept {a b} (s : State) : ∃ t, exec (.bloomIngest a b) s = .next t ∧ kept t = kept s :=
  ⟨_, rfl, by repeat' (first | with_reducible rfl | (simp; done) | split)⟩

theorem exec_bloomDecay_kept {a b} (s : State) : ∃ t, exec (.bloomDecay a b) s = .next t ∧ kept t = kept s :=
  ⟨_, rfl, by simp⟩

theorem exec_decayPassDone_kept {a b} (s : State) : ∃ t, exec (.decayPassDone a b) s = .next t ∧ kept t = kept s :=
  ⟨_, rfl, by simp⟩

theorem exec_bloomSnapshot_kept {a b} (s : State) : ∃ t, exec (.bloomSnapshot a b) s = .next t ∧ kept t = kept s :=
  ⟨_, rfl, by simp⟩

theorem exec_trigSetMask_kept {a} (s : State) : ∃ t, exec (.trigSetMask a) s = .next t ∧ kept t = kept s :=
  ⟨_, rfl, by simp⟩

theorem exec_trigSetTd_kept {a} (s : State) : ∃ t, exec (.trigSetTd a) s = .next t ∧ kept t = kept s :=
  ⟨_, rfl, by simp⟩

theorem exec_trigSetSeq_kept {a} (s : State) : ∃ t, exec (.trigSetSeq a) s = .next t ∧ kept t = kept s :=
  ⟨_, rfl, by simp⟩

theorem exec_trigSetLimit_kept {a} (s : State) : ∃ t, exec (.trigSetLimit a) s = .next t ∧ kept t = kept s :=
  ⟨_, rfl, by simp⟩

theorem exec_trigLimitResume_kept {a} (s : State) : ∃ t, exec (.trigLimitResume a) s = .next t ∧ kept t = kept s :=
  ⟨_, rfl, by simp⟩

theorem exec_trigSetLog_kept {a} (s : State) : ∃ t, exec (.trigSetLog a) s = .next t ∧ kept t = kept s :=
  ⟨_, rfl, by simp⟩

theorem exec_trigSetLineLog_kept {a} (s : State) : ∃ t, exec (.trigSetLineLog a) s = .next t ∧ kept t = kept s :=
  ⟨_, rfl, by simp⟩

theorem exec_trigInEdge_kept {a b c} (s : State) : ∃ t, exec (.trigInEdge a b c) s = .next t ∧ kept t = kept s :=
  ⟨_, rfl, by simp⟩

theorem exec_sequencerEvaluate_kept {a b} (s : State) : ∃ t, exec (.sequencerEvaluate a b) s = .next t ∧ kept t = kept s :=
  ⟨_, rfl, by simp⟩

theorem exec_sequencerStepTimeout_kept {a b} (s : State) : ∃ t, exec (.sequencerStepTimeout a b) s = .next t ∧ kept t = kept s :=
  ⟨_, rfl, by simp⟩

theorem exec_capSet_kept {a} (s : State) : ∃ t, exec (.capSet a) s = .next t ∧ kept t = kept s :=
  ⟨_, rfl, by simp⟩

theorem exec_capArm_kept {a} (s : State) : ∃ t, exec (.capArm a) s = .next t ∧ kept t = kept s :=
  ⟨_, rfl, by simp⟩

theorem exec_capForce_kept {a} (s : State) : ∃ t, exec (.capForce a) s = .next t ∧ kept t = kept s :=
  ⟨_, rfl, by simp⟩

theorem exec_capRead_kept {a} (s : State) : ∃ t, exec (.capRead a) s = .next t ∧ kept t = kept s :=
  ⟨_, rfl, by simp⟩

theorem exec_capStatus_kept {a} (s : State) : ∃ t, exec (.capStatus a) s = .next t ∧ kept t = kept s :=
  ⟨_, rfl, by simp⟩

theorem exec_captureEnd_kept {a b} (s : State) : ∃ t, exec (.captureEnd a b) s = .next t ∧ kept t = kept s :=
  ⟨_, rfl, by simp⟩

theorem exec_captureOverflow_kept {a b} (s : State) : ∃ t, exec (.captureOverflow a b) s = .next t ∧ kept t = kept s :=
  ⟨_, rfl, by simp⟩

theorem exec_genSegment_kept {a} (s : State) : ∃ t, exec (.genSegment a) s = .next t ∧ kept t = kept s :=
  ⟨_, rfl, by simp⟩

theorem exec_genLoad_kept {a} (s : State) : ∃ t, exec (.genLoad a) s = .next t ∧ kept t = kept s :=
  ⟨_, rfl, by simp⟩

theorem exec_genStart_kept {a} (s : State) : ∃ t, exec (.genStart a) s = .next t ∧ kept t = kept s :=
  ⟨_, rfl, by simp⟩

theorem exec_genCarrier_kept {a} (s : State) : ∃ t, exec (.genCarrier a) s = .next t ∧ kept t = kept s :=
  ⟨_, rfl, by simp⟩

theorem exec_genJump_kept {a} (s : State) : ∃ t, exec (.genJump a) s = .next t ∧ kept t = kept s :=
  ⟨_, rfl, by simp⟩

theorem exec_genRoute_kept {a} (s : State) : ∃ t, exec (.genRoute a) s = .next t ∧ kept t = kept s :=
  ⟨_, rfl, by simp⟩

theorem exec_genStatus_kept {a} (s : State) : ∃ t, exec (.genStatus a) s = .next t ∧ kept t = kept s :=
  ⟨_, rfl, by simp⟩

theorem exec_calSetGen_kept {a} (s : State) : ∃ t, exec (.calSetGen a) s = .next t ∧ kept t = kept s :=
  ⟨_, rfl, by simp⟩

theorem exec_genLatchPoint_kept {a b} (s : State) : ∃ t, exec (.genLatchPoint a b) s = .next t ∧ kept t = kept s :=
  ⟨_, rfl, by simp⟩

theorem exec_genSegmentStart_kept {a b} (s : State) : ∃ t, exec (.genSegmentStart a b) s = .next t ∧ kept t = kept s :=
  ⟨_, rfl, by simp⟩

theorem exec_trigOutPulseEnd_kept {a b} (s : State) : ∃ t, exec (.trigOutPulseEnd a b) s = .next t ∧ kept t = kept s :=
  ⟨_, rfl, by simp⟩

theorem exec_generatorUnderrun_kept {a b} (s : State) : ∃ t, exec (.generatorUnderrun a b) s = .next t ∧ kept t = kept s :=
  ⟨_, rfl, by simp⟩

theorem exec_dasStart_kept {a} (s : State) : ∃ t, exec (.dasStart a) s = .next t ∧ kept t = kept s :=
  ⟨_, rfl, by simp⟩

theorem exec_dasSetSlot_kept {a} (s : State) : ∃ t, exec (.dasSetSlot a) s = .next t ∧ kept t = kept s :=
  ⟨_, rfl, by simp⟩

theorem exec_dasSetGrid_kept {a} (s : State) : ∃ t, exec (.dasSetGrid a) s = .next t ∧ kept t = kept s :=
  ⟨_, rfl, by simp⟩

theorem exec_dasSetPmask_kept {a} (s : State) : ∃ t, exec (.dasSetPmask a) s = .next t ∧ kept t = kept s :=
  ⟨_, rfl, by simp⟩

theorem exec_dasStatus_kept {a} (s : State) : ∃ t, exec (.dasStatus a) s = .next t ∧ kept t = kept s :=
  ⟨_, rfl, by simp⟩

theorem exec_calSetFibre_kept {a} (s : State) : ∃ t, exec (.calSetFibre a) s = .next t ∧ kept t = kept s :=
  ⟨_, rfl, by simp⟩

theorem exec_dasTraceReady_kept {a b c} (s : State) : ∃ t, exec (.dasTraceReady a b c) s = .next t ∧ kept t = kept s :=
  ⟨_, rfl, by (repeat' (first | with_reducible rfl | (simp; done) | split))⟩

theorem exec_dasBandWindowEnd_kept {a b} (s : State) : ∃ t, exec (.dasBandWindowEnd a b) s = .next t ∧ kept t = kept s :=
  ⟨_, rfl, by simp⟩

theorem exec_laserSetModcal_kept {a} (s : State) : ∃ t, exec (.laserSetModcal a) s = .next t ∧ kept t = kept s :=
  ⟨_, rfl, by simp⟩

theorem exec_laserSetCaps_kept {a} (s : State) : ∃ t, exec (.laserSetCaps a) s = .next t ∧ kept t = kept s :=
  ⟨_, rfl, by simp⟩

theorem exec_laserArm_kept {a} (s : State) : ∃ t, exec (.laserArm a) s = .next t ∧ kept t = kept s :=
  ⟨_, rfl, by simp⟩

theorem exec_laserStatus_kept {a} (s : State) : ∃ t, exec (.laserStatus a) s = .next t ∧ kept t = kept s :=
  ⟨_, rfl, by simp⟩

theorem exec_laserComparatorTrip_kept {a b c} (s : State) : ∃ t, exec (.laserComparatorTrip a b c) s = .next t ∧ kept t = kept s :=
  ⟨_, rfl, by simp⟩

theorem exec_laserPermitLow_kept {a} (s : State) : ∃ t, exec (.laserPermitLow a) s = .next t ∧ kept t = kept s :=
  ⟨_, rfl, by simp⟩

theorem exec_laserPermitHigh_kept {a} (s : State) : ∃ t, exec (.laserPermitHigh a) s = .next t ∧ kept t = kept s :=
  ⟨_, rfl, by simp⟩

theorem exec_dtsStart_kept {a} (s : State) : ∃ t, exec (.dtsStart a) s = .next t ∧ kept t = kept s :=
  ⟨_, rfl, by simp⟩

theorem exec_dtsSet_kept {a} (s : State) : ∃ t, exec (.dtsSet a) s = .next t ∧ kept t = kept s :=
  ⟨_, rfl, by simp⟩

theorem exec_dtsStatus_kept {a} (s : State) : ∃ t, exec (.dtsStatus a) s = .next t ∧ kept t = kept s :=
  ⟨_, rfl, by simp⟩

theorem exec_dtsLaunch_kept {a b} (s : State) : ∃ t, exec (.dtsLaunch a b) s = .next t ∧ kept t = kept s :=
  ⟨_, rfl, by (repeat' (first | with_reducible rfl | (simp; done) | split))⟩

theorem exec_dtsStackEnd_kept {a b} (s : State) : ∃ t, exec (.dtsStackEnd a b) s = .next t ∧ kept t = kept s :=
  ⟨_, rfl, by simp⟩

theorem exec_slowSetScan_kept {a} (s : State) : ∃ t, exec (.slowSetScan a) s = .next t ∧ kept t = kept s :=
  ⟨_, rfl, by simp⟩

theorem exec_slowStart_kept {a} (s : State) : ∃ t, exec (.slowStart a) s = .next t ∧ kept t = kept s :=
  ⟨_, rfl, by simp⟩

theorem exec_slowUrgent_kept {a} (s : State) : ∃ t, exec (.slowUrgent a) s = .next t ∧ kept t = kept s :=
  ⟨_, rfl, by simp⟩

theorem exec_slowEntryDelayEnd_kept {a} (s : State) : ∃ t, exec (.slowEntryDelayEnd a) s = .next t ∧ kept t = kept s :=
  ⟨_, rfl, by simp⟩

theorem exec_slowConversionEnd_kept {a b} (s : State) : ∃ t, exec (.slowConversionEnd a b) s = .next t ∧ kept t = kept s :=
  ⟨_, rfl, by simp⟩

theorem exec_slowPartialEntryFlush_kept {a} (s : State) : ∃ t, exec (.slowPartialEntryFlush a) s = .next t ∧ kept t = kept s :=
  ⟨_, rfl, by simp⟩

theorem exec_excSet_kept {a} (s : State) : ∃ t, exec (.excSet a) s = .next t ∧ kept t = kept s :=
  ⟨_, rfl, by simp⟩

theorem exec_excStatus_kept {a} (s : State) : ∃ t, exec (.excStatus a) s = .next t ∧ kept t = kept s :=
  ⟨_, rfl, by simp⟩

theorem exec_excBreakDetect_kept {a b} (s : State) : ∃ t, exec (.excBreakDetect a b) s = .next t ∧ kept t = kept s :=
  ⟨_, rfl, by simp⟩

theorem exec_excBreakRestored_kept {a b} (s : State) : ∃ t, exec (.excBreakRestored a b) s = .next t ∧ kept t = kept s :=
  ⟨_, rfl, by simp⟩

theorem exec_impedanceCheckDue_kept {a b} (s : State) : ∃ t, exec (.impedanceCheckDue a b) s = .next t ∧ kept t = kept s :=
  ⟨_, rfl, by simp⟩

theorem exec_impedanceCheckDone_kept {a b c d} (s : State) : ∃ t, exec (.impedanceCheckDone a b c d) s = .next t ∧ kept t = kept s :=
  ⟨_, rfl, by simp⟩

theorem exec_curSetBand_kept {a} (s : State) : ∃ t, exec (.curSetBand a) s = .next t ∧ kept t = kept s :=
  ⟨_, rfl, by simp⟩

theorem exec_curStatus_kept {a} (s : State) : ∃ t, exec (.curStatus a) s = .next t ∧ kept t = kept s :=
  ⟨_, rfl, by simp⟩

theorem exec_currantFault_kept {a b c} (s : State) : ∃ t, exec (.currantFault a b c) s = .next t ∧ kept t = kept s :=
  ⟨_, rfl, by simp⟩

theorem exec_currantRecomputeDone_kept {a b c} (s : State) : ∃ t, exec (.currantRecomputeDone a b c) s = .next t ∧ kept t = kept s :=
  ⟨_, rfl, by simp⟩

theorem exec_dmaSet_kept {a} (s : State) : ∃ t, exec (.dmaSet a) s = .next t ∧ kept t = kept s :=
  ⟨_, rfl, by simp⟩

theorem exec_dmaStart_kept {a} (s : State) : ∃ t, exec (.dmaStart a) s = .next t ∧ kept t = kept s :=
  ⟨_, rfl, by simp⟩

theorem exec_dmaStatus_kept {a} (s : State) : ∃ t, exec (.dmaStatus a) s = .next t ∧ kept t = kept s :=
  ⟨_, rfl, by simp⟩

theorem exec_dmaRequest_kept {a} (s : State) : ∃ t, exec (.dmaRequest a) s = .next t ∧ kept t = kept s :=
  ⟨_, rfl, by simp⟩

theorem exec_dmaMove_kept {a b c} (s : State) : ∃ t, exec (.dmaMove a b c) s = .next t ∧ kept t = kept s :=
  ⟨_, rfl, by simp⟩

theorem exec_dmaGather_kept {a b c} (s : State) : ∃ t, exec (.dmaGather a b c) s = .next t ∧ kept t = kept s :=
  ⟨_, rfl, by simp⟩

theorem exec_dmaScatter_kept {a b c} (s : State) : ∃ t, exec (.dmaScatter a b c) s = .next t ∧ kept t = kept s :=
  ⟨_, rfl, by simp⟩

theorem exec_dmaLoop_kept {a b c} (s : State) : ∃ t, exec (.dmaLoop a b c) s = .next t ∧ kept t = kept s :=
  ⟨_, rfl, by simp⟩

theorem exec_dmaWait_kept {a b c} (s : State) : ∃ t, exec (.dmaWait a b c) s = .next t ∧ kept t = kept s :=
  ⟨_, rfl, by simp⟩

theorem exec_dmaSignal_kept {a b c} (s : State) : ∃ t, exec (.dmaSignal a b c) s = .next t ∧ kept t = kept s :=
  ⟨_, rfl, by simp⟩

theorem exec_dmaLink_kept {a b c} (s : State) : ∃ t, exec (.dmaLink a b c) s = .next t ∧ kept t = kept s :=
  ⟨_, rfl, by simp⟩

theorem exec_dmaEnd_kept {a b c} (s : State) : ∃ t, exec (.dmaEnd a b c) s = .next t ∧ kept t = kept s :=
  ⟨_, rfl, by simp⟩

theorem exec_dmaUndefinedOp_kept {a b c} (s : State) : ∃ t, exec (.dmaUndefinedOp a b c) s = .next t ∧ kept t = kept s :=
  ⟨_, rfl, by simp⟩

theorem exec_dmaBurst_kept {a b} (s : State) : ∃ t, exec (.dmaBurst a b) s = .next t ∧ kept t = kept s :=
  ⟨_, rfl, by simp⟩

theorem exec_dmaTransferDone_kept {a b} (s : State) : ∃ t, exec (.dmaTransferDone a b) s = .next t ∧ kept t = kept s :=
  ⟨_, rfl, by simp⟩

theorem exec_dmaErrorResponse_kept {a b c} (s : State) : ∃ t, exec (.dmaErrorResponse a b c) s = .next t ∧ kept t = kept s :=
  ⟨_, rfl, by dsimp only; (repeat' (first | with_reducible rfl | (simp; done) | split))⟩

theorem exec_requestLineRequest_kept {a b} (s : State) : ∃ t, exec (.requestLineRequest a b) s = .next t ∧ kept t = kept s :=
  ⟨_, rfl, by simp⟩

theorem exec_msixModTimeExpiry_kept {a b} (s : State) : ∃ t, exec (.msixModTimeExpiry a b) s = .next t ∧ kept t = kept s :=
  ⟨_, rfl, by simp⟩

theorem exec_msixUnmask_kept {a b c} (s : State) : ∃ t, exec (.msixUnmask a b c) s = .next t ∧ kept t = kept s :=
  ⟨_, rfl, by simp⟩

theorem exec_memSetFreq_kept {a} (s : State) : ∃ t, exec (.memSetFreq a) s = .next t ∧ kept t = kept s :=
  ⟨_, rfl, by simp⟩

theorem exec_memSetIdle_kept {a} (s : State) : ∃ t, exec (.memSetIdle a) s = .next t ∧ kept t = kept s :=
  ⟨_, rfl, by simp⟩

theorem exec_memStatus_kept {a} (s : State) : ∃ t, exec (.memStatus a) s = .next t ∧ kept t = kept s :=
  ⟨_, rfl, by simp⟩

theorem exec_memReadLog_kept {a} (s : State) : ∃ t, exec (.memReadLog a) s = .next t ∧ kept t = kept s :=
  ⟨_, rfl, by simp⟩

theorem exec_memRepair_kept {a} (s : State) : ∃ t, exec (.memRepair a) s = .next t ∧ kept t = kept s :=
  ⟨_, rfl, by simp⟩

theorem exec_dfsDone_kept {a} (s : State) : ∃ t, exec (.dfsDone a) s = .next t ∧ kept t = kept s :=
  ⟨_, rfl, by dsimp only; (repeat' (first | with_reducible rfl | (simp; done) | split))⟩

theorem exec_trainingWindow_kept {a} (s : State) : ∃ t, exec (.trainingWindow a) s = .next t ∧ kept t = kept s :=
  ⟨_, rfl, by simp⟩

theorem exec_trainingWindowEnd_kept {a} (s : State) : ∃ t, exec (.trainingWindowEnd a) s = .next t ∧ kept t = kept s :=
  ⟨_, rfl, by simp⟩

theorem exec_selfRefreshEntry_kept {a} (s : State) : ∃ t, exec (.selfRefreshEntry a) s = .next t ∧ kept t = kept s :=
  ⟨_, rfl, by simp⟩

theorem exec_dramWake_kept {a} (s : State) : ∃ t, exec (.dramWake a) s = .next t ∧ kept t = kept s :=
  ⟨_, rfl, by simp⟩

theorem exec_dramRefresh_kept {a b c} (s : State) : ∃ t, exec (.dramRefresh a b c) s = .next t ∧ kept t = kept s :=
  ⟨_, rfl, by simp⟩

theorem exec_patrolScrub_kept {a b} (s : State) : ∃ t, exec (.patrolScrub a b) s = .next t ∧ kept t = kept s :=
  ⟨_, rfl, by simp⟩

theorem exec_dramEccError_kept {a b} (s : State) : ∃ t, exec (.dramEccError a b) s = .next t ∧ kept t = kept s :=
  ⟨_, rfl, by simp⟩

theorem exec_sramEccError_kept {a b} (s : State) : ∃ t, exec (.sramEccError a b) s = .next t ∧ kept t = kept s :=
  ⟨_, rfl, by simp⟩

theorem exec_pcieLinkChange_kept {a b c} (s : State) : ∃ t, exec (.pcieLinkChange a b c) s = .next t ∧ kept t = kept s :=
  ⟨_, rfl, by simp⟩

theorem exec_pf1Flr_kept {a} (s : State) : ∃ t, exec (.pf1Flr a) s = .next t ∧ kept t = kept s :=
  ⟨_, rfl, by simp⟩

theorem exec_pf0D3hot_kept {a} (s : State) : ∃ t, exec (.pf0D3hot a) s = .next t ∧ kept t = kept s :=
  ⟨_, rfl, by simp⟩

theorem exec_netSetPort_kept {a} (s : State) : ∃ t, exec (.netSetPort a) s = .next t ∧ kept t = kept s :=
  ⟨_, rfl, by simp⟩

theorem exec_netSetStream_kept {a} (s : State) : ∃ t, exec (.netSetStream a) s = .next t ∧ kept t = kept s :=
  ⟨_, rfl, by simp⟩

theorem exec_netSetVdif_kept {a} (s : State) : ∃ t, exec (.netSetVdif a) s = .next t ∧ kept t = kept s :=
  ⟨_, rfl, by simp⟩

theorem exec_netSetControl_kept {a} (s : State) : ∃ t, exec (.netSetControl a) s = .next t ∧ kept t = kept s :=
  ⟨_, rfl, by simp⟩

theorem exec_netStatus_kept {a} (s : State) : ∃ t, exec (.netStatus a) s = .next t ∧ kept t = kept s :=
  ⟨_, rfl, by simp⟩

theorem exec_ethFrameReceived_kept {a b c} (s : State) : ∃ t, exec (.ethFrameReceived a b c) s = .next t ∧ kept t = kept s :=
  ⟨_, rfl, by simp⟩

theorem exec_streamDatagramSend_kept {a b} (s : State) : ∃ t, exec (.streamDatagramSend a b) s = .next t ∧ kept t = kept s :=
  ⟨_, rfl, by dsimp only; (repeat' (first | with_reducible rfl | (simp; done) | split))⟩

theorem exec_ethLinkChange_kept {a b c} (s : State) : ∃ t, exec (.ethLinkChange a b c) s = .next t ∧ kept t = kept s :=
  ⟨_, rfl, by simp⟩

theorem exec_controlCommandDatagram_kept {a b} (s : State) : ∃ t, exec (.controlCommandDatagram a b) s = .next t ∧ kept t = kept s :=
  ⟨_, rfl, by simp⟩

theorem exec_controlResendDatagram_kept {a b} (s : State) : ∃ t, exec (.controlResendDatagram a b) s = .next t ∧ kept t = kept s :=
  ⟨_, rfl, by simp⟩

theorem exec_streamDropReport_kept {a b} (s : State) : ∃ t, exec (.streamDropReport a b) s = .next t ∧ kept t = kept s :=
  ⟨_, rfl, by simp⟩

theorem exec_dispSetMode_kept {a} (s : State) : ∃ t, exec (.dispSetMode a) s = .next t ∧ kept t = kept s :=
  ⟨_, rfl, by simp⟩

theorem exec_dispSetLayer_kept {a} (s : State) : ∃ t, exec (.dispSetLayer a) s = .next t ∧ kept t = kept s :=
  ⟨_, rfl, by simp⟩

theorem exec_dispSetPalette_kept {a} (s : State) : ∃ t, exec (.dispSetPalette a) s = .next t ∧ kept t = kept s :=
  ⟨_, rfl, by simp⟩

theorem exec_dispAlloc_kept {a} (s : State) : ∃ t, exec (.dispAlloc a) s = .next t ∧ kept t = kept s :=
  ⟨_, rfl, by simp⟩

theorem exec_dispSetPsr_kept {a} (s : State) : ∃ t, exec (.dispSetPsr a) s = .next t ∧ kept t = kept s :=
  ⟨_, rfl, by simp⟩

theorem exec_dispStatus_kept {a} (s : State) : ∃ t, exec (.dispStatus a) s = .next t ∧ kept t = kept s :=
  ⟨_, rfl, by simp⟩

theorem exec_displayFrameStart_kept {a} (s : State) : ∃ t, exec (.displayFrameStart a) s = .next t ∧ kept t = kept s :=
  ⟨_, rfl, by simp⟩

theorem exec_displayVerticalActiveEnd_kept {a} (s : State) : ∃ t, exec (.displayVerticalActiveEnd a) s = .next t ∧ kept t = kept s :=
  ⟨_, rfl, by simp⟩

theorem exec_displayFrameEnd_kept {a b} (s : State) : ∃ t, exec (.displayFrameEnd a b) s = .next t ∧ kept t = kept s :=
  ⟨_, rfl, by simp⟩

theorem exec_hpdUnplug_kept {a} (s : State) : ∃ t, exec (.hpdUnplug a) s = .next t ∧ kept t = kept s :=
  ⟨_, rfl, by simp⟩

theorem exec_hpdPlug_kept {a} (s : State) : ∃ t, exec (.hpdPlug a) s = .next t ∧ kept t = kept s :=
  ⟨_, rfl, by simp⟩

theorem exec_hpdIrq_kept {a b} (s : State) : ∃ t, exec (.hpdIrq a b) s = .next t ∧ kept t = kept s :=
  ⟨_, rfl, by simp⟩

theorem exec_linkTrainingDone_kept {a b} (s : State) : ∃ t, exec (.linkTrainingDone a b) s = .next t ∧ kept t = kept s :=
  ⟨_, rfl, by dsimp only; (repeat' (first | with_reducible rfl | (simp; done) | split))⟩

theorem exec_healthStatus_kept {a} (s : State) : ∃ t, exec (.healthStatus a) s = .next t ∧ kept t = kept s :=
  ⟨_, rfl, by simp⟩

theorem exec_healthSetRotation_kept {a} (s : State) : ∃ t, exec (.healthSetRotation a) s = .next t ∧ kept t = kept s :=
  ⟨_, rfl, by simp⟩

theorem exec_healthReadFaults_kept {a} (s : State) : ∃ t, exec (.healthReadFaults a) s = .next t ∧ kept t = kept s :=
  ⟨_, rfl, by simp⟩

theorem exec_healthSetRetired_kept {a} (s : State) : ∃ t, exec (.healthSetRetired a) s = .next t ∧ kept t = kept s :=
  ⟨_, rfl, by simp⟩

theorem exec_rotationVisit_kept {a b c} (s : State) : ∃ t, exec (.rotationVisit a b c) s = .next t ∧ kept t = kept s :=
  ⟨_, rfl, by simp⟩

theorem exec_unitTestDone_kept {a b c d} (s : State) : ∃ t, exec (.unitTestDone a b c d) s = .next t ∧ kept t = kept s :=
  ⟨_, rfl, by simp⟩

theorem exec_orxSliceSwap_kept {a b c} (s : State) : ∃ t, exec (.orxSliceSwap a b c) s = .next t ∧ kept t = kept s :=
  ⟨_, rfl, by dsimp only; (repeat' (first | with_reducible rfl | (simp; done) | split))⟩

theorem exec_dacLoopback_kept {a b c} (s : State) : ∃ t, exec (.dacLoopback a b c) s = .next t ∧ kept t = kept s :=
  ⟨_, rfl, by simp⟩

theorem exec_dieReferenceCheck_kept {a b c d} (s : State) : ∃ t, exec (.dieReferenceCheck a b c d) s = .next t ∧ kept t = kept s :=
  ⟨_, rfl, by simp⟩

theorem exec_slowSelftestDue_kept {a} (s : State) : ∃ t, exec (.slowSelftestDue a) s = .next t ∧ kept t = kept s :=
  ⟨_, rfl, by simp⟩

theorem exec_stewardFault_kept {a b} (s : State) : ∃ t, exec (.stewardFault a b) s = .next t ∧ kept t = kept s :=
  ⟨_, rfl, by simp⟩

theorem exec_stewardRestartDone_kept {a b} (s : State) : ∃ t, exec (.stewardRestartDone a b) s = .next t ∧ kept t = kept s :=
  ⟨_, rfl, by dsimp only; (repeat' (first | with_reducible rfl | (simp; done) | split))⟩

theorem exec_stewardOutageTimeout_kept {a} (s : State) : ∃ t, exec (.stewardOutageTimeout a) s = .next t ∧ kept t = kept s :=
  ⟨_, rfl, by simp⟩

theorem exec_handoverTimeout_kept {a} (s : State) : ∃ t, exec (.handoverTimeout a) s = .next t ∧ kept t = kept s :=
  ⟨_, rfl, by dsimp only; (repeat' (first | with_reducible rfl | (simp; done) | split))⟩

theorem exec_readyEntry_kept {a} (s : State) : ∃ t, exec (.readyEntry a) s = .next t ∧ kept t = kept s :=
  ⟨_, rfl, by simp⟩

theorem exec_lcChallenge_kept {a} (s : State) : ∃ t, exec (.lcChallenge a) s = .next t ∧ kept t = kept s :=
  ⟨_, rfl, by simp⟩

theorem exec_xtalBRunning_kept {a} (s : State) : ∃ t, exec (.xtalBRunning a) s = .next t ∧ kept t = kept s :=
  ⟨_, rfl, by simp⟩

theorem exec_slowIntegrationStart_kept {a} (s : State) : ∃ t, exec (.slowIntegrationStart a) s = .next t ∧ kept t = kept s :=
  ⟨_, rfl, by simp⟩

theorem exec_pf1BusMasterEnable_kept {a} (s : State) : ∃ t, exec (.pf1BusMasterEnable a) s = .next t ∧ kept t = kept s :=
  ⟨_, rfl, by simp⟩

end Sys2Proof.Machine
end

