-- ==== Sys2Proof/Laws/Table.lean ====
section
/-! SUPPORT. Tables and memories: reading after writing, and the canonical form that every operation keeps. -/

namespace Sys2Proof.Machine

/-! ## Reading after writing -/

@[simp] theorem tget_nil {α : Type} (d : α) (k : Nat) : tget d [] k = d := rfl

theorem tget_tlist_same {α : Type} (d : α) (t : Table α) (k : Nat) (v : α) : tget d (tlist t k v) k = v := by
  induction t with
  | nil => simp [tlist, tget]
  | cons e rest ih =>
    obtain ⟨i, w⟩ := e
    unfold tlist
    split
    · simp [tget]
    · split
      · simp [tget]
      · simp_all [tget]

theorem tget_tlist_other {α : Type} (d : α) (t : Table α) (k j : Nat) (v : α) (h : j ≠ k) :
    tget d (tlist t k v) j = tget d t j := by
  induction t with
  | nil => simp [tlist, tget, h.symm]
  | cons e rest ih =>
    obtain ⟨i, w⟩ := e
    unfold tlist
    split
    · simp [tget, h.symm]
    · split
      · next hik => subst hik; simp [tget, h.symm]
      · simp only [tget, ih]

theorem tget_filter_same {α : Type} (d : α) (t : Table α) (k : Nat) : tget d (t.filter (fun e => e.1 != k)) k = d := by
  induction t with
  | nil => rfl
  | cons e rest ih =>
    obtain ⟨i, w⟩ := e
    by_cases h : i = k
    · simp [h, ih]
    · simp [h, tget, ih]

theorem tget_filter_other {α : Type} (d : α) (t : Table α) (k j : Nat) (h : j ≠ k) :
    tget d (t.filter (fun e => e.1 != k)) j = tget d t j := by
  induction t with
  | nil => rfl
  | cons e rest ih =>
    obtain ⟨i, w⟩ := e
    by_cases hi : i = k
    · simp [hi, tget, ih, h.symm]
    · simp [hi, tget, ih]

@[simp] theorem tget_tput_same {α : Type} [DecidableEq α] (d : α) (t : Table α) (k : Nat) (v : α) :
    tget d (tput d t k v) k = v := by
  unfold tput
  split
  · next h => rw [tget_filter_same, h]
  · exact tget_tlist_same d t k v

theorem tget_tput_other {α : Type} [DecidableEq α] (d : α) (t : Table α) (k j : Nat) (v : α) (h : j ≠ k) :
    tget d (tput d t k v) j = tget d t j := by
  unfold tput
  split
  · exact tget_filter_other d t k j h
  · exact tget_tlist_other d t k j v h

theorem tget_tput {α : Type} [DecidableEq α] (d : α) (t : Table α) (k j : Nat) (v : α) :
    tget d (tput d t k v) j = if j = k then v else tget d t j := by
  split
  · next h => subst h; exact tget_tput_same d t j v
  · next h => exact tget_tput_other d t k j v h

@[simp] theorem tget_tmod_same {α : Type} [DecidableEq α] (d : α) (t : Table α) (k : Nat) (f : α → α) :
    tget d (tmod d t k f) k = f (tget d t k) := tget_tput_same d t k _

theorem tget_tmod_other {α : Type} [DecidableEq α] (d : α) (t : Table α) (k j : Nat) (f : α → α) (h : j ≠ k) :
    tget d (tmod d t k f) j = tget d t j := tget_tput_other d t k j _ h

theorem tget_tmod {α : Type} [DecidableEq α] (d : α) (t : Table α) (k j : Nat) (f : α → α) :
    tget d (tmod d t k f) j = if j = k then f (tget d t k) else tget d t j := tget_tput d t k j _

/-! ## The canonical form -/

/-- The canonical form said at once: rising numbers, no default. -/
theorem twf_iff {α : Type} [DecidableEq α] (d : α) (t : Table α) :
    twf d t = true ↔ t.Pairwise (fun a b => a.1 < b.1) ∧ ∀ e ∈ t, e.2 ≠ d := by
  induction t with
  | nil => simp [twf]
  | cons e rest ih =>
    obtain ⟨i, v⟩ := e
    cases rest with
    | nil => simp [twf]
    | cons f rest =>
      obtain ⟨j, w⟩ := f
      simp only [twf, Bool.and_eq_true, decide_eq_true_eq, ih, List.pairwise_cons, List.mem_cons, forall_eq_or_imp]
      constructor
      · rintro ⟨⟨hv, hij⟩, ⟨hj, hp⟩, hw, hr⟩
        exact ⟨⟨⟨hij, fun e he => lt_trans hij (hj e he)⟩, hj, hp⟩, hv, hw, hr⟩
      · rintro ⟨⟨⟨hij, _⟩, hj, hp⟩, hv, hw, hr⟩
        exact ⟨⟨hv, hij⟩, ⟨hj, hp⟩, hw, hr⟩

theorem twf_filter {α : Type} [DecidableEq α] (d : α) (t : Table α) (p : Nat × α → Bool) (h : twf d t = true) :
    twf d (t.filter p) = true := by
  rw [twf_iff] at *
  exact ⟨h.1.filter p, fun e he => h.2 e (List.mem_of_mem_filter he)⟩

theorem mem_tlist {α : Type} (t : Table α) (k : Nat) (v : α) (e : Nat × α) (h : e ∈ tlist t k v) : e = (k, v) ∨ e ∈ t := by
  induction t with
  | nil => simp_all [tlist]
  | cons f rest ih =>
    obtain ⟨i, w⟩ := f
    unfold tlist at h
    split at h
    · simp_all
    · split at h
      · simp_all
        tauto
      · simp only [List.mem_cons] at *
        tauto

theorem tlist_rising {α : Type} (t : Table α) (k : Nat) (v : α) (h : t.Pairwise (fun a b => a.1 < b.1)) :
    (tlist t k v).Pairwise (fun a b => a.1 < b.1) := by
  induction t with
  | nil => simp [tlist]
  | cons f rest ih =>
    obtain ⟨i, w⟩ := f
    unfold tlist
    rw [List.pairwise_cons] at h
    split
    · next hk =>
      refine List.pairwise_cons.mpr ⟨?_, List.pairwise_cons.mpr h⟩
      intro e he
      rcases List.mem_cons.mp he with rfl | he
      · exact hk
      · exact lt_trans hk (h.1 e he)
    · split
      · next hk _ =>
        subst_vars
        exact List.pairwise_cons.mpr ⟨h.1, h.2⟩
      · next hk hik =>
        refine List.pairwise_cons.mpr ⟨?_, ih h.2⟩
        intro e he
        rcases mem_tlist rest k v e he with rfl | he
        · simp only
          omega
        · exact h.1 e he

theorem twf_tput {α : Type} [DecidableEq α] (d : α) (t : Table α) (k : Nat) (v : α) (h : twf d t = true) :
    twf d (tput d t k v) = true := by
  unfold tput
  split
  · exact twf_filter d t _ h
  · next hv =>
    rw [twf_iff] at *
    refine ⟨tlist_rising t k v h.1, ?_⟩
    intro e he
    rcases mem_tlist t k v e he with rfl | he
    · exact hv
    · exact h.2 e he

/-! ## Memory -/

@[simp] theorem wf_writeByte (m : Mem) (a : Nat) (b : Byte) (h : Mem.wf m) : Mem.wf (writeByte m a b) := twf_tput _ _ _ _ h

@[simp] theorem wf_writeBytes (m : Mem) (a : Nat) (bs : List Byte) (h : Mem.wf m) : Mem.wf (writeBytes m a bs) := by
  induction bs generalizing m a with
  | nil => exact h
  | cons b bs ih => exact ih _ _ (wf_writeByte m a b h)

@[simp] theorem wf_writeCells (m c : Mem) (h : Mem.wf m) : Mem.wf (writeCells m c) := by
  unfold writeCells
  induction c generalizing m with
  | nil => exact h
  | cons e c ih => exact ih _ (wf_writeByte m _ _ h)

@[simp] theorem wf_zeroRange (a n : Nat) (m : Mem) (h : Mem.wf m) : Mem.wf (zeroRange a n m) := twf_filter _ _ _ h

@[simp] theorem readByte_writeByte_same (m : Mem) (a : Nat) (b : Byte) : readByte (writeByte m a b) a = b :=
  tget_tput_same _ _ _ _

theorem readByte_writeByte_other (m : Mem) (a x : Nat) (b : Byte) (h : x ≠ a) :
    readByte (writeByte m a b) x = readByte m x := tget_tput_other _ _ _ _ _ h

theorem readByte_writeBytes_below (m : Mem) (a x : Nat) (bs : List Byte) (h : x < a) :
    readByte (writeBytes m a bs) x = readByte m x := by
  induction bs generalizing m a with
  | nil => rfl
  | cons b bs ih => rw [writeBytes, ih _ _ (by omega), readByte_writeByte_other _ _ _ _ (by omega)]

theorem readByte_writeBytes_above (m : Mem) (a x : Nat) (bs : List Byte) (h : a + bs.length ≤ x) :
    readByte (writeBytes m a bs) x = readByte m x := by
  induction bs generalizing m a with
  | nil => rfl
  | cons b bs ih =>
    simp only [List.length_cons] at h
    rw [writeBytes, ih _ _ (by omega), readByte_writeByte_other _ _ _ _ (by omega)]

/-- A byte outside the range written reads as before. -/
theorem readByte_writeBytes_outside (m : Mem) (a x : Nat) (bs : List Byte) (h : x < a ∨ a + bs.length ≤ x) :
    readByte (writeBytes m a bs) x = readByte m x :=
  h.elim (readByte_writeBytes_below m a x bs) (readByte_writeBytes_above m a x bs)

@[simp] theorem readBytes_length (m : Mem) (a n : Nat) : (readBytes m a n).length = n := by
  induction n generalizing a with
  | zero => rfl
  | succ n ih => simp [readBytes, ih]

/-- Bytes read back from where they were written are the bytes written. -/
@[simp] theorem readBytes_writeBytes (m : Mem) (a : Nat) (bs : List Byte) :
    readBytes (writeBytes m a bs) a bs.length = bs := by
  induction bs generalizing m a with
  | nil => rfl
  | cons b bs ih =>
    simp only [writeBytes, List.length_cons, readBytes, ih]
    rw [readByte_writeBytes_below _ _ _ _ (Nat.lt_succ_self a), readByte_writeByte_same]

theorem readBytes_congr (m k : Mem) (a n : Nat) (h : ∀ x, a ≤ x → x < a + n → readByte m x = readByte k x) :
    readBytes m a n = readBytes k a n := by
  induction n generalizing a with
  | zero => rfl
  | succ n ih =>
    simp only [readBytes]
    rw [h a (le_refl a) (by omega), ih (a + 1) (fun x h1 h2 => h x (by omega) (by omega))]

theorem readByte_zeroRange (a n x : Nat) (m : Mem) :
    readByte (zeroRange a n m) x = if a ≤ x ∧ x < a + n then 0 else readByte m x := by
  unfold zeroRange readByte
  induction m with
  | nil => simp
  | cons e m ih =>
    obtain ⟨i, b⟩ := e
    by_cases hi : i < a ∨ a + n ≤ i
    · have hp : (decide (i < a) || decide (a + n ≤ i)) = true := by simpa using hi
      rw [List.filter_cons_of_pos (by exact hp)]
      simp only [tget, ih]
      by_cases hx : i = x
      · subst hx
        rw [if_pos rfl, if_pos rfl, if_neg (by omega)]
      · simp [hx]
    · have hp : ¬((decide (i < a) || decide (a + n ≤ i)) = true) := by simpa using hi
      rw [List.filter_cons_of_neg (by exact hp), ih]
      by_cases hx : i = x
      · subst hx
        rw [if_pos (by omega), if_pos (by omega)]
      · simp [tget, hx]

end Sys2Proof.Machine
end

