-- ==== Sys2Proof/Laws/State.lean ====
section
/-! SUPPORT. What the updates of one part of the state leave of every other field, and what reading a numbered part
after changing one gives. -/

namespace Sys2Proof.Machine

/-! ## Fields after an update -/

@[simp] theorem modRing_dt (n : Nat) (f : Ring → Ring) (s : State) : (modRing n f s).dt = s.dt := rfl
@[simp] theorem modRing_fuse (n : Nat) (f : Ring → Ring) (s : State) : (modRing n f s).fuse = s.fuse := rfl
@[simp] theorem modRing_stone (n : Nat) (f : Ring → Ring) (s : State) : (modRing n f s).stone = s.stone := rfl
@[simp] theorem modRing_power (n : Nat) (f : Ring → Ring) (s : State) : (modRing n f s).power = s.power := rfl
@[simp] theorem modRing_steward (n : Nat) (f : Ring → Ring) (s : State) : (modRing n f s).steward = s.steward := rfl
@[simp] theorem modRing_bunch (n : Nat) (f : Ring → Ring) (s : State) : (modRing n f s).bunch = s.bunch := rfl
@[simp] theorem modRing_clock (n : Nat) (f : Ring → Ring) (s : State) : (modRing n f s).clock = s.clock := rfl
@[simp] theorem modRing_time (n : Nat) (f : Ring → Ring) (s : State) : (modRing n f s).time = s.time := rfl
@[simp] theorem modRing_rf (n : Nat) (f : Ring → Ring) (s : State) : (modRing n f s).rf = s.rf := rfl
@[simp] theorem modRing_orx (n : Nat) (f : Ring → Ring) (s : State) : (modRing n f s).orx = s.orx := rfl
@[simp] theorem modRing_ddc (n : Nat) (f : Ring → Ring) (s : State) : (modRing n f s).ddc = s.ddc := rfl
@[simp] theorem modRing_spec (n : Nat) (f : Ring → Ring) (s : State) : (modRing n f s).spec = s.spec := rfl
@[simp] theorem modRing_bloom (n : Nat) (f : Ring → Ring) (s : State) : (modRing n f s).bloom = s.bloom := rfl
@[simp] theorem modRing_trig (n : Nat) (f : Ring → Ring) (s : State) : (modRing n f s).trig = s.trig := rfl
@[simp] theorem modRing_lineLog (n : Nat) (f : Ring → Ring) (s : State) : (modRing n f s).lineLog = s.lineLog := rfl
@[simp] theorem modRing_trigIn (n : Nat) (f : Ring → Ring) (s : State) : (modRing n f s).trigIn = s.trigIn := rfl
@[simp] theorem modRing_cap (n : Nat) (f : Ring → Ring) (s : State) : (modRing n f s).cap = s.cap := rfl
@[simp] theorem modRing_gen (n : Nat) (f : Ring → Ring) (s : State) : (modRing n f s).gen = s.gen := rfl
@[simp] theorem modRing_route (n : Nat) (f : Ring → Ring) (s : State) : (modRing n f s).route = s.route := rfl
@[simp] theorem modRing_laser (n : Nat) (f : Ring → Ring) (s : State) : (modRing n f s).laser = s.laser := rfl
@[simp] theorem modRing_fibre (n : Nat) (f : Ring → Ring) (s : State) : (modRing n f s).fibre = s.fibre := rfl
@[simp] theorem modRing_slow (n : Nat) (f : Ring → Ring) (s : State) : (modRing n f s).slow = s.slow := rfl
@[simp] theorem modRing_exc (n : Nat) (f : Ring → Ring) (s : State) : (modRing n f s).exc = s.exc := rfl
@[simp] theorem modRing_dma (n : Nat) (f : Ring → Ring) (s : State) : (modRing n f s).dma = s.dma := rfl
@[simp] theorem modRing_memCtl (n : Nat) (f : Ring → Ring) (s : State) : (modRing n f s).memCtl = s.memCtl := rfl
@[simp] theorem modRing_pcie (n : Nat) (f : Ring → Ring) (s : State) : (modRing n f s).pcie = s.pcie := rfl
@[simp] theorem modRing_port (n : Nat) (f : Ring → Ring) (s : State) : (modRing n f s).port = s.port := rfl
@[simp] theorem modRing_endpoint (n : Nat) (f : Ring → Ring) (s : State) : (modRing n f s).endpoint = s.endpoint := rfl
@[simp] theorem modRing_disp (n : Nat) (f : Ring → Ring) (s : State) : (modRing n f s).disp = s.disp := rfl
@[simp] theorem modRing_health (n : Nat) (f : Ring → Ring) (s : State) : (modRing n f s).health = s.health := rfl
@[simp] theorem modRing_host (n : Nat) (f : Ring → Ring) (s : State) : (modRing n f s).host = s.host := rfl
@[simp] theorem modRing_dram (n : Nat) (f : Ring → Ring) (s : State) : (modRing n f s).dram = s.dram := rfl
@[simp] theorem modRing_sram (n : Nat) (f : Ring → Ring) (s : State) : (modRing n f s).sram = s.sram := rfl
@[simp] theorem modRing_freeCount (n : Nat) (f : Ring → Ring) (s : State) : (modRing n f s).freeCount = s.freeCount := rfl
@[simp] theorem modRing_pending (n : Nat) (f : Ring → Ring) (s : State) : (modRing n f s).pending = s.pending := rfl
@[simp] theorem modBunch_dt (n : Nat) (f : Bunch → Bunch) (s : State) : (modBunch n f s).dt = s.dt := rfl
@[simp] theorem modBunch_fuse (n : Nat) (f : Bunch → Bunch) (s : State) : (modBunch n f s).fuse = s.fuse := rfl
@[simp] theorem modBunch_stone (n : Nat) (f : Bunch → Bunch) (s : State) : (modBunch n f s).stone = s.stone := rfl
@[simp] theorem modBunch_power (n : Nat) (f : Bunch → Bunch) (s : State) : (modBunch n f s).power = s.power := rfl
@[simp] theorem modBunch_steward (n : Nat) (f : Bunch → Bunch) (s : State) : (modBunch n f s).steward = s.steward := rfl
@[simp] theorem modBunch_rings (n : Nat) (f : Bunch → Bunch) (s : State) : (modBunch n f s).rings = s.rings := rfl
@[simp] theorem modBunch_clock (n : Nat) (f : Bunch → Bunch) (s : State) : (modBunch n f s).clock = s.clock := rfl
@[simp] theorem modBunch_time (n : Nat) (f : Bunch → Bunch) (s : State) : (modBunch n f s).time = s.time := rfl
@[simp] theorem modBunch_rf (n : Nat) (f : Bunch → Bunch) (s : State) : (modBunch n f s).rf = s.rf := rfl
@[simp] theorem modBunch_orx (n : Nat) (f : Bunch → Bunch) (s : State) : (modBunch n f s).orx = s.orx := rfl
@[simp] theorem modBunch_ddc (n : Nat) (f : Bunch → Bunch) (s : State) : (modBunch n f s).ddc = s.ddc := rfl
@[simp] theorem modBunch_spec (n : Nat) (f : Bunch → Bunch) (s : State) : (modBunch n f s).spec = s.spec := rfl
@[simp] theorem modBunch_bloom (n : Nat) (f : Bunch → Bunch) (s : State) : (modBunch n f s).bloom = s.bloom := rfl
@[simp] theorem modBunch_trig (n : Nat) (f : Bunch → Bunch) (s : State) : (modBunch n f s).trig = s.trig := rfl
@[simp] theorem modBunch_lineLog (n : Nat) (f : Bunch → Bunch) (s : State) : (modBunch n f s).lineLog = s.lineLog := rfl
@[simp] theorem modBunch_trigIn (n : Nat) (f : Bunch → Bunch) (s : State) : (modBunch n f s).trigIn = s.trigIn := rfl
@[simp] theorem modBunch_cap (n : Nat) (f : Bunch → Bunch) (s : State) : (modBunch n f s).cap = s.cap := rfl
@[simp] theorem modBunch_gen (n : Nat) (f : Bunch → Bunch) (s : State) : (modBunch n f s).gen = s.gen := rfl
@[simp] theorem modBunch_route (n : Nat) (f : Bunch → Bunch) (s : State) : (modBunch n f s).route = s.route := rfl
@[simp] theorem modBunch_laser (n : Nat) (f : Bunch → Bunch) (s : State) : (modBunch n f s).laser = s.laser := rfl
@[simp] theorem modBunch_fibre (n : Nat) (f : Bunch → Bunch) (s : State) : (modBunch n f s).fibre = s.fibre := rfl
@[simp] theorem modBunch_slow (n : Nat) (f : Bunch → Bunch) (s : State) : (modBunch n f s).slow = s.slow := rfl
@[simp] theorem modBunch_exc (n : Nat) (f : Bunch → Bunch) (s : State) : (modBunch n f s).exc = s.exc := rfl
@[simp] theorem modBunch_dma (n : Nat) (f : Bunch → Bunch) (s : State) : (modBunch n f s).dma = s.dma := rfl
@[simp] theorem modBunch_memCtl (n : Nat) (f : Bunch → Bunch) (s : State) : (modBunch n f s).memCtl = s.memCtl := rfl
@[simp] theorem modBunch_pcie (n : Nat) (f : Bunch → Bunch) (s : State) : (modBunch n f s).pcie = s.pcie := rfl
@[simp] theorem modBunch_port (n : Nat) (f : Bunch → Bunch) (s : State) : (modBunch n f s).port = s.port := rfl
@[simp] theorem modBunch_endpoint (n : Nat) (f : Bunch → Bunch) (s : State) : (modBunch n f s).endpoint = s.endpoint := rfl
@[simp] theorem modBunch_disp (n : Nat) (f : Bunch → Bunch) (s : State) : (modBunch n f s).disp = s.disp := rfl
@[simp] theorem modBunch_health (n : Nat) (f : Bunch → Bunch) (s : State) : (modBunch n f s).health = s.health := rfl
@[simp] theorem modBunch_host (n : Nat) (f : Bunch → Bunch) (s : State) : (modBunch n f s).host = s.host := rfl
@[simp] theorem modBunch_dram (n : Nat) (f : Bunch → Bunch) (s : State) : (modBunch n f s).dram = s.dram := rfl
@[simp] theorem modBunch_sram (n : Nat) (f : Bunch → Bunch) (s : State) : (modBunch n f s).sram = s.sram := rfl
@[simp] theorem modBunch_freeCount (n : Nat) (f : Bunch → Bunch) (s : State) : (modBunch n f s).freeCount = s.freeCount := rfl
@[simp] theorem modBunch_pending (n : Nat) (f : Bunch → Bunch) (s : State) : (modBunch n f s).pending = s.pending := rfl
@[simp] theorem modPll_dt (n : Nat) (f : Pll → Pll) (s : State) : (modPll n f s).dt = s.dt := rfl
@[simp] theorem modPll_fuse (n : Nat) (f : Pll → Pll) (s : State) : (modPll n f s).fuse = s.fuse := rfl
@[simp] theorem modPll_stone (n : Nat) (f : Pll → Pll) (s : State) : (modPll n f s).stone = s.stone := rfl
@[simp] theorem modPll_power (n : Nat) (f : Pll → Pll) (s : State) : (modPll n f s).power = s.power := rfl
@[simp] theorem modPll_steward (n : Nat) (f : Pll → Pll) (s : State) : (modPll n f s).steward = s.steward := rfl
@[simp] theorem modPll_rings (n : Nat) (f : Pll → Pll) (s : State) : (modPll n f s).rings = s.rings := rfl
@[simp] theorem modPll_bunch (n : Nat) (f : Pll → Pll) (s : State) : (modPll n f s).bunch = s.bunch := rfl
@[simp] theorem modPll_time (n : Nat) (f : Pll → Pll) (s : State) : (modPll n f s).time = s.time := rfl
@[simp] theorem modPll_rf (n : Nat) (f : Pll → Pll) (s : State) : (modPll n f s).rf = s.rf := rfl
@[simp] theorem modPll_orx (n : Nat) (f : Pll → Pll) (s : State) : (modPll n f s).orx = s.orx := rfl
@[simp] theorem modPll_ddc (n : Nat) (f : Pll → Pll) (s : State) : (modPll n f s).ddc = s.ddc := rfl
@[simp] theorem modPll_spec (n : Nat) (f : Pll → Pll) (s : State) : (modPll n f s).spec = s.spec := rfl
@[simp] theorem modPll_bloom (n : Nat) (f : Pll → Pll) (s : State) : (modPll n f s).bloom = s.bloom := rfl
@[simp] theorem modPll_trig (n : Nat) (f : Pll → Pll) (s : State) : (modPll n f s).trig = s.trig := rfl
@[simp] theorem modPll_lineLog (n : Nat) (f : Pll → Pll) (s : State) : (modPll n f s).lineLog = s.lineLog := rfl
@[simp] theorem modPll_trigIn (n : Nat) (f : Pll → Pll) (s : State) : (modPll n f s).trigIn = s.trigIn := rfl
@[simp] theorem modPll_cap (n : Nat) (f : Pll → Pll) (s : State) : (modPll n f s).cap = s.cap := rfl
@[simp] theorem modPll_gen (n : Nat) (f : Pll → Pll) (s : State) : (modPll n f s).gen = s.gen := rfl
@[simp] theorem modPll_route (n : Nat) (f : Pll → Pll) (s : State) : (modPll n f s).route = s.route := rfl
@[simp] theorem modPll_laser (n : Nat) (f : Pll → Pll) (s : State) : (modPll n f s).laser = s.laser := rfl
@[simp] theorem modPll_fibre (n : Nat) (f : Pll → Pll) (s : State) : (modPll n f s).fibre = s.fibre := rfl
@[simp] theorem modPll_slow (n : Nat) (f : Pll → Pll) (s : State) : (modPll n f s).slow = s.slow := rfl
@[simp] theorem modPll_exc (n : Nat) (f : Pll → Pll) (s : State) : (modPll n f s).exc = s.exc := rfl
@[simp] theorem modPll_dma (n : Nat) (f : Pll → Pll) (s : State) : (modPll n f s).dma = s.dma := rfl
@[simp] theorem modPll_memCtl (n : Nat) (f : Pll → Pll) (s : State) : (modPll n f s).memCtl = s.memCtl := rfl
@[simp] theorem modPll_pcie (n : Nat) (f : Pll → Pll) (s : State) : (modPll n f s).pcie = s.pcie := rfl
@[simp] theorem modPll_port (n : Nat) (f : Pll → Pll) (s : State) : (modPll n f s).port = s.port := rfl
@[simp] theorem modPll_endpoint (n : Nat) (f : Pll → Pll) (s : State) : (modPll n f s).endpoint = s.endpoint := rfl
@[simp] theorem modPll_disp (n : Nat) (f : Pll → Pll) (s : State) : (modPll n f s).disp = s.disp := rfl
@[simp] theorem modPll_health (n : Nat) (f : Pll → Pll) (s : State) : (modPll n f s).health = s.health := rfl
@[simp] theorem modPll_host (n : Nat) (f : Pll → Pll) (s : State) : (modPll n f s).host = s.host := rfl
@[simp] theorem modPll_dram (n : Nat) (f : Pll → Pll) (s : State) : (modPll n f s).dram = s.dram := rfl
@[simp] theorem modPll_sram (n : Nat) (f : Pll → Pll) (s : State) : (modPll n f s).sram = s.sram := rfl
@[simp] theorem modPll_freeCount (n : Nat) (f : Pll → Pll) (s : State) : (modPll n f s).freeCount = s.freeCount := rfl
@[simp] theorem modPll_pending (n : Nat) (f : Pll → Pll) (s : State) : (modPll n f s).pending = s.pending := rfl
@[simp] theorem modRf_dt (n : Nat) (f : RfChan → RfChan) (s : State) : (modRf n f s).dt = s.dt := rfl
@[simp] theorem modRf_fuse (n : Nat) (f : RfChan → RfChan) (s : State) : (modRf n f s).fuse = s.fuse := rfl
@[simp] theorem modRf_stone (n : Nat) (f : RfChan → RfChan) (s : State) : (modRf n f s).stone = s.stone := rfl
@[simp] theorem modRf_power (n : Nat) (f : RfChan → RfChan) (s : State) : (modRf n f s).power = s.power := rfl
@[simp] theorem modRf_steward (n : Nat) (f : RfChan → RfChan) (s : State) : (modRf n f s).steward = s.steward := rfl
@[simp] theorem modRf_rings (n : Nat) (f : RfChan → RfChan) (s : State) : (modRf n f s).rings = s.rings := rfl
@[simp] theorem modRf_bunch (n : Nat) (f : RfChan → RfChan) (s : State) : (modRf n f s).bunch = s.bunch := rfl
@[simp] theorem modRf_clock (n : Nat) (f : RfChan → RfChan) (s : State) : (modRf n f s).clock = s.clock := rfl
@[simp] theorem modRf_time (n : Nat) (f : RfChan → RfChan) (s : State) : (modRf n f s).time = s.time := rfl
@[simp] theorem modRf_orx (n : Nat) (f : RfChan → RfChan) (s : State) : (modRf n f s).orx = s.orx := rfl
@[simp] theorem modRf_ddc (n : Nat) (f : RfChan → RfChan) (s : State) : (modRf n f s).ddc = s.ddc := rfl
@[simp] theorem modRf_spec (n : Nat) (f : RfChan → RfChan) (s : State) : (modRf n f s).spec = s.spec := rfl
@[simp] theorem modRf_bloom (n : Nat) (f : RfChan → RfChan) (s : State) : (modRf n f s).bloom = s.bloom := rfl
@[simp] theorem modRf_trig (n : Nat) (f : RfChan → RfChan) (s : State) : (modRf n f s).trig = s.trig := rfl
@[simp] theorem modRf_lineLog (n : Nat) (f : RfChan → RfChan) (s : State) : (modRf n f s).lineLog = s.lineLog := rfl
@[simp] theorem modRf_trigIn (n : Nat) (f : RfChan → RfChan) (s : State) : (modRf n f s).trigIn = s.trigIn := rfl
@[simp] theorem modRf_cap (n : Nat) (f : RfChan → RfChan) (s : State) : (modRf n f s).cap = s.cap := rfl
@[simp] theorem modRf_gen (n : Nat) (f : RfChan → RfChan) (s : State) : (modRf n f s).gen = s.gen := rfl
@[simp] theorem modRf_route (n : Nat) (f : RfChan → RfChan) (s : State) : (modRf n f s).route = s.route := rfl
@[simp] theorem modRf_laser (n : Nat) (f : RfChan → RfChan) (s : State) : (modRf n f s).laser = s.laser := rfl
@[simp] theorem modRf_fibre (n : Nat) (f : RfChan → RfChan) (s : State) : (modRf n f s).fibre = s.fibre := rfl
@[simp] theorem modRf_slow (n : Nat) (f : RfChan → RfChan) (s : State) : (modRf n f s).slow = s.slow := rfl
@[simp] theorem modRf_exc (n : Nat) (f : RfChan → RfChan) (s : State) : (modRf n f s).exc = s.exc := rfl
@[simp] theorem modRf_dma (n : Nat) (f : RfChan → RfChan) (s : State) : (modRf n f s).dma = s.dma := rfl
@[simp] theorem modRf_memCtl (n : Nat) (f : RfChan → RfChan) (s : State) : (modRf n f s).memCtl = s.memCtl := rfl
@[simp] theorem modRf_pcie (n : Nat) (f : RfChan → RfChan) (s : State) : (modRf n f s).pcie = s.pcie := rfl
@[simp] theorem modRf_port (n : Nat) (f : RfChan → RfChan) (s : State) : (modRf n f s).port = s.port := rfl
@[simp] theorem modRf_endpoint (n : Nat) (f : RfChan → RfChan) (s : State) : (modRf n f s).endpoint = s.endpoint := rfl
@[simp] theorem modRf_disp (n : Nat) (f : RfChan → RfChan) (s : State) : (modRf n f s).disp = s.disp := rfl
@[simp] theorem modRf_health (n : Nat) (f : RfChan → RfChan) (s : State) : (modRf n f s).health = s.health := rfl
@[simp] theorem modRf_host (n : Nat) (f : RfChan → RfChan) (s : State) : (modRf n f s).host = s.host := rfl
@[simp] theorem modRf_dram (n : Nat) (f : RfChan → RfChan) (s : State) : (modRf n f s).dram = s.dram := rfl
@[simp] theorem modRf_sram (n : Nat) (f : RfChan → RfChan) (s : State) : (modRf n f s).sram = s.sram := rfl
@[simp] theorem modRf_freeCount (n : Nat) (f : RfChan → RfChan) (s : State) : (modRf n f s).freeCount = s.freeCount := rfl
@[simp] theorem modRf_pending (n : Nat) (f : RfChan → RfChan) (s : State) : (modRf n f s).pending = s.pending := rfl
@[simp] theorem modOrx_dt (n : Nat) (f : OrxChan → OrxChan) (s : State) : (modOrx n f s).dt = s.dt := rfl
@[simp] theorem modOrx_fuse (n : Nat) (f : OrxChan → OrxChan) (s : State) : (modOrx n f s).fuse = s.fuse := rfl
@[simp] theorem modOrx_stone (n : Nat) (f : OrxChan → OrxChan) (s : State) : (modOrx n f s).stone = s.stone := rfl
@[simp] theorem modOrx_power (n : Nat) (f : OrxChan → OrxChan) (s : State) : (modOrx n f s).power = s.power := rfl
@[simp] theorem modOrx_steward (n : Nat) (f : OrxChan → OrxChan) (s : State) : (modOrx n f s).steward = s.steward := rfl
@[simp] theorem modOrx_rings (n : Nat) (f : OrxChan → OrxChan) (s : State) : (modOrx n f s).rings = s.rings := rfl
@[simp] theorem modOrx_bunch (n : Nat) (f : OrxChan → OrxChan) (s : State) : (modOrx n f s).bunch = s.bunch := rfl
@[simp] theorem modOrx_clock (n : Nat) (f : OrxChan → OrxChan) (s : State) : (modOrx n f s).clock = s.clock := rfl
@[simp] theorem modOrx_time (n : Nat) (f : OrxChan → OrxChan) (s : State) : (modOrx n f s).time = s.time := rfl
@[simp] theorem modOrx_rf (n : Nat) (f : OrxChan → OrxChan) (s : State) : (modOrx n f s).rf = s.rf := rfl
@[simp] theorem modOrx_ddc (n : Nat) (f : OrxChan → OrxChan) (s : State) : (modOrx n f s).ddc = s.ddc := rfl
@[simp] theorem modOrx_spec (n : Nat) (f : OrxChan → OrxChan) (s : State) : (modOrx n f s).spec = s.spec := rfl
@[simp] theorem modOrx_bloom (n : Nat) (f : OrxChan → OrxChan) (s : State) : (modOrx n f s).bloom = s.bloom := rfl
@[simp] theorem modOrx_trig (n : Nat) (f : OrxChan → OrxChan) (s : State) : (modOrx n f s).trig = s.trig := rfl
@[simp] theorem modOrx_lineLog (n : Nat) (f : OrxChan → OrxChan) (s : State) : (modOrx n f s).lineLog = s.lineLog := rfl
@[simp] theorem modOrx_trigIn (n : Nat) (f : OrxChan → OrxChan) (s : State) : (modOrx n f s).trigIn = s.trigIn := rfl
@[simp] theorem modOrx_cap (n : Nat) (f : OrxChan → OrxChan) (s : State) : (modOrx n f s).cap = s.cap := rfl
@[simp] theorem modOrx_gen (n : Nat) (f : OrxChan → OrxChan) (s : State) : (modOrx n f s).gen = s.gen := rfl
@[simp] theorem modOrx_route (n : Nat) (f : OrxChan → OrxChan) (s : State) : (modOrx n f s).route = s.route := rfl
@[simp] theorem modOrx_laser (n : Nat) (f : OrxChan → OrxChan) (s : State) : (modOrx n f s).laser = s.laser := rfl
@[simp] theorem modOrx_fibre (n : Nat) (f : OrxChan → OrxChan) (s : State) : (modOrx n f s).fibre = s.fibre := rfl
@[simp] theorem modOrx_slow (n : Nat) (f : OrxChan → OrxChan) (s : State) : (modOrx n f s).slow = s.slow := rfl
@[simp] theorem modOrx_exc (n : Nat) (f : OrxChan → OrxChan) (s : State) : (modOrx n f s).exc = s.exc := rfl
@[simp] theorem modOrx_dma (n : Nat) (f : OrxChan → OrxChan) (s : State) : (modOrx n f s).dma = s.dma := rfl
@[simp] theorem modOrx_memCtl (n : Nat) (f : OrxChan → OrxChan) (s : State) : (modOrx n f s).memCtl = s.memCtl := rfl
@[simp] theorem modOrx_pcie (n : Nat) (f : OrxChan → OrxChan) (s : State) : (modOrx n f s).pcie = s.pcie := rfl
@[simp] theorem modOrx_port (n : Nat) (f : OrxChan → OrxChan) (s : State) : (modOrx n f s).port = s.port := rfl
@[simp] theorem modOrx_endpoint (n : Nat) (f : OrxChan → OrxChan) (s : State) : (modOrx n f s).endpoint = s.endpoint := rfl
@[simp] theorem modOrx_disp (n : Nat) (f : OrxChan → OrxChan) (s : State) : (modOrx n f s).disp = s.disp := rfl
@[simp] theorem modOrx_health (n : Nat) (f : OrxChan → OrxChan) (s : State) : (modOrx n f s).health = s.health := rfl
@[simp] theorem modOrx_host (n : Nat) (f : OrxChan → OrxChan) (s : State) : (modOrx n f s).host = s.host := rfl
@[simp] theorem modOrx_dram (n : Nat) (f : OrxChan → OrxChan) (s : State) : (modOrx n f s).dram = s.dram := rfl
@[simp] theorem modOrx_sram (n : Nat) (f : OrxChan → OrxChan) (s : State) : (modOrx n f s).sram = s.sram := rfl
@[simp] theorem modOrx_freeCount (n : Nat) (f : OrxChan → OrxChan) (s : State) : (modOrx n f s).freeCount = s.freeCount := rfl
@[simp] theorem modOrx_pending (n : Nat) (f : OrxChan → OrxChan) (s : State) : (modOrx n f s).pending = s.pending := rfl
@[simp] theorem modDdc_dt (n : Nat) (f : DdcPath → DdcPath) (s : State) : (modDdc n f s).dt = s.dt := rfl
@[simp] theorem modDdc_fuse (n : Nat) (f : DdcPath → DdcPath) (s : State) : (modDdc n f s).fuse = s.fuse := rfl
@[simp] theorem modDdc_stone (n : Nat) (f : DdcPath → DdcPath) (s : State) : (modDdc n f s).stone = s.stone := rfl
@[simp] theorem modDdc_power (n : Nat) (f : DdcPath → DdcPath) (s : State) : (modDdc n f s).power = s.power := rfl
@[simp] theorem modDdc_steward (n : Nat) (f : DdcPath → DdcPath) (s : State) : (modDdc n f s).steward = s.steward := rfl
@[simp] theorem modDdc_rings (n : Nat) (f : DdcPath → DdcPath) (s : State) : (modDdc n f s).rings = s.rings := rfl
@[simp] theorem modDdc_bunch (n : Nat) (f : DdcPath → DdcPath) (s : State) : (modDdc n f s).bunch = s.bunch := rfl
@[simp] theorem modDdc_clock (n : Nat) (f : DdcPath → DdcPath) (s : State) : (modDdc n f s).clock = s.clock := rfl
@[simp] theorem modDdc_time (n : Nat) (f : DdcPath → DdcPath) (s : State) : (modDdc n f s).time = s.time := rfl
@[simp] theorem modDdc_rf (n : Nat) (f : DdcPath → DdcPath) (s : State) : (modDdc n f s).rf = s.rf := rfl
@[simp] theorem modDdc_orx (n : Nat) (f : DdcPath → DdcPath) (s : State) : (modDdc n f s).orx = s.orx := rfl
@[simp] theorem modDdc_spec (n : Nat) (f : DdcPath → DdcPath) (s : State) : (modDdc n f s).spec = s.spec := rfl
@[simp] theorem modDdc_bloom (n : Nat) (f : DdcPath → DdcPath) (s : State) : (modDdc n f s).bloom = s.bloom := rfl
@[simp] theorem modDdc_trig (n : Nat) (f : DdcPath → DdcPath) (s : State) : (modDdc n f s).trig = s.trig := rfl
@[simp] theorem modDdc_lineLog (n : Nat) (f : DdcPath → DdcPath) (s : State) : (modDdc n f s).lineLog = s.lineLog := rfl
@[simp] theorem modDdc_trigIn (n : Nat) (f : DdcPath → DdcPath) (s : State) : (modDdc n f s).trigIn = s.trigIn := rfl
@[simp] theorem modDdc_cap (n : Nat) (f : DdcPath → DdcPath) (s : State) : (modDdc n f s).cap = s.cap := rfl
@[simp] theorem modDdc_gen (n : Nat) (f : DdcPath → DdcPath) (s : State) : (modDdc n f s).gen = s.gen := rfl
@[simp] theorem modDdc_route (n : Nat) (f : DdcPath → DdcPath) (s : State) : (modDdc n f s).route = s.route := rfl
@[simp] theorem modDdc_laser (n : Nat) (f : DdcPath → DdcPath) (s : State) : (modDdc n f s).laser = s.laser := rfl
@[simp] theorem modDdc_fibre (n : Nat) (f : DdcPath → DdcPath) (s : State) : (modDdc n f s).fibre = s.fibre := rfl
@[simp] theorem modDdc_slow (n : Nat) (f : DdcPath → DdcPath) (s : State) : (modDdc n f s).slow = s.slow := rfl
@[simp] theorem modDdc_exc (n : Nat) (f : DdcPath → DdcPath) (s : State) : (modDdc n f s).exc = s.exc := rfl
@[simp] theorem modDdc_dma (n : Nat) (f : DdcPath → DdcPath) (s : State) : (modDdc n f s).dma = s.dma := rfl
@[simp] theorem modDdc_memCtl (n : Nat) (f : DdcPath → DdcPath) (s : State) : (modDdc n f s).memCtl = s.memCtl := rfl
@[simp] theorem modDdc_pcie (n : Nat) (f : DdcPath → DdcPath) (s : State) : (modDdc n f s).pcie = s.pcie := rfl
@[simp] theorem modDdc_port (n : Nat) (f : DdcPath → DdcPath) (s : State) : (modDdc n f s).port = s.port := rfl
@[simp] theorem modDdc_endpoint (n : Nat) (f : DdcPath → DdcPath) (s : State) : (modDdc n f s).endpoint = s.endpoint := rfl
@[simp] theorem modDdc_disp (n : Nat) (f : DdcPath → DdcPath) (s : State) : (modDdc n f s).disp = s.disp := rfl
@[simp] theorem modDdc_health (n : Nat) (f : DdcPath → DdcPath) (s : State) : (modDdc n f s).health = s.health := rfl
@[simp] theorem modDdc_host (n : Nat) (f : DdcPath → DdcPath) (s : State) : (modDdc n f s).host = s.host := rfl
@[simp] theorem modDdc_dram (n : Nat) (f : DdcPath → DdcPath) (s : State) : (modDdc n f s).dram = s.dram := rfl
@[simp] theorem modDdc_sram (n : Nat) (f : DdcPath → DdcPath) (s : State) : (modDdc n f s).sram = s.sram := rfl
@[simp] theorem modDdc_freeCount (n : Nat) (f : DdcPath → DdcPath) (s : State) : (modDdc n f s).freeCount = s.freeCount := rfl
@[simp] theorem modDdc_pending (n : Nat) (f : DdcPath → DdcPath) (s : State) : (modDdc n f s).pending = s.pending := rfl
@[simp] theorem modSpec_dt (n : Nat) (f : Spectral → Spectral) (s : State) : (modSpec n f s).dt = s.dt := rfl
@[simp] theorem modSpec_fuse (n : Nat) (f : Spectral → Spectral) (s : State) : (modSpec n f s).fuse = s.fuse := rfl
@[simp] theorem modSpec_stone (n : Nat) (f : Spectral → Spectral) (s : State) : (modSpec n f s).stone = s.stone := rfl
@[simp] theorem modSpec_power (n : Nat) (f : Spectral → Spectral) (s : State) : (modSpec n f s).power = s.power := rfl
@[simp] theorem modSpec_steward (n : Nat) (f : Spectral → Spectral) (s : State) : (modSpec n f s).steward = s.steward := rfl
@[simp] theorem modSpec_rings (n : Nat) (f : Spectral → Spectral) (s : State) : (modSpec n f s).rings = s.rings := rfl
@[simp] theorem modSpec_bunch (n : Nat) (f : Spectral → Spectral) (s : State) : (modSpec n f s).bunch = s.bunch := rfl
@[simp] theorem modSpec_clock (n : Nat) (f : Spectral → Spectral) (s : State) : (modSpec n f s).clock = s.clock := rfl
@[simp] theorem modSpec_time (n : Nat) (f : Spectral → Spectral) (s : State) : (modSpec n f s).time = s.time := rfl
@[simp] theorem modSpec_rf (n : Nat) (f : Spectral → Spectral) (s : State) : (modSpec n f s).rf = s.rf := rfl
@[simp] theorem modSpec_orx (n : Nat) (f : Spectral → Spectral) (s : State) : (modSpec n f s).orx = s.orx := rfl
@[simp] theorem modSpec_ddc (n : Nat) (f : Spectral → Spectral) (s : State) : (modSpec n f s).ddc = s.ddc := rfl
@[simp] theorem modSpec_bloom (n : Nat) (f : Spectral → Spectral) (s : State) : (modSpec n f s).bloom = s.bloom := rfl
@[simp] theorem modSpec_trig (n : Nat) (f : Spectral → Spectral) (s : State) : (modSpec n f s).trig = s.trig := rfl
@[simp] theorem modSpec_lineLog (n : Nat) (f : Spectral → Spectral) (s : State) : (modSpec n f s).lineLog = s.lineLog := rfl
@[simp] theorem modSpec_trigIn (n : Nat) (f : Spectral → Spectral) (s : State) : (modSpec n f s).trigIn = s.trigIn := rfl
@[simp] theorem modSpec_cap (n : Nat) (f : Spectral → Spectral) (s : State) : (modSpec n f s).cap = s.cap := rfl
@[simp] theorem modSpec_gen (n : Nat) (f : Spectral → Spectral) (s : State) : (modSpec n f s).gen = s.gen := rfl
@[simp] theorem modSpec_route (n : Nat) (f : Spectral → Spectral) (s : State) : (modSpec n f s).route = s.route := rfl
@[simp] theorem modSpec_laser (n : Nat) (f : Spectral → Spectral) (s : State) : (modSpec n f s).laser = s.laser := rfl
@[simp] theorem modSpec_fibre (n : Nat) (f : Spectral → Spectral) (s : State) : (modSpec n f s).fibre = s.fibre := rfl
@[simp] theorem modSpec_slow (n : Nat) (f : Spectral → Spectral) (s : State) : (modSpec n f s).slow = s.slow := rfl
@[simp] theorem modSpec_exc (n : Nat) (f : Spectral → Spectral) (s : State) : (modSpec n f s).exc = s.exc := rfl
@[simp] theorem modSpec_dma (n : Nat) (f : Spectral → Spectral) (s : State) : (modSpec n f s).dma = s.dma := rfl
@[simp] theorem modSpec_memCtl (n : Nat) (f : Spectral → Spectral) (s : State) : (modSpec n f s).memCtl = s.memCtl := rfl
@[simp] theorem modSpec_pcie (n : Nat) (f : Spectral → Spectral) (s : State) : (modSpec n f s).pcie = s.pcie := rfl
@[simp] theorem modSpec_port (n : Nat) (f : Spectral → Spectral) (s : State) : (modSpec n f s).port = s.port := rfl
@[simp] theorem modSpec_endpoint (n : Nat) (f : Spectral → Spectral) (s : State) : (modSpec n f s).endpoint = s.endpoint := rfl
@[simp] theorem modSpec_disp (n : Nat) (f : Spectral → Spectral) (s : State) : (modSpec n f s).disp = s.disp := rfl
@[simp] theorem modSpec_health (n : Nat) (f : Spectral → Spectral) (s : State) : (modSpec n f s).health = s.health := rfl
@[simp] theorem modSpec_host (n : Nat) (f : Spectral → Spectral) (s : State) : (modSpec n f s).host = s.host := rfl
@[simp] theorem modSpec_dram (n : Nat) (f : Spectral → Spectral) (s : State) : (modSpec n f s).dram = s.dram := rfl
@[simp] theorem modSpec_sram (n : Nat) (f : Spectral → Spectral) (s : State) : (modSpec n f s).sram = s.sram := rfl
@[simp] theorem modSpec_freeCount (n : Nat) (f : Spectral → Spectral) (s : State) : (modSpec n f s).freeCount = s.freeCount := rfl
@[simp] theorem modSpec_pending (n : Nat) (f : Spectral → Spectral) (s : State) : (modSpec n f s).pending = s.pending := rfl
@[simp] theorem modBloom_dt (n : Nat) (f : BloomMap → BloomMap) (s : State) : (modBloom n f s).dt = s.dt := rfl
@[simp] theorem modBloom_fuse (n : Nat) (f : BloomMap → BloomMap) (s : State) : (modBloom n f s).fuse = s.fuse := rfl
@[simp] theorem modBloom_stone (n : Nat) (f : BloomMap → BloomMap) (s : State) : (modBloom n f s).stone = s.stone := rfl
@[simp] theorem modBloom_power (n : Nat) (f : BloomMap → BloomMap) (s : State) : (modBloom n f s).power = s.power := rfl
@[simp] theorem modBloom_steward (n : Nat) (f : BloomMap → BloomMap) (s : State) : (modBloom n f s).steward = s.steward := rfl
@[simp] theorem modBloom_rings (n : Nat) (f : BloomMap → BloomMap) (s : State) : (modBloom n f s).rings = s.rings := rfl
@[simp] theorem modBloom_bunch (n : Nat) (f : BloomMap → BloomMap) (s : State) : (modBloom n f s).bunch = s.bunch := rfl
@[simp] theorem modBloom_clock (n : Nat) (f : BloomMap → BloomMap) (s : State) : (modBloom n f s).clock = s.clock := rfl
@[simp] theorem modBloom_time (n : Nat) (f : BloomMap → BloomMap) (s : State) : (modBloom n f s).time = s.time := rfl
@[simp] theorem modBloom_rf (n : Nat) (f : BloomMap → BloomMap) (s : State) : (modBloom n f s).rf = s.rf := rfl
@[simp] theorem modBloom_orx (n : Nat) (f : BloomMap → BloomMap) (s : State) : (modBloom n f s).orx = s.orx := rfl
@[simp] theorem modBloom_ddc (n : Nat) (f : BloomMap → BloomMap) (s : State) : (modBloom n f s).ddc = s.ddc := rfl
@[simp] theorem modBloom_spec (n : Nat) (f : BloomMap → BloomMap) (s : State) : (modBloom n f s).spec = s.spec := rfl
@[simp] theorem modBloom_trig (n : Nat) (f : BloomMap → BloomMap) (s : State) : (modBloom n f s).trig = s.trig := rfl
@[simp] theorem modBloom_lineLog (n : Nat) (f : BloomMap → BloomMap) (s : State) : (modBloom n f s).lineLog = s.lineLog := rfl
@[simp] theorem modBloom_trigIn (n : Nat) (f : BloomMap → BloomMap) (s : State) : (modBloom n f s).trigIn = s.trigIn := rfl
@[simp] theorem modBloom_cap (n : Nat) (f : BloomMap → BloomMap) (s : State) : (modBloom n f s).cap = s.cap := rfl
@[simp] theorem modBloom_gen (n : Nat) (f : BloomMap → BloomMap) (s : State) : (modBloom n f s).gen = s.gen := rfl
@[simp] theorem modBloom_route (n : Nat) (f : BloomMap → BloomMap) (s : State) : (modBloom n f s).route = s.route := rfl
@[simp] theorem modBloom_laser (n : Nat) (f : BloomMap → BloomMap) (s : State) : (modBloom n f s).laser = s.laser := rfl
@[simp] theorem modBloom_fibre (n : Nat) (f : BloomMap → BloomMap) (s : State) : (modBloom n f s).fibre = s.fibre := rfl
@[simp] theorem modBloom_slow (n : Nat) (f : BloomMap → BloomMap) (s : State) : (modBloom n f s).slow = s.slow := rfl
@[simp] theorem modBloom_exc (n : Nat) (f : BloomMap → BloomMap) (s : State) : (modBloom n f s).exc = s.exc := rfl
@[simp] theorem modBloom_dma (n : Nat) (f : BloomMap → BloomMap) (s : State) : (modBloom n f s).dma = s.dma := rfl
@[simp] theorem modBloom_memCtl (n : Nat) (f : BloomMap → BloomMap) (s : State) : (modBloom n f s).memCtl = s.memCtl := rfl
@[simp] theorem modBloom_pcie (n : Nat) (f : BloomMap → BloomMap) (s : State) : (modBloom n f s).pcie = s.pcie := rfl
@[simp] theorem modBloom_port (n : Nat) (f : BloomMap → BloomMap) (s : State) : (modBloom n f s).port = s.port := rfl
@[simp] theorem modBloom_endpoint (n : Nat) (f : BloomMap → BloomMap) (s : State) : (modBloom n f s).endpoint = s.endpoint := rfl
@[simp] theorem modBloom_disp (n : Nat) (f : BloomMap → BloomMap) (s : State) : (modBloom n f s).disp = s.disp := rfl
@[simp] theorem modBloom_health (n : Nat) (f : BloomMap → BloomMap) (s : State) : (modBloom n f s).health = s.health := rfl
@[simp] theorem modBloom_host (n : Nat) (f : BloomMap → BloomMap) (s : State) : (modBloom n f s).host = s.host := rfl
@[simp] theorem modBloom_dram (n : Nat) (f : BloomMap → BloomMap) (s : State) : (modBloom n f s).dram = s.dram := rfl
@[simp] theorem modBloom_sram (n : Nat) (f : BloomMap → BloomMap) (s : State) : (modBloom n f s).sram = s.sram := rfl
@[simp] theorem modBloom_freeCount (n : Nat) (f : BloomMap → BloomMap) (s : State) : (modBloom n f s).freeCount = s.freeCount := rfl
@[simp] theorem modBloom_pending (n : Nat) (f : BloomMap → BloomMap) (s : State) : (modBloom n f s).pending = s.pending := rfl
@[simp] theorem modTrig_dt (n : Nat) (f : TrigUnit → TrigUnit) (s : State) : (modTrig n f s).dt = s.dt := rfl
@[simp] theorem modTrig_fuse (n : Nat) (f : TrigUnit → TrigUnit) (s : State) : (modTrig n f s).fuse = s.fuse := rfl
@[simp] theorem modTrig_stone (n : Nat) (f : TrigUnit → TrigUnit) (s : State) : (modTrig n f s).stone = s.stone := rfl
@[simp] theorem modTrig_power (n : Nat) (f : TrigUnit → TrigUnit) (s : State) : (modTrig n f s).power = s.power := rfl
@[simp] theorem modTrig_steward (n : Nat) (f : TrigUnit → TrigUnit) (s : State) : (modTrig n f s).steward = s.steward := rfl
@[simp] theorem modTrig_rings (n : Nat) (f : TrigUnit → TrigUnit) (s : State) : (modTrig n f s).rings = s.rings := rfl
@[simp] theorem modTrig_bunch (n : Nat) (f : TrigUnit → TrigUnit) (s : State) : (modTrig n f s).bunch = s.bunch := rfl
@[simp] theorem modTrig_clock (n : Nat) (f : TrigUnit → TrigUnit) (s : State) : (modTrig n f s).clock = s.clock := rfl
@[simp] theorem modTrig_time (n : Nat) (f : TrigUnit → TrigUnit) (s : State) : (modTrig n f s).time = s.time := rfl
@[simp] theorem modTrig_rf (n : Nat) (f : TrigUnit → TrigUnit) (s : State) : (modTrig n f s).rf = s.rf := rfl
@[simp] theorem modTrig_orx (n : Nat) (f : TrigUnit → TrigUnit) (s : State) : (modTrig n f s).orx = s.orx := rfl
@[simp] theorem modTrig_ddc (n : Nat) (f : TrigUnit → TrigUnit) (s : State) : (modTrig n f s).ddc = s.ddc := rfl
@[simp] theorem modTrig_spec (n : Nat) (f : TrigUnit → TrigUnit) (s : State) : (modTrig n f s).spec = s.spec := rfl
@[simp] theorem modTrig_bloom (n : Nat) (f : TrigUnit → TrigUnit) (s : State) : (modTrig n f s).bloom = s.bloom := rfl
@[simp] theorem modTrig_lineLog (n : Nat) (f : TrigUnit → TrigUnit) (s : State) : (modTrig n f s).lineLog = s.lineLog := rfl
@[simp] theorem modTrig_trigIn (n : Nat) (f : TrigUnit → TrigUnit) (s : State) : (modTrig n f s).trigIn = s.trigIn := rfl
@[simp] theorem modTrig_cap (n : Nat) (f : TrigUnit → TrigUnit) (s : State) : (modTrig n f s).cap = s.cap := rfl
@[simp] theorem modTrig_gen (n : Nat) (f : TrigUnit → TrigUnit) (s : State) : (modTrig n f s).gen = s.gen := rfl
@[simp] theorem modTrig_route (n : Nat) (f : TrigUnit → TrigUnit) (s : State) : (modTrig n f s).route = s.route := rfl
@[simp] theorem modTrig_laser (n : Nat) (f : TrigUnit → TrigUnit) (s : State) : (modTrig n f s).laser = s.laser := rfl
@[simp] theorem modTrig_fibre (n : Nat) (f : TrigUnit → TrigUnit) (s : State) : (modTrig n f s).fibre = s.fibre := rfl
@[simp] theorem modTrig_slow (n : Nat) (f : TrigUnit → TrigUnit) (s : State) : (modTrig n f s).slow = s.slow := rfl
@[simp] theorem modTrig_exc (n : Nat) (f : TrigUnit → TrigUnit) (s : State) : (modTrig n f s).exc = s.exc := rfl
@[simp] theorem modTrig_dma (n : Nat) (f : TrigUnit → TrigUnit) (s : State) : (modTrig n f s).dma = s.dma := rfl
@[simp] theorem modTrig_memCtl (n : Nat) (f : TrigUnit → TrigUnit) (s : State) : (modTrig n f s).memCtl = s.memCtl := rfl
@[simp] theorem modTrig_pcie (n : Nat) (f : TrigUnit → TrigUnit) (s : State) : (modTrig n f s).pcie = s.pcie := rfl
@[simp] theorem modTrig_port (n : Nat) (f : TrigUnit → TrigUnit) (s : State) : (modTrig n f s).port = s.port := rfl
@[simp] theorem modTrig_endpoint (n : Nat) (f : TrigUnit → TrigUnit) (s : State) : (modTrig n f s).endpoint = s.endpoint := rfl
@[simp] theorem modTrig_disp (n : Nat) (f : TrigUnit → TrigUnit) (s : State) : (modTrig n f s).disp = s.disp := rfl
@[simp] theorem modTrig_health (n : Nat) (f : TrigUnit → TrigUnit) (s : State) : (modTrig n f s).health = s.health := rfl
@[simp] theorem modTrig_host (n : Nat) (f : TrigUnit → TrigUnit) (s : State) : (modTrig n f s).host = s.host := rfl
@[simp] theorem modTrig_dram (n : Nat) (f : TrigUnit → TrigUnit) (s : State) : (modTrig n f s).dram = s.dram := rfl
@[simp] theorem modTrig_sram (n : Nat) (f : TrigUnit → TrigUnit) (s : State) : (modTrig n f s).sram = s.sram := rfl
@[simp] theorem modTrig_freeCount (n : Nat) (f : TrigUnit → TrigUnit) (s : State) : (modTrig n f s).freeCount = s.freeCount := rfl
@[simp] theorem modTrig_pending (n : Nat) (f : TrigUnit → TrigUnit) (s : State) : (modTrig n f s).pending = s.pending := rfl
@[simp] theorem modCap_dt (n : Nat) (f : Capture → Capture) (s : State) : (modCap n f s).dt = s.dt := rfl
@[simp] theorem modCap_fuse (n : Nat) (f : Capture → Capture) (s : State) : (modCap n f s).fuse = s.fuse := rfl
@[simp] theorem modCap_stone (n : Nat) (f : Capture → Capture) (s : State) : (modCap n f s).stone = s.stone := rfl
@[simp] theorem modCap_power (n : Nat) (f : Capture → Capture) (s : State) : (modCap n f s).power = s.power := rfl
@[simp] theorem modCap_steward (n : Nat) (f : Capture → Capture) (s : State) : (modCap n f s).steward = s.steward := rfl
@[simp] theorem modCap_rings (n : Nat) (f : Capture → Capture) (s : State) : (modCap n f s).rings = s.rings := rfl
@[simp] theorem modCap_bunch (n : Nat) (f : Capture → Capture) (s : State) : (modCap n f s).bunch = s.bunch := rfl
@[simp] theorem modCap_clock (n : Nat) (f : Capture → Capture) (s : State) : (modCap n f s).clock = s.clock := rfl
@[simp] theorem modCap_time (n : Nat) (f : Capture → Capture) (s : State) : (modCap n f s).time = s.time := rfl
@[simp] theorem modCap_rf (n : Nat) (f : Capture → Capture) (s : State) : (modCap n f s).rf = s.rf := rfl
@[simp] theorem modCap_orx (n : Nat) (f : Capture → Capture) (s : State) : (modCap n f s).orx = s.orx := rfl
@[simp] theorem modCap_ddc (n : Nat) (f : Capture → Capture) (s : State) : (modCap n f s).ddc = s.ddc := rfl
@[simp] theorem modCap_spec (n : Nat) (f : Capture → Capture) (s : State) : (modCap n f s).spec = s.spec := rfl
@[simp] theorem modCap_bloom (n : Nat) (f : Capture → Capture) (s : State) : (modCap n f s).bloom = s.bloom := rfl
@[simp] theorem modCap_trig (n : Nat) (f : Capture → Capture) (s : State) : (modCap n f s).trig = s.trig := rfl
@[simp] theorem modCap_lineLog (n : Nat) (f : Capture → Capture) (s : State) : (modCap n f s).lineLog = s.lineLog := rfl
@[simp] theorem modCap_trigIn (n : Nat) (f : Capture → Capture) (s : State) : (modCap n f s).trigIn = s.trigIn := rfl
@[simp] theorem modCap_gen (n : Nat) (f : Capture → Capture) (s : State) : (modCap n f s).gen = s.gen := rfl
@[simp] theorem modCap_route (n : Nat) (f : Capture → Capture) (s : State) : (modCap n f s).route = s.route := rfl
@[simp] theorem modCap_laser (n : Nat) (f : Capture → Capture) (s : State) : (modCap n f s).laser = s.laser := rfl
@[simp] theorem modCap_fibre (n : Nat) (f : Capture → Capture) (s : State) : (modCap n f s).fibre = s.fibre := rfl
@[simp] theorem modCap_slow (n : Nat) (f : Capture → Capture) (s : State) : (modCap n f s).slow = s.slow := rfl
@[simp] theorem modCap_exc (n : Nat) (f : Capture → Capture) (s : State) : (modCap n f s).exc = s.exc := rfl
@[simp] theorem modCap_dma (n : Nat) (f : Capture → Capture) (s : State) : (modCap n f s).dma = s.dma := rfl
@[simp] theorem modCap_memCtl (n : Nat) (f : Capture → Capture) (s : State) : (modCap n f s).memCtl = s.memCtl := rfl
@[simp] theorem modCap_pcie (n : Nat) (f : Capture → Capture) (s : State) : (modCap n f s).pcie = s.pcie := rfl
@[simp] theorem modCap_port (n : Nat) (f : Capture → Capture) (s : State) : (modCap n f s).port = s.port := rfl
@[simp] theorem modCap_endpoint (n : Nat) (f : Capture → Capture) (s : State) : (modCap n f s).endpoint = s.endpoint := rfl
@[simp] theorem modCap_disp (n : Nat) (f : Capture → Capture) (s : State) : (modCap n f s).disp = s.disp := rfl
@[simp] theorem modCap_health (n : Nat) (f : Capture → Capture) (s : State) : (modCap n f s).health = s.health := rfl
@[simp] theorem modCap_host (n : Nat) (f : Capture → Capture) (s : State) : (modCap n f s).host = s.host := rfl
@[simp] theorem modCap_dram (n : Nat) (f : Capture → Capture) (s : State) : (modCap n f s).dram = s.dram := rfl
@[simp] theorem modCap_sram (n : Nat) (f : Capture → Capture) (s : State) : (modCap n f s).sram = s.sram := rfl
@[simp] theorem modCap_freeCount (n : Nat) (f : Capture → Capture) (s : State) : (modCap n f s).freeCount = s.freeCount := rfl
@[simp] theorem modCap_pending (n : Nat) (f : Capture → Capture) (s : State) : (modCap n f s).pending = s.pending := rfl
@[simp] theorem modGen_dt (n : Nat) (f : Gen → Gen) (s : State) : (modGen n f s).dt = s.dt := rfl
@[simp] theorem modGen_fuse (n : Nat) (f : Gen → Gen) (s : State) : (modGen n f s).fuse = s.fuse := rfl
@[simp] theorem modGen_stone (n : Nat) (f : Gen → Gen) (s : State) : (modGen n f s).stone = s.stone := rfl
@[simp] theorem modGen_power (n : Nat) (f : Gen → Gen) (s : State) : (modGen n f s).power = s.power := rfl
@[simp] theorem modGen_steward (n : Nat) (f : Gen → Gen) (s : State) : (modGen n f s).steward = s.steward := rfl
@[simp] theorem modGen_rings (n : Nat) (f : Gen → Gen) (s : State) : (modGen n f s).rings = s.rings := rfl
@[simp] theorem modGen_bunch (n : Nat) (f : Gen → Gen) (s : State) : (modGen n f s).bunch = s.bunch := rfl
@[simp] theorem modGen_clock (n : Nat) (f : Gen → Gen) (s : State) : (modGen n f s).clock = s.clock := rfl
@[simp] theorem modGen_time (n : Nat) (f : Gen → Gen) (s : State) : (modGen n f s).time = s.time := rfl
@[simp] theorem modGen_rf (n : Nat) (f : Gen → Gen) (s : State) : (modGen n f s).rf = s.rf := rfl
@[simp] theorem modGen_orx (n : Nat) (f : Gen → Gen) (s : State) : (modGen n f s).orx = s.orx := rfl
@[simp] theorem modGen_ddc (n : Nat) (f : Gen → Gen) (s : State) : (modGen n f s).ddc = s.ddc := rfl
@[simp] theorem modGen_spec (n : Nat) (f : Gen → Gen) (s : State) : (modGen n f s).spec = s.spec := rfl
@[simp] theorem modGen_bloom (n : Nat) (f : Gen → Gen) (s : State) : (modGen n f s).bloom = s.bloom := rfl
@[simp] theorem modGen_trig (n : Nat) (f : Gen → Gen) (s : State) : (modGen n f s).trig = s.trig := rfl
@[simp] theorem modGen_lineLog (n : Nat) (f : Gen → Gen) (s : State) : (modGen n f s).lineLog = s.lineLog := rfl
@[simp] theorem modGen_trigIn (n : Nat) (f : Gen → Gen) (s : State) : (modGen n f s).trigIn = s.trigIn := rfl
@[simp] theorem modGen_cap (n : Nat) (f : Gen → Gen) (s : State) : (modGen n f s).cap = s.cap := rfl
@[simp] theorem modGen_route (n : Nat) (f : Gen → Gen) (s : State) : (modGen n f s).route = s.route := rfl
@[simp] theorem modGen_laser (n : Nat) (f : Gen → Gen) (s : State) : (modGen n f s).laser = s.laser := rfl
@[simp] theorem modGen_fibre (n : Nat) (f : Gen → Gen) (s : State) : (modGen n f s).fibre = s.fibre := rfl
@[simp] theorem modGen_slow (n : Nat) (f : Gen → Gen) (s : State) : (modGen n f s).slow = s.slow := rfl
@[simp] theorem modGen_exc (n : Nat) (f : Gen → Gen) (s : State) : (modGen n f s).exc = s.exc := rfl
@[simp] theorem modGen_dma (n : Nat) (f : Gen → Gen) (s : State) : (modGen n f s).dma = s.dma := rfl
@[simp] theorem modGen_memCtl (n : Nat) (f : Gen → Gen) (s : State) : (modGen n f s).memCtl = s.memCtl := rfl
@[simp] theorem modGen_pcie (n : Nat) (f : Gen → Gen) (s : State) : (modGen n f s).pcie = s.pcie := rfl
@[simp] theorem modGen_port (n : Nat) (f : Gen → Gen) (s : State) : (modGen n f s).port = s.port := rfl
@[simp] theorem modGen_endpoint (n : Nat) (f : Gen → Gen) (s : State) : (modGen n f s).endpoint = s.endpoint := rfl
@[simp] theorem modGen_disp (n : Nat) (f : Gen → Gen) (s : State) : (modGen n f s).disp = s.disp := rfl
@[simp] theorem modGen_health (n : Nat) (f : Gen → Gen) (s : State) : (modGen n f s).health = s.health := rfl
@[simp] theorem modGen_host (n : Nat) (f : Gen → Gen) (s : State) : (modGen n f s).host = s.host := rfl
@[simp] theorem modGen_dram (n : Nat) (f : Gen → Gen) (s : State) : (modGen n f s).dram = s.dram := rfl
@[simp] theorem modGen_sram (n : Nat) (f : Gen → Gen) (s : State) : (modGen n f s).sram = s.sram := rfl
@[simp] theorem modGen_freeCount (n : Nat) (f : Gen → Gen) (s : State) : (modGen n f s).freeCount = s.freeCount := rfl
@[simp] theorem modGen_pending (n : Nat) (f : Gen → Gen) (s : State) : (modGen n f s).pending = s.pending := rfl
@[simp] theorem modGov_dt (n : Nat) (f : Governor → Governor) (s : State) : (modGov n f s).dt = s.dt := rfl
@[simp] theorem modGov_fuse (n : Nat) (f : Governor → Governor) (s : State) : (modGov n f s).fuse = s.fuse := rfl
@[simp] theorem modGov_stone (n : Nat) (f : Governor → Governor) (s : State) : (modGov n f s).stone = s.stone := rfl
@[simp] theorem modGov_power (n : Nat) (f : Governor → Governor) (s : State) : (modGov n f s).power = s.power := rfl
@[simp] theorem modGov_steward (n : Nat) (f : Governor → Governor) (s : State) : (modGov n f s).steward = s.steward := rfl
@[simp] theorem modGov_rings (n : Nat) (f : Governor → Governor) (s : State) : (modGov n f s).rings = s.rings := rfl
@[simp] theorem modGov_bunch (n : Nat) (f : Governor → Governor) (s : State) : (modGov n f s).bunch = s.bunch := rfl
@[simp] theorem modGov_clock (n : Nat) (f : Governor → Governor) (s : State) : (modGov n f s).clock = s.clock := rfl
@[simp] theorem modGov_time (n : Nat) (f : Governor → Governor) (s : State) : (modGov n f s).time = s.time := rfl
@[simp] theorem modGov_rf (n : Nat) (f : Governor → Governor) (s : State) : (modGov n f s).rf = s.rf := rfl
@[simp] theorem modGov_orx (n : Nat) (f : Governor → Governor) (s : State) : (modGov n f s).orx = s.orx := rfl
@[simp] theorem modGov_ddc (n : Nat) (f : Governor → Governor) (s : State) : (modGov n f s).ddc = s.ddc := rfl
@[simp] theorem modGov_spec (n : Nat) (f : Governor → Governor) (s : State) : (modGov n f s).spec = s.spec := rfl
@[simp] theorem modGov_bloom (n : Nat) (f : Governor → Governor) (s : State) : (modGov n f s).bloom = s.bloom := rfl
@[simp] theorem modGov_trig (n : Nat) (f : Governor → Governor) (s : State) : (modGov n f s).trig = s.trig := rfl
@[simp] theorem modGov_lineLog (n : Nat) (f : Governor → Governor) (s : State) : (modGov n f s).lineLog = s.lineLog := rfl
@[simp] theorem modGov_trigIn (n : Nat) (f : Governor → Governor) (s : State) : (modGov n f s).trigIn = s.trigIn := rfl
@[simp] theorem modGov_cap (n : Nat) (f : Governor → Governor) (s : State) : (modGov n f s).cap = s.cap := rfl
@[simp] theorem modGov_gen (n : Nat) (f : Governor → Governor) (s : State) : (modGov n f s).gen = s.gen := rfl
@[simp] theorem modGov_route (n : Nat) (f : Governor → Governor) (s : State) : (modGov n f s).route = s.route := rfl
@[simp] theorem modGov_fibre (n : Nat) (f : Governor → Governor) (s : State) : (modGov n f s).fibre = s.fibre := rfl
@[simp] theorem modGov_slow (n : Nat) (f : Governor → Governor) (s : State) : (modGov n f s).slow = s.slow := rfl
@[simp] theorem modGov_exc (n : Nat) (f : Governor → Governor) (s : State) : (modGov n f s).exc = s.exc := rfl
@[simp] theorem modGov_dma (n : Nat) (f : Governor → Governor) (s : State) : (modGov n f s).dma = s.dma := rfl
@[simp] theorem modGov_memCtl (n : Nat) (f : Governor → Governor) (s : State) : (modGov n f s).memCtl = s.memCtl := rfl
@[simp] theorem modGov_pcie (n : Nat) (f : Governor → Governor) (s : State) : (modGov n f s).pcie = s.pcie := rfl
@[simp] theorem modGov_port (n : Nat) (f : Governor → Governor) (s : State) : (modGov n f s).port = s.port := rfl
@[simp] theorem modGov_endpoint (n : Nat) (f : Governor → Governor) (s : State) : (modGov n f s).endpoint = s.endpoint := rfl
@[simp] theorem modGov_disp (n : Nat) (f : Governor → Governor) (s : State) : (modGov n f s).disp = s.disp := rfl
@[simp] theorem modGov_health (n : Nat) (f : Governor → Governor) (s : State) : (modGov n f s).health = s.health := rfl
@[simp] theorem modGov_host (n : Nat) (f : Governor → Governor) (s : State) : (modGov n f s).host = s.host := rfl
@[simp] theorem modGov_dram (n : Nat) (f : Governor → Governor) (s : State) : (modGov n f s).dram = s.dram := rfl
@[simp] theorem modGov_sram (n : Nat) (f : Governor → Governor) (s : State) : (modGov n f s).sram = s.sram := rfl
@[simp] theorem modGov_freeCount (n : Nat) (f : Governor → Governor) (s : State) : (modGov n f s).freeCount = s.freeCount := rfl
@[simp] theorem modGov_pending (n : Nat) (f : Governor → Governor) (s : State) : (modGov n f s).pending = s.pending := rfl
@[simp] theorem modFibre_dt (n : Nat) (f : Fibre → Fibre) (s : State) : (modFibre n f s).dt = s.dt := rfl
@[simp] theorem modFibre_fuse (n : Nat) (f : Fibre → Fibre) (s : State) : (modFibre n f s).fuse = s.fuse := rfl
@[simp] theorem modFibre_stone (n : Nat) (f : Fibre → Fibre) (s : State) : (modFibre n f s).stone = s.stone := rfl
@[simp] theorem modFibre_power (n : Nat) (f : Fibre → Fibre) (s : State) : (modFibre n f s).power = s.power := rfl
@[simp] theorem modFibre_steward (n : Nat) (f : Fibre → Fibre) (s : State) : (modFibre n f s).steward = s.steward := rfl
@[simp] theorem modFibre_rings (n : Nat) (f : Fibre → Fibre) (s : State) : (modFibre n f s).rings = s.rings := rfl
@[simp] theorem modFibre_bunch (n : Nat) (f : Fibre → Fibre) (s : State) : (modFibre n f s).bunch = s.bunch := rfl
@[simp] theorem modFibre_clock (n : Nat) (f : Fibre → Fibre) (s : State) : (modFibre n f s).clock = s.clock := rfl
@[simp] theorem modFibre_time (n : Nat) (f : Fibre → Fibre) (s : State) : (modFibre n f s).time = s.time := rfl
@[simp] theorem modFibre_rf (n : Nat) (f : Fibre → Fibre) (s : State) : (modFibre n f s).rf = s.rf := rfl
@[simp] theorem modFibre_orx (n : Nat) (f : Fibre → Fibre) (s : State) : (modFibre n f s).orx = s.orx := rfl
@[simp] theorem modFibre_ddc (n : Nat) (f : Fibre → Fibre) (s : State) : (modFibre n f s).ddc = s.ddc := rfl
@[simp] theorem modFibre_spec (n : Nat) (f : Fibre → Fibre) (s : State) : (modFibre n f s).spec = s.spec := rfl
@[simp] theorem modFibre_bloom (n : Nat) (f : Fibre → Fibre) (s : State) : (modFibre n f s).bloom = s.bloom := rfl
@[simp] theorem modFibre_trig (n : Nat) (f : Fibre → Fibre) (s : State) : (modFibre n f s).trig = s.trig := rfl
@[simp] theorem modFibre_lineLog (n : Nat) (f : Fibre → Fibre) (s : State) : (modFibre n f s).lineLog = s.lineLog := rfl
@[simp] theorem modFibre_trigIn (n : Nat) (f : Fibre → Fibre) (s : State) : (modFibre n f s).trigIn = s.trigIn := rfl
@[simp] theorem modFibre_cap (n : Nat) (f : Fibre → Fibre) (s : State) : (modFibre n f s).cap = s.cap := rfl
@[simp] theorem modFibre_gen (n : Nat) (f : Fibre → Fibre) (s : State) : (modFibre n f s).gen = s.gen := rfl
@[simp] theorem modFibre_route (n : Nat) (f : Fibre → Fibre) (s : State) : (modFibre n f s).route = s.route := rfl
@[simp] theorem modFibre_laser (n : Nat) (f : Fibre → Fibre) (s : State) : (modFibre n f s).laser = s.laser := rfl
@[simp] theorem modFibre_slow (n : Nat) (f : Fibre → Fibre) (s : State) : (modFibre n f s).slow = s.slow := rfl
@[simp] theorem modFibre_exc (n : Nat) (f : Fibre → Fibre) (s : State) : (modFibre n f s).exc = s.exc := rfl
@[simp] theorem modFibre_dma (n : Nat) (f : Fibre → Fibre) (s : State) : (modFibre n f s).dma = s.dma := rfl
@[simp] theorem modFibre_memCtl (n : Nat) (f : Fibre → Fibre) (s : State) : (modFibre n f s).memCtl = s.memCtl := rfl
@[simp] theorem modFibre_pcie (n : Nat) (f : Fibre → Fibre) (s : State) : (modFibre n f s).pcie = s.pcie := rfl
@[simp] theorem modFibre_port (n : Nat) (f : Fibre → Fibre) (s : State) : (modFibre n f s).port = s.port := rfl
@[simp] theorem modFibre_endpoint (n : Nat) (f : Fibre → Fibre) (s : State) : (modFibre n f s).endpoint = s.endpoint := rfl
@[simp] theorem modFibre_disp (n : Nat) (f : Fibre → Fibre) (s : State) : (modFibre n f s).disp = s.disp := rfl
@[simp] theorem modFibre_health (n : Nat) (f : Fibre → Fibre) (s : State) : (modFibre n f s).health = s.health := rfl
@[simp] theorem modFibre_host (n : Nat) (f : Fibre → Fibre) (s : State) : (modFibre n f s).host = s.host := rfl
@[simp] theorem modFibre_dram (n : Nat) (f : Fibre → Fibre) (s : State) : (modFibre n f s).dram = s.dram := rfl
@[simp] theorem modFibre_sram (n : Nat) (f : Fibre → Fibre) (s : State) : (modFibre n f s).sram = s.sram := rfl
@[simp] theorem modFibre_freeCount (n : Nat) (f : Fibre → Fibre) (s : State) : (modFibre n f s).freeCount = s.freeCount := rfl
@[simp] theorem modFibre_pending (n : Nat) (f : Fibre → Fibre) (s : State) : (modFibre n f s).pending = s.pending := rfl
@[simp] theorem modExc_dt (n : Nat) (f : Exc → Exc) (s : State) : (modExc n f s).dt = s.dt := rfl
@[simp] theorem modExc_fuse (n : Nat) (f : Exc → Exc) (s : State) : (modExc n f s).fuse = s.fuse := rfl
@[simp] theorem modExc_stone (n : Nat) (f : Exc → Exc) (s : State) : (modExc n f s).stone = s.stone := rfl
@[simp] theorem modExc_power (n : Nat) (f : Exc → Exc) (s : State) : (modExc n f s).power = s.power := rfl
@[simp] theorem modExc_steward (n : Nat) (f : Exc → Exc) (s : State) : (modExc n f s).steward = s.steward := rfl
@[simp] theorem modExc_rings (n : Nat) (f : Exc → Exc) (s : State) : (modExc n f s).rings = s.rings := rfl
@[simp] theorem modExc_bunch (n : Nat) (f : Exc → Exc) (s : State) : (modExc n f s).bunch = s.bunch := rfl
@[simp] theorem modExc_clock (n : Nat) (f : Exc → Exc) (s : State) : (modExc n f s).clock = s.clock := rfl
@[simp] theorem modExc_time (n : Nat) (f : Exc → Exc) (s : State) : (modExc n f s).time = s.time := rfl
@[simp] theorem modExc_rf (n : Nat) (f : Exc → Exc) (s : State) : (modExc n f s).rf = s.rf := rfl
@[simp] theorem modExc_orx (n : Nat) (f : Exc → Exc) (s : State) : (modExc n f s).orx = s.orx := rfl
@[simp] theorem modExc_ddc (n : Nat) (f : Exc → Exc) (s : State) : (modExc n f s).ddc = s.ddc := rfl
@[simp] theorem modExc_spec (n : Nat) (f : Exc → Exc) (s : State) : (modExc n f s).spec = s.spec := rfl
@[simp] theorem modExc_bloom (n : Nat) (f : Exc → Exc) (s : State) : (modExc n f s).bloom = s.bloom := rfl
@[simp] theorem modExc_trig (n : Nat) (f : Exc → Exc) (s : State) : (modExc n f s).trig = s.trig := rfl
@[simp] theorem modExc_lineLog (n : Nat) (f : Exc → Exc) (s : State) : (modExc n f s).lineLog = s.lineLog := rfl
@[simp] theorem modExc_trigIn (n : Nat) (f : Exc → Exc) (s : State) : (modExc n f s).trigIn = s.trigIn := rfl
@[simp] theorem modExc_cap (n : Nat) (f : Exc → Exc) (s : State) : (modExc n f s).cap = s.cap := rfl
@[simp] theorem modExc_gen (n : Nat) (f : Exc → Exc) (s : State) : (modExc n f s).gen = s.gen := rfl
@[simp] theorem modExc_route (n : Nat) (f : Exc → Exc) (s : State) : (modExc n f s).route = s.route := rfl
@[simp] theorem modExc_laser (n : Nat) (f : Exc → Exc) (s : State) : (modExc n f s).laser = s.laser := rfl
@[simp] theorem modExc_fibre (n : Nat) (f : Exc → Exc) (s : State) : (modExc n f s).fibre = s.fibre := rfl
@[simp] theorem modExc_slow (n : Nat) (f : Exc → Exc) (s : State) : (modExc n f s).slow = s.slow := rfl
@[simp] theorem modExc_dma (n : Nat) (f : Exc → Exc) (s : State) : (modExc n f s).dma = s.dma := rfl
@[simp] theorem modExc_memCtl (n : Nat) (f : Exc → Exc) (s : State) : (modExc n f s).memCtl = s.memCtl := rfl
@[simp] theorem modExc_pcie (n : Nat) (f : Exc → Exc) (s : State) : (modExc n f s).pcie = s.pcie := rfl
@[simp] theorem modExc_port (n : Nat) (f : Exc → Exc) (s : State) : (modExc n f s).port = s.port := rfl
@[simp] theorem modExc_endpoint (n : Nat) (f : Exc → Exc) (s : State) : (modExc n f s).endpoint = s.endpoint := rfl
@[simp] theorem modExc_disp (n : Nat) (f : Exc → Exc) (s : State) : (modExc n f s).disp = s.disp := rfl
@[simp] theorem modExc_health (n : Nat) (f : Exc → Exc) (s : State) : (modExc n f s).health = s.health := rfl
@[simp] theorem modExc_host (n : Nat) (f : Exc → Exc) (s : State) : (modExc n f s).host = s.host := rfl
@[simp] theorem modExc_dram (n : Nat) (f : Exc → Exc) (s : State) : (modExc n f s).dram = s.dram := rfl
@[simp] theorem modExc_sram (n : Nat) (f : Exc → Exc) (s : State) : (modExc n f s).sram = s.sram := rfl
@[simp] theorem modExc_freeCount (n : Nat) (f : Exc → Exc) (s : State) : (modExc n f s).freeCount = s.freeCount := rfl
@[simp] theorem modExc_pending (n : Nat) (f : Exc → Exc) (s : State) : (modExc n f s).pending = s.pending := rfl
@[simp] theorem modChan_dt (n : Nat) (f : Channel → Channel) (s : State) : (modChan n f s).dt = s.dt := rfl
@[simp] theorem modChan_fuse (n : Nat) (f : Channel → Channel) (s : State) : (modChan n f s).fuse = s.fuse := rfl
@[simp] theorem modChan_stone (n : Nat) (f : Channel → Channel) (s : State) : (modChan n f s).stone = s.stone := rfl
@[simp] theorem modChan_power (n : Nat) (f : Channel → Channel) (s : State) : (modChan n f s).power = s.power := rfl
@[simp] theorem modChan_steward (n : Nat) (f : Channel → Channel) (s : State) : (modChan n f s).steward = s.steward := rfl
@[simp] theorem modChan_rings (n : Nat) (f : Channel → Channel) (s : State) : (modChan n f s).rings = s.rings := rfl
@[simp] theorem modChan_bunch (n : Nat) (f : Channel → Channel) (s : State) : (modChan n f s).bunch = s.bunch := rfl
@[simp] theorem modChan_clock (n : Nat) (f : Channel → Channel) (s : State) : (modChan n f s).clock = s.clock := rfl
@[simp] theorem modChan_time (n : Nat) (f : Channel → Channel) (s : State) : (modChan n f s).time = s.time := rfl
@[simp] theorem modChan_rf (n : Nat) (f : Channel → Channel) (s : State) : (modChan n f s).rf = s.rf := rfl
@[simp] theorem modChan_orx (n : Nat) (f : Channel → Channel) (s : State) : (modChan n f s).orx = s.orx := rfl
@[simp] theorem modChan_ddc (n : Nat) (f : Channel → Channel) (s : State) : (modChan n f s).ddc = s.ddc := rfl
@[simp] theorem modChan_spec (n : Nat) (f : Channel → Channel) (s : State) : (modChan n f s).spec = s.spec := rfl
@[simp] theorem modChan_bloom (n : Nat) (f : Channel → Channel) (s : State) : (modChan n f s).bloom = s.bloom := rfl
@[simp] theorem modChan_trig (n : Nat) (f : Channel → Channel) (s : State) : (modChan n f s).trig = s.trig := rfl
@[simp] theorem modChan_lineLog (n : Nat) (f : Channel → Channel) (s : State) : (modChan n f s).lineLog = s.lineLog := rfl
@[simp] theorem modChan_trigIn (n : Nat) (f : Channel → Channel) (s : State) : (modChan n f s).trigIn = s.trigIn := rfl
@[simp] theorem modChan_cap (n : Nat) (f : Channel → Channel) (s : State) : (modChan n f s).cap = s.cap := rfl
@[simp] theorem modChan_gen (n : Nat) (f : Channel → Channel) (s : State) : (modChan n f s).gen = s.gen := rfl
@[simp] theorem modChan_route (n : Nat) (f : Channel → Channel) (s : State) : (modChan n f s).route = s.route := rfl
@[simp] theorem modChan_laser (n : Nat) (f : Channel → Channel) (s : State) : (modChan n f s).laser = s.laser := rfl
@[simp] theorem modChan_fibre (n : Nat) (f : Channel → Channel) (s : State) : (modChan n f s).fibre = s.fibre := rfl
@[simp] theorem modChan_slow (n : Nat) (f : Channel → Channel) (s : State) : (modChan n f s).slow = s.slow := rfl
@[simp] theorem modChan_exc (n : Nat) (f : Channel → Channel) (s : State) : (modChan n f s).exc = s.exc := rfl
@[simp] theorem modChan_memCtl (n : Nat) (f : Channel → Channel) (s : State) : (modChan n f s).memCtl = s.memCtl := rfl
@[simp] theorem modChan_pcie (n : Nat) (f : Channel → Channel) (s : State) : (modChan n f s).pcie = s.pcie := rfl
@[simp] theorem modChan_port (n : Nat) (f : Channel → Channel) (s : State) : (modChan n f s).port = s.port := rfl
@[simp] theorem modChan_endpoint (n : Nat) (f : Channel → Channel) (s : State) : (modChan n f s).endpoint = s.endpoint := rfl
@[simp] theorem modChan_disp (n : Nat) (f : Channel → Channel) (s : State) : (modChan n f s).disp = s.disp := rfl
@[simp] theorem modChan_health (n : Nat) (f : Channel → Channel) (s : State) : (modChan n f s).health = s.health := rfl
@[simp] theorem modChan_host (n : Nat) (f : Channel → Channel) (s : State) : (modChan n f s).host = s.host := rfl
@[simp] theorem modChan_dram (n : Nat) (f : Channel → Channel) (s : State) : (modChan n f s).dram = s.dram := rfl
@[simp] theorem modChan_sram (n : Nat) (f : Channel → Channel) (s : State) : (modChan n f s).sram = s.sram := rfl
@[simp] theorem modChan_freeCount (n : Nat) (f : Channel → Channel) (s : State) : (modChan n f s).freeCount = s.freeCount := rfl
@[simp] theorem modChan_pending (n : Nat) (f : Channel → Channel) (s : State) : (modChan n f s).pending = s.pending := rfl
@[simp] theorem modPort_dt (n : Nat) (f : Port → Port) (s : State) : (modPort n f s).dt = s.dt := rfl
@[simp] theorem modPort_fuse (n : Nat) (f : Port → Port) (s : State) : (modPort n f s).fuse = s.fuse := rfl
@[simp] theorem modPort_stone (n : Nat) (f : Port → Port) (s : State) : (modPort n f s).stone = s.stone := rfl
@[simp] theorem modPort_power (n : Nat) (f : Port → Port) (s : State) : (modPort n f s).power = s.power := rfl
@[simp] theorem modPort_steward (n : Nat) (f : Port → Port) (s : State) : (modPort n f s).steward = s.steward := rfl
@[simp] theorem modPort_rings (n : Nat) (f : Port → Port) (s : State) : (modPort n f s).rings = s.rings := rfl
@[simp] theorem modPort_bunch (n : Nat) (f : Port → Port) (s : State) : (modPort n f s).bunch = s.bunch := rfl
@[simp] theorem modPort_clock (n : Nat) (f : Port → Port) (s : State) : (modPort n f s).clock = s.clock := rfl
@[simp] theorem modPort_time (n : Nat) (f : Port → Port) (s : State) : (modPort n f s).time = s.time := rfl
@[simp] theorem modPort_rf (n : Nat) (f : Port → Port) (s : State) : (modPort n f s).rf = s.rf := rfl
@[simp] theorem modPort_orx (n : Nat) (f : Port → Port) (s : State) : (modPort n f s).orx = s.orx := rfl
@[simp] theorem modPort_ddc (n : Nat) (f : Port → Port) (s : State) : (modPort n f s).ddc = s.ddc := rfl
@[simp] theorem modPort_spec (n : Nat) (f : Port → Port) (s : State) : (modPort n f s).spec = s.spec := rfl
@[simp] theorem modPort_bloom (n : Nat) (f : Port → Port) (s : State) : (modPort n f s).bloom = s.bloom := rfl
@[simp] theorem modPort_trig (n : Nat) (f : Port → Port) (s : State) : (modPort n f s).trig = s.trig := rfl
@[simp] theorem modPort_lineLog (n : Nat) (f : Port → Port) (s : State) : (modPort n f s).lineLog = s.lineLog := rfl
@[simp] theorem modPort_trigIn (n : Nat) (f : Port → Port) (s : State) : (modPort n f s).trigIn = s.trigIn := rfl
@[simp] theorem modPort_cap (n : Nat) (f : Port → Port) (s : State) : (modPort n f s).cap = s.cap := rfl
@[simp] theorem modPort_gen (n : Nat) (f : Port → Port) (s : State) : (modPort n f s).gen = s.gen := rfl
@[simp] theorem modPort_route (n : Nat) (f : Port → Port) (s : State) : (modPort n f s).route = s.route := rfl
@[simp] theorem modPort_laser (n : Nat) (f : Port → Port) (s : State) : (modPort n f s).laser = s.laser := rfl
@[simp] theorem modPort_fibre (n : Nat) (f : Port → Port) (s : State) : (modPort n f s).fibre = s.fibre := rfl
@[simp] theorem modPort_slow (n : Nat) (f : Port → Port) (s : State) : (modPort n f s).slow = s.slow := rfl
@[simp] theorem modPort_exc (n : Nat) (f : Port → Port) (s : State) : (modPort n f s).exc = s.exc := rfl
@[simp] theorem modPort_dma (n : Nat) (f : Port → Port) (s : State) : (modPort n f s).dma = s.dma := rfl
@[simp] theorem modPort_memCtl (n : Nat) (f : Port → Port) (s : State) : (modPort n f s).memCtl = s.memCtl := rfl
@[simp] theorem modPort_pcie (n : Nat) (f : Port → Port) (s : State) : (modPort n f s).pcie = s.pcie := rfl
@[simp] theorem modPort_endpoint (n : Nat) (f : Port → Port) (s : State) : (modPort n f s).endpoint = s.endpoint := rfl
@[simp] theorem modPort_disp (n : Nat) (f : Port → Port) (s : State) : (modPort n f s).disp = s.disp := rfl
@[simp] theorem modPort_health (n : Nat) (f : Port → Port) (s : State) : (modPort n f s).health = s.health := rfl
@[simp] theorem modPort_host (n : Nat) (f : Port → Port) (s : State) : (modPort n f s).host = s.host := rfl
@[simp] theorem modPort_dram (n : Nat) (f : Port → Port) (s : State) : (modPort n f s).dram = s.dram := rfl
@[simp] theorem modPort_sram (n : Nat) (f : Port → Port) (s : State) : (modPort n f s).sram = s.sram := rfl
@[simp] theorem modPort_freeCount (n : Nat) (f : Port → Port) (s : State) : (modPort n f s).freeCount = s.freeCount := rfl
@[simp] theorem modPort_pending (n : Nat) (f : Port → Port) (s : State) : (modPort n f s).pending = s.pending := rfl
@[simp] theorem modPip_dt (n : Nat) (f : Core → Core) (s : State) : (modPip n f s).dt = s.dt := rfl
@[simp] theorem modPip_fuse (n : Nat) (f : Core → Core) (s : State) : (modPip n f s).fuse = s.fuse := rfl
@[simp] theorem modPip_stone (n : Nat) (f : Core → Core) (s : State) : (modPip n f s).stone = s.stone := rfl
@[simp] theorem modPip_power (n : Nat) (f : Core → Core) (s : State) : (modPip n f s).power = s.power := rfl
@[simp] theorem modPip_steward (n : Nat) (f : Core → Core) (s : State) : (modPip n f s).steward = s.steward := rfl
@[simp] theorem modPip_rings (n : Nat) (f : Core → Core) (s : State) : (modPip n f s).rings = s.rings := rfl
@[simp] theorem modPip_bunch (n : Nat) (f : Core → Core) (s : State) : (modPip n f s).bunch = s.bunch := rfl
@[simp] theorem modPip_clock (n : Nat) (f : Core → Core) (s : State) : (modPip n f s).clock = s.clock := rfl
@[simp] theorem modPip_time (n : Nat) (f : Core → Core) (s : State) : (modPip n f s).time = s.time := rfl
@[simp] theorem modPip_rf (n : Nat) (f : Core → Core) (s : State) : (modPip n f s).rf = s.rf := rfl
@[simp] theorem modPip_orx (n : Nat) (f : Core → Core) (s : State) : (modPip n f s).orx = s.orx := rfl
@[simp] theorem modPip_ddc (n : Nat) (f : Core → Core) (s : State) : (modPip n f s).ddc = s.ddc := rfl
@[simp] theorem modPip_spec (n : Nat) (f : Core → Core) (s : State) : (modPip n f s).spec = s.spec := rfl
@[simp] theorem modPip_bloom (n : Nat) (f : Core → Core) (s : State) : (modPip n f s).bloom = s.bloom := rfl
@[simp] theorem modPip_trig (n : Nat) (f : Core → Core) (s : State) : (modPip n f s).trig = s.trig := rfl
@[simp] theorem modPip_lineLog (n : Nat) (f : Core → Core) (s : State) : (modPip n f s).lineLog = s.lineLog := rfl
@[simp] theorem modPip_trigIn (n : Nat) (f : Core → Core) (s : State) : (modPip n f s).trigIn = s.trigIn := rfl
@[simp] theorem modPip_cap (n : Nat) (f : Core → Core) (s : State) : (modPip n f s).cap = s.cap := rfl
@[simp] theorem modPip_gen (n : Nat) (f : Core → Core) (s : State) : (modPip n f s).gen = s.gen := rfl
@[simp] theorem modPip_route (n : Nat) (f : Core → Core) (s : State) : (modPip n f s).route = s.route := rfl
@[simp] theorem modPip_laser (n : Nat) (f : Core → Core) (s : State) : (modPip n f s).laser = s.laser := rfl
@[simp] theorem modPip_fibre (n : Nat) (f : Core → Core) (s : State) : (modPip n f s).fibre = s.fibre := rfl
@[simp] theorem modPip_slow (n : Nat) (f : Core → Core) (s : State) : (modPip n f s).slow = s.slow := rfl
@[simp] theorem modPip_exc (n : Nat) (f : Core → Core) (s : State) : (modPip n f s).exc = s.exc := rfl
@[simp] theorem modPip_dma (n : Nat) (f : Core → Core) (s : State) : (modPip n f s).dma = s.dma := rfl
@[simp] theorem modPip_memCtl (n : Nat) (f : Core → Core) (s : State) : (modPip n f s).memCtl = s.memCtl := rfl
@[simp] theorem modPip_pcie (n : Nat) (f : Core → Core) (s : State) : (modPip n f s).pcie = s.pcie := rfl
@[simp] theorem modPip_port (n : Nat) (f : Core → Core) (s : State) : (modPip n f s).port = s.port := rfl
@[simp] theorem modPip_endpoint (n : Nat) (f : Core → Core) (s : State) : (modPip n f s).endpoint = s.endpoint := rfl
@[simp] theorem modPip_disp (n : Nat) (f : Core → Core) (s : State) : (modPip n f s).disp = s.disp := rfl
@[simp] theorem modPip_host (n : Nat) (f : Core → Core) (s : State) : (modPip n f s).host = s.host := rfl
@[simp] theorem modPip_dram (n : Nat) (f : Core → Core) (s : State) : (modPip n f s).dram = s.dram := rfl
@[simp] theorem modPip_sram (n : Nat) (f : Core → Core) (s : State) : (modPip n f s).sram = s.sram := rfl
@[simp] theorem modPip_freeCount (n : Nat) (f : Core → Core) (s : State) : (modPip n f s).freeCount = s.freeCount := rfl
@[simp] theorem modPip_pending (n : Nat) (f : Core → Core) (s : State) : (modPip n f s).pending = s.pending := rfl
@[simp] theorem modCurrant_dt (n : Nat) (f : Core → Core) (s : State) : (modCurrant n f s).dt = s.dt := rfl
@[simp] theorem modCurrant_fuse (n : Nat) (f : Core → Core) (s : State) : (modCurrant n f s).fuse = s.fuse := rfl
@[simp] theorem modCurrant_stone (n : Nat) (f : Core → Core) (s : State) : (modCurrant n f s).stone = s.stone := rfl
@[simp] theorem modCurrant_power (n : Nat) (f : Core → Core) (s : State) : (modCurrant n f s).power = s.power := rfl
@[simp] theorem modCurrant_steward (n : Nat) (f : Core → Core) (s : State) : (modCurrant n f s).steward = s.steward := rfl
@[simp] theorem modCurrant_rings (n : Nat) (f : Core → Core) (s : State) : (modCurrant n f s).rings = s.rings := rfl
@[simp] theorem modCurrant_bunch (n : Nat) (f : Core → Core) (s : State) : (modCurrant n f s).bunch = s.bunch := rfl
@[simp] theorem modCurrant_clock (n : Nat) (f : Core → Core) (s : State) : (modCurrant n f s).clock = s.clock := rfl
@[simp] theorem modCurrant_time (n : Nat) (f : Core → Core) (s : State) : (modCurrant n f s).time = s.time := rfl
@[simp] theorem modCurrant_rf (n : Nat) (f : Core → Core) (s : State) : (modCurrant n f s).rf = s.rf := rfl
@[simp] theorem modCurrant_orx (n : Nat) (f : Core → Core) (s : State) : (modCurrant n f s).orx = s.orx := rfl
@[simp] theorem modCurrant_ddc (n : Nat) (f : Core → Core) (s : State) : (modCurrant n f s).ddc = s.ddc := rfl
@[simp] theorem modCurrant_spec (n : Nat) (f : Core → Core) (s : State) : (modCurrant n f s).spec = s.spec := rfl
@[simp] theorem modCurrant_bloom (n : Nat) (f : Core → Core) (s : State) : (modCurrant n f s).bloom = s.bloom := rfl
@[simp] theorem modCurrant_trig (n : Nat) (f : Core → Core) (s : State) : (modCurrant n f s).trig = s.trig := rfl
@[simp] theorem modCurrant_lineLog (n : Nat) (f : Core → Core) (s : State) : (modCurrant n f s).lineLog = s.lineLog := rfl
@[simp] theorem modCurrant_trigIn (n : Nat) (f : Core → Core) (s : State) : (modCurrant n f s).trigIn = s.trigIn := rfl
@[simp] theorem modCurrant_cap (n : Nat) (f : Core → Core) (s : State) : (modCurrant n f s).cap = s.cap := rfl
@[simp] theorem modCurrant_gen (n : Nat) (f : Core → Core) (s : State) : (modCurrant n f s).gen = s.gen := rfl
@[simp] theorem modCurrant_route (n : Nat) (f : Core → Core) (s : State) : (modCurrant n f s).route = s.route := rfl
@[simp] theorem modCurrant_laser (n : Nat) (f : Core → Core) (s : State) : (modCurrant n f s).laser = s.laser := rfl
@[simp] theorem modCurrant_fibre (n : Nat) (f : Core → Core) (s : State) : (modCurrant n f s).fibre = s.fibre := rfl
@[simp] theorem modCurrant_slow (n : Nat) (f : Core → Core) (s : State) : (modCurrant n f s).slow = s.slow := rfl
@[simp] theorem modCurrant_exc (n : Nat) (f : Core → Core) (s : State) : (modCurrant n f s).exc = s.exc := rfl
@[simp] theorem modCurrant_dma (n : Nat) (f : Core → Core) (s : State) : (modCurrant n f s).dma = s.dma := rfl
@[simp] theorem modCurrant_memCtl (n : Nat) (f : Core → Core) (s : State) : (modCurrant n f s).memCtl = s.memCtl := rfl
@[simp] theorem modCurrant_pcie (n : Nat) (f : Core → Core) (s : State) : (modCurrant n f s).pcie = s.pcie := rfl
@[simp] theorem modCurrant_port (n : Nat) (f : Core → Core) (s : State) : (modCurrant n f s).port = s.port := rfl
@[simp] theorem modCurrant_endpoint (n : Nat) (f : Core → Core) (s : State) : (modCurrant n f s).endpoint = s.endpoint := rfl
@[simp] theorem modCurrant_disp (n : Nat) (f : Core → Core) (s : State) : (modCurrant n f s).disp = s.disp := rfl
@[simp] theorem modCurrant_host (n : Nat) (f : Core → Core) (s : State) : (modCurrant n f s).host = s.host := rfl
@[simp] theorem modCurrant_dram (n : Nat) (f : Core → Core) (s : State) : (modCurrant n f s).dram = s.dram := rfl
@[simp] theorem modCurrant_sram (n : Nat) (f : Core → Core) (s : State) : (modCurrant n f s).sram = s.sram := rfl
@[simp] theorem modCurrant_freeCount (n : Nat) (f : Core → Core) (s : State) : (modCurrant n f s).freeCount = s.freeCount := rfl
@[simp] theorem modCurrant_pending (n : Nat) (f : Core → Core) (s : State) : (modCurrant n f s).pending = s.pending := rfl
@[simp] theorem modSlow_dt (f : Slow → Slow) (s : State) : (modSlow f s).dt = s.dt := rfl
@[simp] theorem modSlow_fuse (f : Slow → Slow) (s : State) : (modSlow f s).fuse = s.fuse := rfl
@[simp] theorem modSlow_stone (f : Slow → Slow) (s : State) : (modSlow f s).stone = s.stone := rfl
@[simp] theorem modSlow_power (f : Slow → Slow) (s : State) : (modSlow f s).power = s.power := rfl
@[simp] theorem modSlow_steward (f : Slow → Slow) (s : State) : (modSlow f s).steward = s.steward := rfl
@[simp] theorem modSlow_rings (f : Slow → Slow) (s : State) : (modSlow f s).rings = s.rings := rfl
@[simp] theorem modSlow_bunch (f : Slow → Slow) (s : State) : (modSlow f s).bunch = s.bunch := rfl
@[simp] theorem modSlow_clock (f : Slow → Slow) (s : State) : (modSlow f s).clock = s.clock := rfl
@[simp] theorem modSlow_time (f : Slow → Slow) (s : State) : (modSlow f s).time = s.time := rfl
@[simp] theorem modSlow_rf (f : Slow → Slow) (s : State) : (modSlow f s).rf = s.rf := rfl
@[simp] theorem modSlow_orx (f : Slow → Slow) (s : State) : (modSlow f s).orx = s.orx := rfl
@[simp] theorem modSlow_ddc (f : Slow → Slow) (s : State) : (modSlow f s).ddc = s.ddc := rfl
@[simp] theorem modSlow_spec (f : Slow → Slow) (s : State) : (modSlow f s).spec = s.spec := rfl
@[simp] theorem modSlow_bloom (f : Slow → Slow) (s : State) : (modSlow f s).bloom = s.bloom := rfl
@[simp] theorem modSlow_trig (f : Slow → Slow) (s : State) : (modSlow f s).trig = s.trig := rfl
@[simp] theorem modSlow_lineLog (f : Slow → Slow) (s : State) : (modSlow f s).lineLog = s.lineLog := rfl
@[simp] theorem modSlow_trigIn (f : Slow → Slow) (s : State) : (modSlow f s).trigIn = s.trigIn := rfl
@[simp] theorem modSlow_cap (f : Slow → Slow) (s : State) : (modSlow f s).cap = s.cap := rfl
@[simp] theorem modSlow_gen (f : Slow → Slow) (s : State) : (modSlow f s).gen = s.gen := rfl
@[simp] theorem modSlow_route (f : Slow → Slow) (s : State) : (modSlow f s).route = s.route := rfl
@[simp] theorem modSlow_laser (f : Slow → Slow) (s : State) : (modSlow f s).laser = s.laser := rfl
@[simp] theorem modSlow_fibre (f : Slow → Slow) (s : State) : (modSlow f s).fibre = s.fibre := rfl
@[simp] theorem modSlow_exc (f : Slow → Slow) (s : State) : (modSlow f s).exc = s.exc := rfl
@[simp] theorem modSlow_dma (f : Slow → Slow) (s : State) : (modSlow f s).dma = s.dma := rfl
@[simp] theorem modSlow_memCtl (f : Slow → Slow) (s : State) : (modSlow f s).memCtl = s.memCtl := rfl
@[simp] theorem modSlow_pcie (f : Slow → Slow) (s : State) : (modSlow f s).pcie = s.pcie := rfl
@[simp] theorem modSlow_port (f : Slow → Slow) (s : State) : (modSlow f s).port = s.port := rfl
@[simp] theorem modSlow_endpoint (f : Slow → Slow) (s : State) : (modSlow f s).endpoint = s.endpoint := rfl
@[simp] theorem modSlow_disp (f : Slow → Slow) (s : State) : (modSlow f s).disp = s.disp := rfl
@[simp] theorem modSlow_health (f : Slow → Slow) (s : State) : (modSlow f s).health = s.health := rfl
@[simp] theorem modSlow_host (f : Slow → Slow) (s : State) : (modSlow f s).host = s.host := rfl
@[simp] theorem modSlow_dram (f : Slow → Slow) (s : State) : (modSlow f s).dram = s.dram := rfl
@[simp] theorem modSlow_sram (f : Slow → Slow) (s : State) : (modSlow f s).sram = s.sram := rfl
@[simp] theorem modSlow_freeCount (f : Slow → Slow) (s : State) : (modSlow f s).freeCount = s.freeCount := rfl
@[simp] theorem modSlow_pending (f : Slow → Slow) (s : State) : (modSlow f s).pending = s.pending := rfl
@[simp] theorem modStone_dt (f : Stone → Stone) (s : State) : (modStone f s).dt = s.dt := rfl
@[simp] theorem modStone_fuse (f : Stone → Stone) (s : State) : (modStone f s).fuse = s.fuse := rfl
@[simp] theorem modStone_power (f : Stone → Stone) (s : State) : (modStone f s).power = s.power := rfl
@[simp] theorem modStone_steward (f : Stone → Stone) (s : State) : (modStone f s).steward = s.steward := rfl
@[simp] theorem modStone_rings (f : Stone → Stone) (s : State) : (modStone f s).rings = s.rings := rfl
@[simp] theorem modStone_bunch (f : Stone → Stone) (s : State) : (modStone f s).bunch = s.bunch := rfl
@[simp] theorem modStone_clock (f : Stone → Stone) (s : State) : (modStone f s).clock = s.clock := rfl
@[simp] theorem modStone_time (f : Stone → Stone) (s : State) : (modStone f s).time = s.time := rfl
@[simp] theorem modStone_rf (f : Stone → Stone) (s : State) : (modStone f s).rf = s.rf := rfl
@[simp] theorem modStone_orx (f : Stone → Stone) (s : State) : (modStone f s).orx = s.orx := rfl
@[simp] theorem modStone_ddc (f : Stone → Stone) (s : State) : (modStone f s).ddc = s.ddc := rfl
@[simp] theorem modStone_spec (f : Stone → Stone) (s : State) : (modStone f s).spec = s.spec := rfl
@[simp] theorem modStone_bloom (f : Stone → Stone) (s : State) : (modStone f s).bloom = s.bloom := rfl
@[simp] theorem modStone_trig (f : Stone → Stone) (s : State) : (modStone f s).trig = s.trig := rfl
@[simp] theorem modStone_lineLog (f : Stone → Stone) (s : State) : (modStone f s).lineLog = s.lineLog := rfl
@[simp] theorem modStone_trigIn (f : Stone → Stone) (s : State) : (modStone f s).trigIn = s.trigIn := rfl
@[simp] theorem modStone_cap (f : Stone → Stone) (s : State) : (modStone f s).cap = s.cap := rfl
@[simp] theorem modStone_gen (f : Stone → Stone) (s : State) : (modStone f s).gen = s.gen := rfl
@[simp] theorem modStone_route (f : Stone → Stone) (s : State) : (modStone f s).route = s.route := rfl
@[simp] theorem modStone_laser (f : Stone → Stone) (s : State) : (modStone f s).laser = s.laser := rfl
@[simp] theorem modStone_fibre (f : Stone → Stone) (s : State) : (modStone f s).fibre = s.fibre := rfl
@[simp] theorem modStone_slow (f : Stone → Stone) (s : State) : (modStone f s).slow = s.slow := rfl
@[simp] theorem modStone_exc (f : Stone → Stone) (s : State) : (modStone f s).exc = s.exc := rfl
@[simp] theorem modStone_dma (f : Stone → Stone) (s : State) : (modStone f s).dma = s.dma := rfl
@[simp] theorem modStone_memCtl (f : Stone → Stone) (s : State) : (modStone f s).memCtl = s.memCtl := rfl
@[simp] theorem modStone_pcie (f : Stone → Stone) (s : State) : (modStone f s).pcie = s.pcie := rfl
@[simp] theorem modStone_port (f : Stone → Stone) (s : State) : (modStone f s).port = s.port := rfl
@[simp] theorem modStone_endpoint (f : Stone → Stone) (s : State) : (modStone f s).endpoint = s.endpoint := rfl
@[simp] theorem modStone_disp (f : Stone → Stone) (s : State) : (modStone f s).disp = s.disp := rfl
@[simp] theorem modStone_health (f : Stone → Stone) (s : State) : (modStone f s).health = s.health := rfl
@[simp] theorem modStone_host (f : Stone → Stone) (s : State) : (modStone f s).host = s.host := rfl
@[simp] theorem modStone_dram (f : Stone → Stone) (s : State) : (modStone f s).dram = s.dram := rfl
@[simp] theorem modStone_sram (f : Stone → Stone) (s : State) : (modStone f s).sram = s.sram := rfl
@[simp] theorem modStone_freeCount (f : Stone → Stone) (s : State) : (modStone f s).freeCount = s.freeCount := rfl
@[simp] theorem modStone_pending (f : Stone → Stone) (s : State) : (modStone f s).pending = s.pending := rfl
@[simp] theorem modDisp_dt (f : Display → Display) (s : State) : (modDisp f s).dt = s.dt := rfl
@[simp] theorem modDisp_fuse (f : Display → Display) (s : State) : (modDisp f s).fuse = s.fuse := rfl
@[simp] theorem modDisp_stone (f : Display → Display) (s : State) : (modDisp f s).stone = s.stone := rfl
@[simp] theorem modDisp_power (f : Display → Display) (s : State) : (modDisp f s).power = s.power := rfl
@[simp] theorem modDisp_steward (f : Display → Display) (s : State) : (modDisp f s).steward = s.steward := rfl
@[simp] theorem modDisp_rings (f : Display → Display) (s : State) : (modDisp f s).rings = s.rings := rfl
@[simp] theorem modDisp_bunch (f : Display → Display) (s : State) : (modDisp f s).bunch = s.bunch := rfl
@[simp] theorem modDisp_clock (f : Display → Display) (s : State) : (modDisp f s).clock = s.clock := rfl
@[simp] theorem modDisp_time (f : Display → Display) (s : State) : (modDisp f s).time = s.time := rfl
@[simp] theorem modDisp_rf (f : Display → Display) (s : State) : (modDisp f s).rf = s.rf := rfl
@[simp] theorem modDisp_orx (f : Display → Display) (s : State) : (modDisp f s).orx = s.orx := rfl
@[simp] theorem modDisp_ddc (f : Display → Display) (s : State) : (modDisp f s).ddc = s.ddc := rfl
@[simp] theorem modDisp_spec (f : Display → Display) (s : State) : (modDisp f s).spec = s.spec := rfl
@[simp] theorem modDisp_bloom (f : Display → Display) (s : State) : (modDisp f s).bloom = s.bloom := rfl
@[simp] theorem modDisp_trig (f : Display → Display) (s : State) : (modDisp f s).trig = s.trig := rfl
@[simp] theorem modDisp_lineLog (f : Display → Display) (s : State) : (modDisp f s).lineLog = s.lineLog := rfl
@[simp] theorem modDisp_trigIn (f : Display → Display) (s : State) : (modDisp f s).trigIn = s.trigIn := rfl
@[simp] theorem modDisp_cap (f : Display → Display) (s : State) : (modDisp f s).cap = s.cap := rfl
@[simp] theorem modDisp_gen (f : Display → Display) (s : State) : (modDisp f s).gen = s.gen := rfl
@[simp] theorem modDisp_route (f : Display → Display) (s : State) : (modDisp f s).route = s.route := rfl
@[simp] theorem modDisp_laser (f : Display → Display) (s : State) : (modDisp f s).laser = s.laser := rfl
@[simp] theorem modDisp_fibre (f : Display → Display) (s : State) : (modDisp f s).fibre = s.fibre := rfl
@[simp] theorem modDisp_slow (f : Display → Display) (s : State) : (modDisp f s).slow = s.slow := rfl
@[simp] theorem modDisp_exc (f : Display → Display) (s : State) : (modDisp f s).exc = s.exc := rfl
@[simp] theorem modDisp_dma (f : Display → Display) (s : State) : (modDisp f s).dma = s.dma := rfl
@[simp] theorem modDisp_memCtl (f : Display → Display) (s : State) : (modDisp f s).memCtl = s.memCtl := rfl
@[simp] theorem modDisp_pcie (f : Display → Display) (s : State) : (modDisp f s).pcie = s.pcie := rfl
@[simp] theorem modDisp_port (f : Display → Display) (s : State) : (modDisp f s).port = s.port := rfl
@[simp] theorem modDisp_endpoint (f : Display → Display) (s : State) : (modDisp f s).endpoint = s.endpoint := rfl
@[simp] theorem modDisp_health (f : Display → Display) (s : State) : (modDisp f s).health = s.health := rfl
@[simp] theorem modDisp_host (f : Display → Display) (s : State) : (modDisp f s).host = s.host := rfl
@[simp] theorem modDisp_dram (f : Display → Display) (s : State) : (modDisp f s).dram = s.dram := rfl
@[simp] theorem modDisp_sram (f : Display → Display) (s : State) : (modDisp f s).sram = s.sram := rfl
@[simp] theorem modDisp_freeCount (f : Display → Display) (s : State) : (modDisp f s).freeCount = s.freeCount := rfl
@[simp] theorem modDisp_pending (f : Display → Display) (s : State) : (modDisp f s).pending = s.pending := rfl
@[simp] theorem modMem_dt (f : MemCtl → MemCtl) (s : State) : (modMem f s).dt = s.dt := rfl
@[simp] theorem modMem_fuse (f : MemCtl → MemCtl) (s : State) : (modMem f s).fuse = s.fuse := rfl
@[simp] theorem modMem_stone (f : MemCtl → MemCtl) (s : State) : (modMem f s).stone = s.stone := rfl
@[simp] theorem modMem_power (f : MemCtl → MemCtl) (s : State) : (modMem f s).power = s.power := rfl
@[simp] theorem modMem_steward (f : MemCtl → MemCtl) (s : State) : (modMem f s).steward = s.steward := rfl
@[simp] theorem modMem_rings (f : MemCtl → MemCtl) (s : State) : (modMem f s).rings = s.rings := rfl
@[simp] theorem modMem_bunch (f : MemCtl → MemCtl) (s : State) : (modMem f s).bunch = s.bunch := rfl
@[simp] theorem modMem_clock (f : MemCtl → MemCtl) (s : State) : (modMem f s).clock = s.clock := rfl
@[simp] theorem modMem_time (f : MemCtl → MemCtl) (s : State) : (modMem f s).time = s.time := rfl
@[simp] theorem modMem_rf (f : MemCtl → MemCtl) (s : State) : (modMem f s).rf = s.rf := rfl
@[simp] theorem modMem_orx (f : MemCtl → MemCtl) (s : State) : (modMem f s).orx = s.orx := rfl
@[simp] theorem modMem_ddc (f : MemCtl → MemCtl) (s : State) : (modMem f s).ddc = s.ddc := rfl
@[simp] theorem modMem_spec (f : MemCtl → MemCtl) (s : State) : (modMem f s).spec = s.spec := rfl
@[simp] theorem modMem_bloom (f : MemCtl → MemCtl) (s : State) : (modMem f s).bloom = s.bloom := rfl
@[simp] theorem modMem_trig (f : MemCtl → MemCtl) (s : State) : (modMem f s).trig = s.trig := rfl
@[simp] theorem modMem_lineLog (f : MemCtl → MemCtl) (s : State) : (modMem f s).lineLog = s.lineLog := rfl
@[simp] theorem modMem_trigIn (f : MemCtl → MemCtl) (s : State) : (modMem f s).trigIn = s.trigIn := rfl
@[simp] theorem modMem_cap (f : MemCtl → MemCtl) (s : State) : (modMem f s).cap = s.cap := rfl
@[simp] theorem modMem_gen (f : MemCtl → MemCtl) (s : State) : (modMem f s).gen = s.gen := rfl
@[simp] theorem modMem_route (f : MemCtl → MemCtl) (s : State) : (modMem f s).route = s.route := rfl
@[simp] theorem modMem_laser (f : MemCtl → MemCtl) (s : State) : (modMem f s).laser = s.laser := rfl
@[simp] theorem modMem_fibre (f : MemCtl → MemCtl) (s : State) : (modMem f s).fibre = s.fibre := rfl
@[simp] theorem modMem_slow (f : MemCtl → MemCtl) (s : State) : (modMem f s).slow = s.slow := rfl
@[simp] theorem modMem_exc (f : MemCtl → MemCtl) (s : State) : (modMem f s).exc = s.exc := rfl
@[simp] theorem modMem_dma (f : MemCtl → MemCtl) (s : State) : (modMem f s).dma = s.dma := rfl
@[simp] theorem modMem_pcie (f : MemCtl → MemCtl) (s : State) : (modMem f s).pcie = s.pcie := rfl
@[simp] theorem modMem_port (f : MemCtl → MemCtl) (s : State) : (modMem f s).port = s.port := rfl
@[simp] theorem modMem_endpoint (f : MemCtl → MemCtl) (s : State) : (modMem f s).endpoint = s.endpoint := rfl
@[simp] theorem modMem_disp (f : MemCtl → MemCtl) (s : State) : (modMem f s).disp = s.disp := rfl
@[simp] theorem modMem_health (f : MemCtl → MemCtl) (s : State) : (modMem f s).health = s.health := rfl
@[simp] theorem modMem_host (f : MemCtl → MemCtl) (s : State) : (modMem f s).host = s.host := rfl
@[simp] theorem modMem_dram (f : MemCtl → MemCtl) (s : State) : (modMem f s).dram = s.dram := rfl
@[simp] theorem modMem_sram (f : MemCtl → MemCtl) (s : State) : (modMem f s).sram = s.sram := rfl
@[simp] theorem modMem_freeCount (f : MemCtl → MemCtl) (s : State) : (modMem f s).freeCount = s.freeCount := rfl
@[simp] theorem modMem_pending (f : MemCtl → MemCtl) (s : State) : (modMem f s).pending = s.pending := rfl

/-! ## DT -/

@[simp] theorem advance_fuse (t : DT) (s : State) : (advance t s).fuse = s.fuse := by unfold advance; split <;> rfl
@[simp] theorem advance_stone (t : DT) (s : State) : (advance t s).stone = s.stone := by unfold advance; split <;> rfl
@[simp] theorem advance_power (t : DT) (s : State) : (advance t s).power = s.power := by unfold advance; split <;> rfl
@[simp] theorem advance_steward (t : DT) (s : State) : (advance t s).steward = s.steward := by unfold advance; split <;> rfl
@[simp] theorem advance_rings (t : DT) (s : State) : (advance t s).rings = s.rings := by unfold advance; split <;> rfl
@[simp] theorem advance_bunch (t : DT) (s : State) : (advance t s).bunch = s.bunch := by unfold advance; split <;> rfl
@[simp] theorem advance_clock (t : DT) (s : State) : (advance t s).clock = s.clock := by unfold advance; split <;> rfl
@[simp] theorem advance_time (t : DT) (s : State) : (advance t s).time = s.time := by unfold advance; split <;> rfl
@[simp] theorem advance_rf (t : DT) (s : State) : (advance t s).rf = s.rf := by unfold advance; split <;> rfl
@[simp] theorem advance_orx (t : DT) (s : State) : (advance t s).orx = s.orx := by unfold advance; split <;> rfl
@[simp] theorem advance_ddc (t : DT) (s : State) : (advance t s).ddc = s.ddc := by unfold advance; split <;> rfl
@[simp] theorem advance_spec (t : DT) (s : State) : (advance t s).spec = s.spec := by unfold advance; split <;> rfl
@[simp] theorem advance_bloom (t : DT) (s : State) : (advance t s).bloom = s.bloom := by unfold advance; split <;> rfl
@[simp] theorem advance_trig (t : DT) (s : State) : (advance t s).trig = s.trig := by unfold advance; split <;> rfl
@[simp] theorem advance_lineLog (t : DT) (s : State) : (advance t s).lineLog = s.lineLog := by unfold advance; split <;> rfl
@[simp] theorem advance_trigIn (t : DT) (s : State) : (advance t s).trigIn = s.trigIn := by unfold advance; split <;> rfl
@[simp] theorem advance_cap (t : DT) (s : State) : (advance t s).cap = s.cap := by unfold advance; split <;> rfl
@[simp] theorem advance_gen (t : DT) (s : State) : (advance t s).gen = s.gen := by unfold advance; split <;> rfl
@[simp] theorem advance_route (t : DT) (s : State) : (advance t s).route = s.route := by unfold advance; split <;> rfl
@[simp] theorem advance_laser (t : DT) (s : State) : (advance t s).laser = s.laser := by unfold advance; split <;> rfl
@[simp] theorem advance_fibre (t : DT) (s : State) : (advance t s).fibre = s.fibre := by unfold advance; split <;> rfl
@[simp] theorem advance_slow (t : DT) (s : State) : (advance t s).slow = s.slow := by unfold advance; split <;> rfl
@[simp] theorem advance_exc (t : DT) (s : State) : (advance t s).exc = s.exc := by unfold advance; split <;> rfl
@[simp] theorem advance_dma (t : DT) (s : State) : (advance t s).dma = s.dma := by unfold advance; split <;> rfl
@[simp] theorem advance_memCtl (t : DT) (s : State) : (advance t s).memCtl = s.memCtl := by unfold advance; split <;> rfl
@[simp] theorem advance_pcie (t : DT) (s : State) : (advance t s).pcie = s.pcie := by unfold advance; split <;> rfl
@[simp] theorem advance_port (t : DT) (s : State) : (advance t s).port = s.port := by unfold advance; split <;> rfl
@[simp] theorem advance_endpoint (t : DT) (s : State) : (advance t s).endpoint = s.endpoint := by unfold advance; split <;> rfl
@[simp] theorem advance_disp (t : DT) (s : State) : (advance t s).disp = s.disp := by unfold advance; split <;> rfl
@[simp] theorem advance_health (t : DT) (s : State) : (advance t s).health = s.health := by unfold advance; split <;> rfl
@[simp] theorem advance_host (t : DT) (s : State) : (advance t s).host = s.host := by unfold advance; split <;> rfl
@[simp] theorem advance_dram (t : DT) (s : State) : (advance t s).dram = s.dram := by unfold advance; split <;> rfl
@[simp] theorem advance_sram (t : DT) (s : State) : (advance t s).sram = s.sram := by unfold advance; split <;> rfl
@[simp] theorem advance_freeCount (t : DT) (s : State) : (advance t s).freeCount = s.freeCount := by unfold advance; split <;> rfl
@[simp] theorem advance_pending (t : DT) (s : State) : (advance t s).pending = s.pending := by unfold advance; split <;> rfl

/-- DT after a command: the later of its own and the present one. -/
theorem advance_dt (t : DT) (s : State) : (advance t s).dt = if dtLe s.dt t then t else s.dt := by unfold advance; split <;> rfl

theorem advance_eq (t : DT) (s : State) : advance t s = { s with dt := if dtLe s.dt t then t else s.dt } := by
  unfold advance; split <;> rfl

/-! ## Numbered parts -/

@[simp] theorem getRing_modRing (n : Nat) (f : Ring → Ring) (s : State) : getRing n (modRing n f s) = f (getRing n s) := tget_tmod_same _ _ _ _
theorem getRing_modRing_other (n k : Nat) (f : Ring → Ring) (s : State) (h : k ≠ n) : getRing k (modRing n f s) = getRing k s := tget_tmod_other _ _ _ _ _ h
theorem getRing_modRing_if (n k : Nat) (f : Ring → Ring) (s : State) : getRing k (modRing n f s) = if k = n then f (getRing n s) else getRing k s := tget_tmod _ _ _ _ _
@[simp] theorem getRing_advance (n : Nat) (t : DT) (s : State) : getRing n (advance t s) = getRing n s := by unfold advance; split <;> rfl
@[simp] theorem getRing_modBunch (k : Nat) (n : Nat) (f : Bunch → Bunch) (s : State) : getRing n (modBunch k f s) = getRing n s := rfl
@[simp] theorem getRing_modPll (k : Nat) (n : Nat) (f : Pll → Pll) (s : State) : getRing n (modPll k f s) = getRing n s := rfl
@[simp] theorem getRing_modRf (k : Nat) (n : Nat) (f : RfChan → RfChan) (s : State) : getRing n (modRf k f s) = getRing n s := rfl
@[simp] theorem getRing_modOrx (k : Nat) (n : Nat) (f : OrxChan → OrxChan) (s : State) : getRing n (modOrx k f s) = getRing n s := rfl
@[simp] theorem getRing_modDdc (k : Nat) (n : Nat) (f : DdcPath → DdcPath) (s : State) : getRing n (modDdc k f s) = getRing n s := rfl
@[simp] theorem getRing_modSpec (k : Nat) (n : Nat) (f : Spectral → Spectral) (s : State) : getRing n (modSpec k f s) = getRing n s := rfl
@[simp] theorem getRing_modBloom (k : Nat) (n : Nat) (f : BloomMap → BloomMap) (s : State) : getRing n (modBloom k f s) = getRing n s := rfl
@[simp] theorem getRing_modTrig (k : Nat) (n : Nat) (f : TrigUnit → TrigUnit) (s : State) : getRing n (modTrig k f s) = getRing n s := rfl
@[simp] theorem getRing_modCap (k : Nat) (n : Nat) (f : Capture → Capture) (s : State) : getRing n (modCap k f s) = getRing n s := rfl
@[simp] theorem getRing_modGen (k : Nat) (n : Nat) (f : Gen → Gen) (s : State) : getRing n (modGen k f s) = getRing n s := rfl
@[simp] theorem getRing_modGov (k : Nat) (n : Nat) (f : Governor → Governor) (s : State) : getRing n (modGov k f s) = getRing n s := rfl
@[simp] theorem getRing_modFibre (k : Nat) (n : Nat) (f : Fibre → Fibre) (s : State) : getRing n (modFibre k f s) = getRing n s := rfl
@[simp] theorem getRing_modExc (k : Nat) (n : Nat) (f : Exc → Exc) (s : State) : getRing n (modExc k f s) = getRing n s := rfl
@[simp] theorem getRing_modChan (k : Nat) (n : Nat) (f : Channel → Channel) (s : State) : getRing n (modChan k f s) = getRing n s := rfl
@[simp] theorem getRing_modPort (k : Nat) (n : Nat) (f : Port → Port) (s : State) : getRing n (modPort k f s) = getRing n s := rfl
@[simp] theorem getRing_modPip (k : Nat) (n : Nat) (f : Core → Core) (s : State) : getRing n (modPip k f s) = getRing n s := rfl
@[simp] theorem getRing_modCurrant (k : Nat) (n : Nat) (f : Core → Core) (s : State) : getRing n (modCurrant k f s) = getRing n s := rfl
@[simp] theorem getRing_modSlow (n : Nat) (f : Slow → Slow) (s : State) : getRing n (modSlow f s) = getRing n s := rfl
@[simp] theorem getRing_modStone (n : Nat) (f : Stone → Stone) (s : State) : getRing n (modStone f s) = getRing n s := rfl
@[simp] theorem getRing_modDisp (n : Nat) (f : Display → Display) (s : State) : getRing n (modDisp f s) = getRing n s := rfl
@[simp] theorem getRing_modMem (n : Nat) (f : MemCtl → MemCtl) (s : State) : getRing n (modMem f s) = getRing n s := rfl
@[simp] theorem getBunch_modBunch (n : Nat) (f : Bunch → Bunch) (s : State) : getBunch n (modBunch n f s) = f (getBunch n s) := tget_tmod_same _ _ _ _
theorem getBunch_modBunch_other (n k : Nat) (f : Bunch → Bunch) (s : State) (h : k ≠ n) : getBunch k (modBunch n f s) = getBunch k s := tget_tmod_other _ _ _ _ _ h
theorem getBunch_modBunch_if (n k : Nat) (f : Bunch → Bunch) (s : State) : getBunch k (modBunch n f s) = if k = n then f (getBunch n s) else getBunch k s := tget_tmod _ _ _ _ _
@[simp] theorem getBunch_advance (n : Nat) (t : DT) (s : State) : getBunch n (advance t s) = getBunch n s := by unfold advance; split <;> rfl
@[simp] theorem getBunch_modRing (k : Nat) (n : Nat) (f : Ring → Ring) (s : State) : getBunch n (modRing k f s) = getBunch n s := rfl
@[simp] theorem getBunch_modPll (k : Nat) (n : Nat) (f : Pll → Pll) (s : State) : getBunch n (modPll k f s) = getBunch n s := rfl
@[simp] theorem getBunch_modRf (k : Nat) (n : Nat) (f : RfChan → RfChan) (s : State) : getBunch n (modRf k f s) = getBunch n s := rfl
@[simp] theorem getBunch_modOrx (k : Nat) (n : Nat) (f : OrxChan → OrxChan) (s : State) : getBunch n (modOrx k f s) = getBunch n s := rfl
@[simp] theorem getBunch_modDdc (k : Nat) (n : Nat) (f : DdcPath → DdcPath) (s : State) : getBunch n (modDdc k f s) = getBunch n s := rfl
@[simp] theorem getBunch_modSpec (k : Nat) (n : Nat) (f : Spectral → Spectral) (s : State) : getBunch n (modSpec k f s) = getBunch n s := rfl
@[simp] theorem getBunch_modBloom (k : Nat) (n : Nat) (f : BloomMap → BloomMap) (s : State) : getBunch n (modBloom k f s) = getBunch n s := rfl
@[simp] theorem getBunch_modTrig (k : Nat) (n : Nat) (f : TrigUnit → TrigUnit) (s : State) : getBunch n (modTrig k f s) = getBunch n s := rfl
@[simp] theorem getBunch_modCap (k : Nat) (n : Nat) (f : Capture → Capture) (s : State) : getBunch n (modCap k f s) = getBunch n s := rfl
@[simp] theorem getBunch_modGen (k : Nat) (n : Nat) (f : Gen → Gen) (s : State) : getBunch n (modGen k f s) = getBunch n s := rfl
@[simp] theorem getBunch_modGov (k : Nat) (n : Nat) (f : Governor → Governor) (s : State) : getBunch n (modGov k f s) = getBunch n s := rfl
@[simp] theorem getBunch_modFibre (k : Nat) (n : Nat) (f : Fibre → Fibre) (s : State) : getBunch n (modFibre k f s) = getBunch n s := rfl
@[simp] theorem getBunch_modExc (k : Nat) (n : Nat) (f : Exc → Exc) (s : State) : getBunch n (modExc k f s) = getBunch n s := rfl
@[simp] theorem getBunch_modChan (k : Nat) (n : Nat) (f : Channel → Channel) (s : State) : getBunch n (modChan k f s) = getBunch n s := rfl
@[simp] theorem getBunch_modPort (k : Nat) (n : Nat) (f : Port → Port) (s : State) : getBunch n (modPort k f s) = getBunch n s := rfl
@[simp] theorem getBunch_modPip (k : Nat) (n : Nat) (f : Core → Core) (s : State) : getBunch n (modPip k f s) = getBunch n s := rfl
@[simp] theorem getBunch_modCurrant (k : Nat) (n : Nat) (f : Core → Core) (s : State) : getBunch n (modCurrant k f s) = getBunch n s := rfl
@[simp] theorem getBunch_modSlow (n : Nat) (f : Slow → Slow) (s : State) : getBunch n (modSlow f s) = getBunch n s := rfl
@[simp] theorem getBunch_modStone (n : Nat) (f : Stone → Stone) (s : State) : getBunch n (modStone f s) = getBunch n s := rfl
@[simp] theorem getBunch_modDisp (n : Nat) (f : Display → Display) (s : State) : getBunch n (modDisp f s) = getBunch n s := rfl
@[simp] theorem getBunch_modMem (n : Nat) (f : MemCtl → MemCtl) (s : State) : getBunch n (modMem f s) = getBunch n s := rfl
@[simp] theorem getPll_modPll (n : Nat) (f : Pll → Pll) (s : State) : getPll n (modPll n f s) = f (getPll n s) := tget_tmod_same _ _ _ _
theorem getPll_modPll_other (n k : Nat) (f : Pll → Pll) (s : State) (h : k ≠ n) : getPll k (modPll n f s) = getPll k s := tget_tmod_other _ _ _ _ _ h
theorem getPll_modPll_if (n k : Nat) (f : Pll → Pll) (s : State) : getPll k (modPll n f s) = if k = n then f (getPll n s) else getPll k s := tget_tmod _ _ _ _ _
@[simp] theorem getPll_advance (n : Nat) (t : DT) (s : State) : getPll n (advance t s) = getPll n s := by unfold advance; split <;> rfl
@[simp] theorem getPll_modRing (k : Nat) (n : Nat) (f : Ring → Ring) (s : State) : getPll n (modRing k f s) = getPll n s := rfl
@[simp] theorem getPll_modBunch (k : Nat) (n : Nat) (f : Bunch → Bunch) (s : State) : getPll n (modBunch k f s) = getPll n s := rfl
@[simp] theorem getPll_modRf (k : Nat) (n : Nat) (f : RfChan → RfChan) (s : State) : getPll n (modRf k f s) = getPll n s := rfl
@[simp] theorem getPll_modOrx (k : Nat) (n : Nat) (f : OrxChan → OrxChan) (s : State) : getPll n (modOrx k f s) = getPll n s := rfl
@[simp] theorem getPll_modDdc (k : Nat) (n : Nat) (f : DdcPath → DdcPath) (s : State) : getPll n (modDdc k f s) = getPll n s := rfl
@[simp] theorem getPll_modSpec (k : Nat) (n : Nat) (f : Spectral → Spectral) (s : State) : getPll n (modSpec k f s) = getPll n s := rfl
@[simp] theorem getPll_modBloom (k : Nat) (n : Nat) (f : BloomMap → BloomMap) (s : State) : getPll n (modBloom k f s) = getPll n s := rfl
@[simp] theorem getPll_modTrig (k : Nat) (n : Nat) (f : TrigUnit → TrigUnit) (s : State) : getPll n (modTrig k f s) = getPll n s := rfl
@[simp] theorem getPll_modCap (k : Nat) (n : Nat) (f : Capture → Capture) (s : State) : getPll n (modCap k f s) = getPll n s := rfl
@[simp] theorem getPll_modGen (k : Nat) (n : Nat) (f : Gen → Gen) (s : State) : getPll n (modGen k f s) = getPll n s := rfl
@[simp] theorem getPll_modGov (k : Nat) (n : Nat) (f : Governor → Governor) (s : State) : getPll n (modGov k f s) = getPll n s := rfl
@[simp] theorem getPll_modFibre (k : Nat) (n : Nat) (f : Fibre → Fibre) (s : State) : getPll n (modFibre k f s) = getPll n s := rfl
@[simp] theorem getPll_modExc (k : Nat) (n : Nat) (f : Exc → Exc) (s : State) : getPll n (modExc k f s) = getPll n s := rfl
@[simp] theorem getPll_modChan (k : Nat) (n : Nat) (f : Channel → Channel) (s : State) : getPll n (modChan k f s) = getPll n s := rfl
@[simp] theorem getPll_modPort (k : Nat) (n : Nat) (f : Port → Port) (s : State) : getPll n (modPort k f s) = getPll n s := rfl
@[simp] theorem getPll_modPip (k : Nat) (n : Nat) (f : Core → Core) (s : State) : getPll n (modPip k f s) = getPll n s := rfl
@[simp] theorem getPll_modCurrant (k : Nat) (n : Nat) (f : Core → Core) (s : State) : getPll n (modCurrant k f s) = getPll n s := rfl
@[simp] theorem getPll_modSlow (n : Nat) (f : Slow → Slow) (s : State) : getPll n (modSlow f s) = getPll n s := rfl
@[simp] theorem getPll_modStone (n : Nat) (f : Stone → Stone) (s : State) : getPll n (modStone f s) = getPll n s := rfl
@[simp] theorem getPll_modDisp (n : Nat) (f : Display → Display) (s : State) : getPll n (modDisp f s) = getPll n s := rfl
@[simp] theorem getPll_modMem (n : Nat) (f : MemCtl → MemCtl) (s : State) : getPll n (modMem f s) = getPll n s := rfl
@[simp] theorem getRf_modRf (n : Nat) (f : RfChan → RfChan) (s : State) : getRf n (modRf n f s) = f (getRf n s) := tget_tmod_same _ _ _ _
theorem getRf_modRf_other (n k : Nat) (f : RfChan → RfChan) (s : State) (h : k ≠ n) : getRf k (modRf n f s) = getRf k s := tget_tmod_other _ _ _ _ _ h
theorem getRf_modRf_if (n k : Nat) (f : RfChan → RfChan) (s : State) : getRf k (modRf n f s) = if k = n then f (getRf n s) else getRf k s := tget_tmod _ _ _ _ _
@[simp] theorem getRf_advance (n : Nat) (t : DT) (s : State) : getRf n (advance t s) = getRf n s := by unfold advance; split <;> rfl
@[simp] theorem getRf_modRing (k : Nat) (n : Nat) (f : Ring → Ring) (s : State) : getRf n (modRing k f s) = getRf n s := rfl
@[simp] theorem getRf_modBunch (k : Nat) (n : Nat) (f : Bunch → Bunch) (s : State) : getRf n (modBunch k f s) = getRf n s := rfl
@[simp] theorem getRf_modPll (k : Nat) (n : Nat) (f : Pll → Pll) (s : State) : getRf n (modPll k f s) = getRf n s := rfl
@[simp] theorem getRf_modOrx (k : Nat) (n : Nat) (f : OrxChan → OrxChan) (s : State) : getRf n (modOrx k f s) = getRf n s := rfl
@[simp] theorem getRf_modDdc (k : Nat) (n : Nat) (f : DdcPath → DdcPath) (s : State) : getRf n (modDdc k f s) = getRf n s := rfl
@[simp] theorem getRf_modSpec (k : Nat) (n : Nat) (f : Spectral → Spectral) (s : State) : getRf n (modSpec k f s) = getRf n s := rfl
@[simp] theorem getRf_modBloom (k : Nat) (n : Nat) (f : BloomMap → BloomMap) (s : State) : getRf n (modBloom k f s) = getRf n s := rfl
@[simp] theorem getRf_modTrig (k : Nat) (n : Nat) (f : TrigUnit → TrigUnit) (s : State) : getRf n (modTrig k f s) = getRf n s := rfl
@[simp] theorem getRf_modCap (k : Nat) (n : Nat) (f : Capture → Capture) (s : State) : getRf n (modCap k f s) = getRf n s := rfl
@[simp] theorem getRf_modGen (k : Nat) (n : Nat) (f : Gen → Gen) (s : State) : getRf n (modGen k f s) = getRf n s := rfl
@[simp] theorem getRf_modGov (k : Nat) (n : Nat) (f : Governor → Governor) (s : State) : getRf n (modGov k f s) = getRf n s := rfl
@[simp] theorem getRf_modFibre (k : Nat) (n : Nat) (f : Fibre → Fibre) (s : State) : getRf n (modFibre k f s) = getRf n s := rfl
@[simp] theorem getRf_modExc (k : Nat) (n : Nat) (f : Exc → Exc) (s : State) : getRf n (modExc k f s) = getRf n s := rfl
@[simp] theorem getRf_modChan (k : Nat) (n : Nat) (f : Channel → Channel) (s : State) : getRf n (modChan k f s) = getRf n s := rfl
@[simp] theorem getRf_modPort (k : Nat) (n : Nat) (f : Port → Port) (s : State) : getRf n (modPort k f s) = getRf n s := rfl
@[simp] theorem getRf_modPip (k : Nat) (n : Nat) (f : Core → Core) (s : State) : getRf n (modPip k f s) = getRf n s := rfl
@[simp] theorem getRf_modCurrant (k : Nat) (n : Nat) (f : Core → Core) (s : State) : getRf n (modCurrant k f s) = getRf n s := rfl
@[simp] theorem getRf_modSlow (n : Nat) (f : Slow → Slow) (s : State) : getRf n (modSlow f s) = getRf n s := rfl
@[simp] theorem getRf_modStone (n : Nat) (f : Stone → Stone) (s : State) : getRf n (modStone f s) = getRf n s := rfl
@[simp] theorem getRf_modDisp (n : Nat) (f : Display → Display) (s : State) : getRf n (modDisp f s) = getRf n s := rfl
@[simp] theorem getRf_modMem (n : Nat) (f : MemCtl → MemCtl) (s : State) : getRf n (modMem f s) = getRf n s := rfl
@[simp] theorem getOrx_modOrx (n : Nat) (f : OrxChan → OrxChan) (s : State) : getOrx n (modOrx n f s) = f (getOrx n s) := tget_tmod_same _ _ _ _
theorem getOrx_modOrx_other (n k : Nat) (f : OrxChan → OrxChan) (s : State) (h : k ≠ n) : getOrx k (modOrx n f s) = getOrx k s := tget_tmod_other _ _ _ _ _ h
theorem getOrx_modOrx_if (n k : Nat) (f : OrxChan → OrxChan) (s : State) : getOrx k (modOrx n f s) = if k = n then f (getOrx n s) else getOrx k s := tget_tmod _ _ _ _ _
@[simp] theorem getOrx_advance (n : Nat) (t : DT) (s : State) : getOrx n (advance t s) = getOrx n s := by unfold advance; split <;> rfl
@[simp] theorem getOrx_modRing (k : Nat) (n : Nat) (f : Ring → Ring) (s : State) : getOrx n (modRing k f s) = getOrx n s := rfl
@[simp] theorem getOrx_modBunch (k : Nat) (n : Nat) (f : Bunch → Bunch) (s : State) : getOrx n (modBunch k f s) = getOrx n s := rfl
@[simp] theorem getOrx_modPll (k : Nat) (n : Nat) (f : Pll → Pll) (s : State) : getOrx n (modPll k f s) = getOrx n s := rfl
@[simp] theorem getOrx_modRf (k : Nat) (n : Nat) (f : RfChan → RfChan) (s : State) : getOrx n (modRf k f s) = getOrx n s := rfl
@[simp] theorem getOrx_modDdc (k : Nat) (n : Nat) (f : DdcPath → DdcPath) (s : State) : getOrx n (modDdc k f s) = getOrx n s := rfl
@[simp] theorem getOrx_modSpec (k : Nat) (n : Nat) (f : Spectral → Spectral) (s : State) : getOrx n (modSpec k f s) = getOrx n s := rfl
@[simp] theorem getOrx_modBloom (k : Nat) (n : Nat) (f : BloomMap → BloomMap) (s : State) : getOrx n (modBloom k f s) = getOrx n s := rfl
@[simp] theorem getOrx_modTrig (k : Nat) (n : Nat) (f : TrigUnit → TrigUnit) (s : State) : getOrx n (modTrig k f s) = getOrx n s := rfl
@[simp] theorem getOrx_modCap (k : Nat) (n : Nat) (f : Capture → Capture) (s : State) : getOrx n (modCap k f s) = getOrx n s := rfl
@[simp] theorem getOrx_modGen (k : Nat) (n : Nat) (f : Gen → Gen) (s : State) : getOrx n (modGen k f s) = getOrx n s := rfl
@[simp] theorem getOrx_modGov (k : Nat) (n : Nat) (f : Governor → Governor) (s : State) : getOrx n (modGov k f s) = getOrx n s := rfl
@[simp] theorem getOrx_modFibre (k : Nat) (n : Nat) (f : Fibre → Fibre) (s : State) : getOrx n (modFibre k f s) = getOrx n s := rfl
@[simp] theorem getOrx_modExc (k : Nat) (n : Nat) (f : Exc → Exc) (s : State) : getOrx n (modExc k f s) = getOrx n s := rfl
@[simp] theorem getOrx_modChan (k : Nat) (n : Nat) (f : Channel → Channel) (s : State) : getOrx n (modChan k f s) = getOrx n s := rfl
@[simp] theorem getOrx_modPort (k : Nat) (n : Nat) (f : Port → Port) (s : State) : getOrx n (modPort k f s) = getOrx n s := rfl
@[simp] theorem getOrx_modPip (k : Nat) (n : Nat) (f : Core → Core) (s : State) : getOrx n (modPip k f s) = getOrx n s := rfl
@[simp] theorem getOrx_modCurrant (k : Nat) (n : Nat) (f : Core → Core) (s : State) : getOrx n (modCurrant k f s) = getOrx n s := rfl
@[simp] theorem getOrx_modSlow (n : Nat) (f : Slow → Slow) (s : State) : getOrx n (modSlow f s) = getOrx n s := rfl
@[simp] theorem getOrx_modStone (n : Nat) (f : Stone → Stone) (s : State) : getOrx n (modStone f s) = getOrx n s := rfl
@[simp] theorem getOrx_modDisp (n : Nat) (f : Display → Display) (s : State) : getOrx n (modDisp f s) = getOrx n s := rfl
@[simp] theorem getOrx_modMem (n : Nat) (f : MemCtl → MemCtl) (s : State) : getOrx n (modMem f s) = getOrx n s := rfl
@[simp] theorem getDdc_modDdc (n : Nat) (f : DdcPath → DdcPath) (s : State) : getDdc n (modDdc n f s) = f (getDdc n s) := tget_tmod_same _ _ _ _
theorem getDdc_modDdc_other (n k : Nat) (f : DdcPath → DdcPath) (s : State) (h : k ≠ n) : getDdc k (modDdc n f s) = getDdc k s := tget_tmod_other _ _ _ _ _ h
theorem getDdc_modDdc_if (n k : Nat) (f : DdcPath → DdcPath) (s : State) : getDdc k (modDdc n f s) = if k = n then f (getDdc n s) else getDdc k s := tget_tmod _ _ _ _ _
@[simp] theorem getDdc_advance (n : Nat) (t : DT) (s : State) : getDdc n (advance t s) = getDdc n s := by unfold advance; split <;> rfl
@[simp] theorem getDdc_modRing (k : Nat) (n : Nat) (f : Ring → Ring) (s : State) : getDdc n (modRing k f s) = getDdc n s := rfl
@[simp] theorem getDdc_modBunch (k : Nat) (n : Nat) (f : Bunch → Bunch) (s : State) : getDdc n (modBunch k f s) = getDdc n s := rfl
@[simp] theorem getDdc_modPll (k : Nat) (n : Nat) (f : Pll → Pll) (s : State) : getDdc n (modPll k f s) = getDdc n s := rfl
@[simp] theorem getDdc_modRf (k : Nat) (n : Nat) (f : RfChan → RfChan) (s : State) : getDdc n (modRf k f s) = getDdc n s := rfl
@[simp] theorem getDdc_modOrx (k : Nat) (n : Nat) (f : OrxChan → OrxChan) (s : State) : getDdc n (modOrx k f s) = getDdc n s := rfl
@[simp] theorem getDdc_modSpec (k : Nat) (n : Nat) (f : Spectral → Spectral) (s : State) : getDdc n (modSpec k f s) = getDdc n s := rfl
@[simp] theorem getDdc_modBloom (k : Nat) (n : Nat) (f : BloomMap → BloomMap) (s : State) : getDdc n (modBloom k f s) = getDdc n s := rfl
@[simp] theorem getDdc_modTrig (k : Nat) (n : Nat) (f : TrigUnit → TrigUnit) (s : State) : getDdc n (modTrig k f s) = getDdc n s := rfl
@[simp] theorem getDdc_modCap (k : Nat) (n : Nat) (f : Capture → Capture) (s : State) : getDdc n (modCap k f s) = getDdc n s := rfl
@[simp] theorem getDdc_modGen (k : Nat) (n : Nat) (f : Gen → Gen) (s : State) : getDdc n (modGen k f s) = getDdc n s := rfl
@[simp] theorem getDdc_modGov (k : Nat) (n : Nat) (f : Governor → Governor) (s : State) : getDdc n (modGov k f s) = getDdc n s := rfl
@[simp] theorem getDdc_modFibre (k : Nat) (n : Nat) (f : Fibre → Fibre) (s : State) : getDdc n (modFibre k f s) = getDdc n s := rfl
@[simp] theorem getDdc_modExc (k : Nat) (n : Nat) (f : Exc → Exc) (s : State) : getDdc n (modExc k f s) = getDdc n s := rfl
@[simp] theorem getDdc_modChan (k : Nat) (n : Nat) (f : Channel → Channel) (s : State) : getDdc n (modChan k f s) = getDdc n s := rfl
@[simp] theorem getDdc_modPort (k : Nat) (n : Nat) (f : Port → Port) (s : State) : getDdc n (modPort k f s) = getDdc n s := rfl
@[simp] theorem getDdc_modPip (k : Nat) (n : Nat) (f : Core → Core) (s : State) : getDdc n (modPip k f s) = getDdc n s := rfl
@[simp] theorem getDdc_modCurrant (k : Nat) (n : Nat) (f : Core → Core) (s : State) : getDdc n (modCurrant k f s) = getDdc n s := rfl
@[simp] theorem getDdc_modSlow (n : Nat) (f : Slow → Slow) (s : State) : getDdc n (modSlow f s) = getDdc n s := rfl
@[simp] theorem getDdc_modStone (n : Nat) (f : Stone → Stone) (s : State) : getDdc n (modStone f s) = getDdc n s := rfl
@[simp] theorem getDdc_modDisp (n : Nat) (f : Display → Display) (s : State) : getDdc n (modDisp f s) = getDdc n s := rfl
@[simp] theorem getDdc_modMem (n : Nat) (f : MemCtl → MemCtl) (s : State) : getDdc n (modMem f s) = getDdc n s := rfl
@[simp] theorem getSpec_modSpec (n : Nat) (f : Spectral → Spectral) (s : State) : getSpec n (modSpec n f s) = f (getSpec n s) := tget_tmod_same _ _ _ _
theorem getSpec_modSpec_other (n k : Nat) (f : Spectral → Spectral) (s : State) (h : k ≠ n) : getSpec k (modSpec n f s) = getSpec k s := tget_tmod_other _ _ _ _ _ h
theorem getSpec_modSpec_if (n k : Nat) (f : Spectral → Spectral) (s : State) : getSpec k (modSpec n f s) = if k = n then f (getSpec n s) else getSpec k s := tget_tmod _ _ _ _ _
@[simp] theorem getSpec_advance (n : Nat) (t : DT) (s : State) : getSpec n (advance t s) = getSpec n s := by unfold advance; split <;> rfl
@[simp] theorem getSpec_modRing (k : Nat) (n : Nat) (f : Ring → Ring) (s : State) : getSpec n (modRing k f s) = getSpec n s := rfl
@[simp] theorem getSpec_modBunch (k : Nat) (n : Nat) (f : Bunch → Bunch) (s : State) : getSpec n (modBunch k f s) = getSpec n s := rfl
@[simp] theorem getSpec_modPll (k : Nat) (n : Nat) (f : Pll → Pll) (s : State) : getSpec n (modPll k f s) = getSpec n s := rfl
@[simp] theorem getSpec_modRf (k : Nat) (n : Nat) (f : RfChan → RfChan) (s : State) : getSpec n (modRf k f s) = getSpec n s := rfl
@[simp] theorem getSpec_modOrx (k : Nat) (n : Nat) (f : OrxChan → OrxChan) (s : State) : getSpec n (modOrx k f s) = getSpec n s := rfl
@[simp] theorem getSpec_modDdc (k : Nat) (n : Nat) (f : DdcPath → DdcPath) (s : State) : getSpec n (modDdc k f s) = getSpec n s := rfl
@[simp] theorem getSpec_modBloom (k : Nat) (n : Nat) (f : BloomMap → BloomMap) (s : State) : getSpec n (modBloom k f s) = getSpec n s := rfl
@[simp] theorem getSpec_modTrig (k : Nat) (n : Nat) (f : TrigUnit → TrigUnit) (s : State) : getSpec n (modTrig k f s) = getSpec n s := rfl
@[simp] theorem getSpec_modCap (k : Nat) (n : Nat) (f : Capture → Capture) (s : State) : getSpec n (modCap k f s) = getSpec n s := rfl
@[simp] theorem getSpec_modGen (k : Nat) (n : Nat) (f : Gen → Gen) (s : State) : getSpec n (modGen k f s) = getSpec n s := rfl
@[simp] theorem getSpec_modGov (k : Nat) (n : Nat) (f : Governor → Governor) (s : State) : getSpec n (modGov k f s) = getSpec n s := rfl
@[simp] theorem getSpec_modFibre (k : Nat) (n : Nat) (f : Fibre → Fibre) (s : State) : getSpec n (modFibre k f s) = getSpec n s := rfl
@[simp] theorem getSpec_modExc (k : Nat) (n : Nat) (f : Exc → Exc) (s : State) : getSpec n (modExc k f s) = getSpec n s := rfl
@[simp] theorem getSpec_modChan (k : Nat) (n : Nat) (f : Channel → Channel) (s : State) : getSpec n (modChan k f s) = getSpec n s := rfl
@[simp] theorem getSpec_modPort (k : Nat) (n : Nat) (f : Port → Port) (s : State) : getSpec n (modPort k f s) = getSpec n s := rfl
@[simp] theorem getSpec_modPip (k : Nat) (n : Nat) (f : Core → Core) (s : State) : getSpec n (modPip k f s) = getSpec n s := rfl
@[simp] theorem getSpec_modCurrant (k : Nat) (n : Nat) (f : Core → Core) (s : State) : getSpec n (modCurrant k f s) = getSpec n s := rfl
@[simp] theorem getSpec_modSlow (n : Nat) (f : Slow → Slow) (s : State) : getSpec n (modSlow f s) = getSpec n s := rfl
@[simp] theorem getSpec_modStone (n : Nat) (f : Stone → Stone) (s : State) : getSpec n (modStone f s) = getSpec n s := rfl
@[simp] theorem getSpec_modDisp (n : Nat) (f : Display → Display) (s : State) : getSpec n (modDisp f s) = getSpec n s := rfl
@[simp] theorem getSpec_modMem (n : Nat) (f : MemCtl → MemCtl) (s : State) : getSpec n (modMem f s) = getSpec n s := rfl
@[simp] theorem getBloom_modBloom (n : Nat) (f : BloomMap → BloomMap) (s : State) : getBloom n (modBloom n f s) = f (getBloom n s) := tget_tmod_same _ _ _ _
theorem getBloom_modBloom_other (n k : Nat) (f : BloomMap → BloomMap) (s : State) (h : k ≠ n) : getBloom k (modBloom n f s) = getBloom k s := tget_tmod_other _ _ _ _ _ h
theorem getBloom_modBloom_if (n k : Nat) (f : BloomMap → BloomMap) (s : State) : getBloom k (modBloom n f s) = if k = n then f (getBloom n s) else getBloom k s := tget_tmod _ _ _ _ _
@[simp] theorem getBloom_advance (n : Nat) (t : DT) (s : State) : getBloom n (advance t s) = getBloom n s := by unfold advance; split <;> rfl
@[simp] theorem getBloom_modRing (k : Nat) (n : Nat) (f : Ring → Ring) (s : State) : getBloom n (modRing k f s) = getBloom n s := rfl
@[simp] theorem getBloom_modBunch (k : Nat) (n : Nat) (f : Bunch → Bunch) (s : State) : getBloom n (modBunch k f s) = getBloom n s := rfl
@[simp] theorem getBloom_modPll (k : Nat) (n : Nat) (f : Pll → Pll) (s : State) : getBloom n (modPll k f s) = getBloom n s := rfl
@[simp] theorem getBloom_modRf (k : Nat) (n : Nat) (f : RfChan → RfChan) (s : State) : getBloom n (modRf k f s) = getBloom n s := rfl
@[simp] theorem getBloom_modOrx (k : Nat) (n : Nat) (f : OrxChan → OrxChan) (s : State) : getBloom n (modOrx k f s) = getBloom n s := rfl
@[simp] theorem getBloom_modDdc (k : Nat) (n : Nat) (f : DdcPath → DdcPath) (s : State) : getBloom n (modDdc k f s) = getBloom n s := rfl
@[simp] theorem getBloom_modSpec (k : Nat) (n : Nat) (f : Spectral → Spectral) (s : State) : getBloom n (modSpec k f s) = getBloom n s := rfl
@[simp] theorem getBloom_modTrig (k : Nat) (n : Nat) (f : TrigUnit → TrigUnit) (s : State) : getBloom n (modTrig k f s) = getBloom n s := rfl
@[simp] theorem getBloom_modCap (k : Nat) (n : Nat) (f : Capture → Capture) (s : State) : getBloom n (modCap k f s) = getBloom n s := rfl
@[simp] theorem getBloom_modGen (k : Nat) (n : Nat) (f : Gen → Gen) (s : State) : getBloom n (modGen k f s) = getBloom n s := rfl
@[simp] theorem getBloom_modGov (k : Nat) (n : Nat) (f : Governor → Governor) (s : State) : getBloom n (modGov k f s) = getBloom n s := rfl
@[simp] theorem getBloom_modFibre (k : Nat) (n : Nat) (f : Fibre → Fibre) (s : State) : getBloom n (modFibre k f s) = getBloom n s := rfl
@[simp] theorem getBloom_modExc (k : Nat) (n : Nat) (f : Exc → Exc) (s : State) : getBloom n (modExc k f s) = getBloom n s := rfl
@[simp] theorem getBloom_modChan (k : Nat) (n : Nat) (f : Channel → Channel) (s : State) : getBloom n (modChan k f s) = getBloom n s := rfl
@[simp] theorem getBloom_modPort (k : Nat) (n : Nat) (f : Port → Port) (s : State) : getBloom n (modPort k f s) = getBloom n s := rfl
@[simp] theorem getBloom_modPip (k : Nat) (n : Nat) (f : Core → Core) (s : State) : getBloom n (modPip k f s) = getBloom n s := rfl
@[simp] theorem getBloom_modCurrant (k : Nat) (n : Nat) (f : Core → Core) (s : State) : getBloom n (modCurrant k f s) = getBloom n s := rfl
@[simp] theorem getBloom_modSlow (n : Nat) (f : Slow → Slow) (s : State) : getBloom n (modSlow f s) = getBloom n s := rfl
@[simp] theorem getBloom_modStone (n : Nat) (f : Stone → Stone) (s : State) : getBloom n (modStone f s) = getBloom n s := rfl
@[simp] theorem getBloom_modDisp (n : Nat) (f : Display → Display) (s : State) : getBloom n (modDisp f s) = getBloom n s := rfl
@[simp] theorem getBloom_modMem (n : Nat) (f : MemCtl → MemCtl) (s : State) : getBloom n (modMem f s) = getBloom n s := rfl
@[simp] theorem getTrig_modTrig (n : Nat) (f : TrigUnit → TrigUnit) (s : State) : getTrig n (modTrig n f s) = f (getTrig n s) := tget_tmod_same _ _ _ _
theorem getTrig_modTrig_other (n k : Nat) (f : TrigUnit → TrigUnit) (s : State) (h : k ≠ n) : getTrig k (modTrig n f s) = getTrig k s := tget_tmod_other _ _ _ _ _ h
theorem getTrig_modTrig_if (n k : Nat) (f : TrigUnit → TrigUnit) (s : State) : getTrig k (modTrig n f s) = if k = n then f (getTrig n s) else getTrig k s := tget_tmod _ _ _ _ _
@[simp] theorem getTrig_advance (n : Nat) (t : DT) (s : State) : getTrig n (advance t s) = getTrig n s := by unfold advance; split <;> rfl
@[simp] theorem getTrig_modRing (k : Nat) (n : Nat) (f : Ring → Ring) (s : State) : getTrig n (modRing k f s) = getTrig n s := rfl
@[simp] theorem getTrig_modBunch (k : Nat) (n : Nat) (f : Bunch → Bunch) (s : State) : getTrig n (modBunch k f s) = getTrig n s := rfl
@[simp] theorem getTrig_modPll (k : Nat) (n : Nat) (f : Pll → Pll) (s : State) : getTrig n (modPll k f s) = getTrig n s := rfl
@[simp] theorem getTrig_modRf (k : Nat) (n : Nat) (f : RfChan → RfChan) (s : State) : getTrig n (modRf k f s) = getTrig n s := rfl
@[simp] theorem getTrig_modOrx (k : Nat) (n : Nat) (f : OrxChan → OrxChan) (s : State) : getTrig n (modOrx k f s) = getTrig n s := rfl
@[simp] theorem getTrig_modDdc (k : Nat) (n : Nat) (f : DdcPath → DdcPath) (s : State) : getTrig n (modDdc k f s) = getTrig n s := rfl
@[simp] theorem getTrig_modSpec (k : Nat) (n : Nat) (f : Spectral → Spectral) (s : State) : getTrig n (modSpec k f s) = getTrig n s := rfl
@[simp] theorem getTrig_modBloom (k : Nat) (n : Nat) (f : BloomMap → BloomMap) (s : State) : getTrig n (modBloom k f s) = getTrig n s := rfl
@[simp] theorem getTrig_modCap (k : Nat) (n : Nat) (f : Capture → Capture) (s : State) : getTrig n (modCap k f s) = getTrig n s := rfl
@[simp] theorem getTrig_modGen (k : Nat) (n : Nat) (f : Gen → Gen) (s : State) : getTrig n (modGen k f s) = getTrig n s := rfl
@[simp] theorem getTrig_modGov (k : Nat) (n : Nat) (f : Governor → Governor) (s : State) : getTrig n (modGov k f s) = getTrig n s := rfl
@[simp] theorem getTrig_modFibre (k : Nat) (n : Nat) (f : Fibre → Fibre) (s : State) : getTrig n (modFibre k f s) = getTrig n s := rfl
@[simp] theorem getTrig_modExc (k : Nat) (n : Nat) (f : Exc → Exc) (s : State) : getTrig n (modExc k f s) = getTrig n s := rfl
@[simp] theorem getTrig_modChan (k : Nat) (n : Nat) (f : Channel → Channel) (s : State) : getTrig n (modChan k f s) = getTrig n s := rfl
@[simp] theorem getTrig_modPort (k : Nat) (n : Nat) (f : Port → Port) (s : State) : getTrig n (modPort k f s) = getTrig n s := rfl
@[simp] theorem getTrig_modPip (k : Nat) (n : Nat) (f : Core → Core) (s : State) : getTrig n (modPip k f s) = getTrig n s := rfl
@[simp] theorem getTrig_modCurrant (k : Nat) (n : Nat) (f : Core → Core) (s : State) : getTrig n (modCurrant k f s) = getTrig n s := rfl
@[simp] theorem getTrig_modSlow (n : Nat) (f : Slow → Slow) (s : State) : getTrig n (modSlow f s) = getTrig n s := rfl
@[simp] theorem getTrig_modStone (n : Nat) (f : Stone → Stone) (s : State) : getTrig n (modStone f s) = getTrig n s := rfl
@[simp] theorem getTrig_modDisp (n : Nat) (f : Display → Display) (s : State) : getTrig n (modDisp f s) = getTrig n s := rfl
@[simp] theorem getTrig_modMem (n : Nat) (f : MemCtl → MemCtl) (s : State) : getTrig n (modMem f s) = getTrig n s := rfl
@[simp] theorem getCap_modCap (n : Nat) (f : Capture → Capture) (s : State) : getCap n (modCap n f s) = f (getCap n s) := tget_tmod_same _ _ _ _
theorem getCap_modCap_other (n k : Nat) (f : Capture → Capture) (s : State) (h : k ≠ n) : getCap k (modCap n f s) = getCap k s := tget_tmod_other _ _ _ _ _ h
theorem getCap_modCap_if (n k : Nat) (f : Capture → Capture) (s : State) : getCap k (modCap n f s) = if k = n then f (getCap n s) else getCap k s := tget_tmod _ _ _ _ _
@[simp] theorem getCap_advance (n : Nat) (t : DT) (s : State) : getCap n (advance t s) = getCap n s := by unfold advance; split <;> rfl
@[simp] theorem getCap_modRing (k : Nat) (n : Nat) (f : Ring → Ring) (s : State) : getCap n (modRing k f s) = getCap n s := rfl
@[simp] theorem getCap_modBunch (k : Nat) (n : Nat) (f : Bunch → Bunch) (s : State) : getCap n (modBunch k f s) = getCap n s := rfl
@[simp] theorem getCap_modPll (k : Nat) (n : Nat) (f : Pll → Pll) (s : State) : getCap n (modPll k f s) = getCap n s := rfl
@[simp] theorem getCap_modRf (k : Nat) (n : Nat) (f : RfChan → RfChan) (s : State) : getCap n (modRf k f s) = getCap n s := rfl
@[simp] theorem getCap_modOrx (k : Nat) (n : Nat) (f : OrxChan → OrxChan) (s : State) : getCap n (modOrx k f s) = getCap n s := rfl
@[simp] theorem getCap_modDdc (k : Nat) (n : Nat) (f : DdcPath → DdcPath) (s : State) : getCap n (modDdc k f s) = getCap n s := rfl
@[simp] theorem getCap_modSpec (k : Nat) (n : Nat) (f : Spectral → Spectral) (s : State) : getCap n (modSpec k f s) = getCap n s := rfl
@[simp] theorem getCap_modBloom (k : Nat) (n : Nat) (f : BloomMap → BloomMap) (s : State) : getCap n (modBloom k f s) = getCap n s := rfl
@[simp] theorem getCap_modTrig (k : Nat) (n : Nat) (f : TrigUnit → TrigUnit) (s : State) : getCap n (modTrig k f s) = getCap n s := rfl
@[simp] theorem getCap_modGen (k : Nat) (n : Nat) (f : Gen → Gen) (s : State) : getCap n (modGen k f s) = getCap n s := rfl
@[simp] theorem getCap_modGov (k : Nat) (n : Nat) (f : Governor → Governor) (s : State) : getCap n (modGov k f s) = getCap n s := rfl
@[simp] theorem getCap_modFibre (k : Nat) (n : Nat) (f : Fibre → Fibre) (s : State) : getCap n (modFibre k f s) = getCap n s := rfl
@[simp] theorem getCap_modExc (k : Nat) (n : Nat) (f : Exc → Exc) (s : State) : getCap n (modExc k f s) = getCap n s := rfl
@[simp] theorem getCap_modChan (k : Nat) (n : Nat) (f : Channel → Channel) (s : State) : getCap n (modChan k f s) = getCap n s := rfl
@[simp] theorem getCap_modPort (k : Nat) (n : Nat) (f : Port → Port) (s : State) : getCap n (modPort k f s) = getCap n s := rfl
@[simp] theorem getCap_modPip (k : Nat) (n : Nat) (f : Core → Core) (s : State) : getCap n (modPip k f s) = getCap n s := rfl
@[simp] theorem getCap_modCurrant (k : Nat) (n : Nat) (f : Core → Core) (s : State) : getCap n (modCurrant k f s) = getCap n s := rfl
@[simp] theorem getCap_modSlow (n : Nat) (f : Slow → Slow) (s : State) : getCap n (modSlow f s) = getCap n s := rfl
@[simp] theorem getCap_modStone (n : Nat) (f : Stone → Stone) (s : State) : getCap n (modStone f s) = getCap n s := rfl
@[simp] theorem getCap_modDisp (n : Nat) (f : Display → Display) (s : State) : getCap n (modDisp f s) = getCap n s := rfl
@[simp] theorem getCap_modMem (n : Nat) (f : MemCtl → MemCtl) (s : State) : getCap n (modMem f s) = getCap n s := rfl
@[simp] theorem getGen_modGen (n : Nat) (f : Gen → Gen) (s : State) : getGen n (modGen n f s) = f (getGen n s) := tget_tmod_same _ _ _ _
theorem getGen_modGen_other (n k : Nat) (f : Gen → Gen) (s : State) (h : k ≠ n) : getGen k (modGen n f s) = getGen k s := tget_tmod_other _ _ _ _ _ h
theorem getGen_modGen_if (n k : Nat) (f : Gen → Gen) (s : State) : getGen k (modGen n f s) = if k = n then f (getGen n s) else getGen k s := tget_tmod _ _ _ _ _
@[simp] theorem getGen_advance (n : Nat) (t : DT) (s : State) : getGen n (advance t s) = getGen n s := by unfold advance; split <;> rfl
@[simp] theorem getGen_modRing (k : Nat) (n : Nat) (f : Ring → Ring) (s : State) : getGen n (modRing k f s) = getGen n s := rfl
@[simp] theorem getGen_modBunch (k : Nat) (n : Nat) (f : Bunch → Bunch) (s : State) : getGen n (modBunch k f s) = getGen n s := rfl
@[simp] theorem getGen_modPll (k : Nat) (n : Nat) (f : Pll → Pll) (s : State) : getGen n (modPll k f s) = getGen n s := rfl
@[simp] theorem getGen_modRf (k : Nat) (n : Nat) (f : RfChan → RfChan) (s : State) : getGen n (modRf k f s) = getGen n s := rfl
@[simp] theorem getGen_modOrx (k : Nat) (n : Nat) (f : OrxChan → OrxChan) (s : State) : getGen n (modOrx k f s) = getGen n s := rfl
@[simp] theorem getGen_modDdc (k : Nat) (n : Nat) (f : DdcPath → DdcPath) (s : State) : getGen n (modDdc k f s) = getGen n s := rfl
@[simp] theorem getGen_modSpec (k : Nat) (n : Nat) (f : Spectral → Spectral) (s : State) : getGen n (modSpec k f s) = getGen n s := rfl
@[simp] theorem getGen_modBloom (k : Nat) (n : Nat) (f : BloomMap → BloomMap) (s : State) : getGen n (modBloom k f s) = getGen n s := rfl
@[simp] theorem getGen_modTrig (k : Nat) (n : Nat) (f : TrigUnit → TrigUnit) (s : State) : getGen n (modTrig k f s) = getGen n s := rfl
@[simp] theorem getGen_modCap (k : Nat) (n : Nat) (f : Capture → Capture) (s : State) : getGen n (modCap k f s) = getGen n s := rfl
@[simp] theorem getGen_modGov (k : Nat) (n : Nat) (f : Governor → Governor) (s : State) : getGen n (modGov k f s) = getGen n s := rfl
@[simp] theorem getGen_modFibre (k : Nat) (n : Nat) (f : Fibre → Fibre) (s : State) : getGen n (modFibre k f s) = getGen n s := rfl
@[simp] theorem getGen_modExc (k : Nat) (n : Nat) (f : Exc → Exc) (s : State) : getGen n (modExc k f s) = getGen n s := rfl
@[simp] theorem getGen_modChan (k : Nat) (n : Nat) (f : Channel → Channel) (s : State) : getGen n (modChan k f s) = getGen n s := rfl
@[simp] theorem getGen_modPort (k : Nat) (n : Nat) (f : Port → Port) (s : State) : getGen n (modPort k f s) = getGen n s := rfl
@[simp] theorem getGen_modPip (k : Nat) (n : Nat) (f : Core → Core) (s : State) : getGen n (modPip k f s) = getGen n s := rfl
@[simp] theorem getGen_modCurrant (k : Nat) (n : Nat) (f : Core → Core) (s : State) : getGen n (modCurrant k f s) = getGen n s := rfl
@[simp] theorem getGen_modSlow (n : Nat) (f : Slow → Slow) (s : State) : getGen n (modSlow f s) = getGen n s := rfl
@[simp] theorem getGen_modStone (n : Nat) (f : Stone → Stone) (s : State) : getGen n (modStone f s) = getGen n s := rfl
@[simp] theorem getGen_modDisp (n : Nat) (f : Display → Display) (s : State) : getGen n (modDisp f s) = getGen n s := rfl
@[simp] theorem getGen_modMem (n : Nat) (f : MemCtl → MemCtl) (s : State) : getGen n (modMem f s) = getGen n s := rfl
@[simp] theorem getGov_modGov (n : Nat) (f : Governor → Governor) (s : State) : getGov n (modGov n f s) = f (getGov n s) := tget_tmod_same _ _ _ _
theorem getGov_modGov_other (n k : Nat) (f : Governor → Governor) (s : State) (h : k ≠ n) : getGov k (modGov n f s) = getGov k s := tget_tmod_other _ _ _ _ _ h
theorem getGov_modGov_if (n k : Nat) (f : Governor → Governor) (s : State) : getGov k (modGov n f s) = if k = n then f (getGov n s) else getGov k s := tget_tmod _ _ _ _ _
@[simp] theorem getGov_advance (n : Nat) (t : DT) (s : State) : getGov n (advance t s) = getGov n s := by unfold advance; split <;> rfl
@[simp] theorem getGov_modRing (k : Nat) (n : Nat) (f : Ring → Ring) (s : State) : getGov n (modRing k f s) = getGov n s := rfl
@[simp] theorem getGov_modBunch (k : Nat) (n : Nat) (f : Bunch → Bunch) (s : State) : getGov n (modBunch k f s) = getGov n s := rfl
@[simp] theorem getGov_modPll (k : Nat) (n : Nat) (f : Pll → Pll) (s : State) : getGov n (modPll k f s) = getGov n s := rfl
@[simp] theorem getGov_modRf (k : Nat) (n : Nat) (f : RfChan → RfChan) (s : State) : getGov n (modRf k f s) = getGov n s := rfl
@[simp] theorem getGov_modOrx (k : Nat) (n : Nat) (f : OrxChan → OrxChan) (s : State) : getGov n (modOrx k f s) = getGov n s := rfl
@[simp] theorem getGov_modDdc (k : Nat) (n : Nat) (f : DdcPath → DdcPath) (s : State) : getGov n (modDdc k f s) = getGov n s := rfl
@[simp] theorem getGov_modSpec (k : Nat) (n : Nat) (f : Spectral → Spectral) (s : State) : getGov n (modSpec k f s) = getGov n s := rfl
@[simp] theorem getGov_modBloom (k : Nat) (n : Nat) (f : BloomMap → BloomMap) (s : State) : getGov n (modBloom k f s) = getGov n s := rfl
@[simp] theorem getGov_modTrig (k : Nat) (n : Nat) (f : TrigUnit → TrigUnit) (s : State) : getGov n (modTrig k f s) = getGov n s := rfl
@[simp] theorem getGov_modCap (k : Nat) (n : Nat) (f : Capture → Capture) (s : State) : getGov n (modCap k f s) = getGov n s := rfl
@[simp] theorem getGov_modGen (k : Nat) (n : Nat) (f : Gen → Gen) (s : State) : getGov n (modGen k f s) = getGov n s := rfl
@[simp] theorem getGov_modFibre (k : Nat) (n : Nat) (f : Fibre → Fibre) (s : State) : getGov n (modFibre k f s) = getGov n s := rfl
@[simp] theorem getGov_modExc (k : Nat) (n : Nat) (f : Exc → Exc) (s : State) : getGov n (modExc k f s) = getGov n s := rfl
@[simp] theorem getGov_modChan (k : Nat) (n : Nat) (f : Channel → Channel) (s : State) : getGov n (modChan k f s) = getGov n s := rfl
@[simp] theorem getGov_modPort (k : Nat) (n : Nat) (f : Port → Port) (s : State) : getGov n (modPort k f s) = getGov n s := rfl
@[simp] theorem getGov_modPip (k : Nat) (n : Nat) (f : Core → Core) (s : State) : getGov n (modPip k f s) = getGov n s := rfl
@[simp] theorem getGov_modCurrant (k : Nat) (n : Nat) (f : Core → Core) (s : State) : getGov n (modCurrant k f s) = getGov n s := rfl
@[simp] theorem getGov_modSlow (n : Nat) (f : Slow → Slow) (s : State) : getGov n (modSlow f s) = getGov n s := rfl
@[simp] theorem getGov_modStone (n : Nat) (f : Stone → Stone) (s : State) : getGov n (modStone f s) = getGov n s := rfl
@[simp] theorem getGov_modDisp (n : Nat) (f : Display → Display) (s : State) : getGov n (modDisp f s) = getGov n s := rfl
@[simp] theorem getGov_modMem (n : Nat) (f : MemCtl → MemCtl) (s : State) : getGov n (modMem f s) = getGov n s := rfl
@[simp] theorem getFibre_modFibre (n : Nat) (f : Fibre → Fibre) (s : State) : getFibre n (modFibre n f s) = f (getFibre n s) := tget_tmod_same _ _ _ _
theorem getFibre_modFibre_other (n k : Nat) (f : Fibre → Fibre) (s : State) (h : k ≠ n) : getFibre k (modFibre n f s) = getFibre k s := tget_tmod_other _ _ _ _ _ h
theorem getFibre_modFibre_if (n k : Nat) (f : Fibre → Fibre) (s : State) : getFibre k (modFibre n f s) = if k = n then f (getFibre n s) else getFibre k s := tget_tmod _ _ _ _ _
@[simp] theorem getFibre_advance (n : Nat) (t : DT) (s : State) : getFibre n (advance t s) = getFibre n s := by unfold advance; split <;> rfl
@[simp] theorem getFibre_modRing (k : Nat) (n : Nat) (f : Ring → Ring) (s : State) : getFibre n (modRing k f s) = getFibre n s := rfl
@[simp] theorem getFibre_modBunch (k : Nat) (n : Nat) (f : Bunch → Bunch) (s : State) : getFibre n (modBunch k f s) = getFibre n s := rfl
@[simp] theorem getFibre_modPll (k : Nat) (n : Nat) (f : Pll → Pll) (s : State) : getFibre n (modPll k f s) = getFibre n s := rfl
@[simp] theorem getFibre_modRf (k : Nat) (n : Nat) (f : RfChan → RfChan) (s : State) : getFibre n (modRf k f s) = getFibre n s := rfl
@[simp] theorem getFibre_modOrx (k : Nat) (n : Nat) (f : OrxChan → OrxChan) (s : State) : getFibre n (modOrx k f s) = getFibre n s := rfl
@[simp] theorem getFibre_modDdc (k : Nat) (n : Nat) (f : DdcPath → DdcPath) (s : State) : getFibre n (modDdc k f s) = getFibre n s := rfl
@[simp] theorem getFibre_modSpec (k : Nat) (n : Nat) (f : Spectral → Spectral) (s : State) : getFibre n (modSpec k f s) = getFibre n s := rfl
@[simp] theorem getFibre_modBloom (k : Nat) (n : Nat) (f : BloomMap → BloomMap) (s : State) : getFibre n (modBloom k f s) = getFibre n s := rfl
@[simp] theorem getFibre_modTrig (k : Nat) (n : Nat) (f : TrigUnit → TrigUnit) (s : State) : getFibre n (modTrig k f s) = getFibre n s := rfl
@[simp] theorem getFibre_modCap (k : Nat) (n : Nat) (f : Capture → Capture) (s : State) : getFibre n (modCap k f s) = getFibre n s := rfl
@[simp] theorem getFibre_modGen (k : Nat) (n : Nat) (f : Gen → Gen) (s : State) : getFibre n (modGen k f s) = getFibre n s := rfl
@[simp] theorem getFibre_modGov (k : Nat) (n : Nat) (f : Governor → Governor) (s : State) : getFibre n (modGov k f s) = getFibre n s := rfl
@[simp] theorem getFibre_modExc (k : Nat) (n : Nat) (f : Exc → Exc) (s : State) : getFibre n (modExc k f s) = getFibre n s := rfl
@[simp] theorem getFibre_modChan (k : Nat) (n : Nat) (f : Channel → Channel) (s : State) : getFibre n (modChan k f s) = getFibre n s := rfl
@[simp] theorem getFibre_modPort (k : Nat) (n : Nat) (f : Port → Port) (s : State) : getFibre n (modPort k f s) = getFibre n s := rfl
@[simp] theorem getFibre_modPip (k : Nat) (n : Nat) (f : Core → Core) (s : State) : getFibre n (modPip k f s) = getFibre n s := rfl
@[simp] theorem getFibre_modCurrant (k : Nat) (n : Nat) (f : Core → Core) (s : State) : getFibre n (modCurrant k f s) = getFibre n s := rfl
@[simp] theorem getFibre_modSlow (n : Nat) (f : Slow → Slow) (s : State) : getFibre n (modSlow f s) = getFibre n s := rfl
@[simp] theorem getFibre_modStone (n : Nat) (f : Stone → Stone) (s : State) : getFibre n (modStone f s) = getFibre n s := rfl
@[simp] theorem getFibre_modDisp (n : Nat) (f : Display → Display) (s : State) : getFibre n (modDisp f s) = getFibre n s := rfl
@[simp] theorem getFibre_modMem (n : Nat) (f : MemCtl → MemCtl) (s : State) : getFibre n (modMem f s) = getFibre n s := rfl
@[simp] theorem getExc_modExc (n : Nat) (f : Exc → Exc) (s : State) : getExc n (modExc n f s) = f (getExc n s) := tget_tmod_same _ _ _ _
theorem getExc_modExc_other (n k : Nat) (f : Exc → Exc) (s : State) (h : k ≠ n) : getExc k (modExc n f s) = getExc k s := tget_tmod_other _ _ _ _ _ h
theorem getExc_modExc_if (n k : Nat) (f : Exc → Exc) (s : State) : getExc k (modExc n f s) = if k = n then f (getExc n s) else getExc k s := tget_tmod _ _ _ _ _
@[simp] theorem getExc_advance (n : Nat) (t : DT) (s : State) : getExc n (advance t s) = getExc n s := by unfold advance; split <;> rfl
@[simp] theorem getExc_modRing (k : Nat) (n : Nat) (f : Ring → Ring) (s : State) : getExc n (modRing k f s) = getExc n s := rfl
@[simp] theorem getExc_modBunch (k : Nat) (n : Nat) (f : Bunch → Bunch) (s : State) : getExc n (modBunch k f s) = getExc n s := rfl
@[simp] theorem getExc_modPll (k : Nat) (n : Nat) (f : Pll → Pll) (s : State) : getExc n (modPll k f s) = getExc n s := rfl
@[simp] theorem getExc_modRf (k : Nat) (n : Nat) (f : RfChan → RfChan) (s : State) : getExc n (modRf k f s) = getExc n s := rfl
@[simp] theorem getExc_modOrx (k : Nat) (n : Nat) (f : OrxChan → OrxChan) (s : State) : getExc n (modOrx k f s) = getExc n s := rfl
@[simp] theorem getExc_modDdc (k : Nat) (n : Nat) (f : DdcPath → DdcPath) (s : State) : getExc n (modDdc k f s) = getExc n s := rfl
@[simp] theorem getExc_modSpec (k : Nat) (n : Nat) (f : Spectral → Spectral) (s : State) : getExc n (modSpec k f s) = getExc n s := rfl
@[simp] theorem getExc_modBloom (k : Nat) (n : Nat) (f : BloomMap → BloomMap) (s : State) : getExc n (modBloom k f s) = getExc n s := rfl
@[simp] theorem getExc_modTrig (k : Nat) (n : Nat) (f : TrigUnit → TrigUnit) (s : State) : getExc n (modTrig k f s) = getExc n s := rfl
@[simp] theorem getExc_modCap (k : Nat) (n : Nat) (f : Capture → Capture) (s : State) : getExc n (modCap k f s) = getExc n s := rfl
@[simp] theorem getExc_modGen (k : Nat) (n : Nat) (f : Gen → Gen) (s : State) : getExc n (modGen k f s) = getExc n s := rfl
@[simp] theorem getExc_modGov (k : Nat) (n : Nat) (f : Governor → Governor) (s : State) : getExc n (modGov k f s) = getExc n s := rfl
@[simp] theorem getExc_modFibre (k : Nat) (n : Nat) (f : Fibre → Fibre) (s : State) : getExc n (modFibre k f s) = getExc n s := rfl
@[simp] theorem getExc_modChan (k : Nat) (n : Nat) (f : Channel → Channel) (s : State) : getExc n (modChan k f s) = getExc n s := rfl
@[simp] theorem getExc_modPort (k : Nat) (n : Nat) (f : Port → Port) (s : State) : getExc n (modPort k f s) = getExc n s := rfl
@[simp] theorem getExc_modPip (k : Nat) (n : Nat) (f : Core → Core) (s : State) : getExc n (modPip k f s) = getExc n s := rfl
@[simp] theorem getExc_modCurrant (k : Nat) (n : Nat) (f : Core → Core) (s : State) : getExc n (modCurrant k f s) = getExc n s := rfl
@[simp] theorem getExc_modSlow (n : Nat) (f : Slow → Slow) (s : State) : getExc n (modSlow f s) = getExc n s := rfl
@[simp] theorem getExc_modStone (n : Nat) (f : Stone → Stone) (s : State) : getExc n (modStone f s) = getExc n s := rfl
@[simp] theorem getExc_modDisp (n : Nat) (f : Display → Display) (s : State) : getExc n (modDisp f s) = getExc n s := rfl
@[simp] theorem getExc_modMem (n : Nat) (f : MemCtl → MemCtl) (s : State) : getExc n (modMem f s) = getExc n s := rfl
@[simp] theorem getChan_modChan (n : Nat) (f : Channel → Channel) (s : State) : getChan n (modChan n f s) = f (getChan n s) := tget_tmod_same _ _ _ _
theorem getChan_modChan_other (n k : Nat) (f : Channel → Channel) (s : State) (h : k ≠ n) : getChan k (modChan n f s) = getChan k s := tget_tmod_other _ _ _ _ _ h
theorem getChan_modChan_if (n k : Nat) (f : Channel → Channel) (s : State) : getChan k (modChan n f s) = if k = n then f (getChan n s) else getChan k s := tget_tmod _ _ _ _ _
@[simp] theorem getChan_advance (n : Nat) (t : DT) (s : State) : getChan n (advance t s) = getChan n s := by unfold advance; split <;> rfl
@[simp] theorem getChan_modRing (k : Nat) (n : Nat) (f : Ring → Ring) (s : State) : getChan n (modRing k f s) = getChan n s := rfl
@[simp] theorem getChan_modBunch (k : Nat) (n : Nat) (f : Bunch → Bunch) (s : State) : getChan n (modBunch k f s) = getChan n s := rfl
@[simp] theorem getChan_modPll (k : Nat) (n : Nat) (f : Pll → Pll) (s : State) : getChan n (modPll k f s) = getChan n s := rfl
@[simp] theorem getChan_modRf (k : Nat) (n : Nat) (f : RfChan → RfChan) (s : State) : getChan n (modRf k f s) = getChan n s := rfl
@[simp] theorem getChan_modOrx (k : Nat) (n : Nat) (f : OrxChan → OrxChan) (s : State) : getChan n (modOrx k f s) = getChan n s := rfl
@[simp] theorem getChan_modDdc (k : Nat) (n : Nat) (f : DdcPath → DdcPath) (s : State) : getChan n (modDdc k f s) = getChan n s := rfl
@[simp] theorem getChan_modSpec (k : Nat) (n : Nat) (f : Spectral → Spectral) (s : State) : getChan n (modSpec k f s) = getChan n s := rfl
@[simp] theorem getChan_modBloom (k : Nat) (n : Nat) (f : BloomMap → BloomMap) (s : State) : getChan n (modBloom k f s) = getChan n s := rfl
@[simp] theorem getChan_modTrig (k : Nat) (n : Nat) (f : TrigUnit → TrigUnit) (s : State) : getChan n (modTrig k f s) = getChan n s := rfl
@[simp] theorem getChan_modCap (k : Nat) (n : Nat) (f : Capture → Capture) (s : State) : getChan n (modCap k f s) = getChan n s := rfl
@[simp] theorem getChan_modGen (k : Nat) (n : Nat) (f : Gen → Gen) (s : State) : getChan n (modGen k f s) = getChan n s := rfl
@[simp] theorem getChan_modGov (k : Nat) (n : Nat) (f : Governor → Governor) (s : State) : getChan n (modGov k f s) = getChan n s := rfl
@[simp] theorem getChan_modFibre (k : Nat) (n : Nat) (f : Fibre → Fibre) (s : State) : getChan n (modFibre k f s) = getChan n s := rfl
@[simp] theorem getChan_modExc (k : Nat) (n : Nat) (f : Exc → Exc) (s : State) : getChan n (modExc k f s) = getChan n s := rfl
@[simp] theorem getChan_modPort (k : Nat) (n : Nat) (f : Port → Port) (s : State) : getChan n (modPort k f s) = getChan n s := rfl
@[simp] theorem getChan_modPip (k : Nat) (n : Nat) (f : Core → Core) (s : State) : getChan n (modPip k f s) = getChan n s := rfl
@[simp] theorem getChan_modCurrant (k : Nat) (n : Nat) (f : Core → Core) (s : State) : getChan n (modCurrant k f s) = getChan n s := rfl
@[simp] theorem getChan_modSlow (n : Nat) (f : Slow → Slow) (s : State) : getChan n (modSlow f s) = getChan n s := rfl
@[simp] theorem getChan_modStone (n : Nat) (f : Stone → Stone) (s : State) : getChan n (modStone f s) = getChan n s := rfl
@[simp] theorem getChan_modDisp (n : Nat) (f : Display → Display) (s : State) : getChan n (modDisp f s) = getChan n s := rfl
@[simp] theorem getChan_modMem (n : Nat) (f : MemCtl → MemCtl) (s : State) : getChan n (modMem f s) = getChan n s := rfl
@[simp] theorem getPort_modPort (n : Nat) (f : Port → Port) (s : State) : getPort n (modPort n f s) = f (getPort n s) := tget_tmod_same _ _ _ _
theorem getPort_modPort_other (n k : Nat) (f : Port → Port) (s : State) (h : k ≠ n) : getPort k (modPort n f s) = getPort k s := tget_tmod_other _ _ _ _ _ h
theorem getPort_modPort_if (n k : Nat) (f : Port → Port) (s : State) : getPort k (modPort n f s) = if k = n then f (getPort n s) else getPort k s := tget_tmod _ _ _ _ _
@[simp] theorem getPort_advance (n : Nat) (t : DT) (s : State) : getPort n (advance t s) = getPort n s := by unfold advance; split <;> rfl
@[simp] theorem getPort_modRing (k : Nat) (n : Nat) (f : Ring → Ring) (s : State) : getPort n (modRing k f s) = getPort n s := rfl
@[simp] theorem getPort_modBunch (k : Nat) (n : Nat) (f : Bunch → Bunch) (s : State) : getPort n (modBunch k f s) = getPort n s := rfl
@[simp] theorem getPort_modPll (k : Nat) (n : Nat) (f : Pll → Pll) (s : State) : getPort n (modPll k f s) = getPort n s := rfl
@[simp] theorem getPort_modRf (k : Nat) (n : Nat) (f : RfChan → RfChan) (s : State) : getPort n (modRf k f s) = getPort n s := rfl
@[simp] theorem getPort_modOrx (k : Nat) (n : Nat) (f : OrxChan → OrxChan) (s : State) : getPort n (modOrx k f s) = getPort n s := rfl
@[simp] theorem getPort_modDdc (k : Nat) (n : Nat) (f : DdcPath → DdcPath) (s : State) : getPort n (modDdc k f s) = getPort n s := rfl
@[simp] theorem getPort_modSpec (k : Nat) (n : Nat) (f : Spectral → Spectral) (s : State) : getPort n (modSpec k f s) = getPort n s := rfl
@[simp] theorem getPort_modBloom (k : Nat) (n : Nat) (f : BloomMap → BloomMap) (s : State) : getPort n (modBloom k f s) = getPort n s := rfl
@[simp] theorem getPort_modTrig (k : Nat) (n : Nat) (f : TrigUnit → TrigUnit) (s : State) : getPort n (modTrig k f s) = getPort n s := rfl
@[simp] theorem getPort_modCap (k : Nat) (n : Nat) (f : Capture → Capture) (s : State) : getPort n (modCap k f s) = getPort n s := rfl
@[simp] theorem getPort_modGen (k : Nat) (n : Nat) (f : Gen → Gen) (s : State) : getPort n (modGen k f s) = getPort n s := rfl
@[simp] theorem getPort_modGov (k : Nat) (n : Nat) (f : Governor → Governor) (s : State) : getPort n (modGov k f s) = getPort n s := rfl
@[simp] theorem getPort_modFibre (k : Nat) (n : Nat) (f : Fibre → Fibre) (s : State) : getPort n (modFibre k f s) = getPort n s := rfl
@[simp] theorem getPort_modExc (k : Nat) (n : Nat) (f : Exc → Exc) (s : State) : getPort n (modExc k f s) = getPort n s := rfl
@[simp] theorem getPort_modChan (k : Nat) (n : Nat) (f : Channel → Channel) (s : State) : getPort n (modChan k f s) = getPort n s := rfl
@[simp] theorem getPort_modPip (k : Nat) (n : Nat) (f : Core → Core) (s : State) : getPort n (modPip k f s) = getPort n s := rfl
@[simp] theorem getPort_modCurrant (k : Nat) (n : Nat) (f : Core → Core) (s : State) : getPort n (modCurrant k f s) = getPort n s := rfl
@[simp] theorem getPort_modSlow (n : Nat) (f : Slow → Slow) (s : State) : getPort n (modSlow f s) = getPort n s := rfl
@[simp] theorem getPort_modStone (n : Nat) (f : Stone → Stone) (s : State) : getPort n (modStone f s) = getPort n s := rfl
@[simp] theorem getPort_modDisp (n : Nat) (f : Display → Display) (s : State) : getPort n (modDisp f s) = getPort n s := rfl
@[simp] theorem getPort_modMem (n : Nat) (f : MemCtl → MemCtl) (s : State) : getPort n (modMem f s) = getPort n s := rfl
@[simp] theorem getPip_modPip (n : Nat) (f : Core → Core) (s : State) : getPip n (modPip n f s) = f (getPip n s) := tget_tmod_same _ _ _ _
theorem getPip_modPip_other (n k : Nat) (f : Core → Core) (s : State) (h : k ≠ n) : getPip k (modPip n f s) = getPip k s := tget_tmod_other _ _ _ _ _ h
theorem getPip_modPip_if (n k : Nat) (f : Core → Core) (s : State) : getPip k (modPip n f s) = if k = n then f (getPip n s) else getPip k s := tget_tmod _ _ _ _ _
@[simp] theorem getPip_advance (n : Nat) (t : DT) (s : State) : getPip n (advance t s) = getPip n s := by unfold advance; split <;> rfl
@[simp] theorem getPip_modRing (k : Nat) (n : Nat) (f : Ring → Ring) (s : State) : getPip n (modRing k f s) = getPip n s := rfl
@[simp] theorem getPip_modBunch (k : Nat) (n : Nat) (f : Bunch → Bunch) (s : State) : getPip n (modBunch k f s) = getPip n s := rfl
@[simp] theorem getPip_modPll (k : Nat) (n : Nat) (f : Pll → Pll) (s : State) : getPip n (modPll k f s) = getPip n s := rfl
@[simp] theorem getPip_modRf (k : Nat) (n : Nat) (f : RfChan → RfChan) (s : State) : getPip n (modRf k f s) = getPip n s := rfl
@[simp] theorem getPip_modOrx (k : Nat) (n : Nat) (f : OrxChan → OrxChan) (s : State) : getPip n (modOrx k f s) = getPip n s := rfl
@[simp] theorem getPip_modDdc (k : Nat) (n : Nat) (f : DdcPath → DdcPath) (s : State) : getPip n (modDdc k f s) = getPip n s := rfl
@[simp] theorem getPip_modSpec (k : Nat) (n : Nat) (f : Spectral → Spectral) (s : State) : getPip n (modSpec k f s) = getPip n s := rfl
@[simp] theorem getPip_modBloom (k : Nat) (n : Nat) (f : BloomMap → BloomMap) (s : State) : getPip n (modBloom k f s) = getPip n s := rfl
@[simp] theorem getPip_modTrig (k : Nat) (n : Nat) (f : TrigUnit → TrigUnit) (s : State) : getPip n (modTrig k f s) = getPip n s := rfl
@[simp] theorem getPip_modCap (k : Nat) (n : Nat) (f : Capture → Capture) (s : State) : getPip n (modCap k f s) = getPip n s := rfl
@[simp] theorem getPip_modGen (k : Nat) (n : Nat) (f : Gen → Gen) (s : State) : getPip n (modGen k f s) = getPip n s := rfl
@[simp] theorem getPip_modGov (k : Nat) (n : Nat) (f : Governor → Governor) (s : State) : getPip n (modGov k f s) = getPip n s := rfl
@[simp] theorem getPip_modFibre (k : Nat) (n : Nat) (f : Fibre → Fibre) (s : State) : getPip n (modFibre k f s) = getPip n s := rfl
@[simp] theorem getPip_modExc (k : Nat) (n : Nat) (f : Exc → Exc) (s : State) : getPip n (modExc k f s) = getPip n s := rfl
@[simp] theorem getPip_modChan (k : Nat) (n : Nat) (f : Channel → Channel) (s : State) : getPip n (modChan k f s) = getPip n s := rfl
@[simp] theorem getPip_modPort (k : Nat) (n : Nat) (f : Port → Port) (s : State) : getPip n (modPort k f s) = getPip n s := rfl
@[simp] theorem getPip_modCurrant (k : Nat) (n : Nat) (f : Core → Core) (s : State) : getPip n (modCurrant k f s) = getPip n s := rfl
@[simp] theorem getPip_modSlow (n : Nat) (f : Slow → Slow) (s : State) : getPip n (modSlow f s) = getPip n s := rfl
@[simp] theorem getPip_modStone (n : Nat) (f : Stone → Stone) (s : State) : getPip n (modStone f s) = getPip n s := rfl
@[simp] theorem getPip_modDisp (n : Nat) (f : Display → Display) (s : State) : getPip n (modDisp f s) = getPip n s := rfl
@[simp] theorem getPip_modMem (n : Nat) (f : MemCtl → MemCtl) (s : State) : getPip n (modMem f s) = getPip n s := rfl
@[simp] theorem getCurrant_modCurrant (n : Nat) (f : Core → Core) (s : State) : getCurrant n (modCurrant n f s) = f (getCurrant n s) := tget_tmod_same _ _ _ _
theorem getCurrant_modCurrant_other (n k : Nat) (f : Core → Core) (s : State) (h : k ≠ n) : getCurrant k (modCurrant n f s) = getCurrant k s := tget_tmod_other _ _ _ _ _ h
theorem getCurrant_modCurrant_if (n k : Nat) (f : Core → Core) (s : State) : getCurrant k (modCurrant n f s) = if k = n then f (getCurrant n s) else getCurrant k s := tget_tmod _ _ _ _ _
@[simp] theorem getCurrant_advance (n : Nat) (t : DT) (s : State) : getCurrant n (advance t s) = getCurrant n s := by unfold advance; split <;> rfl
@[simp] theorem getCurrant_modRing (k : Nat) (n : Nat) (f : Ring → Ring) (s : State) : getCurrant n (modRing k f s) = getCurrant n s := rfl
@[simp] theorem getCurrant_modBunch (k : Nat) (n : Nat) (f : Bunch → Bunch) (s : State) : getCurrant n (modBunch k f s) = getCurrant n s := rfl
@[simp] theorem getCurrant_modPll (k : Nat) (n : Nat) (f : Pll → Pll) (s : State) : getCurrant n (modPll k f s) = getCurrant n s := rfl
@[simp] theorem getCurrant_modRf (k : Nat) (n : Nat) (f : RfChan → RfChan) (s : State) : getCurrant n (modRf k f s) = getCurrant n s := rfl
@[simp] theorem getCurrant_modOrx (k : Nat) (n : Nat) (f : OrxChan → OrxChan) (s : State) : getCurrant n (modOrx k f s) = getCurrant n s := rfl
@[simp] theorem getCurrant_modDdc (k : Nat) (n : Nat) (f : DdcPath → DdcPath) (s : State) : getCurrant n (modDdc k f s) = getCurrant n s := rfl
@[simp] theorem getCurrant_modSpec (k : Nat) (n : Nat) (f : Spectral → Spectral) (s : State) : getCurrant n (modSpec k f s) = getCurrant n s := rfl
@[simp] theorem getCurrant_modBloom (k : Nat) (n : Nat) (f : BloomMap → BloomMap) (s : State) : getCurrant n (modBloom k f s) = getCurrant n s := rfl
@[simp] theorem getCurrant_modTrig (k : Nat) (n : Nat) (f : TrigUnit → TrigUnit) (s : State) : getCurrant n (modTrig k f s) = getCurrant n s := rfl
@[simp] theorem getCurrant_modCap (k : Nat) (n : Nat) (f : Capture → Capture) (s : State) : getCurrant n (modCap k f s) = getCurrant n s := rfl
@[simp] theorem getCurrant_modGen (k : Nat) (n : Nat) (f : Gen → Gen) (s : State) : getCurrant n (modGen k f s) = getCurrant n s := rfl
@[simp] theorem getCurrant_modGov (k : Nat) (n : Nat) (f : Governor → Governor) (s : State) : getCurrant n (modGov k f s) = getCurrant n s := rfl
@[simp] theorem getCurrant_modFibre (k : Nat) (n : Nat) (f : Fibre → Fibre) (s : State) : getCurrant n (modFibre k f s) = getCurrant n s := rfl
@[simp] theorem getCurrant_modExc (k : Nat) (n : Nat) (f : Exc → Exc) (s : State) : getCurrant n (modExc k f s) = getCurrant n s := rfl
@[simp] theorem getCurrant_modChan (k : Nat) (n : Nat) (f : Channel → Channel) (s : State) : getCurrant n (modChan k f s) = getCurrant n s := rfl
@[simp] theorem getCurrant_modPort (k : Nat) (n : Nat) (f : Port → Port) (s : State) : getCurrant n (modPort k f s) = getCurrant n s := rfl
@[simp] theorem getCurrant_modPip (k : Nat) (n : Nat) (f : Core → Core) (s : State) : getCurrant n (modPip k f s) = getCurrant n s := rfl
@[simp] theorem getCurrant_modSlow (n : Nat) (f : Slow → Slow) (s : State) : getCurrant n (modSlow f s) = getCurrant n s := rfl
@[simp] theorem getCurrant_modStone (n : Nat) (f : Stone → Stone) (s : State) : getCurrant n (modStone f s) = getCurrant n s := rfl
@[simp] theorem getCurrant_modDisp (n : Nat) (f : Display → Display) (s : State) : getCurrant n (modDisp f s) = getCurrant n s := rfl
@[simp] theorem getCurrant_modMem (n : Nat) (f : MemCtl → MemCtl) (s : State) : getCurrant n (modMem f s) = getCurrant n s := rfl

/-! ## The place of the round-robin -/

@[simp] theorem served_dt (n : Nat) (s : State) : (served n s).dt = s.dt := rfl
@[simp] theorem served_fuse (n : Nat) (s : State) : (served n s).fuse = s.fuse := rfl
@[simp] theorem served_stone (n : Nat) (s : State) : (served n s).stone = s.stone := rfl
@[simp] theorem served_power (n : Nat) (s : State) : (served n s).power = s.power := rfl
@[simp] theorem served_bunch (n : Nat) (s : State) : (served n s).bunch = s.bunch := rfl
@[simp] theorem served_clock (n : Nat) (s : State) : (served n s).clock = s.clock := rfl
@[simp] theorem served_time (n : Nat) (s : State) : (served n s).time = s.time := rfl
@[simp] theorem served_rf (n : Nat) (s : State) : (served n s).rf = s.rf := rfl
@[simp] theorem served_orx (n : Nat) (s : State) : (served n s).orx = s.orx := rfl
@[simp] theorem served_ddc (n : Nat) (s : State) : (served n s).ddc = s.ddc := rfl
@[simp] theorem served_spec (n : Nat) (s : State) : (served n s).spec = s.spec := rfl
@[simp] theorem served_bloom (n : Nat) (s : State) : (served n s).bloom = s.bloom := rfl
@[simp] theorem served_trig (n : Nat) (s : State) : (served n s).trig = s.trig := rfl
@[simp] theorem served_lineLog (n : Nat) (s : State) : (served n s).lineLog = s.lineLog := rfl
@[simp] theorem served_trigIn (n : Nat) (s : State) : (served n s).trigIn = s.trigIn := rfl
@[simp] theorem served_cap (n : Nat) (s : State) : (served n s).cap = s.cap := rfl
@[simp] theorem served_gen (n : Nat) (s : State) : (served n s).gen = s.gen := rfl
@[simp] theorem served_route (n : Nat) (s : State) : (served n s).route = s.route := rfl
@[simp] theorem served_laser (n : Nat) (s : State) : (served n s).laser = s.laser := rfl
@[simp] theorem served_fibre (n : Nat) (s : State) : (served n s).fibre = s.fibre := rfl
@[simp] theorem served_slow (n : Nat) (s : State) : (served n s).slow = s.slow := rfl
@[simp] theorem served_exc (n : Nat) (s : State) : (served n s).exc = s.exc := rfl
@[simp] theorem served_dma (n : Nat) (s : State) : (served n s).dma = s.dma := rfl
@[simp] theorem served_memCtl (n : Nat) (s : State) : (served n s).memCtl = s.memCtl := rfl
@[simp] theorem served_pcie (n : Nat) (s : State) : (served n s).pcie = s.pcie := rfl
@[simp] theorem served_port (n : Nat) (s : State) : (served n s).port = s.port := rfl
@[simp] theorem served_endpoint (n : Nat) (s : State) : (served n s).endpoint = s.endpoint := rfl
@[simp] theorem served_disp (n : Nat) (s : State) : (served n s).disp = s.disp := rfl
@[simp] theorem served_health (n : Nat) (s : State) : (served n s).health = s.health := rfl
@[simp] theorem served_host (n : Nat) (s : State) : (served n s).host = s.host := rfl
@[simp] theorem served_dram (n : Nat) (s : State) : (served n s).dram = s.dram := rfl
@[simp] theorem served_sram (n : Nat) (s : State) : (served n s).sram = s.sram := rfl
@[simp] theorem served_freeCount (n : Nat) (s : State) : (served n s).freeCount = s.freeCount := rfl
@[simp] theorem served_pending (n : Nat) (s : State) : (served n s).pending = s.pending := rfl
@[simp] theorem served_rings (n : Nat) (s : State) : (served n s).rings = s.rings := rfl
@[simp] theorem served_steward_running (n : Nat) (s : State) : (served n s).steward.running = s.steward.running := rfl
@[simp] theorem served_steward_outage (n : Nat) (s : State) : (served n s).steward.outage = s.steward.outage := rfl
@[simp] theorem served_steward_halted (n : Nat) (s : State) : (served n s).steward.halted = s.steward.halted := rfl
@[simp] theorem served_steward_closed (n : Nat) (s : State) : (served n s).steward.closed = s.steward.closed := rfl
@[simp] theorem served_steward_held (n : Nat) (s : State) : (served n s).steward.held = s.steward.held := rfl
@[simp] theorem served_steward_heldLost (n : Nat) (s : State) : (served n s).steward.heldLost = s.steward.heldLost := rfl
@[simp] theorem served_steward_restarts (n : Nat) (s : State) : (served n s).steward.restarts = s.steward.restarts := rfl
@[simp] theorem served_steward_restartCount (n : Nat) (s : State) : (served n s).steward.restartCount = s.steward.restartCount := rfl
@[simp] theorem served_steward_handover (n : Nat) (s : State) : (served n s).steward.handover = s.steward.handover := rfl
@[simp] theorem served_steward_bootDt (n : Nat) (s : State) : (served n s).steward.bootDt = s.steward.bootDt := rfl
@[simp] theorem served_steward_lastRing (n : Nat) (s : State) : (served n s).steward.lastRing = n := rfl
@[simp] theorem getRing_served (k n : Nat) (s : State) : getRing n (served k s) = getRing n s := rfl
@[simp] theorem getBunch_served (k n : Nat) (s : State) : getBunch n (served k s) = getBunch n s := rfl
@[simp] theorem getPll_served (k n : Nat) (s : State) : getPll n (served k s) = getPll n s := rfl
@[simp] theorem getRf_served (k n : Nat) (s : State) : getRf n (served k s) = getRf n s := rfl
@[simp] theorem getOrx_served (k n : Nat) (s : State) : getOrx n (served k s) = getOrx n s := rfl
@[simp] theorem getDdc_served (k n : Nat) (s : State) : getDdc n (served k s) = getDdc n s := rfl
@[simp] theorem getSpec_served (k n : Nat) (s : State) : getSpec n (served k s) = getSpec n s := rfl
@[simp] theorem getBloom_served (k n : Nat) (s : State) : getBloom n (served k s) = getBloom n s := rfl
@[simp] theorem getTrig_served (k n : Nat) (s : State) : getTrig n (served k s) = getTrig n s := rfl
@[simp] theorem getCap_served (k n : Nat) (s : State) : getCap n (served k s) = getCap n s := rfl
@[simp] theorem getGen_served (k n : Nat) (s : State) : getGen n (served k s) = getGen n s := rfl
@[simp] theorem getGov_served (k n : Nat) (s : State) : getGov n (served k s) = getGov n s := rfl
@[simp] theorem getFibre_served (k n : Nat) (s : State) : getFibre n (served k s) = getFibre n s := rfl
@[simp] theorem getExc_served (k n : Nat) (s : State) : getExc n (served k s) = getExc n s := rfl
@[simp] theorem getChan_served (k n : Nat) (s : State) : getChan n (served k s) = getChan n s := rfl
@[simp] theorem getPort_served (k n : Nat) (s : State) : getPort n (served k s) = getPort n s := rfl
@[simp] theorem getPip_served (k n : Nat) (s : State) : getPip n (served k s) = getPip n s := rfl
@[simp] theorem getCurrant_served (k n : Nat) (s : State) : getCurrant n (served k s) = getCurrant n s := rfl

end Sys2Proof.Machine
end

