-- ==== Sys2Proof/Laws/Mailbox.lean ====
section
/-! SUPPORT. What taking a command, answering it and posting an event do (R46, R47). -/

namespace Sys2Proof.Machine

/-! ## Blocks: what answers and events leave alone -/

@[simp] theorem blocks_modRing (n : Nat) (f : Ring → Ring) (s : State) : blocks (modRing n f s) = blocks s := rfl
@[simp] theorem blocks_modPort (n : Nat) (f : Port → Port) (s : State) : blocks (modPort n f s) = blocks s := rfl

theorem blocks_each {α : Type} (xs : List α) (f : α → State → State) (h : ∀ x s, blocks (f x s) = blocks s) (s : State) :
    blocks (each xs f s) = blocks s := by
  unfold each
  induction xs generalizing s with
  | nil => rfl
  | cons x xs ih => rw [List.foldl_cons, ih, h]

@[simp] theorem blocks_storeAt (l a : Nat) (bs : List Byte) (s : State) : blocks (storeAt l a bs s) = blocks s := by
  unfold storeAt unpoison
  split
  · rfl
  · split <;> rfl

@[simp] theorem blocks_toHost (a : Nat) (bs : List Byte) (s : State) : blocks (toHost a bs s) = blocks s := blocks_storeAt 0 a bs s

@[simp] theorem blocks_sendMsi (f v : Nat) (s : State) : blocks (sendMsi f v s) = blocks s := by
  unfold sendMsi
  dsimp only
  repeat' (first | rfl | split)

@[simp] theorem blocks_signalRing (n : Nat) (s : State) : blocks (signalRing n s) = blocks s := by simp [signalRing]

@[simp] theorem blocks_endpointSend (n first count : Nat) (s : State) : blocks (endpointSend n first count s) = blocks s := by
  unfold endpointSend
  dsimp only
  repeat' (first | rfl | split)

@[simp] theorem blocks_publishMany (n count : Nat) (s : State) : blocks (publishMany n count s) = blocks s := by
  unfold publishMany
  dsimp only
  split <;> simp

@[simp] theorem blocks_publish (n : Nat) (bs : List Byte) (s : State) : blocks (publish n bs s) = blocks s := by simp [publish]

@[simp] theorem blocks_writeEvent (e : Event) (n : Nat) (s : State) : blocks (writeEvent e n s) = blocks s := by
  unfold writeEvent
  dsimp only
  split <;> simp

@[simp] theorem blocks_deliverEvent (e : Event) (s : State) : blocks (deliverEvent e s) = blocks s :=
  blocks_each _ _ (fun n s => blocks_writeEvent e n s) s

@[simp] theorem blocks_postEvent (e : Event) (s : State) : blocks (postEvent e s) = blocks s := by
  unfold postEvent
  repeat' (first | rfl | (simp; done) | split)

@[simp] theorem blocks_event (code sev unit : Nat) (fs : List (Nat × Nat × Nat)) (s : State) :
    blocks (event code sev unit fs s) = blocks s := blocks_postEvent _ s

@[simp] theorem blocks_eventAt (dt : DT) (code sev unit : Nat) (fs : List (Nat × Nat × Nat)) (s : State) :
    blocks (eventAt dt code sev unit fs s) = blocks s := blocks_postEvent _ s

/-- Only bunches of direct commands are freed. -/
@[simp] theorem blocks_freeDirect (ref : CmdRef) (s : State) : blocks (freeDirect ref s) = blocks s := by
  simp only [freeDirect, blocks, List.filter_filter]
  congr 2
  refine List.filter_congr fun b _ => ?_
  cases b.2.direct <;> simp

@[simp] theorem blocks_flushCompletions (n k : Nat) (s : State) : blocks (flushCompletions n k s) = blocks s := by
  induction k generalizing s with
  | zero => rfl
  | succ k ih =>
    unfold flushCompletions
    dsimp only
    repeat' (first | rfl | (simp [ih]; done) | split)

@[simp] theorem blocks_complete (ref : CmdRef) (d : Done) (s : State) : blocks (complete ref d s) = blocks s := by
  unfold complete
  split
  · rfl
  · simp

@[simp] theorem blocks_ok (ref : CmdRef) (r : Nat) (s : State) : blocks (ok ref r s) = blocks s := blocks_complete ref _ s
@[simp] theorem blocks_fail (ref : CmdRef) (st r : Nat) (s : State) : blocks (fail ref st r s) = blocks s :=
  blocks_complete ref _ s

@[simp] theorem blocks_completeOpt (ref : Option CmdRef) (d : Done) (s : State) : blocks (completeOpt ref d s) = blocks s := by
  unfold completeOpt
  split <;> simp

@[simp] theorem blocks_flushPaired (n : Nat) (s : State) : blocks (flushPaired n s) = blocks s :=
  blocks_each _ _ (fun _ s => blocks_flushCompletions _ _ s) s

@[simp] theorem blocks_resumeRings (s : State) : blocks (resumeRings s) = blocks s := by
  unfold resumeRings
  dsimp only
  rw [blocks_each _ _ (fun _ s => blocks_flushCompletions _ _ s), blocks_each _ _ (fun _ s => blocks_signalRing _ s)]

@[simp] theorem blocks_taken (c : Cmd) (s : State) : blocks (taken c s) = blocks (advance c.t s) := rfl

@[simp] theorem getRing_freeDirect (n : Nat) (ref : CmdRef) (s : State) : getRing n (freeDirect ref s) = getRing n s := rfl

/-! ## Taking a command -/

@[simp] theorem canTake_advance (n : Nat) (t : DT) (s : State) : canTake n (advance t s) = canTake n s := by
  rw [advance_eq]; rfl

/-- Everything taking a command can do: its meaning, a BADARG of REASON 0, or nothing but time. -/
theorem takeCommand_cases (op : Nat) (go : Ctx → State → State) (c : Cmd) (s : State) :
    takeCommand op go c s =
      if canTake c.ring s = true then
        if fld c.entry 0 2 = op then go (ctxOf c s) (taken c s) else fail (ctxOf c s).ref stBadArg 0 (taken c s)
      else advance c.t s := by
  simp only [takeCommand, canTake_advance, getRing_advance]
  rfl

/-- A command that Korsyn can take goes to its meaning (R42). -/
theorem takeCommand_sent {op : Nat} {c : Cmd} {s : State} (go : Ctx → State → State) (h : Sent op c s) :
    takeCommand op go c s = go (ctxOf c s) (taken c s) := by
  rw [takeCommand_cases, if_pos h.2, if_pos h.1]

/-! ## The lowest wrong offset (R398) -/

theorem badOffset_go (cs : Checks) (b : Option Nat) :
    cs.foldl (fun best c => if c.2 then some (match best with | some b => min b c.1 | none => c.1) else best) b = none ↔
      b = none ∧ ∀ c ∈ cs, c.2 = false := by
  induction cs generalizing b with
  | nil => simp
  | cons c cs ih =>
    rw [List.foldl_cons, ih]
    cases h : c.2 <;> simp [h]

/-- Nothing is wrong exactly when no check fails. -/
theorem badOffset_none (cs : Checks) : badOffset cs = none ↔ ∀ c ∈ cs, c.2 = false := by
  exact (badOffset_go cs none).trans (by simp)

@[simp] theorem badOffset_nil : badOffset [] = none := rfl

@[simp] theorem badOffset_cons (c : Nat × Bool) (cs : Checks) :
    badOffset (c :: cs) = none ↔ c.2 = false ∧ badOffset cs = none := by simp [badOffset_none]

@[simp] theorem badOffset_append (as bs : Checks) :
    badOffset (as ++ bs) = none ↔ badOffset as = none ∧ badOffset bs = none := by
  simp only [badOffset_none, List.mem_append]
  exact ⟨fun h => ⟨fun c hc => h c (.inl hc), fun c hc => h c (.inr hc)⟩, fun h c hc => hc.elim (h.1 c) (h.2 c)⟩

/-- Reserved bytes are right exactly when they are zero (R13). -/
@[simp] theorem badOffset_reserved (e : Entry) (a b : Nat) : badOffset (reserved e a b) = none ↔ ZeroBytes e a b := by
  simp only [badOffset_none, reserved, List.mem_map, List.mem_range, ZeroBytes]
  constructor
  · intro h i h1 h2
    have := h (i, fld e i 1 != 0) ⟨i - a, by omega, by simp [Nat.add_sub_cancel' h1]⟩
    simpa using this
  · rintro h _ ⟨i, hi, rfl⟩
    simpa using h (a + i) (by omega) (by omega)

theorem fld_split (e : Entry) (off size i : Nat) (h : i < size) : fld e (off + i) 1 = fld e off size / 256 ^ i % 256 := by
  unfold fld
  have h1 : (256 : Nat) ^ (off + i) = 256 ^ off * 256 ^ i := Nat.pow_add _ _ _
  rw [h1, ← Nat.div_div_eq_div_mul, Nat.pow_one]
  generalize e.toNat / 256 ^ off = v
  obtain ⟨m, rfl⟩ : ∃ m, size = i + 1 + m := ⟨size - i - 1, by omega⟩
  have h2 : (256 : Nat) ^ (i + 1 + m) = 256 ^ i * (256 * 256 ^ m) := by rw [Nat.pow_add, Nat.pow_succ, Nat.mul_assoc]
  rw [h2, Nat.mod_mul_right_div_self, Nat.mod_mod_of_dvd _ (Nat.dvd_mul_right 256 _)]

theorem fld_lt (e : Entry) (off size : Nat) : fld e off size < 256 ^ size := Nat.mod_lt _ (Nat.pow_pos (by decide))

/-- Reserved bits of a byte above its k lowest are zero exactly when the byte is below 2^k (R398). -/
theorem badOffset_reservedBits_byte (e : Entry) (off k : Nat) (hk : k ≤ 8) :
    badOffset (reservedBits e off 1 (2 ^ k - 1)) = none ↔ fld e off 1 < 2 ^ k := by
  have h0 : (2 ^ k - 1) / 256 ^ 0 % 256 = 2 ^ k - 1 := by
    have : 2 ^ k ≤ 2 ^ 8 := Nat.pow_le_pow_right (by decide) hk
    have h1 : 1 ≤ 2 ^ k := Nat.one_le_two_pow
    rw [Nat.pow_zero, Nat.div_one, Nat.mod_eq_of_lt (by omega)]
  rw [reservedBits]
  simp only [List.range_succ, List.range_zero, List.nil_append, List.map_cons, List.map_nil, badOffset_cons, badOffset_nil, and_true, h0,
    Nat.add_zero, Nat.and_two_pow_sub_one_eq_mod, bne_eq_false_iff_eq]
  constructor
  · intro h; rw [h]; exact Nat.mod_lt _ (Nat.two_pow_pos k)
  · intro h; exact (Nat.mod_eq_of_lt h).symm

/-- The widths of fields the spec reserves part of. -/
@[simp] theorem badOffset_reservedBits_1 (e : Entry) (off : Nat) : badOffset (reservedBits e off 1 1) = none ↔ fld e off 1 < 2 :=
  badOffset_reservedBits_byte e off 1 (by decide)
@[simp] theorem badOffset_reservedBits_3 (e : Entry) (off : Nat) : badOffset (reservedBits e off 1 3) = none ↔ fld e off 1 < 4 :=
  badOffset_reservedBits_byte e off 2 (by decide)
@[simp] theorem badOffset_reservedBits_7 (e : Entry) (off : Nat) : badOffset (reservedBits e off 1 7) = none ↔ fld e off 1 < 8 :=
  badOffset_reservedBits_byte e off 3 (by decide)
@[simp] theorem badOffset_reservedBits_15 (e : Entry) (off : Nat) : badOffset (reservedBits e off 1 15) = none ↔ fld e off 1 < 16 :=
  badOffset_reservedBits_byte e off 4 (by decide)
@[simp] theorem badOffset_reservedBits_31 (e : Entry) (off : Nat) : badOffset (reservedBits e off 1 31) = none ↔ fld e off 1 < 32 :=
  badOffset_reservedBits_byte e off 5 (by decide)
@[simp] theorem badOffset_reservedBits_63 (e : Entry) (off : Nat) : badOffset (reservedBits e off 1 63) = none ↔ fld e off 1 < 64 :=
  badOffset_reservedBits_byte e off 6 (by decide)

/-- Reserved bits of an 8-byte field above its 48 lowest are zero exactly when the field is below 2^48. -/
@[simp] theorem badOffset_reservedBits_48 (e : Entry) (off : Nat) :
    badOffset (reservedBits e off 8 (2 ^ 48 - 1)) = none ↔ fld e off 8 < 2 ^ 48 := by
  have hlt := fld_lt e off 8
  have hb : ∀ i, fld e (off + i) 1 &&& 255 = fld e (off + i) 1 := fun i => by
    rw [Nat.and_two_pow_sub_one_eq_mod _ 8]; exact Nat.mod_eq_of_lt (fld_lt e (off + i) 1)
  have h6 := fld_split e off 8 6 (by decide)
  have h7 := fld_split e off 8 7 (by decide)
  rw [reservedBits]
  simp only [List.range_succ, List.range_zero, List.nil_append, List.cons_append, List.map_cons, List.map_nil, badOffset_cons, badOffset_nil,
    and_true, bne_eq_false_iff_eq]
  have hb0 : fld e off 1 &&& 255 = fld e off 1 := hb 0
  norm_num [hb, hb0]
  norm_num at h6 h7 hlt
  omega

/-- Reserved bits of a 2-byte field above its lowest byte are zero exactly when the field is below 256. -/
@[simp] theorem badOffset_reservedBits_255 (e : Entry) (off : Nat) : badOffset (reservedBits e off 2 255) = none ↔ fld e off 2 < 256 := by
  have hlt := fld_lt e off 2
  have hb : ∀ i, fld e (off + i) 1 &&& 255 = fld e (off + i) 1 := fun i => by
    rw [Nat.and_two_pow_sub_one_eq_mod _ 8]; exact Nat.mod_eq_of_lt (fld_lt e (off + i) 1)
  have h1 := fld_split e off 2 1 (by decide)
  rw [reservedBits]
  simp only [List.range_succ, List.range_zero, List.nil_append, List.cons_append, List.map_cons, List.map_nil, badOffset_cons, badOffset_nil,
    and_true, bne_eq_false_iff_eq]
  have hb0 : fld e off 1 &&& 255 = fld e off 1 := hb 0
  norm_num [hb, hb0]
  norm_num at h1 hlt
  omega

/-- A clean envelope passes every check of it. -/
theorem envelope_alone {m : Bool} {r : UnitRule} {unit : Nat} {c : Cmd} (s : State) (h : Alone unit c) (hu : unitWrong r unit = false) :
    badOffset (envelope m r (ctxOf c s)) = none := by
  obtain ⟨h2, h8, h10, hz⟩ := h
  have h3 : fld c.entry 3 1 = 0 := by unfold fld at *; omega
  have hb : bit 0 0 = false := rfl
  have h21 : fld c.entry 2 1 = 0 := by unfold fld at *; omega
  simp [envelope, ctxOf, Ctx.inBunch, Ctx.bunchId, Ctx.unit, h2, h8, h10, h3, h21, hb, hu, hz]

@[simp] theorem alone_inBunch {unit : Nat} {c : Cmd} (s : State) (h : Alone unit c) : (ctxOf c s).inBunch = false := by
  simp [Ctx.inBunch, ctxOf, h.1, bit]

@[simp] theorem alone_unit {unit : Nat} {c : Cmd} (s : State) (h : Alone unit c) : (ctxOf c s).unit = unit := h.2.2.1

@[simp] theorem alone_quiet {unit : Nat} {c : Cmd} (s : State) (h : Alone unit c) : (ctxOf c s).ref.quiet = false := by
  simp [ctxOf, h.1, bit]

/-- A command that is no member runs its own meaning when its envelope and its own fields are right. -/
theorem plainCommand_sent {op : Nat} {r : UnitRule} {c : Cmd} {s : State} (wrong : Ctx → State → Checks) (go : Ctx → State → State)
    (h : Sent op c s) {unit : Nat} (ha : Alone unit c) (hu : unitWrong r unit = false)
    (hw : badOffset (wrong (ctxOf c s) (taken c s)) = none) :
    plainCommand op r wrong go c s = go (ctxOf c s) (taken c s) := by
  unfold plainCommand
  rw [takeCommand_sent _ h]
  have : badOffset (envelope false r (ctxOf c s) ++ wrong (ctxOf c s) (taken c s)) = none := by
    rw [badOffset_append]; exact ⟨envelope_alone s ha hu, hw⟩
  simp only [this]

/-! ## Completions (R46) -/

@[simp] theorem getRing_sendMsi (f v n : Nat) (s : State) : getRing n (sendMsi f v s) = getRing n s := by
  unfold sendMsi
  dsimp only
  repeat' (first | rfl | split)

theorem getRing_signalRing (n k : Nat) (s : State) : getRing k (signalRing n s) = if k = n then { getRing n s with unsignalled := 0 } else getRing k s := by
  simp only [signalRing, getRing_sendMsi, getRing_modRing_if]

@[simp] theorem memAt_freeDirect (l : Nat) (ref : CmdRef) (s : State) : memAt l (freeDirect ref s) = memAt l s := rfl
@[simp] theorem memAt_modRing (l n : Nat) (f : Ring → Ring) (s : State) : memAt l (modRing n f s) = memAt l s := rfl
@[simp] theorem memAt_modPort (l n : Nat) (f : Port → Port) (s : State) : memAt l (modPort n f s) = memAt l s := rfl
@[simp] theorem memAt_advance (l : Nat) (t : DT) (s : State) : memAt l (advance t s) = memAt l s := by rw [advance_eq]; rfl
@[simp] theorem memAt_sendMsi (f v l : Nat) (s : State) : memAt l (sendMsi f v s) = memAt l s := by
  unfold sendMsi
  dsimp only
  repeat' (first | rfl | split)
@[simp] theorem memAt_signalRing (n l : Nat) (s : State) : memAt l (signalRing n s) = memAt l s := by simp [signalRing]
@[simp] theorem memAt_endpointSend (n first count l : Nat) (s : State) : memAt l (endpointSend n first count s) = memAt l s := by
  unfold endpointSend
  dsimp only
  repeat' (first | rfl | split)
@[simp] theorem memAt_publishMany (n count l : Nat) (s : State) : memAt l (publishMany n count s) = memAt l s := by
  unfold publishMany
  dsimp only
  split <;> simp

theorem memAt_storeAt_same (l a : Nat) (bs : List Byte) (s : State) : memAt l (storeAt l a bs s) = writeBytes (memAt l s) a bs := by
  unfold storeAt memAt
  split
  · rfl
  · split <;> rfl

theorem memAt_same (l k : Nat) (s : State) (h : SameMemory l k) : memAt l s = memAt k s := by
  unfold memAt
  rcases h with h | h | h
  · rw [if_pos h.1, if_pos h.2]
  · rw [h.1, h.2]
  · rw [if_neg (by omega), if_neg (by omega), if_neg (by omega), if_neg (by omega)]

theorem memAt_storeAt_other (l k a : Nat) (bs : List Byte) (s : State) (h : ¬ SameMemory k l) :
    memAt k (storeAt l a bs s) = memAt k s := by
  unfold SameMemory at h
  unfold storeAt memAt
  by_cases h1 : l < 2
  · rw [if_pos h1]; by_cases h2 : k < 2
    · exact absurd (.inl ⟨h2, h1⟩) h
    · simp [h2]
  · rw [if_neg h1]
    by_cases h3 : l = 2
    · rw [if_pos h3]; by_cases h2 : k < 2
      · simp [h2, unpoison]
      · by_cases h4 : k = 2
        · exact absurd (.inr (.inl ⟨h4, h3⟩)) h
        · simp [h2, h4, unpoison]
    · rw [if_neg h3]
      by_cases h2 : k < 2
      · simp [h2]
      · by_cases h4 : k = 2
        · simp [h4]
        · exact absurd (.inr (.inr ⟨by omega, by omega⟩)) h

/-- Storing bytes leaves every other byte. -/
theorem onlyStored_storeAt (l a : Nat) (bs : List Byte) (s : State) : OnlyStored l a bs.length s (storeAt l a bs s) := by
  intro k x h
  by_cases hk : SameMemory k l
  · rw [memAt_same k l _ hk, memAt_same k l _ hk, memAt_storeAt_same, readByte_writeBytes_outside _ _ _ _ (h hk)]
  · rw [memAt_storeAt_other _ _ _ _ _ hk]

@[simp] theorem length_leBytes (n v : Nat) : (leBytes n v).length = n := by
  induction n generalizing v with
  | zero => rfl
  | succ n ih => simp [leBytes, ih]

@[simp] theorem length_completionBytes (ref : CmdRef) (d : Done) (p : Bool) : (completionBytes ref d p).length = 16 := by
  simp [completionBytes]

@[simp] theorem length_eventBytes (e : Event) (p l : Bool) (n : Nat) : (eventBytes e p l n).length = 32 := by
  simp [eventBytes]

@[simp] theorem getRing_storeAt (l a n : Nat) (bs : List Byte) (s : State) : getRing n (storeAt l a bs s) = getRing n s := by
  unfold storeAt unpoison
  split
  · rfl
  · split <;> rfl

theorem getRing_endpointSend_other (n first count k : Nat) (s : State) (h : k ≠ n) : getRing k (endpointSend n first count s) = getRing k s := by
  unfold endpointSend
  dsimp only
  split
  · rfl
  · split
    · split
      · exact getRing_modRing_other n k (fun r => { r with cons := r.prod }) s h
      · exact getRing_modRing_other _ _ _ _ h
    · rfl

theorem prod_endpointSend (n first count : Nat) (s : State) : (getRing n (endpointSend n first count s)).prod = (getRing n s).prod := by
  unfold endpointSend
  dsimp only
  split
  · rfl
  · split
    · split
      · exact (congrArg Ring.prod (getRing_modRing n (fun r => { r with cons := r.prod }) s)).trans rfl
      · rw [getRing_modRing]
    · rfl

theorem getRing_publishMany_other (n count k : Nat) (s : State) (h : k ≠ n) : getRing k (publishMany n count s) = getRing k s := by
  unfold publishMany
  dsimp only
  split <;> simp [getRing_signalRing, h, getRing_endpointSend_other _ _ _ _ _ h, getRing_modRing_other _ _ _ _ h]

theorem prod_publishMany (n count : Nat) (s : State) :
    (getRing n (publishMany n count s)).prod = (getRing n s).prod + BitVec.ofNat 16 count := by
  unfold publishMany
  dsimp only
  split <;> simp [getRing_signalRing, prod_endpointSend]

/-- What publishing one entry does: the bytes stand at its address, its ring's producer index is one up, other rings and
other bytes are as before. -/
theorem publish_spec (n : Nat) (bs : List Byte) (s : State) :
    (getRing n (publish n bs s)).prod = (getRing n s).prod + 1 ∧
    (∀ k, k ≠ n → getRing k (publish n bs s) = getRing k s) ∧
    readBytes (memAt (getRing n s).location (publish n bs s)) (entryAddr (getRing n s) (getRing n s).prod.toNat) bs.length = bs ∧
    OnlyStored (getRing n s).location (entryAddr (getRing n s) (getRing n s).prod.toNat) bs.length s (publish n bs s) := by
  refine ⟨?_, ?_, ?_, ?_⟩
  · simp [publish, prod_publishMany]
  · intro k h; simp [publish, getRing_publishMany_other _ _ _ _ h]
  · simp [publish, memAt_storeAt_same]
  · have := onlyStored_storeAt (getRing n s).location (entryAddr (getRing n s) (getRing n s).prod.toNat) bs s
    simpa [OnlyStored, publish] using this

theorem ringRoom_congr (n : Nat) (s u : State) (h : SameMail s u) : ringRoom (getRing n u) u = ringRoom (getRing n s) s := by
  obtain ⟨hr, -, hl, hp⟩ := h
  unfold ringRoom ringReach ringStalled getRing
  rw [hr, hl, hp]

/-- A taken command that completes, its ring having nothing else in flight, is answered: the completion stands in its
completion ring and nothing else is stored (R46). -/
theorem complete_answered {c : Cmd} {d : Done} {s u : State} (hs : canTake c.ring s = true) (hh : Unhindered c s)
    (hq : d.status = 0 → (ctxOf c s).ref.quiet = false) (hu : SameMail (taken c s) u) :
    Answered c d s (complete (ctxOf c s).ref d u) ∧ OnlyAnswerStored c s u (complete (ctxOf c s).ref d u) ∧
      OtherRings c.ring (getRing c.ring s).pair s (complete (ctxOf c s).ref d u) := by
  obtain ⟨hin, hpair⟩ := hh
  have hur : u.steward.running = true := by
    have : (taken c s).steward.running = s.steward.running := by simp [taken]
    rw [hu.2.1, this]
    simp only [canTake, takeable, Bool.and_eq_true] at hs
    exact hs.1.1.1.1.1.1.1.1
  have hroom : ringRoom (getRing (getRing c.ring s).pair u) u = true := by
    rw [ringRoom_congr _ _ _ hu]
    simp only [canTake, takeable, Bool.and_eq_true] at hs
    have := hs.1.2
    simpa [taken, getRing_modRing_other _ _ _ _ hpair, ringRoom, ringReach, ringStalled] using this
  have hg : getRing c.ring u = { getRing c.ring s with
      cons := (getRing c.ring s).cons + 1, inflight := [⟨(ctxOf c s).ref, none⟩] } := by
    have h1 : getRing c.ring u = getRing c.ring (taken c s) := by unfold getRing; rw [hu.1]
    rw [h1, taken, getRing_modRing, getRing_served, getRing_advance, hin]
    rfl
  have hgo : ∀ k, k ≠ c.ring → getRing k u = getRing k s := by
    intro k hk
    have h1 : getRing k u = getRing k (taken c s) := by unfold getRing; rw [hu.1]
    rw [h1, taken, getRing_modRing_other _ _ _ _ hk, getRing_served, getRing_advance]
  have hc : complete (ctxOf c s).ref d u =
      publish (getRing c.ring s).pair (completionBytes (ctxOf c s).ref d (ringPhase (answerRing c s)))
        (freeDirect (ctxOf c s).ref (modRing c.ring (fun r => { r with inflight := [] })
          (modRing c.ring (fun r => { r with inflight := markDone (ctxOf c s).ref d r.inflight }) u))) := by
    have hne : ¬(d.status = 0 ∧ (ctxOf c s).ref.quiet = true) := by
      rintro ⟨h1, h2⟩
      rw [hq h1] at h2
      exact absurd h2 (by decide)
    have hring : (ctxOf c s).ref.ring = c.ring := rfl
    simp only [complete, hur, Bool.not_true, Bool.false_eq_true, if_false, hring, getRing_modRing, hg, markDone,
      if_true, and_self, List.length_singleton, flushCompletions, modRing_steward]
    rw [if_neg hne]
    have h2 : getRing (getRing c.ring s).pair (modRing c.ring (fun r => { r with inflight := markDone (ctxOf c s).ref d r.inflight }) u)
        = getRing (getRing c.ring s).pair u := getRing_modRing_other _ _ _ _ hpair
    rw [h2]
    have h3 : ringRoom (getRing (getRing c.ring s).pair u)
      (modRing c.ring (fun r => { r with inflight := markDone (ctxOf c s).ref d r.inflight }) u) = true := hroom
    rw [if_pos h3, hgo _ hpair]
    rfl
  rw [hc]
  generalize hv : freeDirect (ctxOf c s).ref (modRing c.ring (fun r => { r with inflight := [] })
          (modRing c.ring (fun r => { r with inflight := markDone (ctxOf c s).ref d r.inflight }) u)) = v
  have hvr : getRing c.ring v = { getRing c.ring s with cons := (getRing c.ring s).cons + 1, inflight := [] } := by
    rw [← hv]; simp [hg]
  have hvo : ∀ k, k ≠ c.ring → getRing k v = getRing k s := by
    intro k hk
    rw [← hv, getRing_freeDirect, getRing_modRing_other _ _ _ _ hk, getRing_modRing_other _ _ _ _ hk, hgo k hk]
  have hvm : ∀ l, memAt l v = memAt l u := by
    intro l; rw [← hv]; simp
  obtain ⟨p1, p2, p3, p4⟩ := publish_spec (getRing c.ring s).pair (completionBytes (ctxOf c s).ref d (ringPhase (answerRing c s))) v
  rw [hvo _ hpair] at p1 p3 p4
  rw [length_completionBytes] at p3 p4
  refine ⟨⟨?_, ?_, p1, p3⟩, ?_, ?_⟩
  · rw [p2 _ hpair.symm, hvr]
  · rw [p2 _ hpair.symm, hvr]
  · intro l a h
    rw [p4 l a h, hvm]
  · intro n h1 h2
    rw [p2 n h2, hvo n h1]

/-! ## The fields a meaning reads -/

theorem ctxOf_u8 (c : Cmd) (s : State) (k : Nat) : (ctxOf c s).u8 k = c.u8 k := rfl
theorem ctxOf_u16 (c : Cmd) (s : State) (k : Nat) : (ctxOf c s).u16 k = c.u16 k := rfl
theorem ctxOf_u32 (c : Cmd) (s : State) (k : Nat) : (ctxOf c s).u32 k = c.u32 k := rfl
theorem ctxOf_u64 (c : Cmd) (s : State) (k : Nat) : (ctxOf c s).u64 k = c.u64 k := rfl
theorem ctxOf_i16 (c : Cmd) (s : State) (k : Nat) : (ctxOf c s).i16 k = c.i16 k := rfl
theorem ctxOf_i32 (c : Cmd) (s : State) (k : Nat) : (ctxOf c s).i32 k = c.i32 k := rfl
theorem ctxOf_unit (c : Cmd) (s : State) : (ctxOf c s).unit = c.unit := rfl
@[simp] theorem ctxOf_e (c : Cmd) (s : State) : (ctxOf c s).e = c.entry := rfl
theorem ctxOf_t (c : Cmd) (s : State) : (ctxOf c s).t = (advance c.t s).dt := rfl

/-! ## What taking a command leaves alone -/

@[simp] theorem taken_fuse (c : Cmd) (s : State) : (taken c s).fuse = s.fuse := by simp [taken]
@[simp] theorem taken_stone (c : Cmd) (s : State) : (taken c s).stone = s.stone := by simp [taken]
@[simp] theorem taken_power (c : Cmd) (s : State) : (taken c s).power = s.power := by simp [taken]
@[simp] theorem taken_steward_running (c : Cmd) (s : State) : (taken c s).steward.running = s.steward.running := by simp [taken]
@[simp] theorem taken_steward_outage (c : Cmd) (s : State) : (taken c s).steward.outage = s.steward.outage := by simp [taken]
@[simp] theorem taken_steward_halted (c : Cmd) (s : State) : (taken c s).steward.halted = s.steward.halted := by simp [taken]
@[simp] theorem taken_steward_closed (c : Cmd) (s : State) : (taken c s).steward.closed = s.steward.closed := by simp [taken]
@[simp] theorem taken_steward_held (c : Cmd) (s : State) : (taken c s).steward.held = s.steward.held := by simp [taken]
@[simp] theorem taken_steward_heldLost (c : Cmd) (s : State) : (taken c s).steward.heldLost = s.steward.heldLost := by simp [taken]
@[simp] theorem taken_steward_restarts (c : Cmd) (s : State) : (taken c s).steward.restarts = s.steward.restarts := by simp [taken]
@[simp] theorem taken_steward_restartCount (c : Cmd) (s : State) : (taken c s).steward.restartCount = s.steward.restartCount := by simp [taken]
@[simp] theorem taken_steward_handover (c : Cmd) (s : State) : (taken c s).steward.handover = s.steward.handover := by simp [taken]
@[simp] theorem taken_steward_bootDt (c : Cmd) (s : State) : (taken c s).steward.bootDt = s.steward.bootDt := by simp [taken]
@[simp] theorem taken_bunch (c : Cmd) (s : State) : (taken c s).bunch = s.bunch := by simp [taken]
@[simp] theorem taken_clock (c : Cmd) (s : State) : (taken c s).clock = s.clock := by simp [taken]
@[simp] theorem taken_time (c : Cmd) (s : State) : (taken c s).time = s.time := by simp [taken]
@[simp] theorem taken_rf (c : Cmd) (s : State) : (taken c s).rf = s.rf := by simp [taken]
@[simp] theorem taken_orx (c : Cmd) (s : State) : (taken c s).orx = s.orx := by simp [taken]
@[simp] theorem taken_ddc (c : Cmd) (s : State) : (taken c s).ddc = s.ddc := by simp [taken]
@[simp] theorem taken_spec (c : Cmd) (s : State) : (taken c s).spec = s.spec := by simp [taken]
@[simp] theorem taken_bloom (c : Cmd) (s : State) : (taken c s).bloom = s.bloom := by simp [taken]
@[simp] theorem taken_trig (c : Cmd) (s : State) : (taken c s).trig = s.trig := by simp [taken]
@[simp] theorem taken_lineLog (c : Cmd) (s : State) : (taken c s).lineLog = s.lineLog := by simp [taken]
@[simp] theorem taken_trigIn (c : Cmd) (s : State) : (taken c s).trigIn = s.trigIn := by simp [taken]
@[simp] theorem taken_cap (c : Cmd) (s : State) : (taken c s).cap = s.cap := by simp [taken]
@[simp] theorem taken_gen (c : Cmd) (s : State) : (taken c s).gen = s.gen := by simp [taken]
@[simp] theorem taken_route (c : Cmd) (s : State) : (taken c s).route = s.route := by simp [taken]
@[simp] theorem taken_laser (c : Cmd) (s : State) : (taken c s).laser = s.laser := by simp [taken]
@[simp] theorem taken_fibre (c : Cmd) (s : State) : (taken c s).fibre = s.fibre := by simp [taken]
@[simp] theorem taken_slow (c : Cmd) (s : State) : (taken c s).slow = s.slow := by simp [taken]
@[simp] theorem taken_exc (c : Cmd) (s : State) : (taken c s).exc = s.exc := by simp [taken]
@[simp] theorem taken_dma (c : Cmd) (s : State) : (taken c s).dma = s.dma := by simp [taken]
@[simp] theorem taken_memCtl (c : Cmd) (s : State) : (taken c s).memCtl = s.memCtl := by simp [taken]
@[simp] theorem taken_pcie (c : Cmd) (s : State) : (taken c s).pcie = s.pcie := by simp [taken]
@[simp] theorem taken_port (c : Cmd) (s : State) : (taken c s).port = s.port := by simp [taken]
@[simp] theorem taken_endpoint (c : Cmd) (s : State) : (taken c s).endpoint = s.endpoint := by simp [taken]
@[simp] theorem taken_disp (c : Cmd) (s : State) : (taken c s).disp = s.disp := by simp [taken]
@[simp] theorem taken_health (c : Cmd) (s : State) : (taken c s).health = s.health := by simp [taken]
@[simp] theorem taken_host (c : Cmd) (s : State) : (taken c s).host = s.host := by simp [taken]
@[simp] theorem taken_dram (c : Cmd) (s : State) : (taken c s).dram = s.dram := by simp [taken]
@[simp] theorem taken_sram (c : Cmd) (s : State) : (taken c s).sram = s.sram := by simp [taken]
@[simp] theorem taken_freeCount (c : Cmd) (s : State) : (taken c s).freeCount = s.freeCount := by simp [taken]
@[simp] theorem taken_pending (c : Cmd) (s : State) : (taken c s).pending = s.pending := by simp [taken]
@[simp] theorem getBunch_taken (n : Nat) (c : Cmd) (s : State) : getBunch n (taken c s) = getBunch n s := by simp [getBunch]
@[simp] theorem getPll_taken (n : Nat) (c : Cmd) (s : State) : getPll n (taken c s) = getPll n s := by simp [getPll]
@[simp] theorem getRf_taken (n : Nat) (c : Cmd) (s : State) : getRf n (taken c s) = getRf n s := by simp [getRf]
@[simp] theorem getOrx_taken (n : Nat) (c : Cmd) (s : State) : getOrx n (taken c s) = getOrx n s := by simp [getOrx]
@[simp] theorem getDdc_taken (n : Nat) (c : Cmd) (s : State) : getDdc n (taken c s) = getDdc n s := by simp [getDdc]
@[simp] theorem getSpec_taken (n : Nat) (c : Cmd) (s : State) : getSpec n (taken c s) = getSpec n s := by simp [getSpec]
@[simp] theorem getBloom_taken (n : Nat) (c : Cmd) (s : State) : getBloom n (taken c s) = getBloom n s := by simp [getBloom]
@[simp] theorem getTrig_taken (n : Nat) (c : Cmd) (s : State) : getTrig n (taken c s) = getTrig n s := by simp [getTrig]
@[simp] theorem getCap_taken (n : Nat) (c : Cmd) (s : State) : getCap n (taken c s) = getCap n s := by simp [getCap]
@[simp] theorem getGen_taken (n : Nat) (c : Cmd) (s : State) : getGen n (taken c s) = getGen n s := by simp [getGen]
@[simp] theorem getGov_taken (n : Nat) (c : Cmd) (s : State) : getGov n (taken c s) = getGov n s := by simp [getGov]
@[simp] theorem getFibre_taken (n : Nat) (c : Cmd) (s : State) : getFibre n (taken c s) = getFibre n s := by simp [getFibre]
@[simp] theorem getExc_taken (n : Nat) (c : Cmd) (s : State) : getExc n (taken c s) = getExc n s := by simp [getExc]
@[simp] theorem getChan_taken (n : Nat) (c : Cmd) (s : State) : getChan n (taken c s) = getChan n s := by simp [getChan]
@[simp] theorem getPort_taken (n : Nat) (c : Cmd) (s : State) : getPort n (taken c s) = getPort n s := by simp [getPort]
@[simp] theorem getPip_taken (n : Nat) (c : Cmd) (s : State) : getPip n (taken c s) = getPip n s := by simp [getPip]
@[simp] theorem getCurrant_taken (n : Nat) (c : Cmd) (s : State) : getCurrant n (taken c s) = getCurrant n s := by simp [getCurrant]
@[simp] theorem rfPresent_taken (n : Nat) (c : Cmd) (s : State) : rfPresent n (taken c s) = rfPresent n s := by simp [rfPresent]
@[simp] theorem orxPresent_taken (n : Nat) (c : Cmd) (s : State) : orxPresent n (taken c s) = orxPresent n s := by simp [orxPresent]
@[simp] theorem dacPresent_taken (n : Nat) (c : Cmd) (s : State) : dacPresent n (taken c s) = dacPresent n s := by simp [dacPresent]
@[simp] theorem pipPresent_taken (n : Nat) (c : Cmd) (s : State) : pipPresent n (taken c s) = pipPresent n s := by simp [pipPresent]
@[simp] theorem currantPresent_taken (n : Nat) (c : Cmd) (s : State) : currantPresent n (taken c s) = currantPresent n s := by simp [currantPresent]
@[simp] theorem rfHealthy_taken (n : Nat) (c : Cmd) (s : State) : rfHealthy n (taken c s) = rfHealthy n s := by simp [rfHealthy]
@[simp] theorem orxHealthy_taken (n : Nat) (c : Cmd) (s : State) : orxHealthy n (taken c s) = orxHealthy n s := by simp [orxHealthy]
@[simp] theorem dacHealthy_taken (n : Nat) (c : Cmd) (s : State) : dacHealthy n (taken c s) = dacHealthy n s := by simp [dacHealthy]
@[simp] theorem pipHealthy_taken (n : Nat) (c : Cmd) (s : State) : pipHealthy n (taken c s) = pipHealthy n s := by simp [pipHealthy]
@[simp] theorem currantHealthy_taken (n : Nat) (c : Cmd) (s : State) : currantHealthy n (taken c s) = currantHealthy n s := by simp [currantHealthy]

/-- A taken command changes only the consumer index and the commands in flight of its own ring. -/
theorem getRing_taken (n : Nat) (c : Cmd) (s : State) : getRing n (taken c s) =
    if n = c.ring then { getRing c.ring s with
      cons := (getRing c.ring s).cons + 1, inflight := (getRing c.ring s).inflight ++ [⟨(ctxOf c s).ref, none⟩] }
    else getRing n s := by
  rw [taken, getRing_modRing_if]
  simp

@[simp] theorem taken_ring_created (n : Nat) (c : Cmd) (s : State) : (getRing n (taken c s)).created = (getRing n s).created := by
  rw [getRing_taken]; split <;> simp_all
@[simp] theorem taken_ring_kind (n : Nat) (c : Cmd) (s : State) : (getRing n (taken c s)).kind = (getRing n s).kind := by
  rw [getRing_taken]; split <;> simp_all
@[simp] theorem taken_ring_log2 (n : Nat) (c : Cmd) (s : State) : (getRing n (taken c s)).log2 = (getRing n s).log2 := by
  rw [getRing_taken]; split <;> simp_all
@[simp] theorem taken_ring_location (n : Nat) (c : Cmd) (s : State) : (getRing n (taken c s)).location = (getRing n s).location := by
  rw [getRing_taken]; split <;> simp_all
@[simp] theorem taken_ring_msix (n : Nat) (c : Cmd) (s : State) : (getRing n (taken c s)).msix = (getRing n s).msix := by
  rw [getRing_taken]; split <;> simp_all
@[simp] theorem taken_ring_entrySize (n : Nat) (c : Cmd) (s : State) : (getRing n (taken c s)).entrySize = (getRing n s).entrySize := by
  rw [getRing_taken]; split <;> simp_all
@[simp] theorem taken_ring_base (n : Nat) (c : Cmd) (s : State) : (getRing n (taken c s)).base = (getRing n s).base := by
  rw [getRing_taken]; split <;> simp_all
@[simp] theorem taken_ring_pair (n : Nat) (c : Cmd) (s : State) : (getRing n (taken c s)).pair = (getRing n s).pair := by
  rw [getRing_taken]; split <;> simp_all
@[simp] theorem taken_ring_modCount (n : Nat) (c : Cmd) (s : State) : (getRing n (taken c s)).modCount = (getRing n s).modCount := by
  rw [getRing_taken]; split <;> simp_all
@[simp] theorem taken_ring_modTime (n : Nat) (c : Cmd) (s : State) : (getRing n (taken c s)).modTime = (getRing n s).modTime := by
  rw [getRing_taken]; split <;> simp_all
@[simp] theorem taken_ring_nsMask (n : Nat) (c : Cmd) (s : State) : (getRing n (taken c s)).nsMask = (getRing n s).nsMask := by
  rw [getRing_taken]; split <;> simp_all
@[simp] theorem taken_ring_master (n : Nat) (c : Cmd) (s : State) : (getRing n (taken c s)).master = (getRing n s).master := by
  rw [getRing_taken]; split <;> simp_all
@[simp] theorem taken_ring_prod (n : Nat) (c : Cmd) (s : State) : (getRing n (taken c s)).prod = (getRing n s).prod := by
  rw [getRing_taken]; split <;> simp_all
@[simp] theorem taken_ring_stopped (n : Nat) (c : Cmd) (s : State) : (getRing n (taken c s)).stopped = (getRing n s).stopped := by
  rw [getRing_taken]; split <;> simp_all
@[simp] theorem taken_ring_seq (n : Nat) (c : Cmd) (s : State) : (getRing n (taken c s)).seq = (getRing n s).seq := by
  rw [getRing_taken]; split <;> simp_all
@[simp] theorem taken_ring_lost (n : Nat) (c : Cmd) (s : State) : (getRing n (taken c s)).lost = (getRing n s).lost := by
  rw [getRing_taken]; split <;> simp_all
@[simp] theorem taken_ring_prodChannel (n : Nat) (c : Cmd) (s : State) : (getRing n (taken c s)).prodChannel = (getRing n s).prodChannel := by
  rw [getRing_taken]; split <;> simp_all
@[simp] theorem taken_ring_consChannel (n : Nat) (c : Cmd) (s : State) : (getRing n (taken c s)).consChannel = (getRing n s).consChannel := by
  rw [getRing_taken]; split <;> simp_all
@[simp] theorem taken_ring_stream (n : Nat) (c : Cmd) (s : State) : (getRing n (taken c s)).stream = (getRing n s).stream := by
  rw [getRing_taken]; split <;> simp_all
@[simp] theorem taken_ring_streamSeq (n : Nat) (c : Cmd) (s : State) : (getRing n (taken c s)).streamSeq = (getRing n s).streamSeq := by
  rw [getRing_taken]; split <;> simp_all
@[simp] theorem taken_ring_published (n : Nat) (c : Cmd) (s : State) : (getRing n (taken c s)).published = (getRing n s).published := by
  rw [getRing_taken]; split <;> simp_all
@[simp] theorem taken_ring_vdif (n : Nat) (c : Cmd) (s : State) : (getRing n (taken c s)).vdif = (getRing n s).vdif := by
  rw [getRing_taken]; split <;> simp_all
@[simp] theorem notDataRing_taken (n : Nat) (c : Cmd) (s : State) : notDataRing n (taken c s) = notDataRing n s := by simp [notDataRing]
@[simp] theorem badRing_taken (n : Nat) (c : Cmd) (s : State) : badRing n (taken c s) = badRing n s := by simp [badRing]
@[simp] theorem thinRing_taken (n : Nat) (c : Cmd) (s : State) : thinRing n (taken c s) = thinRing n s := by simp [thinRing]
@[simp] theorem pathAbsent_taken (n : Nat) (c : Cmd) (s : State) : pathAbsent n (taken c s) = pathAbsent n s := by simp [pathAbsent]
@[simp] theorem slotHeld_taken (n : Nat) (c : Cmd) (s : State) : slotHeld n (taken c s) = slotHeld n s := by simp [slotHeld, dasRuns]
@[simp] theorem fibrePresent_taken (n : Nat) (c : Cmd) (s : State) : fibrePresent n (taken c s) = fibrePresent n s := by simp [fibrePresent]
@[simp] theorem persAbsent_taken (n : Nat) (c : Cmd) (s : State) : persAbsent n (taken c s) = persAbsent n s := by simp [persAbsent]
@[simp] theorem dasRuns_taken (n : Nat) (c : Cmd) (s : State) : dasRuns n (taken c s) = dasRuns n s := by simp [dasRuns]
@[simp] theorem dtsRuns_taken (n : Nat) (c : Cmd) (s : State) : dtsRuns n (taken c s) = dtsRuns n s := by simp [dtsRuns]
@[simp] theorem fibreRuns_taken (n : Nat) (c : Cmd) (s : State) : fibreRuns n (taken c s) = fibreRuns n s := by simp [fibreRuns]
@[simp] theorem rangePlan_taken (x : Ctx) (c : Cmd) (s : State) : rangePlan x (taken c s) = rangePlan x s := by
  simp [rangePlan, rangeRuns, openWrites]
@[simp] theorem openWrites_taken (c : Cmd) (s : State) : openWrites (taken c s) = openWrites s := by simp [openWrites]
@[simp] theorem badDecim_taken (n k : Nat) (c : Cmd) (s : State) : badDecim n k (taken c s) = badDecim n k s := by simp [badDecim]

/-- One reserved byte. -/
@[simp] theorem zeroBytes_one (e : Entry) (k : Nat) : ZeroBytes e k (k + 1) ↔ fld e k 1 = 0 :=
  ⟨fun h => h k (Nat.le_refl _) (by omega), fun h i h1 h2 => by obtain rfl : i = k := by omega
                                                                exact h⟩

/-! ## Configuration commands -/

/-- The envelope of a member of an open bunch passes every check of it. -/
theorem envelope_joining {r : UnitRule} {id unit : Nat} {c : Cmd} (s : State) (h : Joining id unit c) (hu : unitWrong r unit = false) :
    badOffset (envelope true r (ctxOf c s)) = none := by
  obtain ⟨h2, h8, h10, hz⟩ := h
  have h3 : fld c.entry 3 1 = 0 := by unfold fld at *; omega
  have h21 : fld c.entry 2 1 = 1 := by unfold fld at *; omega
  have hb : bit 1 0 = true := rfl
  simp [envelope, ctxOf, Ctx.inBunch, Ctx.bunchId, Ctx.unit, h2, h8, h10, h3, h21, hb, hu, hz]

theorem joining_inBunch {id unit : Nat} {c : Cmd} (s : State) (h : Joining id unit c) : (ctxOf c s).inBunch = true := by
  simp [Ctx.inBunch, ctxOf, h.1, bit]

/-- A configuration command whose fields are right and whose units are there and free configures (R50 to R58). -/
theorem clashCommand_configures {op : Nat} {rule : UnitRule} {wrong clash : Ctx → State → State → Checks} {absent : Ctx → State → Bool}
    {busy : Ctx → State → State → Bool} {members : Ctx → State → List Member} {result : Ctx → State → Nat} {c : Cmd} {s : State}
    {i : Instr} {ms : List Member} {r : Nat} {land : State → State}
    (hi : exec i s = .next (clashCommand op rule wrong clash absent busy members result c s))
    (h : Sent op c s) (hu : unitWrong rule c.unit = false)
    (hw : badOffset (wrong (ctxOf c s) (taken c s) (planned (taken c s))) = none)
    (hc : badOffset (clash (ctxOf c s) (taken c s) (planned (taken c s))) = none)
    (ha : absent (ctxOf c s) (taken c s) = false) (hb : busy (ctxOf c s) (taken c s) (planned (taken c s)) = false)
    (hm : members (ctxOf c s) (taken c s) = ms)
    (hr : result (ctxOf c s) (applyAll (ms.map (·.write)) (planned (taken c s))) = r)
    (hl : ∀ u, each (ms.map (·.write)) (fun w s => landWrite (ms.map (·.write)) s.dt w s) (startDomains (ms.map (·.write)) u) = land u) :
    Configures i c s ms r land := by
  have hgo : ∀ k, badOffset (envelope true rule (ctxOf c s)) = none → ((ctxOf c s).inBunch && !ownBunch (ctxOf c s) (taken c s)) = k → k = false →
      badOffset (memberChecks rule wrong clash absent (ctxOf c s) (taken c s)) = none := by
    intro k he hk hk'
    subst hk'
    simp [memberChecks, he, hk, hw, ha, hc]
  have hall : badOffset (envelope true rule (ctxOf c s)) = none → ((ctxOf c s).inBunch && !ownBunch (ctxOf c s) (taken c s)) = false →
      ((ctxOf c s).inBunch && decide (256 < bunchWrites (ctxOf c s).bunchId (taken c s) + ((members (ctxOf c s) (taken c s)).map (·.weight)).sum)) = false →
      badOffset ((8, (ctxOf c s).inBunch && decide (256 < bunchWrites (ctxOf c s).bunchId (taken c s) +
        ((members (ctxOf c s) (taken c s)).map (·.weight)).sum)) :: memberChecks rule wrong clash absent (ctxOf c s) (taken c s)) = none :=
    fun he hk hf => (badOffset_cons _ _).2 ⟨hf, hgo false he hk rfl⟩
  refine ⟨?_, ?_, ?_⟩
  · intro hal hrun ⟨h1, h2, h3⟩
    have hin : (ctxOf c s).inBunch = false := alone_inBunch s hal
    have hany : (ms.any fun m => blockRuns m.write (taken c s)) = false := by
      rw [List.any_eq_false]; intro m hm; simp [hrun m hm]
    have hfind : (ms.findSome? fun m => (claimHolder 64 m.claim (taken c s)).or (claimStaged 64 m.claim (taken c s))) = none := by
      rw [List.findSome?_eq_none_iff]; intro m hm; simp [h1 m hm]
    rw [hi, clashCommand, takeCommand_sent _ h]
    dsimp only
    rw [hall (envelope_alone s hal hu) (by simp [hin]) (by simp [hin])]
    simp only [ha, hb, hin, hm, hany, hr, Bool.false_eq_true, if_false]
    simp only [applyNow, hfind, h2, h3, if_true, hl, done]
  · intro hal ⟨m, hm1, hm2⟩ _
    have hin : (ctxOf c s).inBunch = false := alone_inBunch s hal
    have hany : (ms.any fun m => blockRuns m.write (taken c s)) = true := List.any_eq_true.mpr ⟨m, hm1, hm2⟩
    rw [hi, clashCommand, takeCommand_sent _ h]
    dsimp only
    rw [hall (envelope_alone s hal hu) (by simp [hin]) (by simp [hin])]
    simp only [ha, hb, hin, hm, hany, hr, Bool.false_eq_true, if_false, if_true]
  · intro id hj hown hw256
    have hin : (ctxOf c s).inBunch = true := joining_inBunch s hj
    have hid : (ctxOf c s).bunchId = id := hj.2.1
    rw [hi, clashCommand, takeCommand_sent _ h]
    dsimp only
    rw [hall (envelope_joining s hj hu) (by simp [hown]) (by rw [hm, hid]; simp [hw256])]
    simp only [ha, hb, hin, hm, hr, Bool.false_eq_true, if_false, if_true]

/-- The same for one with no check but those of its entry. -/
theorem memberCommand_configures {op : Nat} {rule : UnitRule} {wrong : Ctx → State → State → Checks} {absent : Ctx → State → Bool}
    {busy : Ctx → State → State → Bool} {members : Ctx → State → List Member} {result : Ctx → State → Nat} {c : Cmd} {s : State}
    {i : Instr} {ms : List Member} {r : Nat} {land : State → State}
    (hi : exec i s = .next (memberCommand op rule wrong absent busy members result c s))
    (h : Sent op c s) (hu : unitWrong rule c.unit = false)
    (hw : badOffset (wrong (ctxOf c s) (taken c s) (planned (taken c s))) = none)
    (ha : absent (ctxOf c s) (taken c s) = false) (hb : busy (ctxOf c s) (taken c s) (planned (taken c s)) = false)
    (hm : members (ctxOf c s) (taken c s) = ms)
    (hr : result (ctxOf c s) (applyAll (ms.map (·.write)) (planned (taken c s))) = r)
    (hl : ∀ u, each (ms.map (·.write)) (fun w s => landWrite (ms.map (·.write)) s.dt w s) (startDomains (ms.map (·.write)) u) = land u) :
    Configures i c s ms r land :=
  clashCommand_configures hi h hu hw rfl ha hb hm hr hl

end Sys2Proof.Machine
end

