-- ==== Sys2Proof/Laws/PerInstr.lean ====
section
/-! SUPPORT. One lemma for each command: a well-formed mailbox row carries the opcode its row has, on a ring that can exist
(Table 2-16, R43), and a row that is no mailbox command carries no entry. -/

namespace Sys2Proof.Laws

/-- The entry a mailbox row carries; none for a row that is no mailbox command. -/
def entryOf : Instr → Option Cmd
  | .porNLow _ => none
  | .porNRise _ => none
  | .fusesValid _ => none
  | .sramWipeDone _ => none
  | .dramTrainingDone _ _ => none
  | .dramWipeDone _ => none
  | .verifyDone _ _ _ => none
  | .korsynStart _ => none
  | .korsynReady _ => none
  | .startTimeout _ => none
  | .perstNAssert _ => none
  | .perstNRelease _ => none
  | .railUndervoltage _ => none
  | .railRecovery _ => none
  | .thermalTrip _ => none
  | .thermalHoldEnd _ => none
  | .tempThreshold _ _ _ => none
  | .bootCtrlDevReset _ _ => none
  | .go _ _ => none
  | .abort _ _ => none
  | .spiEnable _ _ => none
  | .registerWrite _ _ _ _ => none
  | .dtSnapLoRead _ => none
  | .doorbellWrite _ _ _ => none
  | .dmaDoorbell _ _ _ => none
  | .imageStagingWrite _ _ _ => none
  | .bootSpiWriteStaging _ _ => none
  | .bootSpiReadStaging _ _ _ => none
  | .bootSpiReadStatus _ _ => none
  | .bootSpiWriteBootLen _ _ => none
  | .bootSpiGo _ _ => none
  | .bootSpiAbort _ _ => none
  | .bootSpiUnknownTransaction _ _ => none
  | .bar4Read _ _ _ => none
  | .bar4Write _ _ _ => none
  | .devInfo c => some c
  | .devCaps c => some c
  | .devReset c => some c
  | .devSetWindow c => some c
  | .devUpdate c _ _ => some c
  | .devSetPower c _ => some c
  | .ringCreate c => some c
  | .ringDestroy c => some c
  | .ringModerate c => some c
  | .bunchOpen c => some c
  | .bunchCommit c => some c
  | .bunchAbort c => some c
  | .bunchQuery c => some c
  | .stagingCycle _ => none
  | .bunchArmed _ _ => none
  | .commitPoint _ _ => none
  | .memberLanding _ _ _ => none
  | .bunchTimeout _ _ => none
  | .domainStarted _ _ => none
  | .clkStatus c => some c
  | .clkSetLockMode c => some c
  | .clkSelectRef c => some c
  | .clkSyncArm c => some c
  | .clkSetSkew c => some c
  | .adpllLock _ _ _ => none
  | .gatedOutputReturn _ _ => none
  | .adpllLockLoss _ _ => none
  | .refclkLoss _ => none
  | .refclkRestored _ => none
  | .timeGet c => some c
  | .timeSetTai c => some c
  | .timeConfig c => some c
  | .ppsInEdge _ _ => none
  | .ppsLossTimeout _ => none
  | .syncInEdge _ _ _ => none
  | .syncOutLaunch _ => none
  | .syncArmTimeout _ => none
  | .ptpEventMessage _ _ _ _ => none
  | .rfSetRange c => some c
  | .rfStatus c => some c
  | .rfSetPadCount c => some c
  | .calSetRf c => some c
  | .rfGroup _ _ _ => none
  | .overdriveComparator _ _ _ => none
  | .padSettleEnd _ _ => none
  | .otpBurnDone _ _ => none
  | .sliceSwap _ _ _ => none
  | .opticalGroup _ _ _ => none
  | .ddcSet c => some c
  | .ddcSetDetect c => some c
  | .ddcOutputGroup _ _ _ => none
  | .detectorWindowEnd _ _ => none
  | .vdifFrame _ _ _ => none
  | .pipAssign c => some c
  | .pipSetSpares c => some c
  | .pipStatus c => some c
  | .specSetFft c => some c
  | .specSetWindow c => some c
  | .specSetTrace c => some c
  | .pipFrameDone _ _ _ => none
  | .averagingBlockEnd _ _ => none
  | .traceBlockEnd _ _ _ => none
  | .pipFault _ _ _ => none
  | .pipRecomputeDone _ _ _ _ => none
  | .bloomSet c => some c
  | .bloomClear c => some c
  | .bloomRead c => some c
  | .bloomIngest _ _ => none
  | .bloomDecay _ _ => none
  | .decayPassDone _ _ => none
  | .bloomSnapshot _ _ => none
  | .trigSetMask c => some c
  | .trigSetTd c => some c
  | .trigSetSeq c => some c
  | .trigSetLimit c => some c
  | .trigLimitResume c => some c
  | .trigSetLog c => some c
  | .trigSetLineLog c => some c
  | .trigInEdge _ _ _ => none
  | .sequencerEvaluate _ _ => none
  | .sequencerStepTimeout _ _ => none
  | .capSet c => some c
  | .capArm c => some c
  | .capForce c => some c
  | .capRead c => some c
  | .capStatus c => some c
  | .captureEnd _ _ => none
  | .captureOverflow _ _ => none
  | .genSegment c => some c
  | .genLoad c => some c
  | .genStart c => some c
  | .genCarrier c => some c
  | .genJump c => some c
  | .genRoute c => some c
  | .genStatus c => some c
  | .calSetGen c => some c
  | .genLatchPoint _ _ => none
  | .genSegmentStart _ _ => none
  | .trigOutPulseEnd _ _ => none
  | .generatorUnderrun _ _ => none
  | .dasStart c => some c
  | .dasSetSlot c => some c
  | .dasSetGrid c => some c
  | .dasSetPmask c => some c
  | .dasStatus c => some c
  | .calSetFibre c => some c
  | .dasTraceReady _ _ _ => none
  | .dasBandWindowEnd _ _ => none
  | .laserSetModcal c => some c
  | .laserSetCaps c => some c
  | .laserArm c => some c
  | .laserStatus c => some c
  | .laserComparatorTrip _ _ _ => none
  | .laserPermitLow _ => none
  | .laserPermitHigh _ => none
  | .dtsStart c => some c
  | .dtsSet c => some c
  | .dtsStatus c => some c
  | .dtsLaunch _ _ _ => none
  | .dtsStackEnd _ _ => none
  | .dtsRecordReady _ _ => none
  | .slowSetScan c => some c
  | .slowStart c => some c
  | .slowUrgent c => some c
  | .slowEntryDelayEnd _ => none
  | .slowConversionEnd _ _ => none
  | .slowPartialEntryFlush _ => none
  | .excSet c => some c
  | .excStatus c => some c
  | .excBreakDetect _ _ => none
  | .excBreakRestored _ _ => none
  | .impedanceCheckDue _ _ => none
  | .impedanceCheckDone _ _ _ _ => none
  | .curSetBand c => some c
  | .curStatus c => some c
  | .currantFault _ _ _ => none
  | .currantRecomputeDone _ _ _ => none
  | .dmaSet c => some c
  | .dmaStart c => some c
  | .dmaStatus c => some c
  | .dmaRequest c => some c
  | .dmaMove _ _ _ => none
  | .dmaGather _ _ _ => none
  | .dmaScatter _ _ _ => none
  | .dmaLoop _ _ _ => none
  | .dmaWait _ _ _ => none
  | .dmaWaitSatisfied _ _ => none
  | .dmaSignal _ _ _ => none
  | .dmaLink _ _ _ => none
  | .dmaEnd _ _ _ => none
  | .dmaUndefinedOp _ _ _ => none
  | .dmaBurst _ _ => none
  | .dmaTransferDone _ _ => none
  | .dmaErrorResponse _ _ _ => none
  | .requestLineRequest _ _ => none
  | .msixModTimeExpiry _ _ => none
  | .msixUnmask _ _ _ => none
  | .memSetFreq c => some c
  | .memSetIdle c => some c
  | .memStatus c => some c
  | .memReadLog c => some c
  | .memRepair c => some c
  | .dfsDone _ => none
  | .trainingWindow _ => none
  | .trainingWindowEnd _ => none
  | .selfRefreshEntry _ => none
  | .dramWake _ => none
  | .dramRefresh _ _ _ => none
  | .patrolScrub _ _ => none
  | .dramEccError _ _ => none
  | .sramEccError _ _ => none
  | .pcieLinkChange _ _ _ => none
  | .pf1Flr _ => none
  | .pf0D3hot _ => none
  | .netSetPort c => some c
  | .netSetStream c => some c
  | .netSetVdif c => some c
  | .netSetControl c => some c
  | .netStatus c => some c
  | .ethFrameReceived _ _ _ => none
  | .streamDatagramSend _ _ => none
  | .ethLinkChange _ _ _ => none
  | .controlCommandDatagram _ _ => none
  | .controlResendDatagram _ _ => none
  | .streamDropReport _ _ => none
  | .dispSetMode c => some c
  | .dispSetLayer c => some c
  | .dispSetPalette c => some c
  | .dispAlloc c => some c
  | .dispSetPsr c => some c
  | .dispStatus c => some c
  | .displayFrameStart _ => none
  | .displayVerticalActiveEnd _ => none
  | .displayFrameEnd _ _ => none
  | .hpdUnplug _ => none
  | .hpdPlug _ => none
  | .hpdIrq _ _ => none
  | .linkTrainingDone _ _ => none
  | .healthStatus c => some c
  | .healthSetRotation c => some c
  | .healthReadFaults c => some c
  | .healthSetRetired c => some c
  | .rotationVisit _ _ _ => none
  | .unitTestDone _ _ _ _ => none
  | .orxSliceSwap _ _ _ => none
  | .dacLoopback _ _ _ => none
  | .dieReferenceCheck _ _ _ _ => none
  | .slowSelftestDue _ => none
  | .stewardFault _ _ => none
  | .stewardRestartDone _ _ => none
  | .stewardOutageTimeout _ => none
  | .handoverTimeout _ => none
  | .readyEntry _ => none
  | .standbyEntryDone _ => none
  | .wake _ _ => none
  | .standbyRestoreDone _ _ _ => none
  | .lcSecure c => some c
  | .lcService c _ _ => some c
  | .lcResume c => some c
  | .lcReturn c _ _ => some c
  | .lcRetire c _ _ => some c
  | .lcRaiseFloor c => some c
  | .lcChallenge c => some c
  | .xtalBRunning _ => none
  | .slowIntegrationStart _ => none
  | .pf1BusMasterEnable _ => none

/-- What a well-formed entry says: its opcode, and a ring of the part. -/
theorem wf_entry {c : Cmd} {op : Nat} (h : c.wf op = true) : c.opcode = op ∧ c.ring < 8192 := by
  simpa [Cmd.wf, and_comm] using h

/-- The entry and the opcode of a row agree: both are there, and the entry carries the opcode, or neither is. -/
def AgreeOn : Option Cmd → Option Nat → Prop
  | some c, some op => c.opcode = op ∧ c.ring < 8192
  | none, none => True
  | _, _ => False

namespace WellFormedOpcode

/-- A well-formed command carries the opcode of its row exactly when it is a mailbox command. -/
def Statement (i : Instr) : Prop := i.wf = true → AgreeOn (entryOf i) i.mailboxOpcode

theorem porNLow : ∀ x0, Statement (.porNLow x0) := fun _ => fun _ => trivial
theorem porNRise : ∀ x0, Statement (.porNRise x0) := fun _ => fun _ => trivial
theorem fusesValid : ∀ x0, Statement (.fusesValid x0) := fun _ => fun _ => trivial
theorem sramWipeDone : ∀ x0, Statement (.sramWipeDone x0) := fun _ => fun _ => trivial
theorem dramTrainingDone : ∀ x0 x1, Statement (.dramTrainingDone x0 x1) := fun _ _ => fun _ => trivial
theorem dramWipeDone : ∀ x0, Statement (.dramWipeDone x0) := fun _ => fun _ => trivial
theorem verifyDone : ∀ x0 x1 x2, Statement (.verifyDone x0 x1 x2) := fun _ _ _ => fun _ => trivial
theorem korsynStart : ∀ x0, Statement (.korsynStart x0) := fun _ => fun _ => trivial
theorem korsynReady : ∀ x0, Statement (.korsynReady x0) := fun _ => fun _ => trivial
theorem startTimeout : ∀ x0, Statement (.startTimeout x0) := fun _ => fun _ => trivial
theorem perstNAssert : ∀ x0, Statement (.perstNAssert x0) := fun _ => fun _ => trivial
theorem perstNRelease : ∀ x0, Statement (.perstNRelease x0) := fun _ => fun _ => trivial
theorem railUndervoltage : ∀ x0, Statement (.railUndervoltage x0) := fun _ => fun _ => trivial
theorem railRecovery : ∀ x0, Statement (.railRecovery x0) := fun _ => fun _ => trivial
theorem thermalTrip : ∀ x0, Statement (.thermalTrip x0) := fun _ => fun _ => trivial
theorem thermalHoldEnd : ∀ x0, Statement (.thermalHoldEnd x0) := fun _ => fun _ => trivial
theorem tempThreshold : ∀ x0 x1 x2, Statement (.tempThreshold x0 x1 x2) := fun _ _ _ => fun _ => trivial
theorem bootCtrlDevReset : ∀ x0 x1, Statement (.bootCtrlDevReset x0 x1) := fun _ _ => fun _ => trivial
theorem go : ∀ x0 x1, Statement (.go x0 x1) := fun _ _ => fun _ => trivial
theorem abort : ∀ x0 x1, Statement (.abort x0 x1) := fun _ _ => fun _ => trivial
theorem spiEnable : ∀ x0 x1, Statement (.spiEnable x0 x1) := fun _ _ => fun _ => trivial
theorem registerWrite : ∀ x0 x1 x2 x3, Statement (.registerWrite x0 x1 x2 x3) := fun _ _ _ _ => fun _ => trivial
theorem dtSnapLoRead : ∀ x0, Statement (.dtSnapLoRead x0) := fun _ => fun _ => trivial
theorem doorbellWrite : ∀ x0 x1 x2, Statement (.doorbellWrite x0 x1 x2) := fun _ _ _ => fun _ => trivial
theorem dmaDoorbell : ∀ x0 x1 x2, Statement (.dmaDoorbell x0 x1 x2) := fun _ _ _ => fun _ => trivial
theorem imageStagingWrite : ∀ x0 x1 x2, Statement (.imageStagingWrite x0 x1 x2) := fun _ _ _ => fun _ => trivial
theorem bootSpiWriteStaging : ∀ x0 x1, Statement (.bootSpiWriteStaging x0 x1) := fun _ _ => fun _ => trivial
theorem bootSpiReadStaging : ∀ x0 x1 x2, Statement (.bootSpiReadStaging x0 x1 x2) := fun _ _ _ => fun _ => trivial
theorem bootSpiReadStatus : ∀ x0 x1, Statement (.bootSpiReadStatus x0 x1) := fun _ _ => fun _ => trivial
theorem bootSpiWriteBootLen : ∀ x0 x1, Statement (.bootSpiWriteBootLen x0 x1) := fun _ _ => fun _ => trivial
theorem bootSpiGo : ∀ x0 x1, Statement (.bootSpiGo x0 x1) := fun _ _ => fun _ => trivial
theorem bootSpiAbort : ∀ x0 x1, Statement (.bootSpiAbort x0 x1) := fun _ _ => fun _ => trivial
theorem bootSpiUnknownTransaction : ∀ x0 x1, Statement (.bootSpiUnknownTransaction x0 x1) := fun _ _ => fun _ => trivial
theorem bar4Read : ∀ x0 x1 x2, Statement (.bar4Read x0 x1 x2) := fun _ _ _ => fun _ => trivial
theorem bar4Write : ∀ x0 x1 x2, Statement (.bar4Write x0 x1 x2) := fun _ _ _ => fun _ => trivial
theorem devInfo : ∀ x0, Statement (.devInfo x0) := fun _ => wf_entry
theorem devCaps : ∀ x0, Statement (.devCaps x0) := fun _ => wf_entry
theorem devReset : ∀ x0, Statement (.devReset x0) := fun _ => wf_entry
theorem devSetWindow : ∀ x0, Statement (.devSetWindow x0) := fun _ => wf_entry
theorem devUpdate : ∀ x0 x1 x2, Statement (.devUpdate x0 x1 x2) := fun _ _ _ => wf_entry
theorem devSetPower : ∀ x0 x1, Statement (.devSetPower x0 x1) := fun _ _ => wf_entry
theorem ringCreate : ∀ x0, Statement (.ringCreate x0) := fun _ => wf_entry
theorem ringDestroy : ∀ x0, Statement (.ringDestroy x0) := fun _ => wf_entry
theorem ringModerate : ∀ x0, Statement (.ringModerate x0) := fun _ => wf_entry
theorem bunchOpen : ∀ x0, Statement (.bunchOpen x0) := fun _ => wf_entry
theorem bunchCommit : ∀ x0, Statement (.bunchCommit x0) := fun _ => wf_entry
theorem bunchAbort : ∀ x0, Statement (.bunchAbort x0) := fun _ => wf_entry
theorem bunchQuery : ∀ x0, Statement (.bunchQuery x0) := fun _ => wf_entry
theorem stagingCycle : ∀ x0, Statement (.stagingCycle x0) := fun _ => fun _ => trivial
theorem bunchArmed : ∀ x0 x1, Statement (.bunchArmed x0 x1) := fun _ _ => fun _ => trivial
theorem commitPoint : ∀ x0 x1, Statement (.commitPoint x0 x1) := fun _ _ => fun _ => trivial
theorem memberLanding : ∀ x0 x1 x2, Statement (.memberLanding x0 x1 x2) := fun _ _ _ => fun _ => trivial
theorem bunchTimeout : ∀ x0 x1, Statement (.bunchTimeout x0 x1) := fun _ _ => fun _ => trivial
theorem domainStarted : ∀ x0 x1, Statement (.domainStarted x0 x1) := fun _ _ => fun _ => trivial
theorem clkStatus : ∀ x0, Statement (.clkStatus x0) := fun _ => wf_entry
theorem clkSetLockMode : ∀ x0, Statement (.clkSetLockMode x0) := fun _ => wf_entry
theorem clkSelectRef : ∀ x0, Statement (.clkSelectRef x0) := fun _ => wf_entry
theorem clkSyncArm : ∀ x0, Statement (.clkSyncArm x0) := fun _ => wf_entry
theorem clkSetSkew : ∀ x0, Statement (.clkSetSkew x0) := fun _ => wf_entry
theorem adpllLock : ∀ x0 x1 x2, Statement (.adpllLock x0 x1 x2) := fun _ _ _ => fun _ => trivial
theorem gatedOutputReturn : ∀ x0 x1, Statement (.gatedOutputReturn x0 x1) := fun _ _ => fun _ => trivial
theorem adpllLockLoss : ∀ x0 x1, Statement (.adpllLockLoss x0 x1) := fun _ _ => fun _ => trivial
theorem refclkLoss : ∀ x0, Statement (.refclkLoss x0) := fun _ => fun _ => trivial
theorem refclkRestored : ∀ x0, Statement (.refclkRestored x0) := fun _ => fun _ => trivial
theorem timeGet : ∀ x0, Statement (.timeGet x0) := fun _ => wf_entry
theorem timeSetTai : ∀ x0, Statement (.timeSetTai x0) := fun _ => wf_entry
theorem timeConfig : ∀ x0, Statement (.timeConfig x0) := fun _ => wf_entry
theorem ppsInEdge : ∀ x0 x1, Statement (.ppsInEdge x0 x1) := fun _ _ => fun _ => trivial
theorem ppsLossTimeout : ∀ x0, Statement (.ppsLossTimeout x0) := fun _ => fun _ => trivial
theorem syncInEdge : ∀ x0 x1 x2, Statement (.syncInEdge x0 x1 x2) := fun _ _ _ => fun _ => trivial
theorem syncOutLaunch : ∀ x0, Statement (.syncOutLaunch x0) := fun _ => fun _ => trivial
theorem syncArmTimeout : ∀ x0, Statement (.syncArmTimeout x0) := fun _ => fun _ => trivial
theorem ptpEventMessage : ∀ x0 x1 x2 x3, Statement (.ptpEventMessage x0 x1 x2 x3) := fun _ _ _ _ => fun _ => trivial
theorem rfSetRange : ∀ x0, Statement (.rfSetRange x0) := fun _ => wf_entry
theorem rfStatus : ∀ x0, Statement (.rfStatus x0) := fun _ => wf_entry
theorem rfSetPadCount : ∀ x0, Statement (.rfSetPadCount x0) := fun _ => wf_entry
theorem calSetRf : ∀ x0, Statement (.calSetRf x0) := fun _ => wf_entry
theorem rfGroup : ∀ x0 x1 x2, Statement (.rfGroup x0 x1 x2) := fun _ _ _ => fun _ => trivial
theorem overdriveComparator : ∀ x0 x1 x2, Statement (.overdriveComparator x0 x1 x2) := fun _ _ _ => fun _ => trivial
theorem padSettleEnd : ∀ x0 x1, Statement (.padSettleEnd x0 x1) := fun _ _ => fun _ => trivial
theorem otpBurnDone : ∀ x0 x1, Statement (.otpBurnDone x0 x1) := fun _ _ => fun _ => trivial
theorem sliceSwap : ∀ x0 x1 x2, Statement (.sliceSwap x0 x1 x2) := fun _ _ _ => fun _ => trivial
theorem opticalGroup : ∀ x0 x1 x2, Statement (.opticalGroup x0 x1 x2) := fun _ _ _ => fun _ => trivial
theorem ddcSet : ∀ x0, Statement (.ddcSet x0) := fun _ => wf_entry
theorem ddcSetDetect : ∀ x0, Statement (.ddcSetDetect x0) := fun _ => wf_entry
theorem ddcOutputGroup : ∀ x0 x1 x2, Statement (.ddcOutputGroup x0 x1 x2) := fun _ _ _ => fun _ => trivial
theorem detectorWindowEnd : ∀ x0 x1, Statement (.detectorWindowEnd x0 x1) := fun _ _ => fun _ => trivial
theorem vdifFrame : ∀ x0 x1 x2, Statement (.vdifFrame x0 x1 x2) := fun _ _ _ => fun _ => trivial
theorem pipAssign : ∀ x0, Statement (.pipAssign x0) := fun _ => wf_entry
theorem pipSetSpares : ∀ x0, Statement (.pipSetSpares x0) := fun _ => wf_entry
theorem pipStatus : ∀ x0, Statement (.pipStatus x0) := fun _ => wf_entry
theorem specSetFft : ∀ x0, Statement (.specSetFft x0) := fun _ => wf_entry
theorem specSetWindow : ∀ x0, Statement (.specSetWindow x0) := fun _ => wf_entry
theorem specSetTrace : ∀ x0, Statement (.specSetTrace x0) := fun _ => wf_entry
theorem pipFrameDone : ∀ x0 x1 x2, Statement (.pipFrameDone x0 x1 x2) := fun _ _ _ => fun _ => trivial
theorem averagingBlockEnd : ∀ x0 x1, Statement (.averagingBlockEnd x0 x1) := fun _ _ => fun _ => trivial
theorem traceBlockEnd : ∀ x0 x1 x2, Statement (.traceBlockEnd x0 x1 x2) := fun _ _ _ => fun _ => trivial
theorem pipFault : ∀ x0 x1 x2, Statement (.pipFault x0 x1 x2) := fun _ _ _ => fun _ => trivial
theorem pipRecomputeDone : ∀ x0 x1 x2 x3, Statement (.pipRecomputeDone x0 x1 x2 x3) := fun _ _ _ _ => fun _ => trivial
theorem bloomSet : ∀ x0, Statement (.bloomSet x0) := fun _ => wf_entry
theorem bloomClear : ∀ x0, Statement (.bloomClear x0) := fun _ => wf_entry
theorem bloomRead : ∀ x0, Statement (.bloomRead x0) := fun _ => wf_entry
theorem bloomIngest : ∀ x0 x1, Statement (.bloomIngest x0 x1) := fun _ _ => fun _ => trivial
theorem bloomDecay : ∀ x0 x1, Statement (.bloomDecay x0 x1) := fun _ _ => fun _ => trivial
theorem decayPassDone : ∀ x0 x1, Statement (.decayPassDone x0 x1) := fun _ _ => fun _ => trivial
theorem bloomSnapshot : ∀ x0 x1, Statement (.bloomSnapshot x0 x1) := fun _ _ => fun _ => trivial
theorem trigSetMask : ∀ x0, Statement (.trigSetMask x0) := fun _ => wf_entry
theorem trigSetTd : ∀ x0, Statement (.trigSetTd x0) := fun _ => wf_entry
theorem trigSetSeq : ∀ x0, Statement (.trigSetSeq x0) := fun _ => wf_entry
theorem trigSetLimit : ∀ x0, Statement (.trigSetLimit x0) := fun _ => wf_entry
theorem trigLimitResume : ∀ x0, Statement (.trigLimitResume x0) := fun _ => wf_entry
theorem trigSetLog : ∀ x0, Statement (.trigSetLog x0) := fun _ => wf_entry
theorem trigSetLineLog : ∀ x0, Statement (.trigSetLineLog x0) := fun _ => wf_entry
theorem trigInEdge : ∀ x0 x1 x2, Statement (.trigInEdge x0 x1 x2) := fun _ _ _ => fun _ => trivial
theorem sequencerEvaluate : ∀ x0 x1, Statement (.sequencerEvaluate x0 x1) := fun _ _ => fun _ => trivial
theorem sequencerStepTimeout : ∀ x0 x1, Statement (.sequencerStepTimeout x0 x1) := fun _ _ => fun _ => trivial
theorem capSet : ∀ x0, Statement (.capSet x0) := fun _ => wf_entry
theorem capArm : ∀ x0, Statement (.capArm x0) := fun _ => wf_entry
theorem capForce : ∀ x0, Statement (.capForce x0) := fun _ => wf_entry
theorem capRead : ∀ x0, Statement (.capRead x0) := fun _ => wf_entry
theorem capStatus : ∀ x0, Statement (.capStatus x0) := fun _ => wf_entry
theorem captureEnd : ∀ x0 x1, Statement (.captureEnd x0 x1) := fun _ _ => fun _ => trivial
theorem captureOverflow : ∀ x0 x1, Statement (.captureOverflow x0 x1) := fun _ _ => fun _ => trivial
theorem genSegment : ∀ x0, Statement (.genSegment x0) := fun _ => wf_entry
theorem genLoad : ∀ x0, Statement (.genLoad x0) := fun _ => wf_entry
theorem genStart : ∀ x0, Statement (.genStart x0) := fun _ => wf_entry
theorem genCarrier : ∀ x0, Statement (.genCarrier x0) := fun _ => wf_entry
theorem genJump : ∀ x0, Statement (.genJump x0) := fun _ => wf_entry
theorem genRoute : ∀ x0, Statement (.genRoute x0) := fun _ => wf_entry
theorem genStatus : ∀ x0, Statement (.genStatus x0) := fun _ => wf_entry
theorem calSetGen : ∀ x0, Statement (.calSetGen x0) := fun _ => wf_entry
theorem genLatchPoint : ∀ x0 x1, Statement (.genLatchPoint x0 x1) := fun _ _ => fun _ => trivial
theorem genSegmentStart : ∀ x0 x1, Statement (.genSegmentStart x0 x1) := fun _ _ => fun _ => trivial
theorem trigOutPulseEnd : ∀ x0 x1, Statement (.trigOutPulseEnd x0 x1) := fun _ _ => fun _ => trivial
theorem generatorUnderrun : ∀ x0 x1, Statement (.generatorUnderrun x0 x1) := fun _ _ => fun _ => trivial
theorem dasStart : ∀ x0, Statement (.dasStart x0) := fun _ => wf_entry
theorem dasSetSlot : ∀ x0, Statement (.dasSetSlot x0) := fun _ => wf_entry
theorem dasSetGrid : ∀ x0, Statement (.dasSetGrid x0) := fun _ => wf_entry
theorem dasSetPmask : ∀ x0, Statement (.dasSetPmask x0) := fun _ => wf_entry
theorem dasStatus : ∀ x0, Statement (.dasStatus x0) := fun _ => wf_entry
theorem calSetFibre : ∀ x0, Statement (.calSetFibre x0) := fun _ => wf_entry
theorem dasTraceReady : ∀ x0 x1 x2, Statement (.dasTraceReady x0 x1 x2) := fun _ _ _ => fun _ => trivial
theorem dasBandWindowEnd : ∀ x0 x1, Statement (.dasBandWindowEnd x0 x1) := fun _ _ => fun _ => trivial
theorem laserSetModcal : ∀ x0, Statement (.laserSetModcal x0) := fun _ => wf_entry
theorem laserSetCaps : ∀ x0, Statement (.laserSetCaps x0) := fun _ => wf_entry
theorem laserArm : ∀ x0, Statement (.laserArm x0) := fun _ => wf_entry
theorem laserStatus : ∀ x0, Statement (.laserStatus x0) := fun _ => wf_entry
theorem laserComparatorTrip : ∀ x0 x1 x2, Statement (.laserComparatorTrip x0 x1 x2) := fun _ _ _ => fun _ => trivial
theorem laserPermitLow : ∀ x0, Statement (.laserPermitLow x0) := fun _ => fun _ => trivial
theorem laserPermitHigh : ∀ x0, Statement (.laserPermitHigh x0) := fun _ => fun _ => trivial
theorem dtsStart : ∀ x0, Statement (.dtsStart x0) := fun _ => wf_entry
theorem dtsSet : ∀ x0, Statement (.dtsSet x0) := fun _ => wf_entry
theorem dtsStatus : ∀ x0, Statement (.dtsStatus x0) := fun _ => wf_entry
theorem dtsLaunch : ∀ x0 x1 x2, Statement (.dtsLaunch x0 x1 x2) := fun _ _ _ => fun _ => trivial
theorem dtsStackEnd : ∀ x0 x1, Statement (.dtsStackEnd x0 x1) := fun _ _ => fun _ => trivial
theorem dtsRecordReady : ∀ x0 x1, Statement (.dtsRecordReady x0 x1) := fun _ _ => fun _ => trivial
theorem slowSetScan : ∀ x0, Statement (.slowSetScan x0) := fun _ => wf_entry
theorem slowStart : ∀ x0, Statement (.slowStart x0) := fun _ => wf_entry
theorem slowUrgent : ∀ x0, Statement (.slowUrgent x0) := fun _ => wf_entry
theorem slowEntryDelayEnd : ∀ x0, Statement (.slowEntryDelayEnd x0) := fun _ => fun _ => trivial
theorem slowConversionEnd : ∀ x0 x1, Statement (.slowConversionEnd x0 x1) := fun _ _ => fun _ => trivial
theorem slowPartialEntryFlush : ∀ x0, Statement (.slowPartialEntryFlush x0) := fun _ => fun _ => trivial
theorem excSet : ∀ x0, Statement (.excSet x0) := fun _ => wf_entry
theorem excStatus : ∀ x0, Statement (.excStatus x0) := fun _ => wf_entry
theorem excBreakDetect : ∀ x0 x1, Statement (.excBreakDetect x0 x1) := fun _ _ => fun _ => trivial
theorem excBreakRestored : ∀ x0 x1, Statement (.excBreakRestored x0 x1) := fun _ _ => fun _ => trivial
theorem impedanceCheckDue : ∀ x0 x1, Statement (.impedanceCheckDue x0 x1) := fun _ _ => fun _ => trivial
theorem impedanceCheckDone : ∀ x0 x1 x2 x3, Statement (.impedanceCheckDone x0 x1 x2 x3) := fun _ _ _ _ => fun _ => trivial
theorem curSetBand : ∀ x0, Statement (.curSetBand x0) := fun _ => wf_entry
theorem curStatus : ∀ x0, Statement (.curStatus x0) := fun _ => wf_entry
theorem currantFault : ∀ x0 x1 x2, Statement (.currantFault x0 x1 x2) := fun _ _ _ => fun _ => trivial
theorem currantRecomputeDone : ∀ x0 x1 x2, Statement (.currantRecomputeDone x0 x1 x2) := fun _ _ _ => fun _ => trivial
theorem dmaSet : ∀ x0, Statement (.dmaSet x0) := fun _ => wf_entry
theorem dmaStart : ∀ x0, Statement (.dmaStart x0) := fun _ => wf_entry
theorem dmaStatus : ∀ x0, Statement (.dmaStatus x0) := fun _ => wf_entry
theorem dmaRequest : ∀ x0, Statement (.dmaRequest x0) := fun _ => wf_entry
theorem dmaMove : ∀ x0 x1 x2, Statement (.dmaMove x0 x1 x2) := fun _ _ _ => fun _ => trivial
theorem dmaGather : ∀ x0 x1 x2, Statement (.dmaGather x0 x1 x2) := fun _ _ _ => fun _ => trivial
theorem dmaScatter : ∀ x0 x1 x2, Statement (.dmaScatter x0 x1 x2) := fun _ _ _ => fun _ => trivial
theorem dmaLoop : ∀ x0 x1 x2, Statement (.dmaLoop x0 x1 x2) := fun _ _ _ => fun _ => trivial
theorem dmaWait : ∀ x0 x1 x2, Statement (.dmaWait x0 x1 x2) := fun _ _ _ => fun _ => trivial
theorem dmaWaitSatisfied : ∀ x0 x1, Statement (.dmaWaitSatisfied x0 x1) := fun _ _ => fun _ => trivial
theorem dmaSignal : ∀ x0 x1 x2, Statement (.dmaSignal x0 x1 x2) := fun _ _ _ => fun _ => trivial
theorem dmaLink : ∀ x0 x1 x2, Statement (.dmaLink x0 x1 x2) := fun _ _ _ => fun _ => trivial
theorem dmaEnd : ∀ x0 x1 x2, Statement (.dmaEnd x0 x1 x2) := fun _ _ _ => fun _ => trivial
theorem dmaUndefinedOp : ∀ x0 x1 x2, Statement (.dmaUndefinedOp x0 x1 x2) := fun _ _ _ => fun _ => trivial
theorem dmaBurst : ∀ x0 x1, Statement (.dmaBurst x0 x1) := fun _ _ => fun _ => trivial
theorem dmaTransferDone : ∀ x0 x1, Statement (.dmaTransferDone x0 x1) := fun _ _ => fun _ => trivial
theorem dmaErrorResponse : ∀ x0 x1 x2, Statement (.dmaErrorResponse x0 x1 x2) := fun _ _ _ => fun _ => trivial
theorem requestLineRequest : ∀ x0 x1, Statement (.requestLineRequest x0 x1) := fun _ _ => fun _ => trivial
theorem msixModTimeExpiry : ∀ x0 x1, Statement (.msixModTimeExpiry x0 x1) := fun _ _ => fun _ => trivial
theorem msixUnmask : ∀ x0 x1 x2, Statement (.msixUnmask x0 x1 x2) := fun _ _ _ => fun _ => trivial
theorem memSetFreq : ∀ x0, Statement (.memSetFreq x0) := fun _ => wf_entry
theorem memSetIdle : ∀ x0, Statement (.memSetIdle x0) := fun _ => wf_entry
theorem memStatus : ∀ x0, Statement (.memStatus x0) := fun _ => wf_entry
theorem memReadLog : ∀ x0, Statement (.memReadLog x0) := fun _ => wf_entry
theorem memRepair : ∀ x0, Statement (.memRepair x0) := fun _ => wf_entry
theorem dfsDone : ∀ x0, Statement (.dfsDone x0) := fun _ => fun _ => trivial
theorem trainingWindow : ∀ x0, Statement (.trainingWindow x0) := fun _ => fun _ => trivial
theorem trainingWindowEnd : ∀ x0, Statement (.trainingWindowEnd x0) := fun _ => fun _ => trivial
theorem selfRefreshEntry : ∀ x0, Statement (.selfRefreshEntry x0) := fun _ => fun _ => trivial
theorem dramWake : ∀ x0, Statement (.dramWake x0) := fun _ => fun _ => trivial
theorem dramRefresh : ∀ x0 x1 x2, Statement (.dramRefresh x0 x1 x2) := fun _ _ _ => fun _ => trivial
theorem patrolScrub : ∀ x0 x1, Statement (.patrolScrub x0 x1) := fun _ _ => fun _ => trivial
theorem dramEccError : ∀ x0 x1, Statement (.dramEccError x0 x1) := fun _ _ => fun _ => trivial
theorem sramEccError : ∀ x0 x1, Statement (.sramEccError x0 x1) := fun _ _ => fun _ => trivial
theorem pcieLinkChange : ∀ x0 x1 x2, Statement (.pcieLinkChange x0 x1 x2) := fun _ _ _ => fun _ => trivial
theorem pf1Flr : ∀ x0, Statement (.pf1Flr x0) := fun _ => fun _ => trivial
theorem pf0D3hot : ∀ x0, Statement (.pf0D3hot x0) := fun _ => fun _ => trivial
theorem netSetPort : ∀ x0, Statement (.netSetPort x0) := fun _ => wf_entry
theorem netSetStream : ∀ x0, Statement (.netSetStream x0) := fun _ => wf_entry
theorem netSetVdif : ∀ x0, Statement (.netSetVdif x0) := fun _ => wf_entry
theorem netSetControl : ∀ x0, Statement (.netSetControl x0) := fun _ => wf_entry
theorem netStatus : ∀ x0, Statement (.netStatus x0) := fun _ => wf_entry
theorem ethFrameReceived : ∀ x0 x1 x2, Statement (.ethFrameReceived x0 x1 x2) := fun _ _ _ => fun _ => trivial
theorem streamDatagramSend : ∀ x0 x1, Statement (.streamDatagramSend x0 x1) := fun _ _ => fun _ => trivial
theorem ethLinkChange : ∀ x0 x1 x2, Statement (.ethLinkChange x0 x1 x2) := fun _ _ _ => fun _ => trivial
theorem controlCommandDatagram : ∀ x0 x1, Statement (.controlCommandDatagram x0 x1) := fun _ _ => fun _ => trivial
theorem controlResendDatagram : ∀ x0 x1, Statement (.controlResendDatagram x0 x1) := fun _ _ => fun _ => trivial
theorem streamDropReport : ∀ x0 x1, Statement (.streamDropReport x0 x1) := fun _ _ => fun _ => trivial
theorem dispSetMode : ∀ x0, Statement (.dispSetMode x0) := fun _ => wf_entry
theorem dispSetLayer : ∀ x0, Statement (.dispSetLayer x0) := fun _ => wf_entry
theorem dispSetPalette : ∀ x0, Statement (.dispSetPalette x0) := fun _ => wf_entry
theorem dispAlloc : ∀ x0, Statement (.dispAlloc x0) := fun _ => wf_entry
theorem dispSetPsr : ∀ x0, Statement (.dispSetPsr x0) := fun _ => wf_entry
theorem dispStatus : ∀ x0, Statement (.dispStatus x0) := fun _ => wf_entry
theorem displayFrameStart : ∀ x0, Statement (.displayFrameStart x0) := fun _ => fun _ => trivial
theorem displayVerticalActiveEnd : ∀ x0, Statement (.displayVerticalActiveEnd x0) := fun _ => fun _ => trivial
theorem displayFrameEnd : ∀ x0 x1, Statement (.displayFrameEnd x0 x1) := fun _ _ => fun _ => trivial
theorem hpdUnplug : ∀ x0, Statement (.hpdUnplug x0) := fun _ => fun _ => trivial
theorem hpdPlug : ∀ x0, Statement (.hpdPlug x0) := fun _ => fun _ => trivial
theorem hpdIrq : ∀ x0 x1, Statement (.hpdIrq x0 x1) := fun _ _ => fun _ => trivial
theorem linkTrainingDone : ∀ x0 x1, Statement (.linkTrainingDone x0 x1) := fun _ _ => fun _ => trivial
theorem healthStatus : ∀ x0, Statement (.healthStatus x0) := fun _ => wf_entry
theorem healthSetRotation : ∀ x0, Statement (.healthSetRotation x0) := fun _ => wf_entry
theorem healthReadFaults : ∀ x0, Statement (.healthReadFaults x0) := fun _ => wf_entry
theorem healthSetRetired : ∀ x0, Statement (.healthSetRetired x0) := fun _ => wf_entry
theorem rotationVisit : ∀ x0 x1 x2, Statement (.rotationVisit x0 x1 x2) := fun _ _ _ => fun _ => trivial
theorem unitTestDone : ∀ x0 x1 x2 x3, Statement (.unitTestDone x0 x1 x2 x3) := fun _ _ _ _ => fun _ => trivial
theorem orxSliceSwap : ∀ x0 x1 x2, Statement (.orxSliceSwap x0 x1 x2) := fun _ _ _ => fun _ => trivial
theorem dacLoopback : ∀ x0 x1 x2, Statement (.dacLoopback x0 x1 x2) := fun _ _ _ => fun _ => trivial
theorem dieReferenceCheck : ∀ x0 x1 x2 x3, Statement (.dieReferenceCheck x0 x1 x2 x3) := fun _ _ _ _ => fun _ => trivial
theorem slowSelftestDue : ∀ x0, Statement (.slowSelftestDue x0) := fun _ => fun _ => trivial
theorem stewardFault : ∀ x0 x1, Statement (.stewardFault x0 x1) := fun _ _ => fun _ => trivial
theorem stewardRestartDone : ∀ x0 x1, Statement (.stewardRestartDone x0 x1) := fun _ _ => fun _ => trivial
theorem stewardOutageTimeout : ∀ x0, Statement (.stewardOutageTimeout x0) := fun _ => fun _ => trivial
theorem handoverTimeout : ∀ x0, Statement (.handoverTimeout x0) := fun _ => fun _ => trivial
theorem readyEntry : ∀ x0, Statement (.readyEntry x0) := fun _ => fun _ => trivial
theorem standbyEntryDone : ∀ x0, Statement (.standbyEntryDone x0) := fun _ => fun _ => trivial
theorem wake : ∀ x0 x1, Statement (.wake x0 x1) := fun _ _ => fun _ => trivial
theorem standbyRestoreDone : ∀ x0 x1 x2, Statement (.standbyRestoreDone x0 x1 x2) := fun _ _ _ => fun _ => trivial
theorem lcSecure : ∀ x0, Statement (.lcSecure x0) := fun _ => wf_entry
theorem lcService : ∀ x0 x1 x2, Statement (.lcService x0 x1 x2) := fun _ _ _ => wf_entry
theorem lcResume : ∀ x0, Statement (.lcResume x0) := fun _ => wf_entry
theorem lcReturn : ∀ x0 x1 x2, Statement (.lcReturn x0 x1 x2) := fun _ _ _ => wf_entry
theorem lcRetire : ∀ x0 x1 x2, Statement (.lcRetire x0 x1 x2) := fun _ _ _ => wf_entry
theorem lcRaiseFloor : ∀ x0, Statement (.lcRaiseFloor x0) := fun _ => wf_entry
theorem lcChallenge : ∀ x0, Statement (.lcChallenge x0) := fun _ => wf_entry
theorem xtalBRunning : ∀ x0, Statement (.xtalBRunning x0) := fun _ => fun _ => trivial
theorem slowIntegrationStart : ∀ x0, Statement (.slowIntegrationStart x0) := fun _ => fun _ => trivial
theorem pf1BusMasterEnable : ∀ x0, Statement (.pf1BusMasterEnable x0) := fun _ => fun _ => trivial

end WellFormedOpcode

end Sys2Proof.Laws
end

