-- ==== Sys2Proof/Laws/Stone.lean ====
section
/-! SUPPORT. Everything a command can do to the fuses, the floor, LC_STATE, the key slot, scan and the queue: exec_change. -/

namespace Sys2Proof.Machine

open Sys2Proof

theorem exec_dtsRecordReady_kept {a b} (s : State) : ∃ t, exec (.dtsRecordReady a b) s = .next t ∧ kept t = kept s := by
  show ∃ t, execDtsRecordReady a b s = .next t ∧ _
  unfold execDtsRecordReady
  dsimp only
  split
  · exact ⟨_, rfl, by simp⟩
  · exact ⟨_, rfl, by simp⟩

theorem exec_dmaWaitSatisfied_kept {a b} (s : State) : ∃ t, exec (.dmaWaitSatisfied a b) s = .next t ∧ kept t = kept s := by
  show ∃ t, execDmaWaitSatisfied a b s = .next t ∧ _
  unfold execDmaWaitSatisfied
  dsimp only
  split
  · exact ⟨_, rfl, by simp⟩
  · exact ⟨_, rfl, by simp⟩

/-! ## Device resets and LC commands -/

/-- A device reset leaves the fuses and the queue, LC_STATE reads the fuses, and scan goes with a zeroised key. -/
def AfterReset (s t : State) : Prop :=
  t.fuse.lifeCycle = s.fuse.lifeCycle ∧ t.fuse.floor = s.fuse.floor ∧ t.pending = s.pending ∧
    t.stone.lifeCycle = s.fuse.lifeCycle ∧ (t.stone.scanEn = true → t.stone.idKey = .zeroised)

/-- A life-cycle transition: the fuses read the target, or SECURED below SERVICE, and so does LC_STATE. -/
def AfterMove (target : LifeCycle) (s t : State) : Prop :=
  t.fuse.lifeCycle = (if target = .service then s.fuse.lifeCycle else target) ∧ t.fuse.floor = s.fuse.floor ∧
    t.pending = s.pending ∧ t.stone.lifeCycle = target ∧ t.stone.scanEn = false

/-- Everything a command can do to what is kept. -/
inductive Change (i : Instr) (s t : State) : Prop
  | none (h : kept t = kept s)
  | reset (h : AfterReset s t)
  | fuses (h1 : t.fuse.lifeCycle = s.fuse.lifeCycle) (h2 : t.fuse.floor = s.fuse.floor) (h3 : t.pending = s.pending)
      (h4 : t.stone.lifeCycle = if s.stone.lifeCycle = .service then .service else s.fuse.lifeCycle)
      (h5 : t.stone.scanEn = true → t.stone.idKey = .zeroised)
  | floor (c : Cmd) (hi : i = .lcRaiseFloor c) (h1 : t.fuse.floor = max s.fuse.floor (min 127 s.stone.runSec))
      (h2 : t.fuse.lifeCycle = s.fuse.lifeCycle) (h3 : t.pending = s.pending) (h4 : t.stone.lifeCycle = s.stone.lifeCycle)
      (h5 : t.stone.idKey = s.stone.idKey) (h6 : t.stone.scanEn = s.stone.scanEn)
  | secure (c : Cmd) (hi : i = .lcSecure c) (h : s.stone.lifeCycle = .manufacture) (h1 : AfterMove .secured s t)
  | service (h : s.stone.lifeCycle = .secured) (h1 : AfterMove .service s t)
  | resume (h : s.stone.lifeCycle = .service) (h1 : AfterMove .secured s t)
  | retirn (c : Cmd) (hi : i = .lcReturn c) (h : s.stone.lifeCycle = .service) (h1 : AfterMove .retirn s t)
  | retire (c : Cmd) (hi : i = .lcRetire c)
      (h : s.stone.lifeCycle = .secured ∨ s.stone.lifeCycle = .service ∨ s.stone.lifeCycle = .retirn) (h1 : AfterMove .retired s t)

theorem kept_eq {s t : State} (h : kept t = kept s) : t.fuse.lifeCycle = s.fuse.lifeCycle ∧ t.fuse.floor = s.fuse.floor ∧
    t.stone.lifeCycle = s.stone.lifeCycle ∧ t.stone.idKey = s.stone.idKey ∧ t.stone.scanEn = s.stone.scanEn ∧
    t.pending = s.pending := by
  simpa [kept] using h

theorem deviceReset_after {s u : State} (b : Bool) (h : kept u = kept s) : AfterReset s (deviceReset b u) := by
  obtain ⟨h1, h2, -, -, -, h6⟩ := kept_eq h
  refine ⟨h1, h2, h6, h1, ?_⟩
  generalize hf : (b || fusedLifeCycle u == .retired || u.stone.hold != .none) = fresh
  show (!(b || fusedLifeCycle u == .retired || u.stone.hold != .none) && fusedLifeCycle u == .retirn) = true →
    (if (b || fusedLifeCycle u == .retired || u.stone.hold != .none) = true then u.stone.idKey
      else if keySlotOf (fusedLifeCycle u) = .zeroised then .zeroised else u.stone.idKey) = .zeroised
  rw [hf]
  cases fresh
  · intro h
    have : fusedLifeCycle u = .retirn := by simpa using h
    rw [this]; rfl
  · intro h; cases h

theorem AfterReset.mod {s t v : State} (h : AfterReset s t) (hv : kept v = kept t) : AfterReset s v := by
  obtain ⟨a, b, c, d, e⟩ := h
  obtain ⟨h1, h2, h3, h4, h5, h6⟩ := kept_eq hv
  exact ⟨h1.trans a, h2.trans b, h6.trans c, h3.trans d, fun q => h4.trans (e (h5 ▸ q))⟩

theorem holdReset_after {s u : State} (w : Hold) (h : kept u = kept s) : AfterReset s (holdReset w u) :=
  (deviceReset_after true (u := laserCut u) (by simp [h])).mod rfl

theorem bootCtrl_change {i : Instr} {s u : State} (v : U32) (h : kept u = kept s) : Change i s (bootCtrlWrite v u) := by
  unfold bootCtrlWrite
  dsimp only
  split
  · exact .none h
  · split
    · split
      · exact .reset (deviceReset_after false (by simp [h]))
      · exact .none (by simp [h])
    · exact .none (by simp [h])

theorem wakeUp_change {i : Instr} {s u : State} (f : Byte) (h : kept u = kept s) : Change i s (wakeUp f u) := by
  unfold wakeUp
  extract_lets a b v w1 w2 p
  have hv : kept v = kept s := by
    simp only [v, b, a]
    split <;> simp [h]
  split
  · exact .none (by simp [p, w2, w1, hv])
  · exact .reset (deviceReset_after false hv)

/-- A life-cycle transition from a state that differs from s only in the identity key, or not at all. -/
theorem lcMove_after {s u : State} (target : LifeCycle) (h1 : u.fuse = s.fuse) (h2 : u.pending = s.pending) :
    AfterMove target s (lcMove target u) := by
  unfold lcMove
  have hc : (laserCut u).fuse = u.fuse ∧ (laserCut u).pending = u.pending := by
    unfold laserCut
    split <;> exact ⟨rfl, rfl⟩
  obtain ⟨q1, q2⟩ := hc
  cases target <;> refine ⟨?_, ?_, ?_, rfl, rfl⟩ <;> first | rfl | (exact q2.trans h2) | (show (laserCut u).fuse.floor = _; rw [q1, h1]) |
    (show (laserCut u).fuse.lifeCycle = _; rw [q1, h1]; rfl)


/-- A command that either fails, changing nothing that is kept, or does something else. -/
theorem takeCommand_change {i : Instr} {s : State} (op : Nat) (go : Ctx → State → State) (c : Cmd)
    (h : ∀ x u, kept u = kept s → u.stone = s.stone → u.fuse = s.fuse → u.pending = s.pending → Change i s (go x u)) :
    Change i s (takeCommand op go c s) := by
  rw [takeCommand_cases]
  have ha : kept (taken c s) = kept s := by simp [taken]
  by_cases h1 : canTake c.ring s = true
  · rw [if_pos h1]
    by_cases h2 : fld c.entry 0 2 = op
    · rw [if_pos h2]
      exact h _ _ ha (by simp) (by simp) (by rw [taken, advance_eq]; rfl)
    · rw [if_neg h2]
      exact .none (by simp [ha])
  · rw [if_neg h1]
    exact .none (by simp)

theorem pf0Only_change {i : Instr} {s u : State} (go : Ctx → State → State) (x : Ctx) (hu : kept u = kept s)
    (h : Change i s (go x u)) : Change i s (pf0Only go x u) := by
  unfold pf0Only
  split
  · exact h
  · exact .none (by simp [hu])
/-! ## The commands that change what is kept -/

theorem exec_porNLow_change (t : DT) (s : State) : ∃ u, exec (.porNLow t) s = .next u ∧ Change (.porNLow t) s u := by
  refine ⟨_, rfl, .reset ?_⟩
  have h := deviceReset_after (s := s) (u := laserCut (advance t s)) true (by simp)
  exact ⟨h.1, h.2.1, h.2.2.1, h.1, fun q => by cases q⟩

theorem exec_fusesValid_change (t : DT) (s : State) : ∃ u, exec (.fusesValid t) s = .next u ∧ Change (.fusesValid t) s u := by
  refine ⟨_, rfl, ?_⟩
  dsimp only
  obtain ⟨h1, h2, h3, h4, h5, h6⟩ := kept_eq (show kept (advance t s) = kept s by simp)
  split
  · refine .fuses ?_ ?_ ?_ ?_ ?_
    · exact iteInduction (motive := fun u : State => u.fuse.lifeCycle = s.fuse.lifeCycle) (fun _ => h1) fun _ => h1
    · exact iteInduction (motive := fun u : State => u.fuse.floor = s.fuse.floor) (fun _ => h2) fun _ => h2
    · exact iteInduction (motive := fun u : State => u.pending = s.pending) (fun _ => h6) fun _ => h6
    · refine (?_ : _ = if (advance t s).stone.lifeCycle = .service then _ else (advance t s).fuse.lifeCycle).trans (by rw [h3, h1])
      exact iteInduction (motive := fun u : State => u.stone.lifeCycle = _) (fun _ => rfl) fun _ => rfl
    · refine iteInduction (motive := fun u : State => u.stone.scanEn = true → u.stone.idKey = .zeroised) (fun _ q => ?_) fun _ q => ?_
      · exact beq_iff_eq.1 (Bool.and_eq_true_iff.1 q).2
      · exact beq_iff_eq.1 (Bool.and_eq_true_iff.1 q).2
  · exact .none (by simp)

theorem exec_railUndervoltage_change (t : DT) (s : State) :
    ∃ u, exec (.railUndervoltage t) s = .next u ∧ Change (.railUndervoltage t) s u := by
  refine ⟨_, rfl, ?_⟩
  split
  · exact .reset (holdReset_after _ (by simp))
  · exact .none (by simp)

theorem exec_thermalTrip_change (t : DT) (s : State) : ∃ u, exec (.thermalTrip t) s = .next u ∧ Change (.thermalTrip t) s u := by
  refine ⟨_, rfl, ?_⟩
  split
  · exact .reset (holdReset_after _ (by simp))
  · exact .none (by simp)

theorem exec_registerWrite_change (t : DT) (o w : Nat) (v : U32) (s : State) :
    ∃ u, exec (.registerWrite t o w v) s = .next u ∧ Change (.registerWrite t o w v) s u := by
  refine ⟨_, rfl, ?_⟩
  split
  · exact .none (by simp)
  · split
    · exact .none (by simp)
    · split
      · exact bootCtrl_change v (by simp)
      · exact .none (by simp)

theorem exec_devReset_change (c : Cmd) (s : State) : ∃ u, exec (.devReset c) s = .next u ∧ Change (.devReset c) s u := by
  refine ⟨_, rfl, ?_⟩
  unfold devReset
  refine takeCommand_change _ _ c fun x u hk _ _ _ => pf0Only_change _ x hk ?_
  split
  · exact .none (by simp [hk])
  · exact .reset (deviceReset_after false (by simp [hk]))

theorem exec_standbyEntryDone_change (t : DT) (s : State) :
    ∃ u, exec (.standbyEntryDone t) s = .next u ∧ Change (.standbyEntryDone t) s u := by
  have h : ∀ w, kept w = kept s → Change (.standbyEntryDone t) s (if w.power.wakePending = 0 then w else wakeUp w.power.wakePending w) := by
    intro w hw
    split
    · exact .none hw
    · exact wakeUp_change _ hw
  refine ⟨_, rfl, ?_⟩
  dsimp only
  split
  · exact h _ (by simp)
  · exact .none (by simp)

theorem exec_wake_change (t : DT) (b : Byte) (s : State) : ∃ u, exec (.wake t b) s = .next u ∧ Change (.wake t b) s u := by
  refine ⟨_, rfl, ?_⟩
  split
  · exact .none (by simp)
  · dsimp only
    split
    · exact wakeUp_change _ (by simp)
    · exact .none (by simp)

theorem exec_standbyRestoreDone_change (t : DT) (s : State) :
    ∃ u, exec (.standbyRestoreDone t) s = .next u ∧ Change (.standbyRestoreDone t) s u := by
  refine ⟨_, rfl, ?_⟩
  split
  · split
    · exact .none (by simp)
    · exact .reset ((deviceReset_after false (u := advance t s) (by simp)).mod (by simp))
  · exact .none (by simp)

theorem lcGo_after {s u : State} (target : LifeCycle) (x : Ctx) (h1 : u.fuse = s.fuse) (h2 : u.pending = s.pending) :
    AfterMove target s (lcGo target x u) := by
  have hb : blocks (ok x.ref 0 u) = blocks u := by simp
  exact lcMove_after target ((congrArg State.fuse hb).trans h1) ((congrArg State.pending hb).trans h2)

theorem exec_lcSecure_change (c : Cmd) (s : State) : ∃ u, exec (.lcSecure c) s = .next u ∧ Change (.lcSecure c) s u := by
  refine ⟨_, rfl, ?_⟩
  unfold lcSecure
  refine takeCommand_change _ _ c fun x u hk hs hf hp => pf0Only_change _ x hk ?_
  split
  · exact .none (by simp [hk])
  · split
    · next h => exact .secure c rfl (hs ▸ h) (lcGo_after _ _ hf hp)
    · exact .none (by simp [hk])

theorem exec_lcResume_change (c : Cmd) (s : State) : ∃ u, exec (.lcResume c) s = .next u ∧ Change (.lcResume c) s u := by
  refine ⟨_, rfl, ?_⟩
  unfold lcPlain
  refine takeCommand_change _ _ c fun x u hk hs hf hp => pf0Only_change _ x hk ?_
  split
  · exact .none (by simp [hk])
  · split
    · next h => exact .resume (hs ▸ h) (lcGo_after _ _ hf hp)
    · exact .none (by simp [hk])

/-- A token-bearing command: from a state it lists, or RETIRE from RETURN, the transition; else nothing that is kept. -/
theorem lcToken_change {i : Instr} {s : State} (op : Nat) (sources : List LifeCycle) (target : LifeCycle) (c : Cmd)
    (h : ∀ u, s.stone.lifeCycle ∈ sources ∨ (target = .retired ∧ s.stone.lifeCycle = .retirn) → AfterMove target s u → Change i s u) :
    Change i s (lcToken op sources target c s) := by
  unfold lcToken
  refine takeCommand_change _ _ c fun x u hk hs hf hp => pf0Only_change _ x hk ?_
  split
  · exact .none (by simp [hk])
  · split
    · next q => exact h _ (.inr ⟨q.1, hs ▸ q.2⟩) (lcGo_after _ _ hf hp)
    · split
      · exact .none (by simp [hk])
      · split
        · next q =>
          refine h _ (.inl ?_) (lcGo_after _ _ ?_ ?_)
          · rw [hs] at q
            exact List.contains_iff_mem.1 (Bool.and_eq_true_iff.1 q).1
          · exact hf
          · exact hp
        · exact .none (by simp [hk])

theorem exec_lcService_change (c : Cmd) (s : State) :
    ∃ u, exec (.lcService c) s = .next u ∧ Change (.lcService c) s u := by
  refine ⟨_, rfl, lcToken_change _ _ _ c fun u h hu => .service ?_ hu⟩
  rcases h with h | ⟨h, -⟩
  · simpa using h
  · cases h

theorem exec_lcReturn_change (c : Cmd) (s : State) :
    ∃ u, exec (.lcReturn c) s = .next u ∧ Change (.lcReturn c) s u := by
  refine ⟨_, rfl, lcToken_change _ _ _ c fun u h hu => .retirn c rfl ?_ hu⟩
  rcases h with h | ⟨h, -⟩
  · simpa using h
  · cases h

theorem exec_lcRetire_change (c : Cmd) (s : State) :
    ∃ u, exec (.lcRetire c) s = .next u ∧ Change (.lcRetire c) s u := by
  refine ⟨_, rfl, lcToken_change _ _ _ c fun u h hu => .retire c rfl ?_ hu⟩
  rcases h with h | ⟨-, h⟩
  · simp only [List.mem_cons, List.not_mem_nil, or_false] at h
    exact h.imp id .inl
  · exact .inr (.inr h)

theorem exec_lcRaiseFloor_change (c : Cmd) (s : State) :
    ∃ u, exec (.lcRaiseFloor c) s = .next u ∧ Change (.lcRaiseFloor c) s u := by
  refine ⟨_, rfl, ?_⟩
  unfold lcRaiseFloor
  refine takeCommand_change _ _ c fun x u hk hs hf hp => pf0Only_change _ x hk ?_
  dsimp only
  split
  · exact .none (by simp [hk])
  · obtain ⟨h1, h2, h3, h4, h5, h6⟩ := kept_eq hk
    generalize hv : ok x.ref _ _ = v
    have e : kept v = (u.fuse.lifeCycle, max u.fuse.floor (min 127 u.stone.runSec), u.stone.lifeCycle, u.stone.idKey, u.stone.scanEn, u.pending) := by
      rw [← hv]; simp; rfl
    simp only [kept, Prod.mk.injEq] at e
    obtain ⟨a, b, c1, d, f, q⟩ := e
    exact .floor c rfl (by rw [b, hf, hs]) (by rw [a, hf]) (by rw [q, hp]) (by rw [c1, hs]) (by rw [d, hs]) (by rw [f, hs])

/-- A command that keeps everything kept. -/
theorem change_of_kept {i : Instr} {s : State} (h : ∃ t, exec i s = .next t ∧ kept t = kept s) :
    ∃ t, exec i s = .next t ∧ Change i s t := h.imp fun _ h => ⟨h.1, .none h.2⟩

/-- Every command answers a next state, and this is all it can do to what is kept. -/
theorem exec_change (i : Instr) (s : State) : ∃ t, exec i s = .next t ∧ Change i s t := by
  cases i with
  | porNLow a => exact exec_porNLow_change a s
  | porNRise a => exact change_of_kept (exec_porNRise_kept s)
  | fusesValid a => exact exec_fusesValid_change a s
  | sramWipeDone a => exact change_of_kept (exec_sramWipeDone_kept s)
  | dramTrainingDone a b => exact change_of_kept (exec_dramTrainingDone_kept s)
  | dramWipeDone a => exact change_of_kept (exec_dramWipeDone_kept s)
  | verifyDone a => exact change_of_kept (exec_verifyDone_kept s)
  | korsynStart a => exact change_of_kept (exec_korsynStart_kept s)
  | korsynReady a => exact change_of_kept (exec_korsynReady_kept s)
  | startTimeout a => exact change_of_kept (exec_startTimeout_kept s)
  | perstNAssert a => exact change_of_kept (exec_perstNAssert_kept s)
  | perstNRelease a => exact change_of_kept (exec_perstNRelease_kept s)
  | railUndervoltage a => exact exec_railUndervoltage_change a s
  | railRecovery a => exact change_of_kept (exec_railRecovery_kept s)
  | thermalTrip a => exact exec_thermalTrip_change a s
  | thermalHoldEnd a => exact change_of_kept (exec_thermalHoldEnd_kept s)
  | tempThreshold a b c => exact change_of_kept (exec_tempThreshold_kept s)
  | bootCtrlDevReset a b => exact ⟨_, rfl, bootCtrl_change _ (by simp)⟩
  | go a b => exact ⟨_, rfl, bootCtrl_change _ (by simp)⟩
  | abort a b => exact ⟨_, rfl, bootCtrl_change _ (by simp)⟩
  | spiEnable a b => exact ⟨_, rfl, bootCtrl_change _ (by simp)⟩
  | registerWrite a b c d => exact exec_registerWrite_change a b c d s
  | dtSnapLoRead a => exact change_of_kept (exec_dtSnapLoRead_kept s)
  | doorbellWrite a b c => exact change_of_kept (exec_doorbellWrite_kept s)
  | dmaDoorbell a b c => exact change_of_kept (exec_dmaDoorbell_kept s)
  | imageStagingWrite a b c => exact change_of_kept (exec_imageStagingWrite_kept s)
  | bootSpiWriteStaging a b => exact change_of_kept (exec_bootSpiWriteStaging_kept s)
  | bootSpiReadStaging a b c => exact change_of_kept (exec_bootSpiReadStaging_kept s)
  | bootSpiReadStatus a b => exact change_of_kept (exec_bootSpiReadStatus_kept s)
  | bootSpiWriteBootLen a b => exact change_of_kept (exec_bootSpiWriteBootLen_kept s)
  | bootSpiGo a b => exact change_of_kept (exec_bootSpiGo_kept s)
  | bootSpiAbort a b => exact change_of_kept (exec_bootSpiAbort_kept s)
  | bootSpiUnknownTransaction a b => exact change_of_kept (exec_bootSpiUnknownTransaction_kept s)
  | bar4Read a b c => exact change_of_kept (exec_bar4Read_kept s)
  | bar4Write a b c => exact change_of_kept (exec_bar4Write_kept s)
  | devInfo a => exact change_of_kept (exec_devInfo_kept s)
  | devCaps a => exact change_of_kept (exec_devCaps_kept s)
  | devReset a => exact exec_devReset_change a s
  | devSetWindow a => exact change_of_kept (exec_devSetWindow_kept s)
  | devUpdate a => exact change_of_kept (exec_devUpdate_kept s)
  | devSetPower a b => exact change_of_kept (exec_devSetPower_kept s)
  | ringCreate a => exact change_of_kept (exec_ringCreate_kept s)
  | ringDestroy a => exact change_of_kept (exec_ringDestroy_kept s)
  | ringModerate a => exact change_of_kept (exec_ringModerate_kept s)
  | bunchOpen a => exact change_of_kept (exec_bunchOpen_kept s)
  | bunchCommit a => exact change_of_kept (exec_bunchCommit_kept s)
  | bunchAbort a => exact change_of_kept (exec_bunchAbort_kept s)
  | bunchQuery a => exact change_of_kept (exec_bunchQuery_kept s)
  | stagingCycle a => exact change_of_kept (exec_stagingCycle_kept s)
  | bunchArmed a b => exact change_of_kept (exec_bunchArmed_kept s)
  | commitPoint a b => exact change_of_kept (exec_commitPoint_kept s)
  | memberLanding a b c => exact change_of_kept (exec_memberLanding_kept s)
  | bunchTimeout a b => exact change_of_kept (exec_bunchTimeout_kept s)
  | domainStarted a b => exact change_of_kept (exec_domainStarted_kept s)
  | clkStatus a => exact change_of_kept (exec_clkStatus_kept s)
  | clkSetLockMode a => exact change_of_kept (exec_clkSetLockMode_kept s)
  | clkSelectRef a => exact change_of_kept (exec_clkSelectRef_kept s)
  | clkSyncArm a => exact change_of_kept (exec_clkSyncArm_kept s)
  | clkSetSkew a => exact change_of_kept (exec_clkSetSkew_kept s)
  | adpllLock a b c => exact change_of_kept (exec_adpllLock_kept s)
  | gatedOutputReturn a b => exact change_of_kept (exec_gatedOutputReturn_kept s)
  | adpllLockLoss a b => exact change_of_kept (exec_adpllLockLoss_kept s)
  | refclkLoss a => exact change_of_kept (exec_refclkLoss_kept s)
  | refclkRestored a => exact change_of_kept (exec_refclkRestored_kept s)
  | timeGet a => exact change_of_kept (exec_timeGet_kept s)
  | timeSetTai a => exact change_of_kept (exec_timeSetTai_kept s)
  | timeConfig a => exact change_of_kept (exec_timeConfig_kept s)
  | ppsInEdge a b => exact change_of_kept (exec_ppsInEdge_kept s)
  | ppsLossTimeout a => exact change_of_kept (exec_ppsLossTimeout_kept s)
  | syncInEdge a b c => exact change_of_kept (exec_syncInEdge_kept s)
  | syncOutLaunch a => exact change_of_kept (exec_syncOutLaunch_kept s)
  | syncArmTimeout a => exact change_of_kept (exec_syncArmTimeout_kept s)
  | ptpEventMessage a b c d => exact change_of_kept (exec_ptpEventMessage_kept s)
  | rfSetRange a => exact change_of_kept (exec_rfSetRange_kept s)
  | rfStatus a => exact change_of_kept (exec_rfStatus_kept s)
  | rfSetPadCount a => exact change_of_kept (exec_rfSetPadCount_kept s)
  | calSetRf a => exact change_of_kept (exec_calSetRf_kept s)
  | rfGroup a b c => exact change_of_kept (exec_rfGroup_kept s)
  | overdriveComparator a b c => exact change_of_kept (exec_overdriveComparator_kept s)
  | padSettleEnd a b => exact change_of_kept (exec_padSettleEnd_kept s)
  | otpBurnDone a b => exact change_of_kept (exec_otpBurnDone_kept s)
  | sliceSwap a b c => exact change_of_kept (exec_sliceSwap_kept s)
  | opticalGroup a b c => exact change_of_kept (exec_opticalGroup_kept s)
  | ddcSet a => exact change_of_kept (exec_ddcSet_kept s)
  | ddcSetDetect a => exact change_of_kept (exec_ddcSetDetect_kept s)
  | ddcOutputGroup a b => exact change_of_kept (exec_ddcOutputGroup_kept s)
  | detectorWindowEnd a b => exact change_of_kept (exec_detectorWindowEnd_kept s)
  | vdifFrame a b => exact change_of_kept (exec_vdifFrame_kept s)
  | pipAssign a => exact change_of_kept (exec_pipAssign_kept s)
  | pipSetSpares a => exact change_of_kept (exec_pipSetSpares_kept s)
  | pipStatus a => exact change_of_kept (exec_pipStatus_kept s)
  | specSetFft a => exact change_of_kept (exec_specSetFft_kept s)
  | specSetWindow a => exact change_of_kept (exec_specSetWindow_kept s)
  | specSetTrace a => exact change_of_kept (exec_specSetTrace_kept s)
  | pipFrameDone a b c => exact change_of_kept (exec_pipFrameDone_kept s)
  | averagingBlockEnd a b => exact change_of_kept (exec_averagingBlockEnd_kept s)
  | traceBlockEnd a b c => exact change_of_kept (exec_traceBlockEnd_kept s)
  | pipFault a b c => exact change_of_kept (exec_pipFault_kept s)
  | pipRecomputeDone a b c => exact change_of_kept (exec_pipRecomputeDone_kept s)
  | bloomSet a => exact change_of_kept (exec_bloomSet_kept s)
  | bloomClear a => exact change_of_kept (exec_bloomClear_kept s)
  | bloomRead a => exact change_of_kept (exec_bloomRead_kept s)
  | bloomIngest a b => exact change_of_kept (exec_bloomIngest_kept s)
  | bloomDecay a b => exact change_of_kept (exec_bloomDecay_kept s)
  | decayPassDone a b => exact change_of_kept (exec_decayPassDone_kept s)
  | bloomSnapshot a b => exact change_of_kept (exec_bloomSnapshot_kept s)
  | trigSetMask a => exact change_of_kept (exec_trigSetMask_kept s)
  | trigSetTd a => exact change_of_kept (exec_trigSetTd_kept s)
  | trigSetSeq a => exact change_of_kept (exec_trigSetSeq_kept s)
  | trigSetLimit a => exact change_of_kept (exec_trigSetLimit_kept s)
  | trigLimitResume a => exact change_of_kept (exec_trigLimitResume_kept s)
  | trigSetLog a => exact change_of_kept (exec_trigSetLog_kept s)
  | trigSetLineLog a => exact change_of_kept (exec_trigSetLineLog_kept s)
  | trigInEdge a b c => exact change_of_kept (exec_trigInEdge_kept s)
  | sequencerEvaluate a b => exact change_of_kept (exec_sequencerEvaluate_kept s)
  | sequencerStepTimeout a b => exact change_of_kept (exec_sequencerStepTimeout_kept s)
  | capSet a => exact change_of_kept (exec_capSet_kept s)
  | capArm a => exact change_of_kept (exec_capArm_kept s)
  | capForce a => exact change_of_kept (exec_capForce_kept s)
  | capRead a => exact change_of_kept (exec_capRead_kept s)
  | capStatus a => exact change_of_kept (exec_capStatus_kept s)
  | captureEnd a b => exact change_of_kept (exec_captureEnd_kept s)
  | captureOverflow a b => exact change_of_kept (exec_captureOverflow_kept s)
  | genSegment a => exact change_of_kept (exec_genSegment_kept s)
  | genLoad a => exact change_of_kept (exec_genLoad_kept s)
  | genStart a => exact change_of_kept (exec_genStart_kept s)
  | genCarrier a => exact change_of_kept (exec_genCarrier_kept s)
  | genJump a => exact change_of_kept (exec_genJump_kept s)
  | genRoute a => exact change_of_kept (exec_genRoute_kept s)
  | genStatus a => exact change_of_kept (exec_genStatus_kept s)
  | calSetGen a => exact change_of_kept (exec_calSetGen_kept s)
  | genLatchPoint a b => exact change_of_kept (exec_genLatchPoint_kept s)
  | genSegmentStart a b => exact change_of_kept (exec_genSegmentStart_kept s)
  | trigOutPulseEnd a b => exact change_of_kept (exec_trigOutPulseEnd_kept s)
  | generatorUnderrun a b => exact change_of_kept (exec_generatorUnderrun_kept s)
  | dasStart a => exact change_of_kept (exec_dasStart_kept s)
  | dasSetSlot a => exact change_of_kept (exec_dasSetSlot_kept s)
  | dasSetGrid a => exact change_of_kept (exec_dasSetGrid_kept s)
  | dasSetPmask a => exact change_of_kept (exec_dasSetPmask_kept s)
  | dasStatus a => exact change_of_kept (exec_dasStatus_kept s)
  | calSetFibre a => exact change_of_kept (exec_calSetFibre_kept s)
  | dasTraceReady a b c => exact change_of_kept (exec_dasTraceReady_kept s)
  | dasBandWindowEnd a b => exact change_of_kept (exec_dasBandWindowEnd_kept s)
  | laserSetModcal a => exact change_of_kept (exec_laserSetModcal_kept s)
  | laserSetCaps a => exact change_of_kept (exec_laserSetCaps_kept s)
  | laserArm a => exact change_of_kept (exec_laserArm_kept s)
  | laserStatus a => exact change_of_kept (exec_laserStatus_kept s)
  | laserComparatorTrip a b c => exact change_of_kept (exec_laserComparatorTrip_kept s)
  | laserPermitLow a => exact change_of_kept (exec_laserPermitLow_kept s)
  | laserPermitHigh a => exact change_of_kept (exec_laserPermitHigh_kept s)
  | dtsStart a => exact change_of_kept (exec_dtsStart_kept s)
  | dtsSet a => exact change_of_kept (exec_dtsSet_kept s)
  | dtsStatus a => exact change_of_kept (exec_dtsStatus_kept s)
  | dtsLaunch a b => exact change_of_kept (exec_dtsLaunch_kept s)
  | dtsStackEnd a b => exact change_of_kept (exec_dtsStackEnd_kept s)
  | dtsRecordReady a b => exact change_of_kept (exec_dtsRecordReady_kept s)
  | slowSetScan a => exact change_of_kept (exec_slowSetScan_kept s)
  | slowStart a => exact change_of_kept (exec_slowStart_kept s)
  | slowUrgent a => exact change_of_kept (exec_slowUrgent_kept s)
  | slowEntryDelayEnd a => exact change_of_kept (exec_slowEntryDelayEnd_kept s)
  | slowConversionEnd a b => exact change_of_kept (exec_slowConversionEnd_kept s)
  | slowPartialEntryFlush a => exact change_of_kept (exec_slowPartialEntryFlush_kept s)
  | excSet a => exact change_of_kept (exec_excSet_kept s)
  | excStatus a => exact change_of_kept (exec_excStatus_kept s)
  | excBreakDetect a b => exact change_of_kept (exec_excBreakDetect_kept s)
  | excBreakRestored a b => exact change_of_kept (exec_excBreakRestored_kept s)
  | impedanceCheckDue a b => exact change_of_kept (exec_impedanceCheckDue_kept s)
  | impedanceCheckDone a b c d => exact change_of_kept (exec_impedanceCheckDone_kept s)
  | curSetBand a => exact change_of_kept (exec_curSetBand_kept s)
  | curStatus a => exact change_of_kept (exec_curStatus_kept s)
  | currantFault a b c => exact change_of_kept (exec_currantFault_kept s)
  | currantRecomputeDone a b c => exact change_of_kept (exec_currantRecomputeDone_kept s)
  | dmaSet a => exact change_of_kept (exec_dmaSet_kept s)
  | dmaStart a => exact change_of_kept (exec_dmaStart_kept s)
  | dmaStatus a => exact change_of_kept (exec_dmaStatus_kept s)
  | dmaRequest a => exact change_of_kept (exec_dmaRequest_kept s)
  | dmaMove a b c => exact change_of_kept (exec_dmaMove_kept s)
  | dmaGather a b c => exact change_of_kept (exec_dmaGather_kept s)
  | dmaScatter a b c => exact change_of_kept (exec_dmaScatter_kept s)
  | dmaLoop a b c => exact change_of_kept (exec_dmaLoop_kept s)
  | dmaWait a b c => exact change_of_kept (exec_dmaWait_kept s)
  | dmaWaitSatisfied a b => exact change_of_kept (exec_dmaWaitSatisfied_kept s)
  | dmaSignal a b c => exact change_of_kept (exec_dmaSignal_kept s)
  | dmaLink a b c => exact change_of_kept (exec_dmaLink_kept s)
  | dmaEnd a b c => exact change_of_kept (exec_dmaEnd_kept s)
  | dmaUndefinedOp a b c => exact change_of_kept (exec_dmaUndefinedOp_kept s)
  | dmaBurst a b => exact change_of_kept (exec_dmaBurst_kept s)
  | dmaTransferDone a b => exact change_of_kept (exec_dmaTransferDone_kept s)
  | dmaErrorResponse a b c => exact change_of_kept (exec_dmaErrorResponse_kept s)
  | requestLineRequest a b => exact change_of_kept (exec_requestLineRequest_kept s)
  | msixModTimeExpiry a b => exact change_of_kept (exec_msixModTimeExpiry_kept s)
  | msixUnmask a b c => exact change_of_kept (exec_msixUnmask_kept s)
  | memSetFreq a => exact change_of_kept (exec_memSetFreq_kept s)
  | memSetIdle a => exact change_of_kept (exec_memSetIdle_kept s)
  | memStatus a => exact change_of_kept (exec_memStatus_kept s)
  | memReadLog a => exact change_of_kept (exec_memReadLog_kept s)
  | memRepair a => exact change_of_kept (exec_memRepair_kept s)
  | dfsDone a => exact change_of_kept (exec_dfsDone_kept s)
  | trainingWindow a => exact change_of_kept (exec_trainingWindow_kept s)
  | trainingWindowEnd a => exact change_of_kept (exec_trainingWindowEnd_kept s)
  | selfRefreshEntry a => exact change_of_kept (exec_selfRefreshEntry_kept s)
  | dramWake a => exact change_of_kept (exec_dramWake_kept s)
  | dramRefresh a b c => exact change_of_kept (exec_dramRefresh_kept s)
  | patrolScrub a b => exact change_of_kept (exec_patrolScrub_kept s)
  | dramEccError a b => exact change_of_kept (exec_dramEccError_kept s)
  | sramEccError a b => exact change_of_kept (exec_sramEccError_kept s)
  | pcieLinkChange a b c => exact change_of_kept (exec_pcieLinkChange_kept s)
  | pf1Flr a => exact change_of_kept (exec_pf1Flr_kept s)
  | pf0D3hot a => exact change_of_kept (exec_pf0D3hot_kept s)
  | netSetPort a => exact change_of_kept (exec_netSetPort_kept s)
  | netSetStream a => exact change_of_kept (exec_netSetStream_kept s)
  | netSetVdif a => exact change_of_kept (exec_netSetVdif_kept s)
  | netSetControl a => exact change_of_kept (exec_netSetControl_kept s)
  | netStatus a => exact change_of_kept (exec_netStatus_kept s)
  | ethFrameReceived a b c => exact change_of_kept (exec_ethFrameReceived_kept s)
  | streamDatagramSend a b => exact change_of_kept (exec_streamDatagramSend_kept s)
  | ethLinkChange a b c => exact change_of_kept (exec_ethLinkChange_kept s)
  | controlCommandDatagram a b => exact change_of_kept (exec_controlCommandDatagram_kept s)
  | controlResendDatagram a b => exact change_of_kept (exec_controlResendDatagram_kept s)
  | streamDropReport a b => exact change_of_kept (exec_streamDropReport_kept s)
  | dispSetMode a => exact change_of_kept (exec_dispSetMode_kept s)
  | dispSetLayer a => exact change_of_kept (exec_dispSetLayer_kept s)
  | dispSetPalette a => exact change_of_kept (exec_dispSetPalette_kept s)
  | dispAlloc a => exact change_of_kept (exec_dispAlloc_kept s)
  | dispSetPsr a => exact change_of_kept (exec_dispSetPsr_kept s)
  | dispStatus a => exact change_of_kept (exec_dispStatus_kept s)
  | displayFrameStart a => exact change_of_kept (exec_displayFrameStart_kept s)
  | displayVerticalActiveEnd a => exact change_of_kept (exec_displayVerticalActiveEnd_kept s)
  | displayFrameEnd a b => exact change_of_kept (exec_displayFrameEnd_kept s)
  | hpdUnplug a => exact change_of_kept (exec_hpdUnplug_kept s)
  | hpdPlug a => exact change_of_kept (exec_hpdPlug_kept s)
  | hpdIrq a b => exact change_of_kept (exec_hpdIrq_kept s)
  | linkTrainingDone a b => exact change_of_kept (exec_linkTrainingDone_kept s)
  | healthStatus a => exact change_of_kept (exec_healthStatus_kept s)
  | healthSetRotation a => exact change_of_kept (exec_healthSetRotation_kept s)
  | healthReadFaults a => exact change_of_kept (exec_healthReadFaults_kept s)
  | healthSetRetired a => exact change_of_kept (exec_healthSetRetired_kept s)
  | rotationVisit a b c => exact change_of_kept (exec_rotationVisit_kept s)
  | unitTestDone a b c d => exact change_of_kept (exec_unitTestDone_kept s)
  | orxSliceSwap a b c => exact change_of_kept (exec_orxSliceSwap_kept s)
  | dacLoopback a b c => exact change_of_kept (exec_dacLoopback_kept s)
  | dieReferenceCheck a b c d => exact change_of_kept (exec_dieReferenceCheck_kept s)
  | slowSelftestDue a => exact change_of_kept (exec_slowSelftestDue_kept s)
  | stewardFault a b => exact change_of_kept (exec_stewardFault_kept s)
  | stewardRestartDone a b => exact change_of_kept (exec_stewardRestartDone_kept s)
  | stewardOutageTimeout a => exact change_of_kept (exec_stewardOutageTimeout_kept s)
  | handoverTimeout a => exact change_of_kept (exec_handoverTimeout_kept s)
  | readyEntry a => exact change_of_kept (exec_readyEntry_kept s)
  | standbyEntryDone a => exact exec_standbyEntryDone_change a s
  | wake a b => exact exec_wake_change a b s
  | standbyRestoreDone a => exact exec_standbyRestoreDone_change a s
  | lcSecure a => exact exec_lcSecure_change a s
  | lcService a => exact exec_lcService_change a s
  | lcResume a => exact exec_lcResume_change a s
  | lcReturn a => exact exec_lcReturn_change a s
  | lcRetire a => exact exec_lcRetire_change a s
  | lcRaiseFloor a => exact exec_lcRaiseFloor_change a s
  | lcChallenge a => exact change_of_kept (exec_lcChallenge_kept s)
  | xtalBRunning a => exact change_of_kept (exec_xtalBRunning_kept s)
  | slowIntegrationStart a => exact change_of_kept (exec_slowIntegrationStart_kept s)
  | pf1BusMasterEnable a => exact change_of_kept (exec_pf1BusMasterEnable_kept s)

end Sys2Proof.Machine
end

