-- ==== Sys2Proof/Machine/Scanout.lean ====
section
/-! DEFINITION. The pixels of the display: layers, palettes, colour conversion and blending (17_display.md R335 to R337, R339,
R342, R344). No command sends a pixel; pixelSent says what the link carries for a pixel whose time has come
(DESIGN CHOICE, safe: log 85). -/

namespace Sys2Proof.Machine

/-- Red, green and blue at 10 bits a component. -/
abbrev Rgb := Int × Int × Int

/-- A component of another full-scale value at 10 bits. (DESIGN CHOICE, unsafe: log 87.) -/
def tenBits (full : Nat) (v : Int) : Int := clamp 0 1023 (roundEven (1023 * v) full)

/-- Alpha and colour of an ARGB8888 word. -/
def argbPixel (w : Nat) : Nat × Rgb :=
  (w / 2 ^ 24 % 256, tenBits 255 (w / 2 ^ 16 % 256 : Nat), tenBits 255 (w / 2 ^ 8 % 256 : Nat), tenBits 255 (w % 256 : Nat))

/-! ## The bloom layer (R339) -/

/-- The count of a cell of a map: 0 outside it and in a released map. -/
def cellCount (m : BloomMap) (c r : Nat) : Nat :=
  if m.set && decide (c < m.cfg.columns) && decide (r < m.cfg.rows) then tget 0 m.cells (r * m.cfg.columns + c) else 0

/-- R339: the source cell of an output pixel of the layer: its column and row. -/
def sourceCell (l : LayerCfg) (x y : Nat) : Nat × Nat :=
  let red := l.pitch % 16
  let rep := l.pitch / 16 % 16
  (l.base0 % 2 ^ 32 + x / rep * red, l.base0 / 2 ^ 32 + y / rep * red)

/-- R339: the largest count of the block that a pixel shows. -/
def pixelCount (l : LayerCfg) (m : BloomMap) (x y : Nat) : Nat :=
  let red := l.pitch % 16
  let cell := sourceCell l x y
  (((List.range red).map fun j => ((List.range red).map fun i => cellCount m (cell.1 + i) (cell.2 + j)).foldl max 0)).foldl max 0

/-- R339: 16 log2 v to the nearest whole number: no power of v other than a power of 2 makes a tie. -/
def log16 (v : Nat) : Nat := (Nat.log2 (v ^ 32) + 1) / 2

/-- R339: the palette index of a count. -/
def paletteIndex (l : LayerCfg) (count : Nat) : Nat :=
  min 255 (if l.csc % 2 = 0 then count * l.gain / 2 ^ 16 else log16 (1 + count))

/-- R339: a pixel of the bloom layer. -/
def bloomPixel (l : LayerCfg) (x y : Nat) (s : State) : Nat × Rgb :=
  argbPixel (s.disp.palette.getD (paletteIndex l (pixelCount l (getBloom l.format s) x y)) 0)

/-! ## Host planes (R336, R337) -/

/-- R342: a sample of a plane lies in 64 bytes that carried an uncorrectable error. -/
def spoilt (a : Nat) (s : State) : Bool := poisonedIn (a / 64 * 64) 64 s

/-- A luma or chroma sample: a byte, or the upper ten bits of two. -/
def planeSample (format a : Nat) (s : State) : Int :=
  if format = 3 then ((readLe s.dram a 2 / 64 : Nat) : Int) else (readLe s.dram a 1 : Int)

/-- R337: chroma columns of a pixel column with their weights, together 2: co-sited on even columns. -/
def chromaColumns (w x : Nat) : List (Nat × Int) :=
  if x % 2 = 0 then [(x / 2, 2)] else [(x / 2, 1), (min (x / 2 + 1) (w / 2 - 1), 1)]

/-- R337: chroma lines of a pixel line with their weights, together 4: centred between two lines in 4:2:0. -/
def chromaLines (format h y : Nat) : List (Nat × Int) :=
  if format = 2 then [(y, 4)]
  else if y % 2 = 0 then [(y / 2, 3), (y / 2 - 1, 1)] else [(y / 2, 3), (min (y / 2 + 1) (h / 2 - 1), 1)]

/-- Device offsets of the chroma samples of a pixel, component 0 or 1, with their weights, together 8. -/
def chromaAt (l : LayerCfg) (base x y comp : Nat) : List (Nat × Int) :=
  (chromaLines l.format l.h y).flatMap fun v => (chromaColumns l.w x).map fun u =>
    (base + v.1 * l.pitch1 + (2 * u.1 + comp) * sampleBytes l.format, v.2 * u.2)

/-- The weights of red and blue in luma, in units of 10^-4 (BT.601, BT.709, BT.2020). -/
def lumaWeights (csc : Nat) : Int × Int :=
  if csc % 4 = 0 then (2990, 1140) else if csc % 4 = 1 then (2126, 722) else (2627, 593)

/-- R337: colour of luma y and eight times chroma cb, cr of samples so many bits wide, non-constant luminance, at 10 bits.
(DESIGN CHOICE, unsafe: log 87: one rounding at the end.) -/
def yuvColour (csc bits : Nat) (y cb8 cr8 : Int) : Rgb :=
  let full := bit csc 2
  let one : Int := 2 ^ (bits - 8)
  let yr : Int := if full then 2 ^ bits - 1 else 219 * one
  let cr : Int := if full then 2 ^ bits - 1 else 224 * one
  let yn := if full then y else y - 16 * one
  let cb := cb8 - 8 * (128 * one)
  let cv := cr8 - 8 * (128 * one)
  let w := lumaWeights csc
  let kg := 10000 - w.1 - w.2
  let den := 8 * yr * cr * 10000
  let red := yn * 8 * cr * 10000 + 2 * (10000 - w.1) * cv * yr
  let blue := yn * 8 * cr * 10000 + 2 * (10000 - w.2) * cb * yr
  let green := yn * 8 * cr * 10000 * kg - 2 * w.1 * (10000 - w.1) * cv * yr - 2 * w.2 * (10000 - w.2) * cb * yr
  (tenBits den.toNat red, tenBits (den * kg).toNat green, tenBits den.toNat blue)

/-- A pixel of a host plane; a pixel that an uncorrectable error spoils is zero (R342; DEDUCED, unsafe: log 87). -/
def planePixel (l : LayerCfg) (x y : Nat) (s : State) : Nat × Rgb :=
  let pool := (s.disp.pool.map (·.1)).getD 0
  let base := pool + l.base0
  if l.format = 0 then
    let a := base + y * l.pitch + 4 * x
    if spoilt a s then argbPixel 0 else argbPixel (readLe s.dram a 4)
  else
    let a := base + y * l.pitch + x * sampleBytes l.format
    let cb := chromaAt l (pool + l.base1) x y 0
    let cr := chromaAt l (pool + l.base1) x y 1
    let sum := fun (cs : List (Nat × Int)) => (cs.map fun c => c.2 * planeSample l.format c.1 s).sum
    if spoilt a s || (cb ++ cr).any (fun c => spoilt c.1 s) then (255, 0, 0, 0)
    else (255, yuvColour l.csc (if l.format = 3 then 10 else 8) (planeSample l.format a s) (sum cb) (sum cr))

/-! ## Composition (R336) -/

/-- out = a * src + (1 - a) * dst with a = pixel alpha * ALPHA / 255^2, at 10 bits. -/
def blend (pixelAlpha alpha : Nat) (src dst : Int) : Int :=
  roundEven ((pixelAlpha * alpha : Nat) * src + (65025 - (pixelAlpha * alpha : Nat)) * dst) 65025

def blendRgb (alpha : Nat) (src : Nat × Rgb) (dst : Rgb) : Rgb :=
  (blend src.1 alpha src.2.1 dst.1, blend src.1 alpha src.2.2.1 dst.2.1, blend src.1 alpha src.2.2.2 dst.2.2)

/-- A layer covers an output pixel. -/
def covers (r : Nat × Nat × Nat × Nat) (x y : Nat) : Bool :=
  decide (r.1 ≤ x) && decide (x < r.1 + r.2.2.1) && decide (r.2.1 ≤ y) && decide (y < r.2.1 + r.2.2.2)

/-- One layer over what lies below it. -/
def layerOver (x y i : Nat) (s : State) (below : Rgb) : Rgb :=
  let l := tget {} s.disp.layers i
  if l.enable && covers (l.x, l.y, l.w, l.h) x y then
    blendRgb l.alpha (if i = 0 then bloomPixel l (x - l.x) (y - l.y) s else planePixel l (x - l.x) (y - l.y) s) below
  else below

/-- R336: the layers of a pixel in ascending Z over the background. -/
def composed (x y : Nat) (s : State) : Rgb :=
  ([0, 1, 2, 3].flatMap fun z => [0, 1, 2, 3].filter fun i => (tget {} s.disp.layers i).enable && (tget {} s.disp.layers i).z == z).foldl
    (fun c i => layerOver x y i s c) (argbPixel s.disp.mode.background).2

/-- R336: a 10-bit component at the output's bits per component, to nearest, ties to even. -/
def outputBits (bpc : Nat) (v : Int) : Int := if bpc = 8 then roundEven (255 * v) 1023 else v

/-- R335, R336, R343, R344: what the main link carries for an active pixel: nothing where it is down or sends idle pattern or
the panel refreshes itself; black in frames 1 and 2 of a mode and after a reconnection; else the composed layers. -/
def pixelSent (x y : Nat) (s : State) : Option Rgb :=
  let d := s.disp
  if !framesOut s || !d.link || d.frame == 0 || d.wait == some false then none
  else if d.psrActive && !d.update.any (fun r => covers r x y) then none
  else if d.modeChange.isSome || d.wait == some true then some (0, 0, 0)
  else
    let c := composed x y s
    some (outputBits d.mode.bpc c.1, outputBits d.mode.bpc c.2.1, outputBits d.mode.bpc c.2.2)

end Sys2Proof.Machine
end

