-- ==== Sys2Proof/Tests/Slice0.lean ====
section
/-! SUPPORT. Tests: the check of WellFormed refuses ill-formed commands; small examples worked by hand from the spec; and for
every statement with hypotheses a state and operands that meet them all. -/

namespace Sys2Proof.Tests

set_option Elab.async false

open Sys2Proof Sys2Proof.Machine

/-! ## Entries and states -/

/-- DT one second after DT 0. -/
def second : DT := 20480000000

/-- The bytes of an entry from (offset, little-endian value) pairs. -/
def packed (fs : List (Nat × Nat)) : Entry := BitVec.ofNat 512 (fs.foldl (fun n f => n + f.2 * 2 ^ (8 * f.1)) 0)

/-- A command outside a bunch in ring 0, and a member of bunch 0. -/
def cmd (op unit : Nat) (fs : List (Nat × Nat)) : Cmd :=
  { t := second, ring := 0, entry := packed ([(0, op), (8, 0xFFFF), (10, unit)] ++ fs) }
def joins (op unit : Nat) (fs : List (Nat × Nat)) : Cmd :=
  { t := second, ring := 0, entry := packed ([(0, op), (2, 1), (10, unit)] ++ fs) }

/-- A part after boot with nothing running, all domains on and all ADPLLs locked; one command waits in ring 0, and ring 3 is
a data ring. -/
def calm : State :=
  { dt := second
    stone := { porN := true, perstN := true, stage := .ready, ifaceLevel := 3, dramWiped := true, sramWiped := true, fusesValid := true }
    power := { state := .active, fabric := true, dies := [(0, true), (1, true)], display := true
               eth := [(0, true), (1, true), (2, true), (3, true)] }
    steward := { running := true }
    rings := tput {} (tmod {} bootstrapRings 0 (fun r => { r with prod := 1 })) 3
      { created := true, kind := .data, log2 := 4, location := 3, entrySize := 64, base := 0x810000 }
    clock := { plls := [(0, { locked := true, stopped := false }), (1, { locked := true, stopped := false }),
                        (2, { locked := true, stopped := false }), (3, { locked := true, stopped := false })] }
    health := { admitted := true }
    disp := { pool := some (0, 4096) }
    pcie := { link := true } }

/-- Every block of number 0 runs. -/
def busy : State :=
  { calm with
    rf := [(0, { powered := true })]
    ddc := [(0, { enable := true })]
    spec := [(0, { running := true })]
    bloom := [(0, { set := true, cfg := { firstBin := some 0 } })]
    cap := [(0, { isSet := true, phase := 1 })]
    gen := [(0, { running := true })]
    fibre := [(0, { das := true, dts := true })]
    slow := { scanning := true }
    exc := [(0, { cfg := { enable := true } })]
    lineLog := { cfg := { ring := 3 } }
    disp := { mode := { output := 2, h := [64, 0, 0, 0], v := [64, 0, 0, 0] }, pool := some (0, 4096) }
    rings := tmod {} calm.rings 3 (fun r => { r with
      stream := some { port := 0, vdif := false, ipv6 := false, dscp := 0, vlan := 0xFFFF, dstUdp := 0, dstMac := 0, srcUdp := 0, dstIp := 0 }
      vdif := some { path := 0, bits := 2, thread := 0, station := 0, payload := 8, thresh := 1, leap := 0, refEpoch := 0 } }) }

/-- Bunch 0 is OPEN, PF0's. -/
def opened : State := { calm with bunch := { table := [(0, { state := .opened, timeoutMs := 1000 })] } }

/-- Ring 0 belongs to the Ethernet master; the same with bunch 0 open, PF0's. -/
def remote : State := { calm with rings := tmod {} calm.rings 0 (fun r => { r with master := .ethernet }) }
def remoteOpened : State := { remote with bunch := opened.bunch }

/-- A part fused with no unit that may be absent. -/
def bare : State := { calm with fuse := { rf := 0, dacs := 0, orx := 0, display := false } }

/-- The event ring is full; the event ring takes namespace 0x01. -/
def full : State := { calm with rings := tmod {} calm.rings 2 (fun r => { r with prod := 256 }) }
def listening : State := { calm with rings := tmod {} calm.rings 2 (fun r => { r with nsMask := 2 }) }

/-- Bloom map 0 is set on personality 0. -/
def mapped : State := { calm with bloom := [(0, { set := true })] }

/-- A generator with resident segment 0 and a table of one entry that plays it. -/
def segmented : Gen :=
  { segments := [(0, some { carrier := false, lanes := 0, length := 16, idle := 0, resident := true, addr := 0 })]
    table := [{ segment := 0, flags := 0, repeats := 1, loopTo := 0, loopCount := 0, next := 0xFFFF, jumpTo := 0, jumpCond := 0, stopCond := 0 }] }

/-- The header of an image of 4,096 bytes (Table 2-11). -/
def image : Mem := [(0, 0x4B), (1, 0x52), (2, 0x53), (3, 0x4E), (6, 3), (9, 0x10)]

/-- LC.SECURE waits on a part in MANUFACTURE. -/
noncomputable def toSecure : State :=
  { calm with
    fuse := { lifeCycle := .manufacture }
    stone := { calm.stone with lifeCycle := .manufacture }
    pending := [.lcSecure (cmd 0x1A01 0xFFFF [])] }

theorem zeroBytes_iff (e : Entry) (a b : Nat) :
    ZeroBytes e a b ↔ ((List.range (b - a)).all fun i => fld e (a + i) 1 == 0) = true := by
  simp only [ZeroBytes, List.all_eq_true, List.mem_range, beq_iff_eq]
  constructor
  · exact fun h i hi => h (a + i) (by omega) (by omega)
  · intro h i h1 h2
    have h3 := h (i - a) (by omega)
    rwa [show a + (i - a) = i by omega] at h3

/-- Whatever number the search starts at, there is room for the endpoint's rings. -/
theorem free_triple_there (first : Nat) :
    ∃ n, freeTriple first (draw (draw (taken (cmd 0x1604 3 [(16, 1)]) calm)).2).2 = some n := by
  rw [← Option.isSome_iff_exists, freeTriple, List.find?_isSome]
  exact ⟨100, List.mem_map.2 ⟨(97 + 8187 - first % 8187) % 8187, List.mem_range.2 (by omega), by omega⟩, by decide +kernel⟩

/-! ## What the outcomes of Configures rest on -/

def Lands (c : Cmd) (s : State) (ms : List Member) : Prop :=
  Alone c.unit c ∧ (∀ m ∈ ms, blockRuns m.write (taken c s) = false) ∧ Admits (ctxOf c s).master ms (taken c s)
def RunsOn (c : Cmd) (s : State) (ms : List Member) : Prop :=
  Alone c.unit c ∧ (∃ m ∈ ms, blockRuns m.write (taken c s) = true) ∧ freeId (taken c s) ≠ none
def JoinsIt (c : Cmd) (s : State) (ms : List Member) : Prop :=
  Joining 0 c.unit c ∧ ownBunch (ctxOf c s) (taken c s) = true ∧
    bunchWrites 0 (taken c s) + (ms.map (·.weight)).sum ≤ 256

/-! ## Ill-formed commands are refused, one for each check -/

/-- Table 2-16: an entry without the row's opcode, for every mailbox row. -/
theorem test_wf_opcode :
    let c0 : Cmd := { t := 0, ring := 0, entry := 0 }
    ([.devInfo c0, .devCaps c0, .devReset c0, .devSetWindow c0, .devUpdate c0, .devSetPower c0 true, 
      .ringCreate c0, .ringDestroy c0, .ringModerate c0, .bunchOpen c0, .bunchCommit c0, .bunchAbort c0, 
      .bunchQuery c0, .clkStatus c0, .clkSetLockMode c0, .clkSelectRef c0, .clkSyncArm c0, .clkSetSkew c0, 
      .timeGet c0, .timeSetTai c0, .timeConfig c0, .rfSetRange c0, .rfStatus c0, .rfSetPadCount c0, .calSetRf c0, 
      .ddcSet c0, .ddcSetDetect c0, .pipAssign c0, .pipSetSpares c0, .pipStatus c0, .specSetFft c0, 
      .specSetWindow c0, .specSetTrace c0, .bloomSet c0, .bloomClear c0, .bloomRead c0, .trigSetMask c0, 
      .trigSetTd c0, .trigSetSeq c0, .trigSetLimit c0, .trigLimitResume c0, .trigSetLog c0, .trigSetLineLog c0, 
      .capSet c0, .capArm c0, .capForce c0, .capRead c0, .capStatus c0, .genSegment c0, .genLoad c0, .genStart c0, 
      .genCarrier c0, .genJump c0, .genRoute c0, .genStatus c0, .calSetGen c0, .dasStart c0, .dasSetSlot c0, 
      .dasSetGrid c0, .dasSetPmask c0, .dasStatus c0, .calSetFibre c0, .laserSetModcal c0, .laserSetCaps c0, 
      .laserArm c0, .laserStatus c0, .dtsStart c0, .dtsSet c0, .dtsStatus c0, .slowSetScan c0, .slowStart c0, 
      .slowUrgent c0, .excSet c0, .excStatus c0, .curSetBand c0, .curStatus c0, .dmaSet c0, .dmaStart c0, 
      .dmaStatus c0, .dmaRequest c0, .memSetFreq c0, .memSetIdle c0, .memStatus c0, .memReadLog c0, .memRepair c0, 
      .netSetPort c0, .netSetStream c0, .netSetVdif c0, .netSetControl c0, .netStatus c0, .dispSetMode c0, 
      .dispSetLayer c0, .dispSetPalette c0, .dispAlloc c0, .dispSetPsr c0, .dispStatus c0, .healthStatus c0, 
      .healthSetRotation c0, .healthReadFaults c0, .healthSetRetired c0, .lcSecure c0, .lcService c0, 
      .lcResume c0, .lcReturn c0, .lcRetire c0, .lcRaiseFloor c0, .lcChallenge c0] : List Instr).all (fun i => !i.wf) = true := by
  decide +kernel

/-- R43: a ring beyond the part's. -/
theorem test_wf_ring : (Instr.devInfo { cmd 0x0101 0xFFFF [] with ring := 8192 }).wf = false ∧
    (Instr.devInfo { cmd 0x0101 0xFFFF [] with ring := 8191 }).wf = true := by decide +kernel

/-- Every operand check of the rows that are no mailbox commands. -/
theorem test_wf_operands : ([.tempThreshold 0 4 0, .registerWrite 0 0x10000 4 0, .registerWrite 0 0 9 0, .doorbellWrite 0 8192 0,
    .dmaDoorbell 0 2 0, .dmaDoorbell 0 8192 0, .imageStagingWrite 0 0x1000000 [1], .bootSpiWriteStaging 0 [1, 2],
    .bootSpiReadStaging 0 [1] 1, .bootSpiReadStatus 0 [1], .bootSpiWriteBootLen 0 [], .bootSpiGo 0 [1], .bootSpiAbort 0 [1],
    .bootSpiUnknownTransaction 0 0x05, .bar4Read 0 0 0, .bar4Write 0 0 [], .bunchArmed 0 64, .commitPoint 0 64,
    .memberLanding 0 64 0, .memberLanding 0 0 256, .bunchTimeout 0 64, .domainStarted 0 (.converter 2),
    .domainStarted 0 (.ethernet 4), .adpllLock 0 4 0, .adpllLock 0 0 1024, .gatedOutputReturn 0 4, .adpllLockLoss 0 4,
    .syncInEdge 0 64 0, .ptpEventMessage 0 4 false none,
    .ptpEventMessage 0 0 false (some { dt := 0, taiS := 2 ^ 64, taiNs := 0, ratePpt := 0 }),
    .ptpEventMessage 0 0 false (some { dt := 0, taiS := 0, taiNs := 1000000000, ratePpt := 0 }),
    .ptpEventMessage 0 0 false (some { dt := 0, taiS := 0, taiNs := 0, ratePpt := -2147483649 }),
    .ptpEventMessage 0 0 false (some { dt := 0, taiS := 0, taiNs := 0, ratePpt := 2147483648 }),
    .rfGroup 0 4 (List.replicate 64 0), .rfGroup 0 0 [], .rfGroup 0 0 (List.replicate 64 2048),
    .rfGroup 0 0 (List.replicate 64 (-2049)), .overdriveComparator 0 4 true, .padSettleEnd 0 4, .otpBurnDone 0 4,
    .sliceSwap 0 4 none, .opticalGroup 0 4 (List.replicate 16 0), .opticalGroup 0 0 [], .opticalGroup 0 0 (List.replicate 16 8192),
    .opticalGroup 0 0 (List.replicate 16 (-8193)), .ddcOutputGroup 0 48,
    .detectorWindowEnd 0 48, .vdifFrame 0 8192] : List Instr).all (fun i => !i.wf) = true := by decide +kernel

theorem test_wf_units : ([.pipFrameDone 0 4 [],
    .pipFrameDone 0 0 (List.replicate 65537 (0, 0)), .averagingBlockEnd 0 4, .traceBlockEnd 0 4 0,
    .traceBlockEnd 0 0 4, .pipFault 0 36 1, .pipFault 0 0 0, .pipFault 0 0 5, .pipRecomputeDone 0 36 false, .bloomIngest 0 4, .bloomDecay 0 4,
    .decayPassDone 0 4, .bloomSnapshot 0 4, .trigInEdge 0 4 false, .sequencerEvaluate 0 6, .sequencerStepTimeout 0 6, .captureEnd 0 16,
    .captureOverflow 0 16, .genLatchPoint 0 2, .genSegmentStart 0 2, .trigOutPulseEnd 0 4, .generatorUnderrun 0 2,
    .dasTraceReady 0 2 0, .dasTraceReady 0 0 8, .dasBandWindowEnd 0 2, .laserComparatorTrip 0 2 1,
    .laserComparatorTrip 0 0 0, .laserComparatorTrip 0 0 4, .dtsLaunch 0 2, .dtsStackEnd 0 2, .dtsRecordReady 0 2, .excBreakDetect 0 4, .excBreakRestored 0 4,
    .impedanceCheckDue 0 4, .impedanceCheckDone 0 4 0 0, .currantFault 0 18 1, .currantFault 0 0 0, .currantRecomputeDone 0 18 [],
    .currantRecomputeDone 0 0 [8]] : List Instr).all (fun i => !i.wf) = true := by
  decide +kernel

theorem test_wf_rest : ([.dmaMove 0 256 1, .dmaMove 0 0 0, .dmaGather 0 256 2, .dmaGather 0 0 0, .dmaScatter 0 256 3, .dmaScatter 0 0 0,
    .dmaLoop 0 256 4, .dmaLoop 0 0 0, .dmaWait 0 256 5, .dmaWait 0 0 0, .dmaWaitSatisfied 0 256, .dmaSignal 0 256 6, .dmaSignal 0 0 0,
    .dmaLink 0 256 7, .dmaLink 0 0 0, .dmaEnd 0 256 0, .dmaEnd 0 0 1, .dmaUndefinedOp 0 256 8, .dmaUndefinedOp 0 0 7, .dmaBurst 0 256,
    .dmaTransferDone 0 256, .dmaErrorResponse 0 256 1, .dmaErrorResponse 0 0 0, .dmaErrorResponse 0 0 4, .requestLineRequest 0 512,
    .msixModTimeExpiry 0 8192, .msixUnmask 0 2 0, .msixUnmask 0 0 64, .dramRefresh 0 16 0, .dramRefresh 0 0 16,
    .dramEccError 0 { kind := 0, requester := .scrub, channel := 0, bank := 0, row := 0, column := 0, bit := 0, addr := 0 },
    .dramEccError 0 { kind := 4, requester := .scrub, channel := 0, bank := 0, row := 0, column := 0, bit := 0, addr := 0 },
    .dramEccError 0 { kind := 1, requester := .scrub, channel := 16, bank := 0, row := 0, column := 0, bit := 0, addr := 0 },
    .sramEccError 0 { block := 0, inst := 0, row := 0, addr := 0, bit := 0, uncorrectable := false }, .pcieLinkChange 0 3 32,
    .ethFrameReceived 0 4 .arp, .streamDatagramSend 0 8192, .ethLinkChange 0 4 true,
    .controlCommandDatagram 0 { port := 4, srcIp := 0, srcUdp := 0, magic := 0, kind := 1, count := 0, seq := 0, ring := 3, first := 0, entries := [] },
    .controlCommandDatagram 0 { port := 0, srcIp := 0, srcUdp := 0, magic := 0, kind := 1, count := 1, seq := 0, ring := 3, first := 0, entries := [] },
    .controlResendDatagram 0 { port := 4, srcIp := 0, srcUdp := 0, magic := 0, kind := 4, count := 0, seq := 0, ring := 3, first := 0, entries := [] },
    .streamDropReport 0 8192, .displayFrameEnd 0 [4], .rotationVisit 0 0 0, .rotationVisit 0 3 0, .rotationVisit 0 1 36,
    .unitTestDone 0 0 0 true, .unitTestDone 0 3 0 true, .unitTestDone 0 1 36 true, .orxSliceSwap 0 4 none, .dacLoopback 0 2 0,
    .dieReferenceCheck 0 2 0 0, .stewardFault 0 3] : List Instr).all (fun i => !i.wf) = true := by decide +kernel

/-! ## Worked examples and tables of the spec -/

/-- The worked example of R244: 298.15 K at the coil, ratios 0.2000 and 0.2100, 5,000 m, DALPHA 13,800 give 4,250. -/
theorem test_dts_temperature (h : Config.lnRatio 200 1000 210 1000 = -13733210323300) :
    dtsTemp { dalpha := 13800 } 298150 1002985 (200, 1000) (210, 1000) = 4250 := by
  simp only [dtsTemp, h]; decide +kernel

/-- R266: two of the four currants of a GD9610-AR are reported as spares, the others as in test or off. -/
theorem test_rack_currants :
    let ar : State := { calm with fuse := { variant := 2, currants := 0xF } }
    ((List.range 4).map fun n => currantShown n ar) = [.spare, .spare, .off, .off] ∧
    ((List.range 4).map fun n => currantShown n (currantTo .inTest 0xF 0 0 ar)) = [.inTest, .spare, .spare, .off] := by
  decide +kernel

/-- R242: a sum that is not positive reads 0x8000. -/
theorem test_dts_no_light : dtsTemp {} 298150 0 (200, 1000) (0, 1000) = -32768 := by
  simp [dtsTemp, below]

/-- R241 by hand: dark level 2, kappa 3/2: cells 2, 4, 1 restore to 0, 2, 2, each times 512. -/
theorem test_dts_restore : restoreFrom 3 1 512 0 [2, 4, 1] = [0, 1024, 1024] := by decide +kernel

/-- Table 5-2. -/
theorem test_full_scale : fullScale false 0 = 0x0154 ∧ fullScale false 10 = 0x04A7 ∧ fullScale true 0 = 0x07F9 ∧
    fullScale true 7 = 0x0A4C := by decide

/-- The example after R104: -2,560 + 1,191 - 35 + 16 + 14 is -1,374, which the example after R164 puts in row 320; a tone of magnitude
4,096 at s = 1 reads -2 dy (R130). -/
theorem test_levels : addTerms (-2560) (1191 - 35 + 16 + 14) = -1374 ∧ rawLevel (4096 * 4096) 1 1 = -512 ∧
    rowOf { rowTop := 0x04A7, rowStep := 8, rows := 1024 } (-1374) = 320 := by decide +kernel

/-- The user table of the same example: +12 at 2.4 GHz, +20 at 2.5 GHz, 14 at 2.425 GHz. -/
theorem test_user_table : userTab { userTable := [12, 20], fStart := 2400, fStep := 100 } 2425 = 14 := by decide +kernel

/-- R20: at 8 GHz a channel needs 4, 6, 8 or 16 pips at 0, 25, 50 or 75 % overlap. -/
theorem test_pips_needed : ([0, 1, 2, 3].map fun v => pipsNeeded 0 { calm with spec := [(0, { running := true, fft := { overlap := v } })] }) =
    [4, 6, 8, 16] ∧
    pipsNeeded 2 { calm with ddc := [(2, { decim := 2 })], spec := [(2, { running := true, fft := { log2N := 12 } })] } = 2 := by
  decide +kernel

/-- Steps 1 and 3 of Table 1-7, and B of R24 at points 0 and 1. -/
theorem test_table_1_7 :
    dramCharge { calm with spec := [(0, { running := true }), (1, { running := true }), (2, { running := true })] } = 122880000000 ∧
    replayCharge { calm with ddc := [(3, { decim := 2 })], spec := [(3, { running := true, fft := { overlap := 0 } })] } = 10240000000 ∧
    budgetAt 0 = 189139200000 ∧ budgetAt 1 = 141360000000 := by decide +kernel

/-- The example after R147: N = 4,096 at n = 2: a frame of 32,768 tk, a spectrum every 16,384 tk. -/
theorem test_frame_times : let s := { calm with ddc := [(2, { decim := 2 })], spec := [(2, { running := true, decim := 2 })] }
    frameStart 2 1 s = 16384 ∧ frameLen (getSpec 2 s).fft * outPeriod 2 2 = 32768 := by decide +kernel

/-- The example after R164: 6,400 columns by 1,024 rows take 100 blocks. -/
theorem test_map_blocks : mapBlocks { columns := 6400, rows := 1024 } = 100 := by decide

/-- The example of R192: LAT of a mask at N = 4,096 and n = 2 is 1,331,658 tk. -/
theorem test_mask_latency : seqLat 0 { calm with
    ddc := [(0, { decim := 2 })], spec := [(0, { running := true })], trig := [(0, { seq := { inputs := [0x100] } })] } = 1331658 := by
  decide +kernel

/-- The example of R202: slot 3 at 896 MHz. -/
theorem test_slot_word : slotWord 3 = 12314530231091 := by decide +kernel

/-- The range example of R233: C0 = 141, LAST = 312,031, I_full = 20,388,608 tk. -/
theorem test_range_example : cellZero { dFix := 9000 } = 141 ∧ lastCell { positions := 156000, step := 2, gauge := 32 } = 312031 ∧
    intervalFull { dFix := 9000 } { positions := 156000, step := 2, gauge := 32 } { length := 6400 } = 20388608 := by decide

/-- The VDIF example of R325: 4,000 samples a frame, 10.365 Gb/s on the line. -/
theorem test_vdif_example : vdifSamples { path := 0, bits := 8, thread := 0, station := 0, payload := 8000, thresh := 1, leap := 0, refEpoch := 0 } = 4000 ∧
    portCharge 0 { calm with
      ddc := [(0, { enable := true, decim := 4 })]
      rings := tput {} calm.rings 3 { created := true, kind := .data, entrySize := 8064
                                      vdif := some { path := 0, bits := 8, thread := 0, station := 0, payload := 8000, thresh := 1, leap := 0, refEpoch := 0 }
                                      stream := some { port := 0, vdif := true, ipv6 := false, dscp := 0, vlan := 0xFFFF, dstUdp := 0, dstMac := 0, srcUdp := 0, dstIp := 0 } } } =
      160000 * 8098 * 8 := by decide +kernel

/-- FIPS 180-4: the digest of "abc". -/
theorem test_sha384 : sha384 [0x61, 0x62, 0x63] =
    0xcb00753f45a35e8bb5a03d699ac65007272c32ab0eded1631a8b605a43ff5bed8086072ba1e7cc2358baeca134c825a7 := by decide +kernel

/-! ## Single steps -/

/-- The state a step answers. -/
def next (o : Host.Outcome State Fault Refusal) : State :=
  match o with
  | .next s => s
  | _ => State.reset

/-- STATUS, REASON and RESULT of the first completion in ring 1 (Table 2-17). -/
def answer1 (s : State) : Nat × Nat × Nat := (readLe s.sram 0x804006 1, readLe s.sram 0x804007 1, readLe s.sram 0x804008 4)

/-- Table 2-20: DEV.INFO's RESULT has the level, SI_REV, VARIANT and LC_STATE. -/
theorem test_dev_info : answer1 (next (exec (.devInfo (cmd 0x0101 0xFFFF [])) calm)) = (0, 0, 0x01010103) := by decide +kernel

/-- R42: another opcode in the entry completes with BADARG, REASON 0. -/
theorem test_wrong_opcode : answer1 (next (exec (.devInfo (cmd 0x0102 0xFFFF [])) calm)) = (stBadArg, 0, 0) := by decide +kernel

/-- R13: a reserved byte that is not 0 is BADARG at its offset; R398: of two wrong fields the lower is reported. -/
theorem test_reserved_byte : answer1 (next (exec (.devInfo (cmd 0x0101 0xFFFF [(40, 1)])) calm)) = (stBadArg, 40, 0) ∧
    answer1 (next (exec (.clkSetLockMode (cmd 0x0402 0xFFFF [(16, 4), (18, 2)])) calm)) = (stBadArg, 16, 0) := by decide +kernel

/-- Table 3-8: BUNCH.OPEN answers the lowest free ID. -/
theorem test_bunch_open : answer1 (next (exec (.bunchOpen (cmd 0x0301 0xFFFF [])) opened)) = (0, 0, 1) ∧
    (getBunch 1 (next (exec (.bunchOpen (cmd 0x0301 0xFFFF [])) opened))).timeoutMs = 10000 := by decide +kernel

/-- R35: reading DT_SNAP_LO freezes the upper half. -/
theorem test_dt_snapshot : (next (exec (.dtSnapLoRead 0x500000009) calm)).stone.dtSnapHi = 5 ∧
    (next (exec (.dtSnapLoRead 0x500000009) calm)).pcie.readData = some [9, 0, 0, 0] := by decide +kernel

/-- Table 2-10: WAKE_STAT is write one to clear; R36: a write of another width sets BAD_ACCESS. -/
theorem test_stone_registers :
    (next (exec (.registerWrite second 0x2C 4 0x81) { calm with stone := { calm.stone with wakeStat := 0x83 } })).stone.wakeStat = 0x02 ∧
    (next (exec (.registerWrite second 0x2C 2 0x81) { calm with stone := { calm.stone with wakeStat := 0x83 } })).stone.wakeStat = 0x83 := by
  decide +kernel

/-- R43: a doorbell that would overfill its ring stops it and is discarded. -/
theorem test_ring_fault : (getRing 0 (next (exec (.doorbellWrite second 0 257) calm))).stopped = true ∧
    (getRing 0 (next (exec (.doorbellWrite second 0 257) calm))).prod = 1 := by decide +kernel

/-- R44: a bootstrap ring cannot be destroyed. -/
theorem test_ring_destroy : answer1 (next (exec (.ringDestroy (cmd 0x0202 0xFFFF [(16, 2)])) calm)) = (stBadArg, 16, 0) := by decide +kernel

/-- The example of R84: ADVANCE 48; 1,025 is beyond the range. -/
theorem test_clk_skew : (next (exec (.clkSetSkew (cmd 0x0406 0xFFFF [(16, 48)])) calm)).clock.skew = 48 ∧
    answer1 (next (exec (.clkSetSkew (cmd 0x0406 0xFFFF [(16, 1025)])) calm)) = (stBadArg, 16, 0) := by decide +kernel

/-- Table 4-4: TIME.CONFIG selects the source. -/
theorem test_time_config : (next (exec (.timeConfig (cmd 0x0503 0xFFFF [(16, 3), (17, 1)])) calm)).time.source = 3 := by decide +kernel

/-- R88: a range set while no personality runs is held as the power-up state. -/
theorem test_rf_range : (getRf 0 (next (exec (.rfSetRange (cmd 0x0601 0 [(16, 16), (18, 1)])) calm))).held = some (false, 16) := by
  decide +kernel

/-- R108: G above 2^47. -/
theorem test_ddc_set : answer1 (next (exec (.ddcSet (cmd 0x0701 0 [(16, 2 ^ 47 + 1)])) calm)) = (stBadArg, 16, 0) := by decide +kernel

/-- R148: PIP.ASSIGN answers the pips the personality needs, 8 at 8 GHz and 50 %. -/
theorem test_pip_assign : answer1 (next (exec (.pipAssign (cmd 0x0801 0 [(16, 1)])) calm)) = (0, 0, 8) ∧
    (getSpec 0 (next (exec (.pipAssign (cmd 0x0801 0 [(16, 1)])) calm))).running = true := by decide +kernel

/-- Table 7-6: window 5 does not exist. -/
theorem test_window : answer1 (next (exec (.specSetWindow (cmd 0x0902 0 [(16, 5)])) calm)) = (stBadArg, 16, 0) ∧
    (getSpec 0 (next (exec (.specSetWindow (cmd 0x0902 0 [(16, 4)])) calm))).window = 4 := by decide +kernel

/-- Table 8-2: BLOOM.SET with 0xFF releases the map. -/
theorem test_bloom_release : (getBloom 0 (next (exec (.bloomSet (cmd 0x0A01 0 [(16, 0xFF)])) mapped))).set = false := by decide +kernel

/-- R175: TRIG.LIMIT_RESUME lets the output run on. -/
theorem test_limit_resume : (getSpec 0 (next (exec (.trigLimitResume (cmd 0x0B05 0 []))
    { calm with spec := [(0, { limitStopped := true })] }))).limitStopped = false := by decide +kernel

/-- R190: CAP.ARM of a capture that is not set. -/
theorem test_cap_arm : (answer1 (next (exec (.capArm (cmd 0x0C02 0 [(16, 1)])) calm))).1 = stBadArg ∧
    (getCap 0 (next (exec (.capArm (cmd 0x0C02 0 [(16, 1)])) { calm with cap := [(0, { isSet := true })] }))).phase = 1 := by decide +kernel

/-- Table 10-5: GEN.ROUTE. -/
theorem test_gen_route : (next (exec (.genRoute (cmd 0x0D06 0xFFFF [(16, 1), (17, 5), (18, 9)])) calm)).route =
    { markDac := 1, trigDac := 5, width := 9 } := by decide +kernel

/-- R236: LASER_PERMIT low cuts the laser of a fibre that runs. -/
theorem test_permit_low : (next (exec (.laserPermitLow second)
    { calm with fibre := [(0, { das := true })], laser := { en := true, permit := true } })).laser.en = false := by decide +kernel

/-- Table 11-7: 64 positions a step at most. -/
theorem test_das_grid : (answer1 (next (exec (.dasSetGrid (cmd 0x0F03 0 [(20, 1), (24, 65), (26, 1), (30, 3)])) calm))) = (stBadArg, 24, 0) := by
  decide +kernel

/-- R254: EXC.SET. -/
theorem test_exc_set : (getExc 0 (next (exec (.excSet (cmd 0x1201 0 [(16, 1), (18, 60), (20, 5)])) calm))).cfg =
    { enable := true, impPeriod := 60, cMax := 5 } := by decide +kernel

/-- R284: SIGNAL of a semaphore; R293: END. -/
theorem test_dma_end : (getChan 0 (next (exec (.dmaEnd second 0 0)
    { calm with dma := { channels := [(0, { isSet := true, state := 1 })] } }))).done = true := by decide +kernel

/-- Table 15-7: IDLE_US. -/
theorem test_mem_idle : (next (exec (.memSetIdle (cmd 0x1502 0xFFFF [(16, 5)])) calm)).memCtl.idleUs = 5 ∧
    answer1 (next (exec (.memSetIdle (cmd 0x1502 0xFFFF [(16, 1000001)])) calm)) = (stBadArg, 16, 0) := by decide +kernel

/-- Table 16-5: a bound port cannot be set. -/
theorem test_net_port : (answer1 (next (exec (.netSetPort (cmd 0x1601 0 [(16, 3)])) busy))).1 = stBusy ∧
    (getPort 0 (next (exec (.netSetPort (cmd 0x1601 0 [(16, 3)])) calm))).mode = 3 := by decide +kernel

/-- R344: self-refresh needs an eDP output. -/
theorem test_psr : (answer1 (next (exec (.dispSetPsr (cmd 0x1705 0 [(16, 1), (17, 2)])) calm))) = (stBadArg, 16, 0) := by decide +kernel

/-- Table 18-8: a rotation period under an hour. -/
theorem test_rotation : answer1 (next (exec (.healthSetRotation (cmd 0x1802 0xFFFF [(16, 3599)])) calm)) = (stBadArg, 16, 0) := by
  decide +kernel

/-- R40: RAISE_FLOOR takes the floor to the running image's SEC_VERSION. -/
theorem test_raise_floor : let t := next (exec (.lcRaiseFloor (cmd 0x1A05 0xFFFF [])) { calm with stone := { calm.stone with runSec := 9 } })
    t.fuse.floor = 9 ∧ answer1 t = (0, 0, 9) := by decide +kernel

/-- R377: LC.RESUME is no transition of SECURED. -/
theorem test_lc_resume : (answer1 (next (exec (.lcResume (cmd 0x1A03 0xFFFF [])) calm))).1 = stDenied := by decide +kernel

/-- A command waits its turn: the queue's front runs first. -/
theorem test_queue : (next (step { calm with pending := [.refclkLoss second, .refclkRestored second] })).clock.refOk = false ∧
    (next (step { calm with pending := [.refclkLoss second, .refclkRestored second] })).pending.length = 1 := by decide +kernel

/-! ## For every statement with hypotheses: a state and operands that meet them, clause by clause -/

/-- A member that sets the window of personality 0, and one that sets detection on path 0. -/
def windowMember : Member := { claim := { cls := 3, inst := 0 }, write := .specWindow 0 4, weight := 1, opcode := 0x0902, tag := 0, landed := false }
def detectMember : Member := { claim := { cls := 2, inst := 0 }, write := .ddcDetect 0 6 0 0 0xFFFF, weight := 1, opcode := 0x0702, tag := 0, landed := false }

/-- A staged command of bunch 0. -/
def stagedWindow : Staged := { id := 0, master := .pf0, members := [windowMember], ref := none, result := 0 }

/-- Bunch 63 in a state with members. -/
def holding (b : Bunch) (s : State) : State := { s with bunch := { table := [(63, b)] } }

/-- A whole frame of 1,024 outputs of path 3 has left at DT 0. -/
def framed : State :=
  { calm with
    rf := [(3, { powered := true })]
    ddc := [(3, { enable := true, groups := (List.range 16).map fun i => { dt := BitVec.ofNat 64 (128 * i), flags := 0, valid := 2 ^ 64 - 1, range := 0 } })]
    spec := [(3, { running := true, fft := { log2N := 10 } })] }

/-- The repair of pip 35 by spare 4. -/
def repairing : FaultRecord :=
  { opened := 0, closed := 0, cls := 1, cause := 1, unit := 35, state := 1, outcome := 0, personality := 3, nest := 0, spare := some 4 }

/-- A launch of slot 7 of fibre 1 at DT 0 whose outputs are all out; DAS runs. -/
def launched : Launch := { slot := 7, dt := 0, epoch := 0, entry := 0, flags := 0, parts := [(7, 0, {})] }
def traced : State :=
  { calm with
    fibre := [(1, { das := true, launches := [launched] })]
    ddc := (List.range 64).map fun p => (p, { enable := true, nextGroup := 65536 }) }

theorem trace_there (slot : Nat) (s : State) (h : (traceOfSlot 1 slot s).isSome = true) : ∃ tr, traceOfSlot 1 slot s = some tr :=
  Option.isSome_iff_exists.1 h

/-- DTS of fibre 1 has a launch whose samples are in; on receiver 2 a group under it carries flags. -/
def stacking (flags : Nat) : State :=
  { calm with
    fibre := [(1, { dts := true, launches := [launched] })]
    orx := [(2, { input := [(65536, [])], flagged := [(0, flags)] }), (3, { input := [(65536, [])] })] }

/-- Channel 223 stands at a word in DRAM, at DRAM byte 4,096; line 511 and ring 3 are bound to it. -/
def atWord (w : U128) : State :=
  { calm with
    dma := { channels := [(223, { isSet := true, state := 1, pos := 4096, lines := [511], prodRings := [3], consRings := [3] })] }
    dram := writeBytes [] 4096 (leBytes 16 w.toNat) }

theorem met_empty_queue_idles :
    (∃ s : State, s.pending = []) ∧
    (∃ s : State, s.pending = [] ∧ s.power.state = .active ∧ (getPll 0 s).locked = true ∧ (getPll 0 s).absent = none) :=
  ⟨⟨calm, by decide +kernel⟩,
    ⟨calm, by decide +kernel⟩⟩

theorem met_stone_safe_kept : ∃ s : State, ∃ t : State, StoneSafe s ∧ step s = .next t :=
  ⟨State.reset, _, ⟨Or.inl rfl, by decide, by decide, by decide⟩, rfl⟩

theorem met_life_cycle_fuses_only_burn : ∃ s : State, ∃ t : State, StoneSafe s ∧ step s = .next t :=
  ⟨toSecure, _, ⟨Or.inl rfl, by decide, by decide, by decide⟩, rfl⟩

theorem met_floor_only_rises : ∃ s : State, ∃ t : State, step s = .next t :=
  ⟨toSecure, _, rfl⟩

theorem met_memory_reads_back :
    (∃ m : Mem, Mem.wf m) ∧
    (∃ a, ∃ bs : List Byte, ∃ x, (x < a ∨ a + bs.length ≤ x)) ∧
    (∃ a, ∃ bs : List Byte, ∃ x, a ≤ x ∧ x < a + bs.length) :=
  ⟨⟨[(4, 7)], by decide +kernel⟩,
    ⟨4, [1, 2], 6, by decide +kernel⟩,
    ⟨4, [1, 2], 5, by decide +kernel⟩⟩

theorem met_completions_answer :
    (∃ c : Cmd, ∃ s : State, ∃ u, canTake c.ring s = true ∧ Unhindered c s ∧ SameMail (taken c s) u ∧ bit (fld c.entry 2 2) 1 = false) ∧
    (∃ c : Cmd, ∃ s : State, ∃ status, ∃ u, canTake c.ring s = true ∧ Unhindered c s ∧ SameMail (taken c s) u ∧ status ≠ 0) :=
  ⟨⟨(cmd 0x0101 0xffff []), calm, (taken (cmd 0x0101 0xffff []) calm), by simp only [Unhindered, SameMail]; decide +kernel⟩,
    ⟨(cmd 0x0101 0xffff []), calm, 1, (taken (cmd 0x0101 0xffff []) calm), by simp only [Unhindered, SameMail]; decide +kernel⟩⟩

theorem met_events_reach_rings :
    (∃ n : Nat, ∃ k : Nat, k ≠ n) ∧
    (∃ n : Nat, ∃ s : State, let r := getRing n s; ringRoom r s = true) ∧
    (∃ n : Nat, ∃ s : State, let r := getRing n s; ringRoom r s = false) :=
  ⟨⟨2, 1, by decide +kernel⟩,
    ⟨2, calm, by decide +kernel⟩,
    ⟨2, full, by decide +kernel⟩⟩

theorem met_events_reach_only_takers :
    (∃ e : Event, ∃ s : State, ∃ k : Nat, twf {} s.rings = true ∧ takesEvent e.code (getRing k s) = false) ∧
    (∃ e : Event, ∃ s : State, ∃ k : Nat, twf {} s.rings = true ∧ takesEvent e.code (getRing k s) = true) :=
  ⟨⟨{ code := 0x0101, severity := 0, unit := 0xFFFF, dt := 0, data := 0 }, calm, 3, by decide +kernel⟩,
    ⟨{ code := 0x0101, severity := 0, unit := 0xFFFF, dt := 0, data := 0 }, listening, 2, by decide +kernel⟩⟩

theorem met_writes_are_staged :
    (∃ s : State, ∃ id : Nat, freeId s = some id) ∧
    (∃ s : State, ∃ id : Nat, ∃ k : Nat, freeId s = some id ∧ k ≠ id) ∧
    (∃ x : Ctx, ∃ k : Nat, k ≠ x.bunchId) :=
  ⟨⟨opened, 1, by decide +kernel⟩,
    ⟨opened, 1, 0, by decide +kernel⟩,
    ⟨{ ref := { ring := 0, index := 0, tag := 0, opcode := 0, quiet := false }, master := .pf0, t := second, e := 0 }, 1, by decide +kernel⟩⟩

theorem met_only_the_opener_acts :
    (∃ c : Cmd, ∃ s : State, ∃ p : Nat × Instr, (getBunch (fld c.entry 8 2) s).master ≠ (getRing c.ring s).master ∧
      bit (fld c.entry 2 2) 0 = true ∧
      p ∈ [(0x0601, Instr.rfSetRange c), (0x1901, .calSetRf c), (0x0701, .ddcSet c), (0x0702, .ddcSetDetect c), (0x0801, .pipAssign c), (0x0901, .specSetFft c), (0x0902, .specSetWindow c), (0x0903, .specSetTrace c), (0x0A01, .bloomSet c), (0x0A02, .bloomClear c), (0x0B01, .trigSetMask c), (0x0B02, .trigSetTd c), (0x0B03, .trigSetSeq c), (0x0B04, .trigSetLimit c), (0x0B05, .trigLimitResume c), (0x0B06, .trigSetLog c), (0x0B07, .trigSetLineLog c), (0x0C01, .capSet c), (0x0C02, .capArm c), (0x0C03, .capForce c), (0x0D01, .genSegment c), (0x0D02, .genLoad c), (0x0D03, .genStart c), (0x0D04, .genCarrier c), (0x1902, .calSetGen c), (0x0F01, .dasStart c), (0x0F02, .dasSetSlot c), (0x0F03, .dasSetGrid c), (0x0F04, .dasSetPmask c), (0x1903, .calSetFibre c), (0x0E01, .laserSetModcal c), (0x0E02, .laserSetCaps c), (0x0E03, .laserArm c), (0x1001, .dtsStart c), (0x1002, .dtsSet c), (0x1101, .slowSetScan c), (0x1102, .slowStart c), (0x1201, .excSet c), (0x1302, .curSetBand c), (0x1602, .netSetStream c), (0x1603, .netSetVdif c), (0x1701, .dispSetMode c), (0x1702, .dispSetLayer c), (0x1703, .dispSetPalette c), (0x1705, .dispSetPsr c), (0x0A03, .bloomRead c)] ∧
      Sent p.1 c s) ∧
    (∃ c : Cmd, ∃ s : State, Sent 0x0302 c s ∧ (getBunch (c.u16 16) s).master ≠ (getRing c.ring s).master) ∧
    (∃ c : Cmd, ∃ s : State, Sent 0x0303 c s ∧ (getBunch (c.u16 16) s).master ≠ (getRing c.ring s).master) ∧
    (∃ c : Cmd, ∃ s : State, Sent 0x0304 c s ∧ Alone 0xFFFF c ∧ c.u16 16 < 64 ∧ ZeroBytes c.entry 18 64) :=
  ⟨⟨(joins 0x0902 0 []), remoteOpened, (0x0902, Instr.specSetWindow (joins 0x0902 0 [])), by simp only [Sent]; decide +kernel⟩,
    ⟨(cmd 0x0302 0xffff []), remoteOpened, by simp only [Sent]; decide +kernel⟩,
    ⟨(cmd 0x0303 0xffff []), remoteOpened, by simp only [Sent]; decide +kernel⟩,
    ⟨(cmd 0x0304 0xffff [(16, 63)]), remoteOpened, by simp only [Sent, Alone, zeroBytes_iff]; decide +kernel⟩⟩

theorem met_high_frequency_words_fail : ∃ c : Cmd, ∃ s : State, Sent 0x0701 c s ∧
  (slotHeld c.unit s = true → pathAbsent c.unit s = false) ∧ 2 ^ 47 < c.u64 16 :=
  ⟨(cmd 0x0701 0 [(16, 2 ^ 47 + 1)]), calm, by simp only [Sent]; decide +kernel⟩

theorem met_same_frequency_point_is_ok : ∃ c : Cmd, ∃ s : State, Sent 0x1501 c s ∧ Alone 0xFFFF c ∧ c.u8 16 ≤ 3 ∧
  ZeroBytes c.entry 17 64 ∧ c.u8 16 = s.memCtl.point :=
  ⟨(cmd 0x1501 0xffff []), calm, by simp only [Sent, Alone, zeroBytes_iff]; decide +kernel⟩

theorem met_absent_units_answer_absent :
    (∃ c : Cmd, ∃ s : State, ZeroBytes c.entry 24 64 ∧ Sent 0x0602 c s ∧ c.unit < 4 ∧ Alone c.unit c ∧ rfPresent c.unit s = false) ∧
    (∃ c : Cmd, ∃ s : State, ZeroBytes c.entry 24 64 ∧ Sent 0x0D07 c s ∧ c.unit < 2 ∧ Alone c.unit c ∧ dacPresent c.unit s = false) ∧
    (∃ c : Cmd, ∃ s : State, ZeroBytes c.entry 24 64 ∧ Sent 0x0F05 c s ∧ c.unit < 2 ∧ Alone c.unit c ∧ fibrePresent c.unit s = false) ∧
    (∃ c : Cmd, ∃ s : State, ZeroBytes c.entry 24 64 ∧ Sent 0x1706 c s ∧ Alone 0 c ∧ s.fuse.display = false) ∧
    (∃ c : Cmd, ∃ s : State, ZeroBytes c.entry 24 64 ∧ Sent 0x0902 c s ∧ c.unit < 4 ∧ Alone c.unit c ∧ rfPresent c.unit s = false ∧
      c.u8 16 ≤ 4 ∧ ZeroBytes c.entry 17 24) ∧
    (∃ c : Cmd, ∃ s : State, ∃ id : Nat, ZeroBytes c.entry 24 64 ∧ Sent 0x0902 c s ∧ c.unit < 4 ∧ Joining id c.unit c ∧
      ownBunch (ctxOf c s) (taken c s) = true ∧ rfPresent c.unit s = false ∧
      bunchWrites id s + 1 ≤ 256 ∧ c.u8 16 ≤ 4 ∧ ZeroBytes c.entry 17 24) :=
  ⟨⟨(cmd 0x0602 3 []), bare, by simp only [Sent, Alone, zeroBytes_iff]; decide +kernel⟩,
    ⟨(cmd 0x0D07 1 []), bare, by simp only [Sent, Alone, zeroBytes_iff]; decide +kernel⟩,
    ⟨(cmd 0x0F05 1 []), bare, by simp only [Sent, Alone, zeroBytes_iff]; decide +kernel⟩,
    ⟨(cmd 0x1706 0 []), bare, by simp only [Sent, Alone, zeroBytes_iff]; decide +kernel⟩,
    ⟨(cmd 0x0902 3 [(16, 4)]), bare, by simp only [Sent, Alone, zeroBytes_iff]; decide +kernel⟩,
    ⟨(joins 0x0902 3 [(16, 4)]), { bare with bunch := opened.bunch }, 0, by simp only [Sent, Joining, zeroBytes_iff]; decide +kernel⟩⟩

theorem met_privileged_commands_denied :
    (∃ c : Cmd, ∃ s : State, (getRing c.ring s).master ≠ .pf0 ∧ Sent 0x0103 c s) ∧
    (∃ c : Cmd, ∃ s : State, (getRing c.ring s).master ≠ .pf0 ∧ Sent 0x0105 c s) ∧
    (∃ c : Cmd, ∃ s : State, (getRing c.ring s).master ≠ .pf0 ∧ Sent 0x0106 c s) ∧
    (∃ c : Cmd, ∃ s : State, (getRing c.ring s).master ≠ .pf0 ∧ Sent 0x1604 c s) ∧
    (∃ c : Cmd, ∃ s : State, (getRing c.ring s).master ≠ .pf0 ∧ Sent 0x1A01 c s) ∧
    (∃ c : Cmd, ∃ s : State, (getRing c.ring s).master ≠ .pf0 ∧ Sent 0x1A02 c s) ∧
    (∃ c : Cmd, ∃ s : State, (getRing c.ring s).master ≠ .pf0 ∧ Sent 0x1A03 c s) ∧
    (∃ c : Cmd, ∃ s : State, (getRing c.ring s).master ≠ .pf0 ∧ Sent 0x1A04 c s) ∧
    (∃ c : Cmd, ∃ s : State, (getRing c.ring s).master ≠ .pf0 ∧ Sent 0x1A06 c s) ∧
    (∃ c : Cmd, ∃ s : State, (getRing c.ring s).master ≠ .pf0 ∧ Sent 0x1A05 c s) ∧
    (∃ c : Cmd, ∃ s : State, (getRing c.ring s).master ≠ .pf0 ∧ Sent 0x1A07 c s) :=
  ⟨⟨(cmd 0x0103 0xffff []), remote, by simp only [Sent]; decide +kernel⟩,
    ⟨(cmd 0x0105 0xffff []), remote, by simp only [Sent]; decide +kernel⟩,
    ⟨(cmd 0x0106 0xffff []), remote, by simp only [Sent]; decide +kernel⟩,
    ⟨(cmd 0x1604 0xffff []), remote, by simp only [Sent]; decide +kernel⟩,
    ⟨(cmd 0x1A01 0xffff []), remote, by simp only [Sent]; decide +kernel⟩,
    ⟨(cmd 0x1A02 0xffff []), remote, by simp only [Sent]; decide +kernel⟩,
    ⟨(cmd 0x1A03 0xffff []), remote, by simp only [Sent]; decide +kernel⟩,
    ⟨(cmd 0x1A04 0xffff []), remote, by simp only [Sent]; decide +kernel⟩,
    ⟨(cmd 0x1A06 0xffff []), remote, by simp only [Sent]; decide +kernel⟩,
    ⟨(cmd 0x1A05 0xffff []), remote, by simp only [Sent]; decide +kernel⟩,
    ⟨(cmd 0x1A07 0xffff []), remote, by simp only [Sent]; decide +kernel⟩⟩

theorem met_device_commands :
    (∃ c : Cmd, ∃ s : State, Sent 0x0101 c s ∧ Alone 0xFFFF c ∧ ZeroBytes c.entry 16 64) ∧
    (∃ c : Cmd, ∃ s : State, Sent 0x0102 c s ∧ Alone 0xFFFF c ∧ ZeroBytes c.entry 24 64) ∧
    (∃ c : Cmd, ∃ s : State, Sent 0x0103 c s ∧ Alone 0xFFFF c ∧ (getRing c.ring s).master = .pf0 ∧ ZeroBytes c.entry 16 64) ∧
    (∃ c : Cmd, ∃ s : State, Sent 0x0104 c s ∧ Alone 0xFFFF c ∧ c.u64 16 % 2 ^ 30 = 0 ∧ ZeroBytes c.entry 24 64) ∧
    (∃ c : Cmd, ∃ s : State, Sent 0x0105 c s ∧ Alone 0xFFFF c ∧ (getRing c.ring s).master = .pf0 ∧ 4096 ≤ c.u32 24 ∧
      c.u32 24 ≤ 0x800000 ∧ c.u32 24 % 4 = 0 ∧ ZeroBytes c.entry 28 64) ∧
    (∃ c : Cmd, ∃ s : State, Sent 0x0106 c s ∧ Alone 0xFFFF c ∧ (getRing c.ring s).master = .pf0 ∧ (c.u8 16 = 2 ∨ c.u8 16 = 3) ∧
      ZeroBytes c.entry 17 24 ∧ ZeroBytes c.entry 32 64 ∧ powerIdle (taken c s) = true) :=
  ⟨⟨(cmd 0x0101 0xffff []), calm, by simp only [Sent, Alone, zeroBytes_iff]; decide +kernel⟩,
    ⟨(cmd 0x0102 0xffff [(16, 64)]), calm, by simp only [Sent, Alone, zeroBytes_iff]; decide +kernel⟩,
    ⟨(cmd 0x0103 0xffff []), calm, by simp only [Sent, Alone, zeroBytes_iff]; decide +kernel⟩,
    ⟨(cmd 0x0104 0xffff [(16, 2 ^ 30)]), calm, by simp only [Sent, Alone, zeroBytes_iff]; decide +kernel⟩,
    ⟨(cmd 0x0105 0xffff [(24, 4096)]), calm, by simp only [Sent, Alone, zeroBytes_iff]; decide +kernel⟩,
    ⟨(cmd 0x0106 0xffff [(16, 3)]), calm, by simp only [Sent, Alone, zeroBytes_iff]; decide +kernel⟩⟩

theorem met_ring_commands :
    (∃ c : Cmd, ∃ s : State, Sent 0x0201 c s ∧ Alone 0xFFFF c ∧ 3 ≤ c.u16 16 ∧ c.u16 16 ≤ 8191 ∧ c.u8 18 ≤ 3 ∧ 2 ≤ c.u8 19 ∧
      c.u8 19 ≤ 15 ∧ c.u8 20 ≤ 3 ∧ (c.u8 20 = 0 → c.u8 18 ≤ 2) ∧ (c.u8 20 = 1 → c.u8 18 = 3) ∧ c.u8 21 ≤ 63 ∧
      (c.u8 18 = 3 → 64 ≤ c.u16 22 ∧ c.u16 22 % 64 = 0) ∧ (c.u8 18 ≠ 3 → c.u16 22 = 0) ∧ c.u64 24 % 4096 = 0 ∧
      (c.u8 18 = 0 → (getRing (c.u16 32) s).created = true ∧ (getRing (c.u16 32) s).kind = .completion) ∧
      (c.u8 18 = 1 ∨ c.u8 18 = 2 → c.u16 32 = 0xFFFF) ∧ (c.u8 18 ≠ 2 → c.u32 40 = 0) ∧ c.u32 40 % 2 = 0 ∧ c.u32 40 < 2 ^ 27 ∧
      ZeroBytes c.entry 44 64 ∧
      let r : Ring := { created := true, kind := kindOf (c.u8 18), log2 := c.u8 19, location := c.u8 20, msix := c.u8 21, entrySize := entryBytes (c.u8 18) (c.u16 22), base := c.u64 24, pair := c.u16 32, modCount := c.u16 34, modTime := c.u32 36, nsMask := c.u32 40, master := (getRing c.ring s).master };
      ringBeyond r s = false ∧ (getRing (c.u16 16) s).created = false ∧ bellChannel (c.u16 16) s = none ∧
      (r.location = 2 → dramSpace (planned (taken c s)) + ringBytes r ≤ dramUsable s - 536870912)) ∧
    (∃ c : Cmd, ∃ s : State, Sent 0x0202 c s ∧ Alone 0xFFFF c ∧ 3 ≤ c.u16 16 ∧ c.u16 16 ≤ 8191 ∧
      (getRing (c.u16 16) s).created = true ∧ ZeroBytes c.entry 18 64 ∧ c.ring ≠ c.u16 16 ∧
      ringHeldBy (c.u16 16) (taken c s) = false) ∧
    (∃ c : Cmd, ∃ s : State, Sent 0x0203 c s ∧ Alone 0xFFFF c ∧ c.u16 16 ≠ 0 ∧ (getRing (c.u16 16) s).created = true ∧
      c.u8 18 ≤ 63 ∧ ZeroBytes c.entry 19 20 ∧ ZeroBytes c.entry 22 24 ∧ ZeroBytes c.entry 28 64) :=
  ⟨⟨(cmd 0x0201 0xffff [(16, 8191), (18, 3), (19, 2), (20, 1), (22, 64), (24, 4096), (32, 65535)]), calm, by simp only [Sent, Alone, zeroBytes_iff]; decide +kernel⟩,
    ⟨(cmd 0x0202 0xffff [(16, 3)]), calm, by simp only [Sent, Alone, zeroBytes_iff]; decide +kernel⟩,
    ⟨(cmd 0x0203 0xffff [(16, 1), (18, 63), (20, 1)]), calm, by simp only [Sent, Alone, zeroBytes_iff]; decide +kernel⟩⟩

theorem met_bunch_commands :
    (∃ c : Cmd, ∃ s : State, ∃ id : Nat, Sent 0x0301 c s ∧ Alone 0xFFFF c ∧ c.u32 16 ≤ 600000 ∧ ZeroBytes c.entry 20 64 ∧
      freeId s = some id) ∧
    (∃ c : Cmd, ∃ s : State, Sent 0x0302 c s ∧ Alone 0xFFFF c ∧ c.u16 16 < 64 ∧ (getBunch (c.u16 16) s).state = .opened ∧
      (getBunch (c.u16 16) s).master = (getRing c.ring s).master ∧ (getBunch (c.u16 16) s).direct = none ∧ c.u8 18 ≤ 2 ∧
      (c.u8 18 ≠ 2 → c.u8 19 = 0 ∧ c.u16 20 = 0) ∧ (c.u8 18 = 2 → { cls := c.u8 19, inst := c.u16 20 } ∈ bunchClaims (c.u16 16) s) ∧
      (c.u8 18 ≠ 1 → c.u64 24 = 0) ∧ c.u64 24 % 64 = 0 ∧ ZeroBytes c.entry 22 24 ∧ ZeroBytes c.entry 32 64 ∧
      let delay := delayOf (getBunch (c.u16 16) s).starts (getBunch (c.u16 16) s).tests; let now := (taken c s).dt;
      let v := modBunch (c.u16 16) (fun b => { b with state := .arming, commit := some (ctxOf c s).ref, point := if c.u8 18 = 1 then BitVec.ofNat 64 (c.u64 24) else if c.u8 18 = 2 then dtAdd now (leadTk + delay) else nowPoint now delay, anchor := if c.u8 18 = 2 then some { cls := c.u8 19, inst := c.u16 20 } else none }) (taken c s);
      geometryWrong (c.u16 16) v = false) ∧
    (∃ c : Cmd, ∃ s : State, Sent 0x0303 c s ∧ Alone 0xFFFF c ∧ c.u16 16 < 64 ∧
      ((getBunch (c.u16 16) s).state = .opened ∨ (getBunch (c.u16 16) s).state = .arming) ∧
      (getBunch (c.u16 16) s).master = (getRing c.ring s).master ∧ (getBunch (c.u16 16) s).direct = none ∧ ZeroBytes c.entry 18 64) ∧
    (∃ c : Cmd, ∃ s : State, Sent 0x0304 c s ∧ Alone 0xFFFF c ∧ c.u16 16 < 64 ∧ ZeroBytes c.entry 18 64) :=
  ⟨⟨(cmd 0x0301 0xffff [(16, 600000)]), calm, 0, by simp only [Sent, Alone, zeroBytes_iff]; decide +kernel⟩,
    ⟨(cmd 0x0302 0xffff [(16, 0), (18, 1), (24, 2 ^ 62)]), opened, by simp only [Sent, Alone, zeroBytes_iff]; decide +kernel⟩,
    ⟨(cmd 0x0303 0xffff [(16, 0)]), opened, by simp only [Sent, Alone, zeroBytes_iff]; decide +kernel⟩,
    ⟨(cmd 0x0304 0xffff [(16, 63)]), opened, by simp only [Sent, Alone, zeroBytes_iff]; decide +kernel⟩⟩

theorem met_clock_commands :
    (∃ c : Cmd, ∃ s : State, Sent 0x0401 c s ∧ Alone 0xFFFF c ∧ ZeroBytes c.entry 16 64) ∧
    (∃ c : Cmd, ∃ s : State, Sent 0x0402 c s ∧ Alone 0xFFFF c ∧ c.u8 16 ≤ 3 ∧ c.u8 17 ≤ 1 ∧ c.u8 18 ≤ 1 ∧ ZeroBytes c.entry 19 64) ∧
    (∃ c : Cmd, ∃ s : State, Sent 0x0403 c s ∧ Alone 0xFFFF c ∧ c.u8 16 ≤ 1 ∧ c.u8 17 ≤ 1 ∧ ZeroBytes c.entry 18 64 ∧
      let u := taken c s; relockRuns u = false ∧ (c.u8 16 = 0 → u.clock.refOk = true) ∧ (c.u8 17 = 0 → anyPersonality u = false)) ∧
    (∃ c : Cmd, ∃ s : State, Sent 0x0404 c s ∧ Alone 0xFFFF c ∧ c.u8 16 ≤ 3 ∧ (c.u8 16 ≠ 2 → c.u8 17 = 0) ∧ c.u8 18 ≤ 1 ∧
      c.u64 24 % 1024 = 0 ∧ ZeroBytes c.entry 19 24 ∧ ZeroBytes c.entry 36 64 ∧ let u := taken c s; syncBusy u = false ∧
      (c.u8 16 = 1 → u.dt.toNat ≤ c.u64 24)) ∧
    (∃ c : Cmd, ∃ s : State, Sent 0x0406 c s ∧ Alone 0xFFFF c ∧ -1024 ≤ c.i16 16 ∧ c.i16 16 ≤ 1024 ∧ ZeroBytes c.entry 18 64 ∧
      let u := taken c s; syncBusy u = false ∧ let p := getPll 0 u; p.stopped = true) ∧
    (∃ c : Cmd, ∃ s : State, Sent 0x0406 c s ∧ Alone 0xFFFF c ∧ -1024 ≤ c.i16 16 ∧ c.i16 16 ≤ 1024 ∧ ZeroBytes c.entry 18 64 ∧
      let u := taken c s; syncBusy u = false ∧ let p := getPll 0 u; p.stopped = false ∧ p.relocking = false ∧
      (∀ r, u.clock.relock = some r → 0 ∉ r.remaining)) ∧
    (∃ c : Cmd, ∃ s : State, Sent 0x0406 c s ∧ Alone 0xFFFF c ∧ -1024 ≤ c.i16 16 ∧ c.i16 16 ≤ 1024 ∧ ZeroBytes c.entry 18 64 ∧
      let u := taken c s; syncBusy u = false ∧ let p := getPll 0 u; p.stopped = false ∧
      (p.relocking = true ∨ ∃ r, u.clock.relock = some r ∧ 0 ∈ r.remaining)) :=
  ⟨⟨(cmd 0x0401 0xffff []), calm, by simp only [Sent, Alone, zeroBytes_iff]; decide +kernel⟩,
    ⟨(cmd 0x0402 0xffff [(16, 3), (17, 1), (18, 1)]), calm, by simp only [Sent, Alone, zeroBytes_iff]; decide +kernel⟩,
    ⟨(cmd 0x0403 0xffff [(16, 0), (17, 1)]), calm, by simp only [Sent, Alone, zeroBytes_iff]; decide +kernel⟩,
    ⟨(cmd 0x0404 0xffff [(16, 2), (17, 9), (18, 1), (24, 1024)]), calm, by simp only [Sent, Alone, zeroBytes_iff]; decide +kernel⟩,
    ⟨(cmd 0x0406 0xffff [(16, 1024)]), { calm with clock := { plls := [(3, { locked := true, stopped := false })] } }, by simp only [Sent, Alone, zeroBytes_iff]; decide +kernel⟩,
    ⟨(cmd 0x0406 0xffff [(16, 1024)]), calm, by simp only [Sent]; decide +kernel, by simp only [Alone, zeroBytes_iff]; decide +kernel, by decide +kernel,
      by decide +kernel, by simp only [zeroBytes_iff]; decide +kernel, by decide +kernel, by decide +kernel, by decide +kernel, fun r h => nomatch h⟩,
    ⟨(cmd 0x0406 0xffff [(16, 1024)]), { calm with clock := { plls := [(0, { locked := true, stopped := false, relocking := true })] } },
      by simp only [Sent]; decide +kernel, by simp only [Alone, zeroBytes_iff]; decide +kernel, by decide +kernel, by decide +kernel,
      by simp only [zeroBytes_iff]; decide +kernel, by decide +kernel, by decide +kernel, Or.inl (by decide +kernel)⟩⟩

theorem met_time_commands :
    (∃ c : Cmd, ∃ s : State, Sent 0x0501 c s ∧ Alone 0xFFFF c ∧ ZeroBytes c.entry 24 64) ∧
    (∃ c : Cmd, ∃ s : State, Sent 0x0502 c s ∧ Alone 0xFFFF c ∧ c.u8 16 = 0 ∧ c.u64 32 = 0 ∧ c.u32 40 = 0 ∧
      ZeroBytes c.entry 17 24 ∧ ZeroBytes c.entry 44 64) ∧
    (∃ c : Cmd, ∃ s : State, Sent 0x0502 c s ∧ Alone 0xFFFF c ∧ c.u8 16 = 1 ∧ c.u32 40 ≤ 999999999 ∧ ZeroBytes c.entry 17 24 ∧
      ZeroBytes c.entry 44 64) ∧
    (∃ c : Cmd, ∃ s : State, Sent 0x0503 c s ∧ Alone 0xFFFF c ∧ c.u8 16 ≤ 3 ∧ c.u8 17 ≤ 1 ∧ ZeroBytes c.entry 18 64) :=
  ⟨⟨(cmd 0x0501 0xffff [(16, 64)]), calm, by simp only [Sent, Alone, zeroBytes_iff]; decide +kernel⟩,
    ⟨(cmd 0x0502 0xffff [(24, 5)]), calm, by simp only [Sent, Alone, zeroBytes_iff]; decide +kernel⟩,
    ⟨(cmd 0x0502 0xffff [(16, 1), (24, 5), (32, 7), (40, 999999999)]), calm, by simp only [Sent, Alone, zeroBytes_iff]; decide +kernel⟩,
    ⟨(cmd 0x0503 0xffff [(16, 3), (17, 1)]), calm, by simp only [Sent, Alone, zeroBytes_iff]; decide +kernel⟩⟩

theorem met_unit_commands :
    (∃ c : Cmd, ∃ s : State, Sent 0x0603 c s ∧ c.unit < 4 ∧ Alone c.unit c ∧ ZeroBytes c.entry 24 64 ∧ rfPresent c.unit s = true ∧
      (getRf c.unit s).padMoved = false) ∧
    (∃ c : Cmd, ∃ s : State, Sent 0x0802 c s ∧ Alone 0xFFFF c ∧ 2 ≤ c.u8 16 ∧ c.u8 16 ≤ 8 ∧ ZeroBytes c.entry 17 64 ∧
      let u := taken c s; (pipsInUse u : Int) ≤ (pipsHealthy u : Int) - c.u8 16) ∧
    (∃ c : Cmd, ∃ s : State, Sent 0x0C04 c s ∧ c.unit < 16 ∧ Alone c.unit c ∧ ZeroBytes c.entry 17 18 ∧ ZeroBytes c.entry 20 24 ∧
      ZeroBytes c.entry 40 64 ∧ let u := taken c s; let k := getCap c.unit u; k.isSet = true ∧ c.u8 16 < k.cfg.segments ∧
      (tget {} k.records (c.u8 16)).full = true ∧ ((k.phase = 1 ∨ k.phase = 2) → k.segment ≠ c.u8 16) ∧
      badRing (c.u16 18) s = false ∧ let bytes := capBytes c.unit (tget {} k.records (c.u8 16)) u;
      let device := deviceDest (c.u64 24) bytes.length u;
      let out := if (c.u16 18 = 0xFFFF ∧ device = false) ∨ (c.u16 18 ≠ 0xFFFF ∧ (getRing (c.u16 18) u).location = 1) then c.u64 32 else 0;
      (c.u64 32 ≠ 0 → brokenBudget (planned u) (planned u) (c.u64 32) out = none)) ∧
    (∃ c : Cmd, ∃ s : State, Sent 0x0D05 c s ∧ c.unit < 2 ∧ Alone c.unit c ∧ c.u8 16 ≤ 7 ∧ ZeroBytes c.entry 17 64 ∧
      dacPresent c.unit s = true) ∧
    (∃ c : Cmd, ∃ s : State, Sent 0x0D06 c s ∧ Alone 0xFFFF c ∧ c.u8 17 < 16 ∧ 1 ≤ c.u8 18 ∧ ZeroBytes c.entry 19 64 ∧
      routeAbsent (c.u8 16) (c.u8 17) s = false ∧ (getGen 0 s).running = false ∧ (getGen 1 s).running = false) ∧
    (∃ c : Cmd, ∃ s : State, Sent 0x1103 c s ∧ c.unit = 0 ∧ Alone 0 c ∧ (∀ k ∈ scanChecks (fld c.entry 16 16), k.2 = false) ∧
      (scanEntryOf (fld c.entry 16 16)).repeats = 1 ∧ ZeroBytes c.entry 32 64) :=
  ⟨⟨(cmd 0x0603 3 [(16, 9)]), calm, by simp only [Sent, Alone, zeroBytes_iff]; decide +kernel⟩,
    ⟨(cmd 0x0802 0xffff [(16, 8)]), calm, by simp only [Sent, Alone, zeroBytes_iff]; decide +kernel⟩,
    ⟨(cmd 0x0C04 0xf [(18, 65535), (24, 64)]), { calm with cap := [(15, { isSet := true, records := [(0, { full := true })] })] }, by simp only [Sent, Alone, zeroBytes_iff]; decide +kernel⟩,
    ⟨(cmd 0x0D05 1 [(16, 7)]), calm, by simp only [Sent, Alone, zeroBytes_iff]; decide +kernel⟩,
    ⟨(cmd 0x0D06 0xffff [(17, 15), (18, 1)]), calm, by simp only [Sent, Alone, zeroBytes_iff]; decide +kernel⟩,
    ⟨(cmd 0x1103 0 [(16, 15), (17, 3), (18, 3), (19, 1), (20, 1), (24, 10000000)]), calm, by simp only [Sent, Alone, zeroBytes_iff]; decide +kernel⟩⟩

theorem met_status_commands :
    (∃ c : Cmd, ∃ s : State, ZeroBytes c.entry 24 64 ∧ Sent 0x0602 c s ∧ c.unit < 4 ∧ Alone c.unit c ∧ rfPresent c.unit s = true) ∧
    (∃ c : Cmd, ∃ s : State, ZeroBytes c.entry 24 64 ∧ Sent 0x0803 c s ∧ Alone 0xFFFF c) ∧
    (∃ c : Cmd, ∃ s : State, ZeroBytes c.entry 24 64 ∧ Sent 0x0C05 c s ∧ c.unit < 16 ∧ Alone c.unit c) ∧
    (∃ c : Cmd, ∃ s : State, ZeroBytes c.entry 24 64 ∧ Sent 0x0D07 c s ∧ c.unit < 2 ∧ Alone c.unit c ∧ dacPresent c.unit s = true) ∧
    (∃ c : Cmd, ∃ s : State, ZeroBytes c.entry 24 64 ∧ Sent 0x0E04 c s ∧ Alone 0xFFFF c) ∧
    (∃ c : Cmd, ∃ s : State, ZeroBytes c.entry 24 64 ∧ Sent 0x0F05 c s ∧ c.unit < 2 ∧ Alone c.unit c ∧ fibrePresent c.unit s = true) ∧
    (∃ c : Cmd, ∃ s : State, ZeroBytes c.entry 24 64 ∧ Sent 0x1003 c s ∧ c.unit < 2 ∧ Alone c.unit c ∧ fibrePresent c.unit s = true) ∧
    (∃ c : Cmd, ∃ s : State, ZeroBytes c.entry 24 64 ∧ Sent 0x1301 c s ∧ Alone 0xFFFF c) ∧
    (∃ c : Cmd, ∃ s : State, ZeroBytes c.entry 24 64 ∧ Sent 0x1403 c s ∧ c.unit < 224 ∧ Alone c.unit c) ∧
    (∃ c : Cmd, ∃ s : State, ZeroBytes c.entry 24 64 ∧ Sent 0x1503 c s ∧ Alone 0xFFFF c) :=
  ⟨⟨(cmd 0x0602 3 [(16, 64)]), calm, by simp only [Sent, Alone, zeroBytes_iff]; decide +kernel⟩,
    ⟨(cmd 0x0803 0xffff [(16, 64)]), calm, by simp only [Sent, Alone, zeroBytes_iff]; decide +kernel⟩,
    ⟨(cmd 0x0C05 0xf [(16, 64)]), calm, by simp only [Sent, Alone, zeroBytes_iff]; decide +kernel⟩,
    ⟨(cmd 0x0D07 1 [(16, 64)]), calm, by simp only [Sent, Alone, zeroBytes_iff]; decide +kernel⟩,
    ⟨(cmd 0x0E04 0xffff [(16, 64)]), calm, by simp only [Sent, Alone, zeroBytes_iff]; decide +kernel⟩,
    ⟨(cmd 0x0F05 1 [(16, 64)]), calm, by simp only [Sent, Alone, zeroBytes_iff]; decide +kernel⟩,
    ⟨(cmd 0x1003 1 [(16, 64)]), calm, by simp only [Sent, Alone, zeroBytes_iff]; decide +kernel⟩,
    ⟨(cmd 0x1301 0xffff [(16, 64)]), calm, by simp only [Sent, Alone, zeroBytes_iff]; decide +kernel⟩,
    ⟨(cmd 0x1403 0xdf [(16, 64)]), calm, by simp only [Sent, Alone, zeroBytes_iff]; decide +kernel⟩,
    ⟨(cmd 0x1503 0xffff [(16, 64)]), calm, by simp only [Sent, Alone, zeroBytes_iff]; decide +kernel⟩⟩

theorem met_free_status_commands :
    (∃ c : Cmd, ∃ s : State, ZeroBytes c.entry 24 64 ∧ Sent 0x1202 c s ∧ c.unit < 4 ∧ Alone c.unit c) ∧
    (∃ c : Cmd, ∃ s : State, ZeroBytes c.entry 24 64 ∧ Sent 0x1605 c s ∧ c.unit < 4 ∧ Alone c.unit c) ∧
    (∃ c : Cmd, ∃ s : State, ZeroBytes c.entry 24 64 ∧ Sent 0x1706 c s ∧ c.unit = 0 ∧ Alone 0 c ∧ s.fuse.display = true) ∧
    (∃ c : Cmd, ∃ s : State, ZeroBytes c.entry 24 64 ∧ Sent 0x1801 c s ∧ Alone 0xFFFF c) :=
  ⟨⟨(cmd 0x1202 3 [(16, 64)]), calm, by simp only [Sent, Alone, zeroBytes_iff]; decide +kernel⟩,
    ⟨(cmd 0x1605 3 [(16, 64)]), calm, by simp only [Sent, Alone, zeroBytes_iff]; decide +kernel⟩,
    ⟨(cmd 0x1706 0 [(16, 64)]), calm, by simp only [Sent, Alone, zeroBytes_iff]; decide +kernel⟩,
    ⟨(cmd 0x1801 0xffff [(16, 64)]), calm, by simp only [Sent, Alone, zeroBytes_iff]; decide +kernel⟩⟩

theorem met_dma_commands :
    (∃ c : Cmd, ∃ s : State, Sent 0x1401 c s ∧ c.unit < 224 ∧ Alone c.unit c ∧ ZeroBytes c.entry 36 40 ∧ c.u8 16 ≤ 1 ∧
      c.u8 17 ≤ 1 ∧ c.u64 40 % 4096 = 0 ∧ c.u64 48 % 16 = 0 ∧
      let b : Channel := { isSet := true, pf1 := c.u8 16 == 1, programSpace := c.u8 17, doorbell := c.u16 18, lines := [c.u16 20, c.u16 22, c.u16 24, c.u16 26], prodRings := [c.u16 28, c.u16 30], consRings := [c.u16 32, c.u16 34], hostBase := c.u64 40, program := c.u64 48, rate := c.u64 56 };
      3 ≤ b.doorbell ∧ b.doorbell ≤ 8191 ∧ (getRing b.doorbell s).created = false ∧
      (∀ l ∈ b.lines, l = 0xFFFF ∨ lineListed l = true) ∧ (∀ r ∈ b.prodRings ++ b.consRings, badRing r s = false) ∧
      let u := taken c s; ((getChan c.unit u).state = 0 ∨ (getChan c.unit u).state = 4 ∨ (getChan c.unit u).state = 5) ∧
      bindingTaken c.unit b u = false) ∧
    (∃ c : Cmd, ∃ s : State, Sent 0x1402 c s ∧ c.unit < 224 ∧ Alone c.unit c ∧ ZeroBytes c.entry 17 64 ∧
      (c.u8 16 = 1 ∨ c.u8 16 = 2) ∧ let u := taken c s; (getChan c.unit u).isSet = true ∧ (getChan c.unit u).state ≠ 1 ∧
      (getChan c.unit u).state ≠ 2 ∧ dmaAdmission c.unit u = none) ∧
    (∃ c : Cmd, ∃ s : State, Sent 0x1402 c s ∧ c.unit < 224 ∧ Alone c.unit c ∧ ZeroBytes c.entry 17 64 ∧ c.u8 16 = 0 ∧
      let u := taken c s; (getChan c.unit u).isSet = true ∧ (getChan c.unit u).transfer = none) ∧
    (∃ c : Cmd, ∃ s : State, Sent 0x1404 c s ∧ Alone 0xFFFF c ∧ 256 ≤ c.u16 16 ∧ c.u16 16 ≤ 447 ∧ 1 ≤ c.u16 18 ∧
      ZeroBytes c.entry 20 64) :=
  ⟨⟨(cmd 0x1401 0xdf [(16, 1), (17, 1), (18, 8191), (20, 112), (22, 256), (24, 65535), (26, 65535), (28, 3), (30, 65535), (32, 65535), (34, 65535), (40, 4096), (48, 16)]), calm, by simp only [Sent, Alone, zeroBytes_iff]; decide +kernel⟩,
    ⟨(cmd 0x1402 0xdf [(16, 1)]), { calm with dma := { channels := [(223, { isSet := true, doorbell := 8191 })] } }, by simp only [Sent, Alone, zeroBytes_iff]; decide +kernel⟩,
    ⟨(cmd 0x1402 0xdf [(16, 0)]), { calm with dma := { channels := [(223, { isSet := true, doorbell := 8191 })] } }, by simp only [Sent, Alone, zeroBytes_iff]; decide +kernel⟩,
    ⟨(cmd 0x1404 0xffff [(16, 447), (18, 1)]), calm, by simp only [Sent, Alone, zeroBytes_iff]; decide +kernel⟩⟩

theorem met_memory_commands :
    (∃ c : Cmd, ∃ s : State, Sent 0x1501 c s ∧ Alone 0xFFFF c ∧ ZeroBytes c.entry 17 64 ∧ c.u8 16 ≤ 3 ∧ c.u8 16 = s.memCtl.point) ∧
    (∃ c : Cmd, ∃ s : State, Sent 0x1501 c s ∧ Alone 0xFFFF c ∧ c.u8 16 ≤ 3 ∧ ZeroBytes c.entry 17 64 ∧ let u := taken c s;
      c.u8 16 ≠ u.memCtl.point ∧ u.memCtl.change = none ∧ pipsShort (planned u) = false ∧ currantsShort (planned u) = false ∧
      dramCharge (planned u) ≤ budgetAt (c.u8 16) ∧ (anyPersonality u = true → hopReady (c.u8 16) u = true)) ∧
    (∃ c : Cmd, ∃ s : State, Sent 0x1502 c s ∧ Alone 0xFFFF c ∧ c.u32 16 ≤ 1000000 ∧ ZeroBytes c.entry 20 64) ∧
    (∃ c : Cmd, ∃ s : State, Sent 0x1504 c s ∧ Alone 0xFFFF c ∧ 1 ≤ c.u16 24 ∧ c.u16 24 ≤ 256 ∧ ZeroBytes c.entry 26 64) ∧
    (∃ c : Cmd, ∃ s : State, Sent 0x1505 c s ∧ Alone 0xFFFF c ∧ ZeroBytes c.entry 16 64 ∧ let u := taken c s; repairBusy u = false) :=
  ⟨⟨(cmd 0x1501 0xffff []), calm, by simp only [Sent, Alone, zeroBytes_iff]; decide +kernel⟩,
    ⟨(cmd 0x1501 0xffff [(16, 3)]), calm, by simp only [Sent, Alone, zeroBytes_iff]; decide +kernel⟩,
    ⟨(cmd 0x1502 0xffff [(16, 1000000)]), calm, by simp only [Sent, Alone, zeroBytes_iff]; decide +kernel⟩,
    ⟨(cmd 0x1504 0xffff [(16, 64), (24, 256)]), calm, by simp only [Sent, Alone, zeroBytes_iff]; decide +kernel⟩,
    ⟨(cmd 0x1505 0xffff []), calm, by simp only [Sent, Alone, zeroBytes_iff]; decide +kernel⟩⟩

theorem met_link_and_health_commands :
    (∃ c : Cmd, ∃ s : State, Sent 0x1601 c s ∧ c.unit < 4 ∧ Alone c.unit c ∧ c.u8 16 ≤ 3 ∧ c.u8 17 ≤ 1 ∧
      (c.u8 16 = 1 ∨ c.u8 16 = 2 → c.u8 17 = 1) ∧ c.u8 18 < 8 ∧ ZeroBytes c.entry 19 20 ∧ ZeroBytes c.entry 26 28 ∧
      ZeroBytes c.entry 52 64 ∧ (bit (c.u8 18) 0 = true → ∀ p, p < 4 → p ≠ c.unit → bit (getPort p s).options 0 = false) ∧
      portBound c.unit (taken c s) = false) ∧
    (∃ c : Cmd, ∃ s : State, Sent 0x1604 c s ∧ c.unit < 4 ∧ Alone c.unit c ∧ (getRing c.ring s).master = .pf0 ∧ c.u8 16 = 1 ∧
      ZeroBytes c.entry 17 18 ∧ ZeroBytes c.entry 38 64 ∧ portBound c.unit (taken c s) = false ∧ let u := taken c s;
      let kept := u.endpoint.ring ≠ 0 ∧ (getRing u.endpoint.ring u).master = .ethernet; kept) ∧
    (∃ c : Cmd, ∃ s : State, ∃ n, Sent 0x1604 c s ∧ c.unit < 4 ∧ Alone c.unit c ∧ (getRing c.ring s).master = .pf0 ∧ c.u8 16 = 1 ∧
      ZeroBytes c.entry 17 18 ∧ ZeroBytes c.entry 38 64 ∧ portBound c.unit (taken c s) = false ∧ let u := taken c s;
      let a := draw u; let b := draw a.2; let kept := u.endpoint.ring ≠ 0 ∧ (getRing u.endpoint.ring u).master = .ethernet; ¬ kept ∧
      freeTriple a.1 b.2 = some n) ∧
    (∃ c : Cmd, ∃ s : State, Sent 0x1604 c s ∧ c.unit < 4 ∧ Alone c.unit c ∧ (getRing c.ring s).master = .pf0 ∧ c.u8 16 = 0 ∧
      ZeroBytes c.entry 17 18 ∧ ZeroBytes c.entry 38 64 ∧ portBound c.unit (taken c s) = false) ∧
    (∃ c : Cmd, ∃ s : State, Sent 0x1704 c s ∧ c.unit = 0 ∧ Alone 0 c ∧ s.fuse.display = true ∧ c.u64 16 % 4096 = 0 ∧
      ZeroBytes c.entry 24 64 ∧ let u := taken c s; planeHeld u = false ∧ c.u64 16 = 0) ∧
    (∃ c : Cmd, ∃ s : State, Sent 0x1704 c s ∧ c.unit = 0 ∧ Alone 0 c ∧ s.fuse.display = true ∧ c.u64 16 % 4096 = 0 ∧
      ZeroBytes c.entry 24 64 ∧ let u := taken c s; planeHeld u = false ∧ c.u64 16 ≠ 0 ∧
      dramSpace (modDisp (fun d => { d with pool := some (0, c.u64 16) }) (planned u)) ≤ hostDram u) ∧
    (∃ c : Cmd, ∃ s : State, Sent 0x1802 c s ∧ Alone 0xFFFF c ∧ badPeriod (c.u32 16) = false ∧ badPeriod (c.u32 20) = false ∧
      ZeroBytes c.entry 26 64) ∧
    (∃ c : Cmd, ∃ s : State, Sent 0x1803 c s ∧ Alone 0xFFFF c ∧ 1 ≤ c.u8 24 ∧ c.u8 24 ≤ 68 ∧ ZeroBytes c.entry 25 64) ∧
    (∃ c : Cmd, ∃ s : State, Sent 0x1804 c s ∧ Alone 0xFFFF c ∧ c.u64 16 < 2 ^ 36 ∧ c.u32 24 < 2 ^ 18 ∧ ZeroBytes c.entry 28 64 ∧
      let u := taken c s; u.health.admitted = false) :=
  ⟨⟨(cmd 0x1601 3 [(16, 3), (17, 1), (18, 7)]), calm, by simp only [Sent, Alone, zeroBytes_iff]; decide +kernel⟩,
    ⟨(cmd 0x1604 3 [(16, 1)]), { calm with endpoint := { ring := 3 }, rings := tmod {} calm.rings 3 (fun r => { r with kind := .command, master := .ethernet }) }, by simp only [Sent, Alone, zeroBytes_iff]; decide +kernel⟩,
    have ⟨n, h⟩ := free_triple_there (draw (taken (cmd 0x1604 3 [(16, 1)]) calm)).1; ⟨(cmd 0x1604 3 [(16, 1)]), calm, n, by simp only [Sent]; decide +kernel, by decide +kernel, by simp only [Alone, zeroBytes_iff]; decide +kernel, by decide +kernel, by decide +kernel, by simp only [zeroBytes_iff]; decide +kernel, by simp only [zeroBytes_iff]; decide +kernel, by decide +kernel, by decide +kernel, h⟩,
    ⟨(cmd 0x1604 3 []), calm, by simp only [Sent, Alone, zeroBytes_iff]; decide +kernel⟩,
    ⟨(cmd 0x1704 0 []), calm, by simp only [Sent, Alone, zeroBytes_iff]; decide +kernel⟩,
    ⟨(cmd 0x1704 0 [(16, 4096)]), calm, by simp only [Sent, Alone, zeroBytes_iff]; decide +kernel⟩,
    ⟨(cmd 0x1802 0xffff [(16, 3600), (20, 604800)]), calm, by simp only [Sent, Alone, zeroBytes_iff]; decide +kernel⟩,
    ⟨(cmd 0x1803 0xffff [(16, 64), (24, 68)]), calm, by simp only [Sent, Alone, zeroBytes_iff]; decide +kernel⟩,
    ⟨(cmd 0x1804 0xffff [(16, 2 ^ 36 - 1)]), { calm with health := {} }, by simp only [Sent, Alone, zeroBytes_iff]; decide +kernel⟩⟩

theorem met_life_cycle_commands :
    (∃ c : Cmd, ∃ s : State, Sent 0x1A01 c s ∧ Alone 0xFFFF c ∧ (getRing c.ring s).master = .pf0 ∧ ZeroBytes c.entry 16 64 ∧
      s.stone.lifeCycle = .manufacture) ∧
    (∃ c : Cmd, ∃ s : State, Sent 0x1A03 c s ∧ Alone 0xFFFF c ∧ (getRing c.ring s).master = .pf0 ∧ ZeroBytes c.entry 16 64 ∧
      s.stone.lifeCycle = .service) ∧
    (∃ c : Cmd, ∃ s : State, Alone 0xFFFF c ∧ (getRing c.ring s).master = .pf0 ∧ ZeroBytes c.entry 24 64 ∧ let u := taken c s;
      tokenWrong (c.u64 16) u = false ∧ Sent 0x1A02 c s ∧ s.stone.lifeCycle = .secured) ∧
    (∃ c : Cmd, ∃ s : State, Alone 0xFFFF c ∧ (getRing c.ring s).master = .pf0 ∧ ZeroBytes c.entry 24 64 ∧ let u := taken c s;
      tokenWrong (c.u64 16) u = false ∧ Sent 0x1A04 c s ∧ s.stone.lifeCycle = .service) ∧
    (∃ c : Cmd, ∃ s : State, Alone 0xFFFF c ∧ (getRing c.ring s).master = .pf0 ∧ ZeroBytes c.entry 24 64 ∧ let u := taken c s;
      tokenWrong (c.u64 16) u = false ∧ Sent 0x1A06 c s ∧ (s.stone.lifeCycle = .secured ∨ s.stone.lifeCycle = .service)) ∧
    (∃ c : Cmd, ∃ s : State, Alone 0xFFFF c ∧ (getRing c.ring s).master = .pf0 ∧ ZeroBytes c.entry 24 64 ∧ let u := taken c s;
      tokenWrong (c.u64 16) u = true ∧ Sent 0x1A02 c s) ∧
    (∃ c : Cmd, ∃ s : State, Alone 0xFFFF c ∧ (getRing c.ring s).master = .pf0 ∧ ZeroBytes c.entry 24 64 ∧ let u := taken c s;
      tokenWrong (c.u64 16) u = true ∧ Sent 0x1A04 c s) ∧
    (∃ c : Cmd, ∃ s : State, Alone 0xFFFF c ∧ (getRing c.ring s).master = .pf0 ∧ ZeroBytes c.entry 24 64 ∧ Sent 0x1A06 c s ∧
      s.stone.lifeCycle = .retirn) ∧
    (∃ c : Cmd, ∃ s : State, Sent 0x1A05 c s ∧ Alone 0xFFFF c ∧ (getRing c.ring s).master = .pf0 ∧ ZeroBytes c.entry 16 64) ∧
    (∃ c : Cmd, ∃ s : State, Sent 0x1A07 c s ∧ Alone 0xFFFF c ∧ (getRing c.ring s).master = .pf0 ∧ ZeroBytes c.entry 24 64) :=
  ⟨⟨(cmd 0x1A01 0xffff []), { calm with stone := { calm.stone with lifeCycle := .manufacture } }, by simp only [Sent, Alone, zeroBytes_iff]; decide +kernel⟩,
    ⟨(cmd 0x1A03 0xffff []), { calm with stone := { calm.stone with lifeCycle := .service } }, by simp only [Sent, Alone, zeroBytes_iff]; decide +kernel⟩,
    ⟨(cmd 0x1A02 0xffff [(16, 64)]), { calm with stone := { calm.stone with lifeCycle := .secured, nonce := some 5 }, host := [(64, 5), (72, 2)] }, by simp only [Sent, Alone, zeroBytes_iff]; decide +kernel⟩,
    ⟨(cmd 0x1A04 0xffff [(16, 64)]), { calm with stone := { calm.stone with lifeCycle := .service, nonce := some 5 }, host := [(64, 5), (72, 3)] }, by simp only [Sent, Alone, zeroBytes_iff]; decide +kernel⟩,
    ⟨(cmd 0x1A06 0xffff [(16, 64)]), { calm with stone := { calm.stone with lifeCycle := .secured, nonce := some 5 }, host := [(64, 5), (72, 4)] }, by simp only [Sent, Alone, zeroBytes_iff]; decide +kernel⟩,
    ⟨(cmd 0x1A02 0xffff [(16, 64)]), { calm with host := [(74, 1)] }, by simp only [Sent, Alone, zeroBytes_iff]; decide +kernel⟩,
    ⟨(cmd 0x1A04 0xffff [(16, 64)]), { calm with host := [(223, 1)] }, by simp only [Sent, Alone, zeroBytes_iff]; decide +kernel⟩,
    ⟨(cmd 0x1A06 0xffff []), { calm with stone := { calm.stone with lifeCycle := .retirn } }, by simp only [Sent, Alone, zeroBytes_iff]; decide +kernel⟩,
    ⟨(cmd 0x1A05 0xffff []), calm, by simp only [Sent, Alone, zeroBytes_iff]; decide +kernel⟩,
    ⟨(cmd 0x1A07 0xffff [(16, 64)]), calm, by simp only [Sent, Alone, zeroBytes_iff]; decide +kernel⟩⟩

theorem met_front_end_configures :
    (∃ c : Cmd, ∃ s : State, Sent 0x0601 c s ∧ c.unit < 4 ∧ rfPresent c.unit s = true ∧ c.u8 16 ≤ 31 ∧ c.u8 17 ≤ 1 ∧ c.u8 18 ≤ 1 ∧
      ZeroBytes c.entry 19 64 ∧ rangeTooFar (ctxOf c s) (taken c s) = false ∧ let pad := c.u8 17 == 1;
      let moves := (rangePlan (ctxOf c s) s).pad != pad; let weight := 2 + b2n moves + b2n (c.u8 18 == 1);
      Lands c s [member (ctxOf c s) 1 c.unit weight (.rfRange c.unit pad (c.u8 16) (c.u8 18 == 1) moves)]) ∧
    (∃ c : Cmd, ∃ s : State, Sent 0x0601 c s ∧ c.unit < 4 ∧ rfPresent c.unit s = true ∧ c.u8 16 ≤ 31 ∧ c.u8 17 ≤ 1 ∧ c.u8 18 ≤ 1 ∧
      ZeroBytes c.entry 19 64 ∧ rangeTooFar (ctxOf c s) (taken c s) = false ∧ let pad := c.u8 17 == 1;
      let moves := (rangePlan (ctxOf c s) s).pad != pad; let weight := 2 + b2n moves + b2n (c.u8 18 == 1);
      RunsOn c s [member (ctxOf c s) 1 c.unit weight (.rfRange c.unit pad (c.u8 16) (c.u8 18 == 1) moves)]) ∧
    (∃ c : Cmd, ∃ s : State, Sent 0x0601 c s ∧ c.unit < 4 ∧ rfPresent c.unit s = true ∧ c.u8 16 ≤ 31 ∧ c.u8 17 ≤ 1 ∧ c.u8 18 ≤ 1 ∧
      ZeroBytes c.entry 19 64 ∧ rangeTooFar (ctxOf c s) (taken c s) = false ∧ let pad := c.u8 17 == 1;
      let moves := (rangePlan (ctxOf c s) s).pad != pad; let weight := 2 + b2n moves + b2n (c.u8 18 == 1);
      JoinsIt c s [member (ctxOf c s) 1 c.unit weight (.rfRange c.unit pad (c.u8 16) (c.u8 18 == 1) moves)]) ∧
    (∃ c : Cmd, ∃ s : State, Sent 0x1901 c s ∧ c.unit < 4 ∧ rfPresent c.unit s = true ∧ c.u16 18 ≤ 4096 ∧
      (1 < c.u16 18 → c.u64 40 ≠ 0) ∧ ZeroBytes c.entry 48 64 ∧ let table := readI16s s.host (c.u64 24) (c.u16 18);
      Lands c s [member (ctxOf c s) 3 c.unit 1 (.calRf c.unit (c.i16 16) table (c.i32 20) (c.u64 32) (c.u64 40))]) ∧
    (∃ c : Cmd, ∃ s : State, Sent 0x1901 c s ∧ c.unit < 4 ∧ rfPresent c.unit s = true ∧ c.u16 18 ≤ 4096 ∧
      (1 < c.u16 18 → c.u64 40 ≠ 0) ∧ ZeroBytes c.entry 48 64 ∧ let table := readI16s s.host (c.u64 24) (c.u16 18);
      RunsOn c s [member (ctxOf c s) 3 c.unit 1 (.calRf c.unit (c.i16 16) table (c.i32 20) (c.u64 32) (c.u64 40))]) ∧
    (∃ c : Cmd, ∃ s : State, Sent 0x1901 c s ∧ c.unit < 4 ∧ rfPresent c.unit s = true ∧ c.u16 18 ≤ 4096 ∧
      (1 < c.u16 18 → c.u64 40 ≠ 0) ∧ ZeroBytes c.entry 48 64 ∧ let table := readI16s s.host (c.u64 24) (c.u16 18);
      JoinsIt c s [member (ctxOf c s) 3 c.unit 1 (.calRf c.unit (c.i16 16) table (c.i32 20) (c.u64 32) (c.u64 40))]) ∧
    (∃ c : Cmd, ∃ s : State, Sent 0x0701 c s ∧ isPath c.unit = true ∧ pathAbsent c.unit s = false ∧ slotHeld c.unit s = false ∧
      c.u64 16 ≤ 2 ^ 47 ∧ c.u64 24 < 2 ^ 48 ∧ badDecim c.unit (c.u8 32) s = false ∧ c.u8 33 ≤ 8 ∧ c.u8 34 ≤ 1 ∧
      ZeroBytes c.entry 35 64 ∧
      Lands c s [member (ctxOf c s) 2 c.unit 1 (.ddcSet c.unit (c.u64 16) (c.u64 24) (c.u8 32) (c.u8 33) (c.u8 34 == 1))]) ∧
    (∃ c : Cmd, ∃ s : State, Sent 0x0701 c s ∧ isPath c.unit = true ∧ pathAbsent c.unit s = false ∧ slotHeld c.unit s = false ∧
      c.u64 16 ≤ 2 ^ 47 ∧ c.u64 24 < 2 ^ 48 ∧ badDecim c.unit (c.u8 32) s = false ∧ c.u8 33 ≤ 8 ∧ c.u8 34 ≤ 1 ∧
      ZeroBytes c.entry 35 64 ∧
      RunsOn c s [member (ctxOf c s) 2 c.unit 1 (.ddcSet c.unit (c.u64 16) (c.u64 24) (c.u8 32) (c.u8 33) (c.u8 34 == 1))]) ∧
    (∃ c : Cmd, ∃ s : State, Sent 0x0701 c s ∧ isPath c.unit = true ∧ pathAbsent c.unit s = false ∧ slotHeld c.unit s = false ∧
      c.u64 16 ≤ 2 ^ 47 ∧ c.u64 24 < 2 ^ 48 ∧ badDecim c.unit (c.u8 32) s = false ∧ c.u8 33 ≤ 8 ∧ c.u8 34 ≤ 1 ∧
      ZeroBytes c.entry 35 64 ∧
      JoinsIt c s [member (ctxOf c s) 2 c.unit 1 (.ddcSet c.unit (c.u64 16) (c.u64 24) (c.u8 32) (c.u8 33) (c.u8 34 == 1))]) ∧
    (∃ c : Cmd, ∃ s : State, Sent 0x0702 c s ∧ isPath c.unit = true ∧ pathAbsent c.unit s = false ∧ c.u8 16 ≤ 20 ∧ c.u8 17 ≤ 16 ∧
      c.u8 18 < 8 ∧ ZeroBytes c.entry 19 20 ∧ ZeroBytes c.entry 22 64 ∧
      (c.u16 20 = 0xFFFF ∨ (notDataRing (c.u16 20) s = false ∧ 65536 ≤ 2 ^ c.u8 16 * outPeriod c.unit (getDdc c.unit (planned (taken c s))).decim)) ∧
      Lands c s [member (ctxOf c s) 2 c.unit 1 (.ddcDetect c.unit (c.u8 16) (c.u8 17) (c.u8 18) (c.u16 20))]) ∧
    (∃ c : Cmd, ∃ s : State, Sent 0x0702 c s ∧ isPath c.unit = true ∧ pathAbsent c.unit s = false ∧ c.u8 16 ≤ 20 ∧ c.u8 17 ≤ 16 ∧
      c.u8 18 < 8 ∧ ZeroBytes c.entry 19 20 ∧ ZeroBytes c.entry 22 64 ∧
      (c.u16 20 = 0xFFFF ∨ (notDataRing (c.u16 20) s = false ∧ 65536 ≤ 2 ^ c.u8 16 * outPeriod c.unit (getDdc c.unit (planned (taken c s))).decim)) ∧
      RunsOn c s [member (ctxOf c s) 2 c.unit 1 (.ddcDetect c.unit (c.u8 16) (c.u8 17) (c.u8 18) (c.u16 20))]) ∧
    (∃ c : Cmd, ∃ s : State, Sent 0x0702 c s ∧ isPath c.unit = true ∧ pathAbsent c.unit s = false ∧ c.u8 16 ≤ 20 ∧ c.u8 17 ≤ 16 ∧
      c.u8 18 < 8 ∧ ZeroBytes c.entry 19 20 ∧ ZeroBytes c.entry 22 64 ∧
      (c.u16 20 = 0xFFFF ∨ (notDataRing (c.u16 20) s = false ∧ 65536 ≤ 2 ^ c.u8 16 * outPeriod c.unit (getDdc c.unit (planned (taken c s))).decim)) ∧
      JoinsIt c s [member (ctxOf c s) 2 c.unit 1 (.ddcDetect c.unit (c.u8 16) (c.u8 17) (c.u8 18) (c.u16 20))]) :=
  ⟨⟨(cmd 0x0601 0 [(16, 31), (17, 1), (18, 1)]), calm, by simp only [Sent, Lands, Alone, Admits, zeroBytes_iff]; decide +kernel⟩,
    ⟨(cmd 0x0601 0 [(16, 31), (17, 1), (18, 1)]), busy, by simp only [Sent, RunsOn, Alone, zeroBytes_iff]; decide +kernel⟩,
    ⟨(joins 0x0601 0 [(16, 31), (17, 1), (18, 1)]), opened, by simp only [Sent, JoinsIt, Joining, zeroBytes_iff]; decide +kernel⟩,
    ⟨(cmd 0x1901 0 [(18, 2), (24, 64), (32, 1), (40, 1)]), calm, by simp only [Sent, Lands, Alone, Admits, zeroBytes_iff]; decide +kernel⟩,
    ⟨(cmd 0x1901 0 [(18, 2), (24, 64), (32, 1), (40, 1)]), busy, by simp only [Sent, RunsOn, Alone, zeroBytes_iff]; decide +kernel⟩,
    ⟨(joins 0x1901 0 [(18, 2), (24, 64), (32, 1), (40, 1)]), opened, by simp only [Sent, JoinsIt, Joining, zeroBytes_iff]; decide +kernel⟩,
    ⟨(cmd 0x0701 0 [(16, 2 ^ 47), (24, 2 ^ 48 - 1), (32, 16), (33, 8), (34, 1)]), calm, by simp only [Sent, Lands, Alone, Admits, zeroBytes_iff]; decide +kernel⟩,
    ⟨(cmd 0x0701 0 [(16, 2 ^ 47), (24, 2 ^ 48 - 1), (32, 16), (33, 8), (34, 1)]), busy, by simp only [Sent, RunsOn, Alone, zeroBytes_iff]; decide +kernel⟩,
    ⟨(joins 0x0701 0 [(16, 2 ^ 47), (24, 2 ^ 48 - 1), (32, 16), (33, 8), (34, 1)]), opened, by simp only [Sent, JoinsIt, Joining, zeroBytes_iff]; decide +kernel⟩,
    ⟨(cmd 0x0702 0 [(16, 20), (17, 16), (18, 7), (20, 3)]), calm, by simp only [Sent, Lands, Alone, Admits, zeroBytes_iff]; decide +kernel⟩,
    ⟨(cmd 0x0702 0 [(16, 20), (17, 16), (18, 7), (20, 3)]), busy, by simp only [Sent, RunsOn, Alone, zeroBytes_iff]; decide +kernel⟩,
    ⟨(joins 0x0702 0 [(16, 20), (17, 16), (18, 7), (20, 3)]), opened, by simp only [Sent, JoinsIt, Joining, zeroBytes_iff]; decide +kernel⟩⟩

theorem met_spectral_configures :
    (∃ c : Cmd, ∃ s : State, Sent 0x0801 c s ∧ c.unit < 4 ∧ rfHealthy c.unit s = true ∧ c.u8 16 = 1 ∧ ZeroBytes c.entry 17 64 ∧
      startBreaks (ctxOf c s) (taken c s) (planned (taken c s)) = false ∧ let w : Write := .pipStart c.unit;
      Lands c s [member (ctxOf c s) 3 c.unit 1 w]) ∧
    (∃ c : Cmd, ∃ s : State, Sent 0x0801 c s ∧ c.unit < 4 ∧ rfHealthy c.unit s = true ∧ c.u8 16 = 1 ∧ ZeroBytes c.entry 17 64 ∧
      startBreaks (ctxOf c s) (taken c s) (planned (taken c s)) = false ∧ let w : Write := .pipStart c.unit;
      RunsOn c s [member (ctxOf c s) 3 c.unit 1 w]) ∧
    (∃ c : Cmd, ∃ s : State, Sent 0x0801 c s ∧ c.unit < 4 ∧ rfHealthy c.unit s = true ∧ c.u8 16 = 1 ∧ ZeroBytes c.entry 17 64 ∧
      startBreaks (ctxOf c s) (taken c s) (planned (taken c s)) = false ∧ let w : Write := .pipStart c.unit;
      JoinsIt c s [member (ctxOf c s) 3 c.unit 1 w]) ∧
    (∃ c : Cmd, ∃ s : State, Sent 0x0801 c s ∧ c.unit < 4 ∧ rfPresent c.unit s = true ∧ c.u8 16 = 0 ∧ ZeroBytes c.entry 17 64 ∧
      Lands c s [member (ctxOf c s) 3 c.unit 1 (.pipStop c.unit)]) ∧
    (∃ c : Cmd, ∃ s : State, Sent 0x0801 c s ∧ c.unit < 4 ∧ rfPresent c.unit s = true ∧ c.u8 16 = 0 ∧ ZeroBytes c.entry 17 64 ∧
      RunsOn c s [member (ctxOf c s) 3 c.unit 1 (.pipStop c.unit)]) ∧
    (∃ c : Cmd, ∃ s : State, Sent 0x0801 c s ∧ c.unit < 4 ∧ rfPresent c.unit s = true ∧ c.u8 16 = 0 ∧ ZeroBytes c.entry 17 64 ∧
      JoinsIt c s [member (ctxOf c s) 3 c.unit 1 (.pipStop c.unit)]) ∧
    (∃ c : Cmd, ∃ s : State, Sent 0x0901 c s ∧ c.unit < 4 ∧ rfPresent c.unit s = true ∧ 10 ≤ c.u8 16 ∧ c.u8 16 ≤ 16 ∧ c.u8 17 ≤ 3 ∧
      1 ≤ c.u32 20 ∧ c.u32 20 ≤ 16777216 ∧ (c.u32 24 = 0xFFFFFFFF ∨ (1 ≤ c.u32 28 ∧ c.u32 24 + c.u32 28 ≤ 2 ^ c.u8 16)) ∧
      ZeroBytes c.entry 34 64 ∧ (c.u16 32 = 0xFFFF ∨ (notDataRing (c.u16 32) s = false ∧ 64 ≤ (getRing (c.u16 32) s).entrySize)) ∧
      ((getSpec c.unit (planned (taken c s))).fft.log2N = c.u8 16 ∨ brokenByN c.unit (2 ^ c.u8 16) (bunchPeers (ctxOf c s) (taken c s)) (planned (taken c s)) = false) ∧
      let cfg : FftCfg := { log2N := c.u8 16, overlap := c.u8 17, exclude := c.u16 18, avg := c.u32 20, bins := (if c.u32 24 = 0xFFFFFFFF then none else some (c.u32 24)).map fun f => (f, c.u32 28), ring := c.u16 32 };
      Lands c s [member (ctxOf c s) 3 c.unit 1 (.specFft c.unit cfg)]) ∧
    (∃ c : Cmd, ∃ s : State, Sent 0x0901 c s ∧ c.unit < 4 ∧ rfPresent c.unit s = true ∧ 10 ≤ c.u8 16 ∧ c.u8 16 ≤ 16 ∧ c.u8 17 ≤ 3 ∧
      1 ≤ c.u32 20 ∧ c.u32 20 ≤ 16777216 ∧ (c.u32 24 = 0xFFFFFFFF ∨ (1 ≤ c.u32 28 ∧ c.u32 24 + c.u32 28 ≤ 2 ^ c.u8 16)) ∧
      ZeroBytes c.entry 34 64 ∧ (c.u16 32 = 0xFFFF ∨ (notDataRing (c.u16 32) s = false ∧ 64 ≤ (getRing (c.u16 32) s).entrySize)) ∧
      ((getSpec c.unit (planned (taken c s))).fft.log2N = c.u8 16 ∨ brokenByN c.unit (2 ^ c.u8 16) (bunchPeers (ctxOf c s) (taken c s)) (planned (taken c s)) = false) ∧
      let cfg : FftCfg := { log2N := c.u8 16, overlap := c.u8 17, exclude := c.u16 18, avg := c.u32 20, bins := (if c.u32 24 = 0xFFFFFFFF then none else some (c.u32 24)).map fun f => (f, c.u32 28), ring := c.u16 32 };
      RunsOn c s [member (ctxOf c s) 3 c.unit 1 (.specFft c.unit cfg)]) ∧
    (∃ c : Cmd, ∃ s : State, Sent 0x0901 c s ∧ c.unit < 4 ∧ rfPresent c.unit s = true ∧ 10 ≤ c.u8 16 ∧ c.u8 16 ≤ 16 ∧ c.u8 17 ≤ 3 ∧
      1 ≤ c.u32 20 ∧ c.u32 20 ≤ 16777216 ∧ (c.u32 24 = 0xFFFFFFFF ∨ (1 ≤ c.u32 28 ∧ c.u32 24 + c.u32 28 ≤ 2 ^ c.u8 16)) ∧
      ZeroBytes c.entry 34 64 ∧ (c.u16 32 = 0xFFFF ∨ (notDataRing (c.u16 32) s = false ∧ 64 ≤ (getRing (c.u16 32) s).entrySize)) ∧
      ((getSpec c.unit (planned (taken c s))).fft.log2N = c.u8 16 ∨ brokenByN c.unit (2 ^ c.u8 16) (bunchPeers (ctxOf c s) (taken c s)) (planned (taken c s)) = false) ∧
      let cfg : FftCfg := { log2N := c.u8 16, overlap := c.u8 17, exclude := c.u16 18, avg := c.u32 20, bins := (if c.u32 24 = 0xFFFFFFFF then none else some (c.u32 24)).map fun f => (f, c.u32 28), ring := c.u16 32 };
      JoinsIt c s [member (ctxOf c s) 3 c.unit 1 (.specFft c.unit cfg)]) ∧
    (∃ c : Cmd, ∃ s : State, Sent 0x0902 c s ∧ c.unit < 4 ∧ rfPresent c.unit s = true ∧ c.u8 16 ≤ 4 ∧ ZeroBytes c.entry 17 64 ∧
      Lands c s [member (ctxOf c s) 3 c.unit 1 (.specWindow c.unit (c.u8 16))]) ∧
    (∃ c : Cmd, ∃ s : State, Sent 0x0902 c s ∧ c.unit < 4 ∧ rfPresent c.unit s = true ∧ c.u8 16 ≤ 4 ∧ ZeroBytes c.entry 17 64 ∧
      RunsOn c s [member (ctxOf c s) 3 c.unit 1 (.specWindow c.unit (c.u8 16))]) ∧
    (∃ c : Cmd, ∃ s : State, Sent 0x0902 c s ∧ c.unit < 4 ∧ rfPresent c.unit s = true ∧ c.u8 16 ≤ 4 ∧ ZeroBytes c.entry 17 64 ∧
      JoinsIt c s [member (ctxOf c s) 3 c.unit 1 (.specWindow c.unit (c.u8 16))]) ∧
    (∃ c : Cmd, ∃ s : State, Sent 0x0903 c s ∧ c.unit < 4 ∧ rfPresent c.unit s = true ∧ c.u8 16 ≤ 3 ∧ c.u8 17 ≤ 7 ∧ 1 ≤ c.u8 18 ∧
      c.u8 18 ≤ 64 ∧ c.u8 19 ≤ 1 ∧ (c.u8 19 = 1 → c.u8 17 ≤ 2) ∧ 1 ≤ c.u16 24 ∧ c.u16 24 ≤ 8192 ∧ 1 ≤ c.u32 28 ∧
      c.u32 28 ≤ 16777216 ∧ ZeroBytes c.entry 34 64 ∧ badRing (c.u16 32) s = false ∧
      binsFit (frameLen (getSpec c.unit (planned (taken c s))).fft) (optBin (ctxOf c s) 20) (c.u16 24 * c.u8 18) = true ∧
      limitStale (ctxOf c s) (taken c s) (planned (taken c s)) = false ∧
      let cfg : TraceCfg := { detector := c.u8 17, bpp := c.u8 18, hold := c.u8 19 == 1, firstBin := optBin (ctxOf c s) 20, points := c.u16 24, exclude := c.u16 26, interval := c.u32 28, ring := c.u16 32 };
      Lands c s [member (ctxOf c s) 5 c.unit 1 (.specTrace c.unit (c.u8 16) cfg)]) ∧
    (∃ c : Cmd, ∃ s : State, Sent 0x0903 c s ∧ c.unit < 4 ∧ rfPresent c.unit s = true ∧ c.u8 16 ≤ 3 ∧ c.u8 17 ≤ 7 ∧ 1 ≤ c.u8 18 ∧
      c.u8 18 ≤ 64 ∧ c.u8 19 ≤ 1 ∧ (c.u8 19 = 1 → c.u8 17 ≤ 2) ∧ 1 ≤ c.u16 24 ∧ c.u16 24 ≤ 8192 ∧ 1 ≤ c.u32 28 ∧
      c.u32 28 ≤ 16777216 ∧ ZeroBytes c.entry 34 64 ∧ badRing (c.u16 32) s = false ∧
      binsFit (frameLen (getSpec c.unit (planned (taken c s))).fft) (optBin (ctxOf c s) 20) (c.u16 24 * c.u8 18) = true ∧
      limitStale (ctxOf c s) (taken c s) (planned (taken c s)) = false ∧
      let cfg : TraceCfg := { detector := c.u8 17, bpp := c.u8 18, hold := c.u8 19 == 1, firstBin := optBin (ctxOf c s) 20, points := c.u16 24, exclude := c.u16 26, interval := c.u32 28, ring := c.u16 32 };
      RunsOn c s [member (ctxOf c s) 5 c.unit 1 (.specTrace c.unit (c.u8 16) cfg)]) ∧
    (∃ c : Cmd, ∃ s : State, Sent 0x0903 c s ∧ c.unit < 4 ∧ rfPresent c.unit s = true ∧ c.u8 16 ≤ 3 ∧ c.u8 17 ≤ 7 ∧ 1 ≤ c.u8 18 ∧
      c.u8 18 ≤ 64 ∧ c.u8 19 ≤ 1 ∧ (c.u8 19 = 1 → c.u8 17 ≤ 2) ∧ 1 ≤ c.u16 24 ∧ c.u16 24 ≤ 8192 ∧ 1 ≤ c.u32 28 ∧
      c.u32 28 ≤ 16777216 ∧ ZeroBytes c.entry 34 64 ∧ badRing (c.u16 32) s = false ∧
      binsFit (frameLen (getSpec c.unit (planned (taken c s))).fft) (optBin (ctxOf c s) 20) (c.u16 24 * c.u8 18) = true ∧
      limitStale (ctxOf c s) (taken c s) (planned (taken c s)) = false ∧
      let cfg : TraceCfg := { detector := c.u8 17, bpp := c.u8 18, hold := c.u8 19 == 1, firstBin := optBin (ctxOf c s) 20, points := c.u16 24, exclude := c.u16 26, interval := c.u32 28, ring := c.u16 32 };
      JoinsIt c s [member (ctxOf c s) 5 c.unit 1 (.specTrace c.unit (c.u8 16) cfg)]) :=
  ⟨⟨(cmd 0x0801 0 [(16, 1)]), calm, by simp only [Sent, Lands, Alone, Admits, zeroBytes_iff]; decide +kernel⟩,
    ⟨(cmd 0x0801 0 [(16, 1)]), busy, by simp only [Sent, RunsOn, Alone, zeroBytes_iff]; decide +kernel⟩,
    ⟨(joins 0x0801 0 [(16, 1)]), opened, by simp only [Sent, JoinsIt, Joining, zeroBytes_iff]; decide +kernel⟩,
    ⟨(cmd 0x0801 0 []), calm, by simp only [Sent, Lands, Alone, Admits, zeroBytes_iff]; decide +kernel⟩,
    ⟨(cmd 0x0801 0 []), busy, by simp only [Sent, RunsOn, Alone, zeroBytes_iff]; decide +kernel⟩,
    ⟨(joins 0x0801 0 []), opened, by simp only [Sent, JoinsIt, Joining, zeroBytes_iff]; decide +kernel⟩,
    ⟨(cmd 0x0901 0 [(16, 16), (17, 3), (20, 16777216), (24, 4294967295), (32, 3)]), calm, by simp only [Sent, Lands, Alone, Admits, zeroBytes_iff]; decide +kernel⟩,
    ⟨(cmd 0x0901 0 [(16, 16), (17, 3), (20, 16777216), (24, 4294967295), (32, 3)]), busy, by simp only [Sent, RunsOn, Alone, zeroBytes_iff]; decide +kernel⟩,
    ⟨(joins 0x0901 0 [(16, 16), (17, 3), (20, 16777216), (24, 4294967295), (32, 3)]), opened, by simp only [Sent, JoinsIt, Joining, zeroBytes_iff]; decide +kernel⟩,
    ⟨(cmd 0x0902 0 [(16, 4)]), calm, by simp only [Sent, Lands, Alone, Admits, zeroBytes_iff]; decide +kernel⟩,
    ⟨(cmd 0x0902 0 [(16, 4)]), busy, by simp only [Sent, RunsOn, Alone, zeroBytes_iff]; decide +kernel⟩,
    ⟨(joins 0x0902 0 [(16, 4)]), opened, by simp only [Sent, JoinsIt, Joining, zeroBytes_iff]; decide +kernel⟩,
    ⟨(cmd 0x0903 0 [(16, 3), (17, 7), (18, 64), (20, 0), (24, 64), (28, 1), (32, 3)]), calm, by simp only [Sent, Lands, Alone, Admits, zeroBytes_iff]; decide +kernel⟩,
    ⟨(cmd 0x0903 0 [(16, 3), (17, 7), (18, 64), (20, 0), (24, 64), (28, 1), (32, 3)]), busy, by simp only [Sent, RunsOn, Alone, zeroBytes_iff]; decide +kernel⟩,
    ⟨(joins 0x0903 0 [(16, 3), (17, 7), (18, 64), (20, 0), (24, 64), (28, 1), (32, 3)]), opened, by simp only [Sent, JoinsIt, Joining, zeroBytes_iff]; decide +kernel⟩⟩

theorem met_bloom_configures :
    (∃ c : Cmd, ∃ s : State, Sent 0x0A01 c s ∧ c.unit < 4 ∧ c.u8 16 < 4 ∧ rfPresent (c.u8 16) s = true ∧ 1 ≤ c.u8 17 ∧
      c.u8 17 ≤ 64 ∧ 1 ≤ c.u16 18 ∧ c.u16 18 ≤ 8192 ∧ 1 ≤ c.u16 20 ∧ c.u16 20 ≤ 4096 ∧ 1 ≤ c.u16 24 ∧ c.u16 24 ≤ 256 ∧
      c.u32 32 ≤ 16777215 ∧ (c.u32 32 = 0 ∨ c.u16 36 ≠ 0) ∧ c.u8 38 < 2 ∧ ZeroBytes c.entry 39 40 ∧ ZeroBytes c.entry 42 44 ∧
      ZeroBytes c.entry 48 64 ∧ badRing (c.u16 40) s = false ∧
      binsFit (frameLen (getSpec (c.u8 16) (planned (taken c s))).fft) (optBin (ctxOf c s) 28) (c.u16 18 * c.u8 17) = true ∧
      let cfg : BloomCfg := { personality := c.u8 16, bpc := c.u8 17, columns := c.u16 18, rows := c.u16 20, rowTop := c.i16 22, rowStep := c.u16 24, exclude := c.u16 26, firstBin := optBin (ctxOf c s) 28, decayK := c.u32 32, gain := c.u16 36, keepOnChange := bit (c.u8 38) 0, snapRing := c.u16 40, snapSpectra := c.u32 44 };
      mapBlocks cfg + blocksPlanned c.unit (taken c s) (planned (taken c s)) ≤ 512 ∧
      Lands c s [member (ctxOf c s) 4 c.unit 1 (.bloomSet c.unit cfg)]) ∧
    (∃ c : Cmd, ∃ s : State, Sent 0x0A01 c s ∧ c.unit < 4 ∧ c.u8 16 < 4 ∧ rfPresent (c.u8 16) s = true ∧ 1 ≤ c.u8 17 ∧
      c.u8 17 ≤ 64 ∧ 1 ≤ c.u16 18 ∧ c.u16 18 ≤ 8192 ∧ 1 ≤ c.u16 20 ∧ c.u16 20 ≤ 4096 ∧ 1 ≤ c.u16 24 ∧ c.u16 24 ≤ 256 ∧
      c.u32 32 ≤ 16777215 ∧ (c.u32 32 = 0 ∨ c.u16 36 ≠ 0) ∧ c.u8 38 < 2 ∧ ZeroBytes c.entry 39 40 ∧ ZeroBytes c.entry 42 44 ∧
      ZeroBytes c.entry 48 64 ∧ badRing (c.u16 40) s = false ∧
      binsFit (frameLen (getSpec (c.u8 16) (planned (taken c s))).fft) (optBin (ctxOf c s) 28) (c.u16 18 * c.u8 17) = true ∧
      let cfg : BloomCfg := { personality := c.u8 16, bpc := c.u8 17, columns := c.u16 18, rows := c.u16 20, rowTop := c.i16 22, rowStep := c.u16 24, exclude := c.u16 26, firstBin := optBin (ctxOf c s) 28, decayK := c.u32 32, gain := c.u16 36, keepOnChange := bit (c.u8 38) 0, snapRing := c.u16 40, snapSpectra := c.u32 44 };
      mapBlocks cfg + blocksPlanned c.unit (taken c s) (planned (taken c s)) ≤ 512 ∧
      RunsOn c s [member (ctxOf c s) 4 c.unit 1 (.bloomSet c.unit cfg)]) ∧
    (∃ c : Cmd, ∃ s : State, Sent 0x0A01 c s ∧ c.unit < 4 ∧ c.u8 16 < 4 ∧ rfPresent (c.u8 16) s = true ∧ 1 ≤ c.u8 17 ∧
      c.u8 17 ≤ 64 ∧ 1 ≤ c.u16 18 ∧ c.u16 18 ≤ 8192 ∧ 1 ≤ c.u16 20 ∧ c.u16 20 ≤ 4096 ∧ 1 ≤ c.u16 24 ∧ c.u16 24 ≤ 256 ∧
      c.u32 32 ≤ 16777215 ∧ (c.u32 32 = 0 ∨ c.u16 36 ≠ 0) ∧ c.u8 38 < 2 ∧ ZeroBytes c.entry 39 40 ∧ ZeroBytes c.entry 42 44 ∧
      ZeroBytes c.entry 48 64 ∧ badRing (c.u16 40) s = false ∧
      binsFit (frameLen (getSpec (c.u8 16) (planned (taken c s))).fft) (optBin (ctxOf c s) 28) (c.u16 18 * c.u8 17) = true ∧
      let cfg : BloomCfg := { personality := c.u8 16, bpc := c.u8 17, columns := c.u16 18, rows := c.u16 20, rowTop := c.i16 22, rowStep := c.u16 24, exclude := c.u16 26, firstBin := optBin (ctxOf c s) 28, decayK := c.u32 32, gain := c.u16 36, keepOnChange := bit (c.u8 38) 0, snapRing := c.u16 40, snapSpectra := c.u32 44 };
      mapBlocks cfg + blocksPlanned c.unit (taken c s) (planned (taken c s)) ≤ 512 ∧
      JoinsIt c s [member (ctxOf c s) 4 c.unit 1 (.bloomSet c.unit cfg)]) ∧
    (∃ c : Cmd, ∃ s : State, Sent 0x0A01 c s ∧ c.unit < 4 ∧ c.u8 16 = 0xFF ∧ ZeroBytes c.entry 39 40 ∧ ZeroBytes c.entry 42 44 ∧
      ZeroBytes c.entry 48 64 ∧ Lands c s [member (ctxOf c s) 4 c.unit 1 (.bloomRelease c.unit)]) ∧
    (∃ c : Cmd, ∃ s : State, Sent 0x0A01 c s ∧ c.unit < 4 ∧ c.u8 16 = 0xFF ∧ ZeroBytes c.entry 39 40 ∧ ZeroBytes c.entry 42 44 ∧
      ZeroBytes c.entry 48 64 ∧ RunsOn c s [member (ctxOf c s) 4 c.unit 1 (.bloomRelease c.unit)]) ∧
    (∃ c : Cmd, ∃ s : State, Sent 0x0A01 c s ∧ c.unit < 4 ∧ c.u8 16 = 0xFF ∧ ZeroBytes c.entry 39 40 ∧ ZeroBytes c.entry 42 44 ∧
      ZeroBytes c.entry 48 64 ∧ JoinsIt c s [member (ctxOf c s) 4 c.unit 1 (.bloomRelease c.unit)]) ∧
    (∃ c : Cmd, ∃ s : State, Sent 0x0A02 c s ∧ c.unit < 4 ∧ (getBloom c.unit (planned (taken c s))).set = true ∧
      ZeroBytes c.entry 16 64 ∧ Lands c s [member (ctxOf c s) 4 c.unit 1 (.bloomClear c.unit)]) ∧
    (∃ c : Cmd, ∃ s : State, Sent 0x0A02 c s ∧ c.unit < 4 ∧ (getBloom c.unit (planned (taken c s))).set = true ∧
      ZeroBytes c.entry 16 64 ∧ RunsOn c s [member (ctxOf c s) 4 c.unit 1 (.bloomClear c.unit)]) ∧
    (∃ c : Cmd, ∃ s : State, Sent 0x0A02 c s ∧ c.unit < 4 ∧ (getBloom c.unit (planned (taken c s))).set = true ∧
      ZeroBytes c.entry 16 64 ∧ JoinsIt c s [member (ctxOf c s) 4 c.unit 1 (.bloomClear c.unit)]) ∧
    (∃ c : Cmd, ∃ s : State, Sent 0x0A03 c s ∧ c.unit < 4 ∧ (getBloom c.unit (planned (taken c s))).set = true ∧ c.u8 24 = 1 ∧
      ZeroBytes c.entry 25 64 ∧ let w : Write := .bloomReadClear c.unit (c.u64 16); Lands c s [member (ctxOf c s) 4 c.unit 1 w]) ∧
    (∃ c : Cmd, ∃ s : State, Sent 0x0A03 c s ∧ c.unit < 4 ∧ (getBloom c.unit (planned (taken c s))).set = true ∧ c.u8 24 = 1 ∧
      ZeroBytes c.entry 25 64 ∧ let w : Write := .bloomReadClear c.unit (c.u64 16); RunsOn c s [member (ctxOf c s) 4 c.unit 1 w]) ∧
    (∃ c : Cmd, ∃ s : State, Sent 0x0A03 c s ∧ c.unit < 4 ∧ (getBloom c.unit (planned (taken c s))).set = true ∧ c.u8 24 = 1 ∧
      ZeroBytes c.entry 25 64 ∧ let w : Write := .bloomReadClear c.unit (c.u64 16); JoinsIt c s [member (ctxOf c s) 4 c.unit 1 w]) ∧
    (∃ c : Cmd, ∃ s : State, Sent 0x0A03 c s ∧ Alone c.unit c ∧ c.unit < 4 ∧ (getBloom c.unit s).set = true ∧ c.u8 24 = 0 ∧
      ZeroBytes c.entry 25 64) :=
  ⟨⟨(cmd 0x0A01 0 [(16, 0), (17, 64), (18, 64), (20, 4096), (24, 256), (28, 0), (32, 16777215), (36, 1), (38, 1), (40, 3)]), calm, by simp only [Sent, Lands, Alone, Admits, zeroBytes_iff]; decide +kernel⟩,
    ⟨(cmd 0x0A01 0 [(16, 0), (17, 64), (18, 64), (20, 4096), (24, 256), (28, 0), (32, 16777215), (36, 1), (38, 1), (40, 3)]), busy, by simp only [Sent, RunsOn, Alone, zeroBytes_iff]; decide +kernel⟩,
    ⟨(joins 0x0A01 0 [(16, 0), (17, 64), (18, 64), (20, 4096), (24, 256), (28, 0), (32, 16777215), (36, 1), (38, 1), (40, 3)]), opened, by simp only [Sent, JoinsIt, Joining, zeroBytes_iff]; decide +kernel⟩,
    ⟨(cmd 0x0A01 0 [(16, 255)]), calm, by simp only [Sent, Lands, Alone, Admits, zeroBytes_iff]; decide +kernel⟩,
    ⟨(cmd 0x0A01 0 [(16, 255)]), busy, by simp only [Sent, RunsOn, Alone, zeroBytes_iff]; decide +kernel⟩,
    ⟨(joins 0x0A01 0 [(16, 255)]), opened, by simp only [Sent, JoinsIt, Joining, zeroBytes_iff]; decide +kernel⟩,
    ⟨(cmd 0x0A02 0 []), mapped, by simp only [Sent, Lands, Alone, Admits, zeroBytes_iff]; decide +kernel⟩,
    ⟨(cmd 0x0A02 0 []), busy, by simp only [Sent, RunsOn, Alone, zeroBytes_iff]; decide +kernel⟩,
    ⟨(joins 0x0A02 0 []), { opened with bloom := mapped.bloom }, by simp only [Sent, JoinsIt, Joining, zeroBytes_iff]; decide +kernel⟩,
    ⟨(cmd 0x0A03 0 [(16, 64), (24, 1)]), mapped, by simp only [Sent, Lands, Alone, Admits, zeroBytes_iff]; decide +kernel⟩,
    ⟨(cmd 0x0A03 0 [(16, 64), (24, 1)]), busy, by simp only [Sent, RunsOn, Alone, zeroBytes_iff]; decide +kernel⟩,
    ⟨(joins 0x0A03 0 [(16, 64), (24, 1)]), { opened with bloom := mapped.bloom }, by simp only [Sent, JoinsIt, Joining, zeroBytes_iff]; decide +kernel⟩,
    ⟨(cmd 0x0A03 0 [(16, 64)]), mapped, by simp only [Sent, Alone, zeroBytes_iff]; decide +kernel⟩⟩

theorem met_trigger_configures :
    (∃ c : Cmd, ∃ s : State, Sent 0x0B01 c s ∧ c.unit < 4 ∧ rfPresent c.unit s = true ∧ c.u8 16 ≤ 3 ∧ c.u8 17 ≤ 1 ∧ 1 ≤ c.u8 18 ∧
      c.u8 18 ≤ 64 ∧ c.u8 19 ≤ 1 ∧ c.u16 24 ≤ 8192 ∧ c.u16 26 ≤ c.u16 24 ∧ 1 ≤ c.u16 26 ∧ c.u16 28 ≤ 2047 ∧ 1 ≤ c.u16 30 ∧
      ZeroBytes c.entry 34 40 ∧ ZeroBytes c.entry 48 64 ∧
      binsFit (frameLen (getSpec c.unit (planned (taken c s))).fft) (optBin (ctxOf c s) 20) (c.u16 24 * c.u8 18) = true ∧
      let cfg : MaskCfg := { below := c.u8 17 == 1, bpp := c.u8 18, enable := c.u8 19 == 1, firstBin := optBin (ctxOf c s) 20, points := c.u16 24, minPoints := c.u16 26, hyst := c.u16 28, minSpectra := c.u16 30, ignore := c.u16 32, levels := readI16s s.host (c.u64 40) (c.u16 24) };
      Lands c s [member (ctxOf c s) 6 c.unit 1 (.trigMask c.unit (c.u8 16) cfg)]) ∧
    (∃ c : Cmd, ∃ s : State, Sent 0x0B01 c s ∧ c.unit < 4 ∧ rfPresent c.unit s = true ∧ c.u8 16 ≤ 3 ∧ c.u8 17 ≤ 1 ∧ 1 ≤ c.u8 18 ∧
      c.u8 18 ≤ 64 ∧ c.u8 19 ≤ 1 ∧ c.u16 24 ≤ 8192 ∧ c.u16 26 ≤ c.u16 24 ∧ 1 ≤ c.u16 26 ∧ c.u16 28 ≤ 2047 ∧ 1 ≤ c.u16 30 ∧
      ZeroBytes c.entry 34 40 ∧ ZeroBytes c.entry 48 64 ∧
      binsFit (frameLen (getSpec c.unit (planned (taken c s))).fft) (optBin (ctxOf c s) 20) (c.u16 24 * c.u8 18) = true ∧
      let cfg : MaskCfg := { below := c.u8 17 == 1, bpp := c.u8 18, enable := c.u8 19 == 1, firstBin := optBin (ctxOf c s) 20, points := c.u16 24, minPoints := c.u16 26, hyst := c.u16 28, minSpectra := c.u16 30, ignore := c.u16 32, levels := readI16s s.host (c.u64 40) (c.u16 24) };
      RunsOn c s [member (ctxOf c s) 6 c.unit 1 (.trigMask c.unit (c.u8 16) cfg)]) ∧
    (∃ c : Cmd, ∃ s : State, Sent 0x0B01 c s ∧ c.unit < 4 ∧ rfPresent c.unit s = true ∧ c.u8 16 ≤ 3 ∧ c.u8 17 ≤ 1 ∧ 1 ≤ c.u8 18 ∧
      c.u8 18 ≤ 64 ∧ c.u8 19 ≤ 1 ∧ c.u16 24 ≤ 8192 ∧ c.u16 26 ≤ c.u16 24 ∧ 1 ≤ c.u16 26 ∧ c.u16 28 ≤ 2047 ∧ 1 ≤ c.u16 30 ∧
      ZeroBytes c.entry 34 40 ∧ ZeroBytes c.entry 48 64 ∧
      binsFit (frameLen (getSpec c.unit (planned (taken c s))).fft) (optBin (ctxOf c s) 20) (c.u16 24 * c.u8 18) = true ∧
      let cfg : MaskCfg := { below := c.u8 17 == 1, bpp := c.u8 18, enable := c.u8 19 == 1, firstBin := optBin (ctxOf c s) 20, points := c.u16 24, minPoints := c.u16 26, hyst := c.u16 28, minSpectra := c.u16 30, ignore := c.u16 32, levels := readI16s s.host (c.u64 40) (c.u16 24) };
      JoinsIt c s [member (ctxOf c s) 6 c.unit 1 (.trigMask c.unit (c.u8 16) cfg)]) ∧
    (∃ c : Cmd, ∃ s : State, Sent 0x0B02 c s ∧ c.unit < 6 ∧ persAbsent c.unit s = false ∧ c.u8 16 ≤ 2 ∧ c.u8 17 ≤ 1 ∧ c.u8 18 ≤ 1 ∧
      ownPath c.unit (c.u16 20) = true ∧ c.u16 24 ≤ 2047 ∧ 1 ≤ c.u16 26 ∧ ZeroBytes c.entry 28 64 ∧
      let cfg : TdCfg := { detector := c.u8 16, below := c.u8 17 == 1, enable := c.u8 18 == 1, ignore := c.u8 19, path := c.u16 20, level := c.i16 22, hyst := c.u16 24, minWindows := c.u16 26 };
      Lands c s [member (ctxOf c s) 6 c.unit 1 (.trigTd c.unit cfg)]) ∧
    (∃ c : Cmd, ∃ s : State, Sent 0x0B02 c s ∧ c.unit < 6 ∧ persAbsent c.unit s = false ∧ c.u8 16 ≤ 2 ∧ c.u8 17 ≤ 1 ∧ c.u8 18 ≤ 1 ∧
      ownPath c.unit (c.u16 20) = true ∧ c.u16 24 ≤ 2047 ∧ 1 ≤ c.u16 26 ∧ ZeroBytes c.entry 28 64 ∧
      let cfg : TdCfg := { detector := c.u8 16, below := c.u8 17 == 1, enable := c.u8 18 == 1, ignore := c.u8 19, path := c.u16 20, level := c.i16 22, hyst := c.u16 24, minWindows := c.u16 26 };
      RunsOn c s [member (ctxOf c s) 6 c.unit 1 (.trigTd c.unit cfg)]) ∧
    (∃ c : Cmd, ∃ s : State, Sent 0x0B02 c s ∧ c.unit < 6 ∧ persAbsent c.unit s = false ∧ c.u8 16 ≤ 2 ∧ c.u8 17 ≤ 1 ∧ c.u8 18 ≤ 1 ∧
      ownPath c.unit (c.u16 20) = true ∧ c.u16 24 ≤ 2047 ∧ 1 ≤ c.u16 26 ∧ ZeroBytes c.entry 28 64 ∧
      let cfg : TdCfg := { detector := c.u8 16, below := c.u8 17 == 1, enable := c.u8 18 == 1, ignore := c.u8 19, path := c.u16 20, level := c.i16 22, hyst := c.u16 24, minWindows := c.u16 26 };
      JoinsIt c s [member (ctxOf c s) 6 c.unit 1 (.trigTd c.unit cfg)]) ∧
    (∃ c : Cmd, ∃ s : State, Sent 0x0B03 c s ∧ c.unit < 6 ∧ persAbsent c.unit s = false ∧ c.u8 16 ≤ 8 ∧ c.u8 17 ≤ 1 ∧ c.u8 18 ≤ 1 ∧
      (∀ i, i < 8 → badSource (c.u16 (32 + 2 * i)) = false) ∧ (∀ i, i < c.u8 16 → badStep s.host (c.u64 48 + 32 * i) = false) ∧
      ZeroBytes c.entry 19 24 ∧ ZeroBytes c.entry 56 64 ∧
      let cfg : SeqCfg := { steps := (List.range (c.u8 16)).map fun i => stepAt s.host (c.u64 48 + 32 * i), continuous := c.u8 17 == 1, arm := c.u8 18 == 1, holdoff := c.u64 24, inputs := (List.range 8).map fun i => c.u16 (32 + 2 * i) };
      Lands c s [member (ctxOf c s) 6 c.unit 1 (.trigSeq c.unit cfg)]) ∧
    (∃ c : Cmd, ∃ s : State, Sent 0x0B03 c s ∧ c.unit < 6 ∧ persAbsent c.unit s = false ∧ c.u8 16 ≤ 8 ∧ c.u8 17 ≤ 1 ∧ c.u8 18 ≤ 1 ∧
      (∀ i, i < 8 → badSource (c.u16 (32 + 2 * i)) = false) ∧ (∀ i, i < c.u8 16 → badStep s.host (c.u64 48 + 32 * i) = false) ∧
      ZeroBytes c.entry 19 24 ∧ ZeroBytes c.entry 56 64 ∧
      let cfg : SeqCfg := { steps := (List.range (c.u8 16)).map fun i => stepAt s.host (c.u64 48 + 32 * i), continuous := c.u8 17 == 1, arm := c.u8 18 == 1, holdoff := c.u64 24, inputs := (List.range 8).map fun i => c.u16 (32 + 2 * i) };
      RunsOn c s [member (ctxOf c s) 6 c.unit 1 (.trigSeq c.unit cfg)]) ∧
    (∃ c : Cmd, ∃ s : State, Sent 0x0B03 c s ∧ c.unit < 6 ∧ persAbsent c.unit s = false ∧ c.u8 16 ≤ 8 ∧ c.u8 17 ≤ 1 ∧ c.u8 18 ≤ 1 ∧
      (∀ i, i < 8 → badSource (c.u16 (32 + 2 * i)) = false) ∧ (∀ i, i < c.u8 16 → badStep s.host (c.u64 48 + 32 * i) = false) ∧
      ZeroBytes c.entry 19 24 ∧ ZeroBytes c.entry 56 64 ∧
      let cfg : SeqCfg := { steps := (List.range (c.u8 16)).map fun i => stepAt s.host (c.u64 48 + 32 * i), continuous := c.u8 17 == 1, arm := c.u8 18 == 1, holdoff := c.u64 24, inputs := (List.range 8).map fun i => c.u16 (32 + 2 * i) };
      JoinsIt c s [member (ctxOf c s) 6 c.unit 1 (.trigSeq c.unit cfg)]) ∧
    (∃ c : Cmd, ∃ s : State, Sent 0x0B04 c s ∧ c.unit < 4 ∧ rfPresent c.unit s = true ∧ c.u8 16 ≤ 3 ∧ c.u8 17 ≤ 1 ∧ c.u8 18 ≤ 1 ∧
      ZeroBytes c.entry 19 20 ∧ ZeroBytes c.entry 40 64 ∧
      let cfg : LimitCfg := { trace := c.u8 16, stop := c.u8 17 == 1, enable := c.u8 18 == 1, stopCaps := c.u16 20, ignore := c.u16 22, upper := readI16s s.host (c.u64 24) 8192, lower := readI16s s.host (c.u64 32) 8192 };
      Lands c s [member (ctxOf c s) 6 c.unit 1 (.trigLimit c.unit cfg)]) ∧
    (∃ c : Cmd, ∃ s : State, Sent 0x0B04 c s ∧ c.unit < 4 ∧ rfPresent c.unit s = true ∧ c.u8 16 ≤ 3 ∧ c.u8 17 ≤ 1 ∧ c.u8 18 ≤ 1 ∧
      ZeroBytes c.entry 19 20 ∧ ZeroBytes c.entry 40 64 ∧
      let cfg : LimitCfg := { trace := c.u8 16, stop := c.u8 17 == 1, enable := c.u8 18 == 1, stopCaps := c.u16 20, ignore := c.u16 22, upper := readI16s s.host (c.u64 24) 8192, lower := readI16s s.host (c.u64 32) 8192 };
      RunsOn c s [member (ctxOf c s) 6 c.unit 1 (.trigLimit c.unit cfg)]) ∧
    (∃ c : Cmd, ∃ s : State, Sent 0x0B04 c s ∧ c.unit < 4 ∧ rfPresent c.unit s = true ∧ c.u8 16 ≤ 3 ∧ c.u8 17 ≤ 1 ∧ c.u8 18 ≤ 1 ∧
      ZeroBytes c.entry 19 20 ∧ ZeroBytes c.entry 40 64 ∧
      let cfg : LimitCfg := { trace := c.u8 16, stop := c.u8 17 == 1, enable := c.u8 18 == 1, stopCaps := c.u16 20, ignore := c.u16 22, upper := readI16s s.host (c.u64 24) 8192, lower := readI16s s.host (c.u64 32) 8192 };
      JoinsIt c s [member (ctxOf c s) 6 c.unit 1 (.trigLimit c.unit cfg)]) ∧
    (∃ c : Cmd, ∃ s : State, Sent 0x0B05 c s ∧ c.unit < 4 ∧ rfPresent c.unit s = true ∧ ZeroBytes c.entry 16 64 ∧
      Lands c s [member (ctxOf c s) 6 c.unit 1 (.limitResume c.unit)]) ∧
    (∃ c : Cmd, ∃ s : State, Sent 0x0B05 c s ∧ c.unit < 4 ∧ rfPresent c.unit s = true ∧ ZeroBytes c.entry 16 64 ∧
      RunsOn c s [member (ctxOf c s) 6 c.unit 1 (.limitResume c.unit)]) ∧
    (∃ c : Cmd, ∃ s : State, Sent 0x0B05 c s ∧ c.unit < 4 ∧ rfPresent c.unit s = true ∧ ZeroBytes c.entry 16 64 ∧
      JoinsIt c s [member (ctxOf c s) 6 c.unit 1 (.limitResume c.unit)]) ∧
    (∃ c : Cmd, ∃ s : State, Sent 0x0B06 c s ∧ c.unit < 4 ∧ rfPresent c.unit s = true ∧ c.u8 16 ≤ 1 ∧ 1 ≤ c.u8 17 ∧ c.u8 17 ≤ 64 ∧
      c.u16 18 ≤ 32767 ∧ 1 ≤ c.u16 24 ∧ c.u16 24 ≤ 8192 ∧ ZeroBytes c.entry 34 36 ∧ ZeroBytes c.entry 44 64 ∧
      binsFit (frameLen (getSpec c.unit (planned (taken c s))).fft) (optBin (ctxOf c s) 20) (c.u16 24 * c.u8 17) = true ∧
      notDataRing (c.u16 32) s = false ∧
      let cfg : ChangeLogCfg := { enable := c.u8 16 == 1, bpp := c.u8 17, thresh := c.u16 18, firstBin := optBin (ctxOf c s) 20, points := c.u16 24, ignore := c.u16 26, keyframe := c.u32 28, ring := c.u16 32, maxRate := c.u64 36 };
      Lands c s [member (ctxOf c s) 6 c.unit 1 (.trigLog c.unit cfg)]) ∧
    (∃ c : Cmd, ∃ s : State, Sent 0x0B06 c s ∧ c.unit < 4 ∧ rfPresent c.unit s = true ∧ c.u8 16 ≤ 1 ∧ 1 ≤ c.u8 17 ∧ c.u8 17 ≤ 64 ∧
      c.u16 18 ≤ 32767 ∧ 1 ≤ c.u16 24 ∧ c.u16 24 ≤ 8192 ∧ ZeroBytes c.entry 34 36 ∧ ZeroBytes c.entry 44 64 ∧
      binsFit (frameLen (getSpec c.unit (planned (taken c s))).fft) (optBin (ctxOf c s) 20) (c.u16 24 * c.u8 17) = true ∧
      notDataRing (c.u16 32) s = false ∧
      let cfg : ChangeLogCfg := { enable := c.u8 16 == 1, bpp := c.u8 17, thresh := c.u16 18, firstBin := optBin (ctxOf c s) 20, points := c.u16 24, ignore := c.u16 26, keyframe := c.u32 28, ring := c.u16 32, maxRate := c.u64 36 };
      RunsOn c s [member (ctxOf c s) 6 c.unit 1 (.trigLog c.unit cfg)]) ∧
    (∃ c : Cmd, ∃ s : State, Sent 0x0B06 c s ∧ c.unit < 4 ∧ rfPresent c.unit s = true ∧ c.u8 16 ≤ 1 ∧ 1 ≤ c.u8 17 ∧ c.u8 17 ≤ 64 ∧
      c.u16 18 ≤ 32767 ∧ 1 ≤ c.u16 24 ∧ c.u16 24 ≤ 8192 ∧ ZeroBytes c.entry 34 36 ∧ ZeroBytes c.entry 44 64 ∧
      binsFit (frameLen (getSpec c.unit (planned (taken c s))).fft) (optBin (ctxOf c s) 20) (c.u16 24 * c.u8 17) = true ∧
      notDataRing (c.u16 32) s = false ∧
      let cfg : ChangeLogCfg := { enable := c.u8 16 == 1, bpp := c.u8 17, thresh := c.u16 18, firstBin := optBin (ctxOf c s) 20, points := c.u16 24, ignore := c.u16 26, keyframe := c.u32 28, ring := c.u16 32, maxRate := c.u64 36 };
      JoinsIt c s [member (ctxOf c s) 6 c.unit 1 (.trigLog c.unit cfg)]) ∧
    (∃ c : Cmd, ∃ s : State, Sent 0x0B07 c s ∧ c.unit = 0xFFFF ∧ badRing (c.u16 28) s = false ∧ c.u8 30 < 16 ∧
      ZeroBytes c.entry 31 64 ∧
      let cfg : LineLogCfg := { lines := c.u64 16, minGap := c.u32 24, ring := c.u16 28, fallingEdges := c.u8 30 };
      Lands c s [member (ctxOf c s) 6 0xFF 1 (.lineLog cfg)]) ∧
    (∃ c : Cmd, ∃ s : State, Sent 0x0B07 c s ∧ c.unit = 0xFFFF ∧ badRing (c.u16 28) s = false ∧ c.u8 30 < 16 ∧
      ZeroBytes c.entry 31 64 ∧
      let cfg : LineLogCfg := { lines := c.u64 16, minGap := c.u32 24, ring := c.u16 28, fallingEdges := c.u8 30 };
      RunsOn c s [member (ctxOf c s) 6 0xFF 1 (.lineLog cfg)]) ∧
    (∃ c : Cmd, ∃ s : State, Sent 0x0B07 c s ∧ c.unit = 0xFFFF ∧ badRing (c.u16 28) s = false ∧ c.u8 30 < 16 ∧
      ZeroBytes c.entry 31 64 ∧
      let cfg : LineLogCfg := { lines := c.u64 16, minGap := c.u32 24, ring := c.u16 28, fallingEdges := c.u8 30 };
      JoinsIt c s [member (ctxOf c s) 6 0xFF 1 (.lineLog cfg)]) :=
  ⟨⟨(cmd 0x0B01 0 [(16, 3), (17, 1), (18, 1), (19, 1), (20, 4), (24, 1), (26, 1), (28, 2047), (30, 1), (32, 65535), (40, 64)]), calm, by simp only [Sent, Lands, Alone, Admits, zeroBytes_iff]; decide +kernel⟩,
    ⟨(cmd 0x0B01 0 [(16, 3), (17, 1), (18, 1), (19, 1), (20, 4), (24, 1), (26, 1), (28, 2047), (30, 1), (32, 65535), (40, 64)]), busy, by simp only [Sent, RunsOn, Alone, zeroBytes_iff]; decide +kernel⟩,
    ⟨(joins 0x0B01 0 [(16, 3), (17, 1), (18, 1), (19, 1), (20, 4), (24, 1), (26, 1), (28, 2047), (30, 1), (32, 65535), (40, 64)]), opened, by simp only [Sent, JoinsIt, Joining, zeroBytes_iff]; decide +kernel⟩,
    ⟨(cmd 0x0B02 0 [(16, 2), (17, 1), (18, 1), (19, 255), (20, 0), (22, 1), (24, 2047), (26, 1)]), calm, by simp only [Sent, Lands, Alone, Admits, zeroBytes_iff]; decide +kernel⟩,
    ⟨(cmd 0x0B02 0 [(16, 2), (17, 1), (18, 1), (19, 255), (20, 0), (22, 1), (24, 2047), (26, 1)]), busy, by simp only [Sent, RunsOn, Alone, zeroBytes_iff]; decide +kernel⟩,
    ⟨(joins 0x0B02 0 [(16, 2), (17, 1), (18, 1), (19, 255), (20, 0), (22, 1), (24, 2047), (26, 1)]), opened, by simp only [Sent, JoinsIt, Joining, zeroBytes_iff]; decide +kernel⟩,
    ⟨(cmd 0x0B03 0 [(16, 1), (17, 1), (18, 1), (24, 9), (32, 65535), (34, 65535), (36, 65535), (38, 65535), (40, 65535), (42, 65535), (44, 65535), (46, 65535), (48, 64)]), { calm with host := [(68, 1)] }, by simp only [Sent, Lands, Alone, Admits, zeroBytes_iff]; decide +kernel⟩,
    ⟨(cmd 0x0B03 0 [(16, 1), (17, 1), (18, 1), (24, 9), (32, 65535), (34, 65535), (36, 65535), (38, 65535), (40, 65535), (42, 65535), (44, 65535), (46, 65535), (48, 64)]), { busy with host := [(68, 1)] }, by simp only [Sent, RunsOn, Alone, zeroBytes_iff]; decide +kernel⟩,
    ⟨(joins 0x0B03 0 [(16, 1), (17, 1), (18, 1), (24, 9), (32, 65535), (34, 65535), (36, 65535), (38, 65535), (40, 65535), (42, 65535), (44, 65535), (46, 65535), (48, 64)]), { opened with host := [(68, 1)] }, by simp only [Sent, JoinsIt, Joining, zeroBytes_iff]; decide +kernel⟩,
    ⟨(cmd 0x0B04 0 [(16, 3), (17, 1), (18, 1), (20, 1), (22, 1), (24, 64), (32, 64)]), calm, by simp only [Sent, Lands, Alone, Admits, zeroBytes_iff]; decide +kernel⟩,
    ⟨(cmd 0x0B04 0 [(16, 3), (17, 1), (18, 1), (20, 1), (22, 1), (24, 64), (32, 64)]), busy, by simp only [Sent, RunsOn, Alone, zeroBytes_iff]; decide +kernel⟩,
    ⟨(joins 0x0B04 0 [(16, 3), (17, 1), (18, 1), (20, 1), (22, 1), (24, 64), (32, 64)]), opened, by simp only [Sent, JoinsIt, Joining, zeroBytes_iff]; decide +kernel⟩,
    ⟨(cmd 0x0B05 0 []), calm, by simp only [Sent, Lands, Alone, Admits, zeroBytes_iff]; decide +kernel⟩,
    ⟨(cmd 0x0B05 0 []), busy, by simp only [Sent, RunsOn, Alone, zeroBytes_iff]; decide +kernel⟩,
    ⟨(joins 0x0B05 0 []), opened, by simp only [Sent, JoinsIt, Joining, zeroBytes_iff]; decide +kernel⟩,
    ⟨(cmd 0x0B06 0 [(16, 1), (17, 64), (18, 32767), (20, 0), (24, 64), (26, 1), (28, 1), (32, 3), (36, 1)]), calm, by simp only [Sent, Lands, Alone, Admits, zeroBytes_iff]; decide +kernel⟩,
    ⟨(cmd 0x0B06 0 [(16, 1), (17, 64), (18, 32767), (20, 0), (24, 64), (26, 1), (28, 1), (32, 3), (36, 1)]), busy, by simp only [Sent, RunsOn, Alone, zeroBytes_iff]; decide +kernel⟩,
    ⟨(joins 0x0B06 0 [(16, 1), (17, 64), (18, 32767), (20, 0), (24, 64), (26, 1), (28, 1), (32, 3), (36, 1)]), opened, by simp only [Sent, JoinsIt, Joining, zeroBytes_iff]; decide +kernel⟩,
    ⟨(cmd 0x0B07 0xffff [(16, 1), (24, 1), (28, 3), (30, 15)]), calm, by simp only [Sent, Lands, Alone, Admits, zeroBytes_iff]; decide +kernel⟩,
    ⟨(cmd 0x0B07 0xffff [(16, 1), (24, 1), (28, 3), (30, 15)]), busy, by simp only [Sent, RunsOn, Alone, zeroBytes_iff]; decide +kernel⟩,
    ⟨(joins 0x0B07 0xffff [(16, 1), (24, 1), (28, 3), (30, 15)]), opened, by simp only [Sent, JoinsIt, Joining, zeroBytes_iff]; decide +kernel⟩⟩

theorem met_capture_configures :
    (∃ c : Cmd, ∃ s : State, Sent 0x0C01 c s ∧ c.unit < 16 ∧ c.u8 16 ≤ 2 ∧ isPath (c.u16 20) = true ∧
      badCapSource (c.u8 16) (c.u16 20) = false ∧
      (if c.u8 16 = 0 then pathAbsent (c.u16 20) s else !rfPresent (c.u16 20) s) = false ∧ c.u8 17 ≤ 2 ∧
      (c.u8 18 ≤ 5 ∨ c.u8 18 = 0xFF) ∧ 1 ≤ c.u8 19 ∧ 0 < c.u64 24 ∧ c.u64 24 % (c.u8 19 * 65536) = 0 ∧ 1 ≤ c.u64 40 ∧
      badRing (c.u16 22) s = false ∧ ZeroBytes c.entry 52 64 ∧ preTooLong (ctxOf c s) (planned (taken c s)) = false ∧
      let cfg : CapCfg := { kind := c.u8 16, mode := c.u8 17, trigUnit := c.u8 18, segments := c.u8 19, source := c.u16 20, spillRing := c.u16 22, bufSize := c.u64 24, pre := c.u64 32, post := c.u64 40, indexSize := c.u32 48 };
      Lands c s [member (ctxOf c s) 7 c.unit 1 (.capSet c.unit cfg)]) ∧
    (∃ c : Cmd, ∃ s : State, Sent 0x0C01 c s ∧ c.unit < 16 ∧ c.u8 16 ≤ 2 ∧ isPath (c.u16 20) = true ∧
      badCapSource (c.u8 16) (c.u16 20) = false ∧
      (if c.u8 16 = 0 then pathAbsent (c.u16 20) s else !rfPresent (c.u16 20) s) = false ∧ c.u8 17 ≤ 2 ∧
      (c.u8 18 ≤ 5 ∨ c.u8 18 = 0xFF) ∧ 1 ≤ c.u8 19 ∧ 0 < c.u64 24 ∧ c.u64 24 % (c.u8 19 * 65536) = 0 ∧ 1 ≤ c.u64 40 ∧
      badRing (c.u16 22) s = false ∧ ZeroBytes c.entry 52 64 ∧ preTooLong (ctxOf c s) (planned (taken c s)) = false ∧
      let cfg : CapCfg := { kind := c.u8 16, mode := c.u8 17, trigUnit := c.u8 18, segments := c.u8 19, source := c.u16 20, spillRing := c.u16 22, bufSize := c.u64 24, pre := c.u64 32, post := c.u64 40, indexSize := c.u32 48 };
      RunsOn c s [member (ctxOf c s) 7 c.unit 1 (.capSet c.unit cfg)]) ∧
    (∃ c : Cmd, ∃ s : State, Sent 0x0C01 c s ∧ c.unit < 16 ∧ c.u8 16 ≤ 2 ∧ isPath (c.u16 20) = true ∧
      badCapSource (c.u8 16) (c.u16 20) = false ∧
      (if c.u8 16 = 0 then pathAbsent (c.u16 20) s else !rfPresent (c.u16 20) s) = false ∧ c.u8 17 ≤ 2 ∧
      (c.u8 18 ≤ 5 ∨ c.u8 18 = 0xFF) ∧ 1 ≤ c.u8 19 ∧ 0 < c.u64 24 ∧ c.u64 24 % (c.u8 19 * 65536) = 0 ∧ 1 ≤ c.u64 40 ∧
      badRing (c.u16 22) s = false ∧ ZeroBytes c.entry 52 64 ∧ preTooLong (ctxOf c s) (planned (taken c s)) = false ∧
      let cfg : CapCfg := { kind := c.u8 16, mode := c.u8 17, trigUnit := c.u8 18, segments := c.u8 19, source := c.u16 20, spillRing := c.u16 22, bufSize := c.u64 24, pre := c.u64 32, post := c.u64 40, indexSize := c.u32 48 };
      JoinsIt c s [member (ctxOf c s) 7 c.unit 1 (.capSet c.unit cfg)]) ∧
    (∃ c : Cmd, ∃ s : State, Sent 0x0C02 c s ∧ c.unit < 16 ∧ (getCap c.unit (planned (taken c s))).isSet = true ∧ c.u8 16 ≤ 1 ∧
      ZeroBytes c.entry 17 64 ∧ Lands c s [member (ctxOf c s) 7 c.unit 1 (.capArm c.unit (c.u8 16 == 1))]) ∧
    (∃ c : Cmd, ∃ s : State, Sent 0x0C02 c s ∧ c.unit < 16 ∧ (getCap c.unit (planned (taken c s))).isSet = true ∧ c.u8 16 ≤ 1 ∧
      ZeroBytes c.entry 17 64 ∧ RunsOn c s [member (ctxOf c s) 7 c.unit 1 (.capArm c.unit (c.u8 16 == 1))]) ∧
    (∃ c : Cmd, ∃ s : State, Sent 0x0C02 c s ∧ c.unit < 16 ∧ (getCap c.unit (planned (taken c s))).isSet = true ∧ c.u8 16 ≤ 1 ∧
      ZeroBytes c.entry 17 64 ∧ JoinsIt c s [member (ctxOf c s) 7 c.unit 1 (.capArm c.unit (c.u8 16 == 1))]) ∧
    (∃ c : Cmd, ∃ s : State, Sent 0x0C03 c s ∧ c.unit < 16 ∧ (getCap c.unit (planned (taken c s))).isSet = true ∧
      ZeroBytes c.entry 16 64 ∧ Lands c s [member (ctxOf c s) 7 c.unit 1 (.capForce c.unit)]) ∧
    (∃ c : Cmd, ∃ s : State, Sent 0x0C03 c s ∧ c.unit < 16 ∧ (getCap c.unit (planned (taken c s))).isSet = true ∧
      ZeroBytes c.entry 16 64 ∧ RunsOn c s [member (ctxOf c s) 7 c.unit 1 (.capForce c.unit)]) ∧
    (∃ c : Cmd, ∃ s : State, Sent 0x0C03 c s ∧ c.unit < 16 ∧ (getCap c.unit (planned (taken c s))).isSet = true ∧
      ZeroBytes c.entry 16 64 ∧ JoinsIt c s [member (ctxOf c s) 7 c.unit 1 (.capForce c.unit)]) :=
  ⟨⟨(cmd 0x0C01 0 [(16, 0), (17, 2), (18, 255), (19, 1), (20, 0), (22, 65535), (24, 65536), (32, 1), (40, 1), (48, 0)]), calm, by simp only [Sent, Lands, Alone, Admits, zeroBytes_iff]; decide +kernel⟩,
    ⟨(cmd 0x0C01 0 [(16, 0), (17, 2), (18, 255), (19, 1), (20, 0), (22, 65535), (24, 65536), (32, 1), (40, 1), (48, 0)]), busy, by simp only [Sent, RunsOn, Alone, zeroBytes_iff]; decide +kernel⟩,
    ⟨(joins 0x0C01 0 [(16, 0), (17, 2), (18, 255), (19, 1), (20, 0), (22, 65535), (24, 65536), (32, 1), (40, 1), (48, 0)]), opened, by simp only [Sent, JoinsIt, Joining, zeroBytes_iff]; decide +kernel⟩,
    ⟨(cmd 0x0C02 0 [(16, 1)]), { calm with cap := [(0, { isSet := true })] }, by simp only [Sent, Lands, Alone, Admits, zeroBytes_iff]; decide +kernel⟩,
    ⟨(cmd 0x0C02 0 [(16, 1)]), busy, by simp only [Sent, RunsOn, Alone, zeroBytes_iff]; decide +kernel⟩,
    ⟨(joins 0x0C02 0 [(16, 1)]), { opened with cap := [(0, { isSet := true })] }, by simp only [Sent, JoinsIt, Joining, zeroBytes_iff]; decide +kernel⟩,
    ⟨(cmd 0x0C03 0 []), { calm with cap := [(0, { isSet := true })] }, by simp only [Sent, Lands, Alone, Admits, zeroBytes_iff]; decide +kernel⟩,
    ⟨(cmd 0x0C03 0 []), busy, by simp only [Sent, RunsOn, Alone, zeroBytes_iff]; decide +kernel⟩,
    ⟨(joins 0x0C03 0 []), { opened with cap := [(0, { isSet := true })] }, by simp only [Sent, JoinsIt, Joining, zeroBytes_iff]; decide +kernel⟩⟩

theorem met_generator_configures :
    (∃ c : Cmd, ∃ s : State, Sent 0x0D01 c s ∧ c.unit < 2 ∧ dacPresent c.unit s = true ∧ c.u16 16 ≤ 4095 ∧ c.u8 18 ≤ 1 ∧
      (c.u8 18 = 0 → c.u8 19 = 0) ∧ c.u8 19 ≤ 8 ∧ 16 ≤ c.u32 20 ∧ c.u32 20 ≤ 16777215 ∧ badCode (c.i16 24) = false ∧ c.u8 26 ≤ 1 ∧
      c.u64 32 % 64 = 0 ∧ ZeroBytes c.entry 27 32 ∧ ZeroBytes c.entry 40 64 ∧
      let cfg : SegCfg := { carrier := c.u8 18 == 1, lanes := c.u8 19, length := c.u32 20, idle := c.i16 24, resident := c.u8 26 == 1, addr := c.u64 32 };
      let w : Write := .genSegment c.unit (c.u16 16) cfg; c.u64 32 + c.u32 20 * granuleBytes cfg ≤ hostDram s ∧
      residencyHolds (genAfter c.unit w (planned (taken c s))) = true ∧
      bufferBusy (getGen c.unit s) (genAfter c.unit w (planned (taken c s))) = false ∧ Lands c s [member (ctxOf c s) 8 c.unit 1 w]) ∧
    (∃ c : Cmd, ∃ s : State, Sent 0x0D01 c s ∧ c.unit < 2 ∧ dacPresent c.unit s = true ∧ c.u16 16 ≤ 4095 ∧ c.u8 18 ≤ 1 ∧
      (c.u8 18 = 0 → c.u8 19 = 0) ∧ c.u8 19 ≤ 8 ∧ 16 ≤ c.u32 20 ∧ c.u32 20 ≤ 16777215 ∧ badCode (c.i16 24) = false ∧ c.u8 26 ≤ 1 ∧
      c.u64 32 % 64 = 0 ∧ ZeroBytes c.entry 27 32 ∧ ZeroBytes c.entry 40 64 ∧
      let cfg : SegCfg := { carrier := c.u8 18 == 1, lanes := c.u8 19, length := c.u32 20, idle := c.i16 24, resident := c.u8 26 == 1, addr := c.u64 32 };
      let w : Write := .genSegment c.unit (c.u16 16) cfg; c.u64 32 + c.u32 20 * granuleBytes cfg ≤ hostDram s ∧
      residencyHolds (genAfter c.unit w (planned (taken c s))) = true ∧
      bufferBusy (getGen c.unit s) (genAfter c.unit w (planned (taken c s))) = false ∧ RunsOn c s [member (ctxOf c s) 8 c.unit 1 w]) ∧
    (∃ c : Cmd, ∃ s : State, Sent 0x0D01 c s ∧ c.unit < 2 ∧ dacPresent c.unit s = true ∧ c.u16 16 ≤ 4095 ∧ c.u8 18 ≤ 1 ∧
      (c.u8 18 = 0 → c.u8 19 = 0) ∧ c.u8 19 ≤ 8 ∧ 16 ≤ c.u32 20 ∧ c.u32 20 ≤ 16777215 ∧ badCode (c.i16 24) = false ∧ c.u8 26 ≤ 1 ∧
      c.u64 32 % 64 = 0 ∧ ZeroBytes c.entry 27 32 ∧ ZeroBytes c.entry 40 64 ∧
      let cfg : SegCfg := { carrier := c.u8 18 == 1, lanes := c.u8 19, length := c.u32 20, idle := c.i16 24, resident := c.u8 26 == 1, addr := c.u64 32 };
      let w : Write := .genSegment c.unit (c.u16 16) cfg; c.u64 32 + c.u32 20 * granuleBytes cfg ≤ hostDram s ∧
      residencyHolds (genAfter c.unit w (planned (taken c s))) = true ∧
      bufferBusy (getGen c.unit s) (genAfter c.unit w (planned (taken c s))) = false ∧ JoinsIt c s [member (ctxOf c s) 8 c.unit 1 w]) ∧
    (∃ c : Cmd, ∃ s : State, Sent 0x0D02 c s ∧ c.unit < 2 ∧ dacPresent c.unit s = true ∧ 1 ≤ c.u16 16 ∧ c.u16 16 ≤ 4096 ∧
      c.u16 18 < c.u16 16 ∧ ZeroBytes c.entry 20 24 ∧ ZeroBytes c.entry 32 64 ∧
      let table := (List.range (c.u16 16)).map fun i => seqEntryAt s.host (c.u64 24 + 32 * i);
      let w : Write := .genLoad c.unit table (c.u16 18);
      (∀ e ∈ table.zipIdx, badSeqEntry (getGen c.unit (planned (taken c s))).segments (c.u16 16) e.2 (readLe s.host (c.u64 24 + 32 * e.2 + 18) 14 == 0) e.1 = false) ∧
      residencyHolds (genAfter c.unit w (planned (taken c s))) = true ∧
      bufferBusy (getGen c.unit s) (genAfter c.unit w (planned (taken c s))) = false ∧ Lands c s [member (ctxOf c s) 8 c.unit 1 w]) ∧
    (∃ c : Cmd, ∃ s : State, Sent 0x0D02 c s ∧ c.unit < 2 ∧ dacPresent c.unit s = true ∧ 1 ≤ c.u16 16 ∧ c.u16 16 ≤ 4096 ∧
      c.u16 18 < c.u16 16 ∧ ZeroBytes c.entry 20 24 ∧ ZeroBytes c.entry 32 64 ∧
      let table := (List.range (c.u16 16)).map fun i => seqEntryAt s.host (c.u64 24 + 32 * i);
      let w : Write := .genLoad c.unit table (c.u16 18);
      (∀ e ∈ table.zipIdx, badSeqEntry (getGen c.unit (planned (taken c s))).segments (c.u16 16) e.2 (readLe s.host (c.u64 24 + 32 * e.2 + 18) 14 == 0) e.1 = false) ∧
      residencyHolds (genAfter c.unit w (planned (taken c s))) = true ∧
      bufferBusy (getGen c.unit s) (genAfter c.unit w (planned (taken c s))) = false ∧ RunsOn c s [member (ctxOf c s) 8 c.unit 1 w]) ∧
    (∃ c : Cmd, ∃ s : State, Sent 0x0D02 c s ∧ c.unit < 2 ∧ dacPresent c.unit s = true ∧ 1 ≤ c.u16 16 ∧ c.u16 16 ≤ 4096 ∧
      c.u16 18 < c.u16 16 ∧ ZeroBytes c.entry 20 24 ∧ ZeroBytes c.entry 32 64 ∧
      let table := (List.range (c.u16 16)).map fun i => seqEntryAt s.host (c.u64 24 + 32 * i);
      let w : Write := .genLoad c.unit table (c.u16 18);
      (∀ e ∈ table.zipIdx, badSeqEntry (getGen c.unit (planned (taken c s))).segments (c.u16 16) e.2 (readLe s.host (c.u64 24 + 32 * e.2 + 18) 14 == 0) e.1 = false) ∧
      residencyHolds (genAfter c.unit w (planned (taken c s))) = true ∧
      bufferBusy (getGen c.unit s) (genAfter c.unit w (planned (taken c s))) = false ∧ JoinsIt c s [member (ctxOf c s) 8 c.unit 1 w]) ∧
    (∃ c : Cmd, ∃ s : State, Sent 0x0D03 c s ∧ c.unit < 2 ∧ dacHealthy c.unit s = true ∧ c.u8 16 = 1 ∧ c.u16 18 ≤ 4095 ∧
      c.u16 18 < (getGen c.unit (planned (taken c s))).table.length ∧ ZeroBytes c.entry 17 18 ∧ ZeroBytes c.entry 20 64 ∧
      let w : Write := .genStart c.unit (c.u16 18); Lands c s [member (ctxOf c s) 8 c.unit 1 w]) ∧
    (∃ c : Cmd, ∃ s : State, Sent 0x0D03 c s ∧ c.unit < 2 ∧ dacHealthy c.unit s = true ∧ c.u8 16 = 1 ∧ c.u16 18 ≤ 4095 ∧
      c.u16 18 < (getGen c.unit (planned (taken c s))).table.length ∧ ZeroBytes c.entry 17 18 ∧ ZeroBytes c.entry 20 64 ∧
      let w : Write := .genStart c.unit (c.u16 18); RunsOn c s [member (ctxOf c s) 8 c.unit 1 w]) ∧
    (∃ c : Cmd, ∃ s : State, Sent 0x0D03 c s ∧ c.unit < 2 ∧ dacHealthy c.unit s = true ∧ c.u8 16 = 1 ∧ c.u16 18 ≤ 4095 ∧
      c.u16 18 < (getGen c.unit (planned (taken c s))).table.length ∧ ZeroBytes c.entry 17 18 ∧ ZeroBytes c.entry 20 64 ∧
      let w : Write := .genStart c.unit (c.u16 18); JoinsIt c s [member (ctxOf c s) 8 c.unit 1 w]) ∧
    (∃ c : Cmd, ∃ s : State, Sent 0x0D03 c s ∧ c.unit < 2 ∧ dacPresent c.unit s = true ∧ c.u8 16 = 0 ∧ c.u16 18 ≤ 4095 ∧
      ZeroBytes c.entry 17 18 ∧ ZeroBytes c.entry 20 64 ∧ Lands c s [member (ctxOf c s) 8 c.unit 1 (.genStop c.unit)]) ∧
    (∃ c : Cmd, ∃ s : State, Sent 0x0D03 c s ∧ c.unit < 2 ∧ dacPresent c.unit s = true ∧ c.u8 16 = 0 ∧ c.u16 18 ≤ 4095 ∧
      ZeroBytes c.entry 17 18 ∧ ZeroBytes c.entry 20 64 ∧ RunsOn c s [member (ctxOf c s) 8 c.unit 1 (.genStop c.unit)]) ∧
    (∃ c : Cmd, ∃ s : State, Sent 0x0D03 c s ∧ c.unit < 2 ∧ dacPresent c.unit s = true ∧ c.u8 16 = 0 ∧ c.u16 18 ≤ 4095 ∧
      ZeroBytes c.entry 17 18 ∧ ZeroBytes c.entry 20 64 ∧ JoinsIt c s [member (ctxOf c s) 8 c.unit 1 (.genStop c.unit)]) ∧
    (∃ c : Cmd, ∃ s : State, Sent 0x0D04 c s ∧ c.unit < 2 ∧ dacPresent c.unit s = true ∧ c.u8 16 ≤ 7 ∧ c.u64 24 ≤ 2 ^ 46 ∧
      c.u64 32 < 2 ^ 48 ∧ badCode (c.i16 40) = false ∧ laneHeld c.unit (c.u8 16) (planned (taken c s)) = false ∧
      ZeroBytes c.entry 17 24 ∧ ZeroBytes c.entry 42 64 ∧
      Lands c s [member (ctxOf c s) 8 c.unit 1 (.genCarrier c.unit (c.u8 16) (c.u64 24) (c.u64 32) (c.i16 40))]) ∧
    (∃ c : Cmd, ∃ s : State, Sent 0x0D04 c s ∧ c.unit < 2 ∧ dacPresent c.unit s = true ∧ c.u8 16 ≤ 7 ∧ c.u64 24 ≤ 2 ^ 46 ∧
      c.u64 32 < 2 ^ 48 ∧ badCode (c.i16 40) = false ∧ laneHeld c.unit (c.u8 16) (planned (taken c s)) = false ∧
      ZeroBytes c.entry 17 24 ∧ ZeroBytes c.entry 42 64 ∧
      RunsOn c s [member (ctxOf c s) 8 c.unit 1 (.genCarrier c.unit (c.u8 16) (c.u64 24) (c.u64 32) (c.i16 40))]) ∧
    (∃ c : Cmd, ∃ s : State, Sent 0x0D04 c s ∧ c.unit < 2 ∧ dacPresent c.unit s = true ∧ c.u8 16 ≤ 7 ∧ c.u64 24 ≤ 2 ^ 46 ∧
      c.u64 32 < 2 ^ 48 ∧ badCode (c.i16 40) = false ∧ laneHeld c.unit (c.u8 16) (planned (taken c s)) = false ∧
      ZeroBytes c.entry 17 24 ∧ ZeroBytes c.entry 42 64 ∧
      JoinsIt c s [member (ctxOf c s) 8 c.unit 1 (.genCarrier c.unit (c.u8 16) (c.u64 24) (c.u64 32) (c.i16 40))]) ∧
    (∃ c : Cmd, ∃ s : State, Sent 0x1902 c s ∧ c.unit < 2 ∧ dacPresent c.unit s = true ∧ -65536 ≤ c.i32 16 ∧ c.i32 16 ≤ 65536 ∧
      ZeroBytes c.entry 20 64 ∧ Lands c s [member (ctxOf c s) 8 c.unit 1 (.calGen c.unit (c.i32 16))]) ∧
    (∃ c : Cmd, ∃ s : State, Sent 0x1902 c s ∧ c.unit < 2 ∧ dacPresent c.unit s = true ∧ -65536 ≤ c.i32 16 ∧ c.i32 16 ≤ 65536 ∧
      ZeroBytes c.entry 20 64 ∧ RunsOn c s [member (ctxOf c s) 8 c.unit 1 (.calGen c.unit (c.i32 16))]) ∧
    (∃ c : Cmd, ∃ s : State, Sent 0x1902 c s ∧ c.unit < 2 ∧ dacPresent c.unit s = true ∧ -65536 ≤ c.i32 16 ∧ c.i32 16 ≤ 65536 ∧
      ZeroBytes c.entry 20 64 ∧ JoinsIt c s [member (ctxOf c s) 8 c.unit 1 (.calGen c.unit (c.i32 16))]) :=
  ⟨⟨(cmd 0x0D01 0 [(16, 4095), (18, 1), (19, 8), (20, 16777215), (24, 8191), (32, 64)]), calm, by simp only [Sent, Lands, Alone, Admits, zeroBytes_iff]; decide +kernel⟩,
    ⟨(cmd 0x0D01 0 [(16, 4095), (18, 1), (19, 8), (20, 16777215), (24, 8191), (32, 64)]), busy, by simp only [Sent, RunsOn, Alone, zeroBytes_iff]; decide +kernel⟩,
    ⟨(joins 0x0D01 0 [(16, 4095), (18, 1), (19, 8), (20, 16777215), (24, 8191), (32, 64)]), opened, by simp only [Sent, JoinsIt, Joining, zeroBytes_iff]; decide +kernel⟩,
    ⟨(cmd 0x0D02 0 [(16, 1), (18, 0), (24, 64)]), { calm with gen := [(0, { segmented with running := false })], host := [(74, 255), (75, 255)] }, by simp only [Sent, Lands, Alone, Admits, zeroBytes_iff]; decide +kernel⟩,
    ⟨(cmd 0x0D02 0 [(16, 1), (18, 0), (24, 64)]), { busy with gen := [(0, { segmented with running := true })], host := [(74, 255), (75, 255)] }, by simp only [Sent, RunsOn, Alone, zeroBytes_iff]; decide +kernel⟩,
    ⟨(joins 0x0D02 0 [(16, 1), (18, 0), (24, 64)]), { opened with gen := [(0, { segmented with running := false })], host := [(74, 255), (75, 255)] }, by simp only [Sent, JoinsIt, Joining, zeroBytes_iff]; decide +kernel⟩,
    ⟨(cmd 0x0D03 0 [(16, 1), (18, 0)]), { calm with gen := [(0, segmented)] }, by simp only [Sent, Lands, Alone, Admits, zeroBytes_iff]; decide +kernel⟩,
    ⟨(cmd 0x0D03 0 [(16, 1), (18, 0)]), { busy with gen := [(0, { segmented with running := true })] }, by simp only [Sent, RunsOn, Alone, zeroBytes_iff]; decide +kernel⟩,
    ⟨(joins 0x0D03 0 [(16, 1), (18, 0)]), { opened with gen := [(0, segmented)] }, by simp only [Sent, JoinsIt, Joining, zeroBytes_iff]; decide +kernel⟩,
    ⟨(cmd 0x0D03 0 [(16, 0), (18, 4095)]), calm, by simp only [Sent, Lands, Alone, Admits, zeroBytes_iff]; decide +kernel⟩,
    ⟨(cmd 0x0D03 0 [(16, 0), (18, 4095)]), busy, by simp only [Sent, RunsOn, Alone, zeroBytes_iff]; decide +kernel⟩,
    ⟨(joins 0x0D03 0 [(16, 0), (18, 4095)]), opened, by simp only [Sent, JoinsIt, Joining, zeroBytes_iff]; decide +kernel⟩,
    ⟨(cmd 0x0D04 0 [(16, 7), (24, 2 ^ 46), (32, 2 ^ 48 - 1), (40, 8191)]), calm, by simp only [Sent, Lands, Alone, Admits, zeroBytes_iff]; decide +kernel⟩,
    ⟨(cmd 0x0D04 0 [(16, 7), (24, 2 ^ 46), (32, 2 ^ 48 - 1), (40, 8191)]), busy, by simp only [Sent, RunsOn, Alone, zeroBytes_iff]; decide +kernel⟩,
    ⟨(joins 0x0D04 0 [(16, 7), (24, 2 ^ 46), (32, 2 ^ 48 - 1), (40, 8191)]), opened, by simp only [Sent, JoinsIt, Joining, zeroBytes_iff]; decide +kernel⟩,
    ⟨(cmd 0x1902 0 [(16, 65536)]), calm, by simp only [Sent, Lands, Alone, Admits, zeroBytes_iff]; decide +kernel⟩,
    ⟨(cmd 0x1902 0 [(16, 65536)]), busy, by simp only [Sent, RunsOn, Alone, zeroBytes_iff]; decide +kernel⟩,
    ⟨(joins 0x1902 0 [(16, 65536)]), opened, by simp only [Sent, JoinsIt, Joining, zeroBytes_iff]; decide +kernel⟩⟩

theorem met_laser_configures :
    (∃ c : Cmd, ∃ s : State, Sent 0x0E01 c s ∧ c.unit < 2 ∧ dacPresent c.unit s = true ∧ ZeroBytes c.entry 20 24 ∧
      ZeroBytes c.entry 32 64 ∧ let table := readU16s s.host (c.u64 24) 257;
      Lands c s [member (ctxOf c s) 9 c.unit 1 (.laserModcal c.unit (c.u32 16) table)]) ∧
    (∃ c : Cmd, ∃ s : State, Sent 0x0E01 c s ∧ c.unit < 2 ∧ dacPresent c.unit s = true ∧ ZeroBytes c.entry 20 24 ∧
      ZeroBytes c.entry 32 64 ∧ let table := readU16s s.host (c.u64 24) 257;
      RunsOn c s [member (ctxOf c s) 9 c.unit 1 (.laserModcal c.unit (c.u32 16) table)]) ∧
    (∃ c : Cmd, ∃ s : State, Sent 0x0E01 c s ∧ c.unit < 2 ∧ dacPresent c.unit s = true ∧ ZeroBytes c.entry 20 24 ∧
      ZeroBytes c.entry 32 64 ∧ let table := readU16s s.host (c.u64 24) 257;
      JoinsIt c s [member (ctxOf c s) 9 c.unit 1 (.laserModcal c.unit (c.u32 16) table)]) ∧
    (∃ c : Cmd, ∃ s : State, Sent 0x0E02 c s ∧ c.unit < 2 ∧ dacPresent c.unit s = true ∧ 2048 ≤ c.u64 24 ∧ c.u64 24 ≤ 20480000 ∧
      20480000 ≤ c.u64 40 ∧ c.u64 40 ≤ 20480000000 ∧ ZeroBytes c.entry 36 40 ∧ ZeroBytes c.entry 48 64 ∧
      let cfg : LaserCaps := { peak := c.u32 16, pulse := c.u32 20, pulseWindow := c.u64 24, avg := c.u32 32, avgWindow := c.u64 40 };
      Lands c s [member (ctxOf c s) 9 c.unit 1 (.laserCaps c.unit cfg)]) ∧
    (∃ c : Cmd, ∃ s : State, Sent 0x0E02 c s ∧ c.unit < 2 ∧ dacPresent c.unit s = true ∧ 2048 ≤ c.u64 24 ∧ c.u64 24 ≤ 20480000 ∧
      20480000 ≤ c.u64 40 ∧ c.u64 40 ≤ 20480000000 ∧ ZeroBytes c.entry 36 40 ∧ ZeroBytes c.entry 48 64 ∧
      let cfg : LaserCaps := { peak := c.u32 16, pulse := c.u32 20, pulseWindow := c.u64 24, avg := c.u32 32, avgWindow := c.u64 40 };
      RunsOn c s [member (ctxOf c s) 9 c.unit 1 (.laserCaps c.unit cfg)]) ∧
    (∃ c : Cmd, ∃ s : State, Sent 0x0E02 c s ∧ c.unit < 2 ∧ dacPresent c.unit s = true ∧ 2048 ≤ c.u64 24 ∧ c.u64 24 ≤ 20480000 ∧
      20480000 ≤ c.u64 40 ∧ c.u64 40 ≤ 20480000000 ∧ ZeroBytes c.entry 36 40 ∧ ZeroBytes c.entry 48 64 ∧
      let cfg : LaserCaps := { peak := c.u32 16, pulse := c.u32 20, pulseWindow := c.u64 24, avg := c.u32 32, avgWindow := c.u64 40 };
      JoinsIt c s [member (ctxOf c s) 9 c.unit 1 (.laserCaps c.unit cfg)]) ∧
    (∃ c : Cmd, ∃ s : State, Sent 0x0E03 c s ∧ c.unit < 2 ∧ dacPresent c.unit s = true ∧ c.u8 16 ≤ 1 ∧ ZeroBytes c.entry 17 64 ∧
      Lands c s [member (ctxOf c s) 9 c.unit 1 (.laserArm c.unit (c.u8 16 == 1))]) ∧
    (∃ c : Cmd, ∃ s : State, Sent 0x0E03 c s ∧ c.unit < 2 ∧ dacPresent c.unit s = true ∧ c.u8 16 ≤ 1 ∧ ZeroBytes c.entry 17 64 ∧
      RunsOn c s [member (ctxOf c s) 9 c.unit 1 (.laserArm c.unit (c.u8 16 == 1))]) ∧
    (∃ c : Cmd, ∃ s : State, Sent 0x0E03 c s ∧ c.unit < 2 ∧ dacPresent c.unit s = true ∧ c.u8 16 ≤ 1 ∧ ZeroBytes c.entry 17 64 ∧
      JoinsIt c s [member (ctxOf c s) 9 c.unit 1 (.laserArm c.unit (c.u8 16 == 1))]) :=
  ⟨⟨(cmd 0x0E01 0 [(16, 1), (24, 64)]), calm, by simp only [Sent, Lands, Alone, Admits, zeroBytes_iff]; decide +kernel⟩,
    ⟨(cmd 0x0E01 0 [(16, 1), (24, 64)]), busy, by simp only [Sent, RunsOn, Alone, zeroBytes_iff]; decide +kernel⟩,
    ⟨(joins 0x0E01 0 [(16, 1), (24, 64)]), opened, by simp only [Sent, JoinsIt, Joining, zeroBytes_iff]; decide +kernel⟩,
    ⟨(cmd 0x0E02 0 [(16, 1), (20, 1), (24, 2048), (32, 1), (40, 20480000)]), calm, by simp only [Sent, Lands, Alone, Admits, zeroBytes_iff]; decide +kernel⟩,
    ⟨(cmd 0x0E02 0 [(16, 1), (20, 1), (24, 2048), (32, 1), (40, 20480000)]), busy, by simp only [Sent, RunsOn, Alone, zeroBytes_iff]; decide +kernel⟩,
    ⟨(joins 0x0E02 0 [(16, 1), (20, 1), (24, 2048), (32, 1), (40, 20480000)]), opened, by simp only [Sent, JoinsIt, Joining, zeroBytes_iff]; decide +kernel⟩,
    ⟨(cmd 0x0E03 0 [(16, 1)]), calm, by simp only [Sent, Lands, Alone, Admits, zeroBytes_iff]; decide +kernel⟩,
    ⟨(cmd 0x0E03 0 [(16, 1)]), busy, by simp only [Sent, RunsOn, Alone, zeroBytes_iff]; decide +kernel⟩,
    ⟨(joins 0x0E03 0 [(16, 1)]), opened, by simp only [Sent, JoinsIt, Joining, zeroBytes_iff]; decide +kernel⟩⟩

theorem met_das_configures :
    (∃ c : Cmd, ∃ s : State, Sent 0x0F01 c s ∧ c.unit < 2 ∧ c.u8 16 = 1 ∧ 1 ≤ c.u8 17 ∧ c.u8 17 ≤ 2 ∧
      (∀ k, k < c.u8 17 → orxHealthy (2 * c.unit + k) s = true) ∧ dacHealthy c.unit s = true ∧ ZeroBytes c.entry 18 64 ∧
      let w : Write := .dasStart c.unit (c.u8 17); Lands c s [member (ctxOf c s) 0xA c.unit 1 w]) ∧
    (∃ c : Cmd, ∃ s : State, Sent 0x0F01 c s ∧ c.unit < 2 ∧ c.u8 16 = 1 ∧ 1 ≤ c.u8 17 ∧ c.u8 17 ≤ 2 ∧
      (∀ k, k < c.u8 17 → orxHealthy (2 * c.unit + k) s = true) ∧ dacHealthy c.unit s = true ∧ ZeroBytes c.entry 18 64 ∧
      let w : Write := .dasStart c.unit (c.u8 17); RunsOn c s [member (ctxOf c s) 0xA c.unit 1 w]) ∧
    (∃ c : Cmd, ∃ s : State, Sent 0x0F01 c s ∧ c.unit < 2 ∧ c.u8 16 = 1 ∧ 1 ≤ c.u8 17 ∧ c.u8 17 ≤ 2 ∧
      (∀ k, k < c.u8 17 → orxHealthy (2 * c.unit + k) s = true) ∧ dacHealthy c.unit s = true ∧ ZeroBytes c.entry 18 64 ∧
      let w : Write := .dasStart c.unit (c.u8 17); JoinsIt c s [member (ctxOf c s) 0xA c.unit 1 w]) ∧
    (∃ c : Cmd, ∃ s : State, Sent 0x0F01 c s ∧ c.unit < 2 ∧ c.u8 16 = 0 ∧ 1 ≤ c.u8 17 ∧ c.u8 17 ≤ 2 ∧
      (∀ k, k < c.u8 17 → orxPresent (2 * c.unit + k) s = true) ∧ ZeroBytes c.entry 18 64 ∧
      Lands c s [member (ctxOf c s) 0xA c.unit 1 (.dasStop c.unit)]) ∧
    (∃ c : Cmd, ∃ s : State, Sent 0x0F01 c s ∧ c.unit < 2 ∧ c.u8 16 = 0 ∧ 1 ≤ c.u8 17 ∧ c.u8 17 ≤ 2 ∧
      (∀ k, k < c.u8 17 → orxPresent (2 * c.unit + k) s = true) ∧ ZeroBytes c.entry 18 64 ∧
      RunsOn c s [member (ctxOf c s) 0xA c.unit 1 (.dasStop c.unit)]) ∧
    (∃ c : Cmd, ∃ s : State, Sent 0x0F01 c s ∧ c.unit < 2 ∧ c.u8 16 = 0 ∧ 1 ≤ c.u8 17 ∧ c.u8 17 ≤ 2 ∧
      (∀ k, k < c.u8 17 → orxPresent (2 * c.unit + k) s = true) ∧ ZeroBytes c.entry 18 64 ∧
      JoinsIt c s [member (ctxOf c s) 0xA c.unit 1 (.dasStop c.unit)]) ∧
    (∃ c : Cmd, ∃ s : State, Sent 0x0F02 c s ∧ c.unit < 2 ∧ fibrePresent c.unit s = true ∧ c.u8 16 ≤ 7 ∧ c.u8 17 ≤ 1 ∧
      c.u8 18 ≤ 1 ∧ c.u8 19 ≤ 1 ∧ badSlotCode (slotOf (ctxOf c s)) = false ∧ ZeroBytes c.entry 23 24 ∧ ZeroBytes c.entry 36 64 ∧
      let plan := getFibre c.unit (planned (taken c s)); let k := c.u8 16;
      let cfg : SlotCfg := { enable := c.u8 17 == 1, golay := c.u8 18 == 1, taper := c.u8 19 == 1, length := c.u16 20, chip := c.u8 22, bandwidth := c.u32 24, entryA := c.u16 28, entryB := c.u16 30, offset := c.u32 32 };
      (plan.grid.combine = false ∨ entriesDiffer { plan with slots := tput {} plan.slots k cfg } = false) ∧
      let on := (c.u8 17 == 1) && plan.das;
      let ms := member (ctxOf c s) 0xA c.unit 1 (.dasSlot c.unit k cfg) :: member (ctxOf c s) 8 c.unit 1 (.slotCarrier c.unit k (slotWord k)) :: (slotPaths c.unit k s).zipIdx.map fun p => member (ctxOf c s) 2 p.1 (if p.2 = 0 then 1 else 0) (.slotPath p.1 (4 * slotWord k) on);
      Lands c s ms) ∧
    (∃ c : Cmd, ∃ s : State, Sent 0x0F02 c s ∧ c.unit < 2 ∧ fibrePresent c.unit s = true ∧ c.u8 16 ≤ 7 ∧ c.u8 17 ≤ 1 ∧
      c.u8 18 ≤ 1 ∧ c.u8 19 ≤ 1 ∧ badSlotCode (slotOf (ctxOf c s)) = false ∧ ZeroBytes c.entry 23 24 ∧ ZeroBytes c.entry 36 64 ∧
      let plan := getFibre c.unit (planned (taken c s)); let k := c.u8 16;
      let cfg : SlotCfg := { enable := c.u8 17 == 1, golay := c.u8 18 == 1, taper := c.u8 19 == 1, length := c.u16 20, chip := c.u8 22, bandwidth := c.u32 24, entryA := c.u16 28, entryB := c.u16 30, offset := c.u32 32 };
      (plan.grid.combine = false ∨ entriesDiffer { plan with slots := tput {} plan.slots k cfg } = false) ∧
      let on := (c.u8 17 == 1) && plan.das;
      let ms := member (ctxOf c s) 0xA c.unit 1 (.dasSlot c.unit k cfg) :: member (ctxOf c s) 8 c.unit 1 (.slotCarrier c.unit k (slotWord k)) :: (slotPaths c.unit k s).zipIdx.map fun p => member (ctxOf c s) 2 p.1 (if p.2 = 0 then 1 else 0) (.slotPath p.1 (4 * slotWord k) on);
      RunsOn c s ms) ∧
    (∃ c : Cmd, ∃ s : State, Sent 0x0F02 c s ∧ c.unit < 2 ∧ fibrePresent c.unit s = true ∧ c.u8 16 ≤ 7 ∧ c.u8 17 ≤ 1 ∧
      c.u8 18 ≤ 1 ∧ c.u8 19 ≤ 1 ∧ badSlotCode (slotOf (ctxOf c s)) = false ∧ ZeroBytes c.entry 23 24 ∧ ZeroBytes c.entry 36 64 ∧
      let plan := getFibre c.unit (planned (taken c s)); let k := c.u8 16;
      let cfg : SlotCfg := { enable := c.u8 17 == 1, golay := c.u8 18 == 1, taper := c.u8 19 == 1, length := c.u16 20, chip := c.u8 22, bandwidth := c.u32 24, entryA := c.u16 28, entryB := c.u16 30, offset := c.u32 32 };
      (plan.grid.combine = false ∨ entriesDiffer { plan with slots := tput {} plan.slots k cfg } = false) ∧
      let on := (c.u8 17 == 1) && plan.das;
      let ms := member (ctxOf c s) 0xA c.unit 1 (.dasSlot c.unit k cfg) :: member (ctxOf c s) 8 c.unit 1 (.slotCarrier c.unit k (slotWord k)) :: (slotPaths c.unit k s).zipIdx.map fun p => member (ctxOf c s) 2 p.1 (if p.2 = 0 then 1 else 0) (.slotPath p.1 (4 * slotWord k) on);
      JoinsIt c s ms) ∧
    (∃ c : Cmd, ∃ s : State, Sent 0x0F03 c s ∧ c.unit < 2 ∧ fibrePresent c.unit s = true ∧ 1 ≤ c.u32 20 ∧ c.u32 20 ≤ 262144 ∧
      1 ≤ c.u16 24 ∧ c.u16 24 ≤ 64 ∧ 1 ≤ c.u16 26 ∧ c.u16 26 ≤ 1024 ∧ c.u8 28 ≤ 1 ∧ c.u8 29 ≤ 1 ∧
      (c.u32 36 = 0 ∨ (64 ≤ c.u32 36 ∧ c.u32 36 ≤ 65536)) ∧ notDataRing (c.u16 30) s = false ∧ ZeroBytes c.entry 40 64 ∧
      (c.u8 29 = 0 ∨ entriesDiffer (getFibre c.unit (planned (taken c s))) = false) ∧
      let cfg : GridCfg := { firstCell := c.u32 16, positions := c.u32 20, step := c.u16 24, gauge := c.u16 26, kind := c.u8 28, combine := c.u8 29 == 1, ring := c.u16 30, noiseFirst := c.u32 32, noiseCount := c.u32 36 };
      lastCell cfg ≤ 1048575 ∧ Lands c s [member (ctxOf c s) 0xA c.unit 1 (.dasGrid c.unit cfg)]) ∧
    (∃ c : Cmd, ∃ s : State, Sent 0x0F03 c s ∧ c.unit < 2 ∧ fibrePresent c.unit s = true ∧ 1 ≤ c.u32 20 ∧ c.u32 20 ≤ 262144 ∧
      1 ≤ c.u16 24 ∧ c.u16 24 ≤ 64 ∧ 1 ≤ c.u16 26 ∧ c.u16 26 ≤ 1024 ∧ c.u8 28 ≤ 1 ∧ c.u8 29 ≤ 1 ∧
      (c.u32 36 = 0 ∨ (64 ≤ c.u32 36 ∧ c.u32 36 ≤ 65536)) ∧ notDataRing (c.u16 30) s = false ∧ ZeroBytes c.entry 40 64 ∧
      (c.u8 29 = 0 ∨ entriesDiffer (getFibre c.unit (planned (taken c s))) = false) ∧
      let cfg : GridCfg := { firstCell := c.u32 16, positions := c.u32 20, step := c.u16 24, gauge := c.u16 26, kind := c.u8 28, combine := c.u8 29 == 1, ring := c.u16 30, noiseFirst := c.u32 32, noiseCount := c.u32 36 };
      lastCell cfg ≤ 1048575 ∧ RunsOn c s [member (ctxOf c s) 0xA c.unit 1 (.dasGrid c.unit cfg)]) ∧
    (∃ c : Cmd, ∃ s : State, Sent 0x0F03 c s ∧ c.unit < 2 ∧ fibrePresent c.unit s = true ∧ 1 ≤ c.u32 20 ∧ c.u32 20 ≤ 262144 ∧
      1 ≤ c.u16 24 ∧ c.u16 24 ≤ 64 ∧ 1 ≤ c.u16 26 ∧ c.u16 26 ≤ 1024 ∧ c.u8 28 ≤ 1 ∧ c.u8 29 ≤ 1 ∧
      (c.u32 36 = 0 ∨ (64 ≤ c.u32 36 ∧ c.u32 36 ≤ 65536)) ∧ notDataRing (c.u16 30) s = false ∧ ZeroBytes c.entry 40 64 ∧
      (c.u8 29 = 0 ∨ entriesDiffer (getFibre c.unit (planned (taken c s))) = false) ∧
      let cfg : GridCfg := { firstCell := c.u32 16, positions := c.u32 20, step := c.u16 24, gauge := c.u16 26, kind := c.u8 28, combine := c.u8 29 == 1, ring := c.u16 30, noiseFirst := c.u32 32, noiseCount := c.u32 36 };
      lastCell cfg ≤ 1048575 ∧ JoinsIt c s [member (ctxOf c s) 0xA c.unit 1 (.dasGrid c.unit cfg)]) ∧
    (∃ c : Cmd, ∃ s : State, Sent 0x0F04 c s ∧ c.unit < 2 ∧ fibrePresent c.unit s = true ∧ c.u8 16 ≤ 1 ∧ 1 ≤ c.u8 17 ∧
      c.u8 17 ≤ 64 ∧ c.u16 18 ≤ 32767 ∧ 1 ≤ c.u16 24 ∧ c.u16 24 ≤ 8192 ∧ 1 ≤ c.u16 26 ∧ c.u8 28 < 32 ∧ ZeroBytes c.entry 29 32 ∧
      ZeroBytes c.entry 40 64 ∧ c.u32 20 + c.u16 24 * c.u8 17 ≤ (getFibre c.unit (planned (taken c s))).grid.positions ∧
      let cfg : PmaskCfg := { enable := c.u8 16 == 1, bpp := c.u8 17, hyst := c.u16 18, firstPos := c.u32 20, points := c.u16 24, minTraces := c.u16 26, ignore := c.u8 28, levels := readI16s s.host (c.u64 32) (c.u16 24) };
      Lands c s [member (ctxOf c s) 0xA c.unit 1 (.dasPmask c.unit cfg)]) ∧
    (∃ c : Cmd, ∃ s : State, Sent 0x0F04 c s ∧ c.unit < 2 ∧ fibrePresent c.unit s = true ∧ c.u8 16 ≤ 1 ∧ 1 ≤ c.u8 17 ∧
      c.u8 17 ≤ 64 ∧ c.u16 18 ≤ 32767 ∧ 1 ≤ c.u16 24 ∧ c.u16 24 ≤ 8192 ∧ 1 ≤ c.u16 26 ∧ c.u8 28 < 32 ∧ ZeroBytes c.entry 29 32 ∧
      ZeroBytes c.entry 40 64 ∧ c.u32 20 + c.u16 24 * c.u8 17 ≤ (getFibre c.unit (planned (taken c s))).grid.positions ∧
      let cfg : PmaskCfg := { enable := c.u8 16 == 1, bpp := c.u8 17, hyst := c.u16 18, firstPos := c.u32 20, points := c.u16 24, minTraces := c.u16 26, ignore := c.u8 28, levels := readI16s s.host (c.u64 32) (c.u16 24) };
      RunsOn c s [member (ctxOf c s) 0xA c.unit 1 (.dasPmask c.unit cfg)]) ∧
    (∃ c : Cmd, ∃ s : State, Sent 0x0F04 c s ∧ c.unit < 2 ∧ fibrePresent c.unit s = true ∧ c.u8 16 ≤ 1 ∧ 1 ≤ c.u8 17 ∧
      c.u8 17 ≤ 64 ∧ c.u16 18 ≤ 32767 ∧ 1 ≤ c.u16 24 ∧ c.u16 24 ≤ 8192 ∧ 1 ≤ c.u16 26 ∧ c.u8 28 < 32 ∧ ZeroBytes c.entry 29 32 ∧
      ZeroBytes c.entry 40 64 ∧ c.u32 20 + c.u16 24 * c.u8 17 ≤ (getFibre c.unit (planned (taken c s))).grid.positions ∧
      let cfg : PmaskCfg := { enable := c.u8 16 == 1, bpp := c.u8 17, hyst := c.u16 18, firstPos := c.u32 20, points := c.u16 24, minTraces := c.u16 26, ignore := c.u8 28, levels := readI16s s.host (c.u64 32) (c.u16 24) };
      JoinsIt c s [member (ctxOf c s) 0xA c.unit 1 (.dasPmask c.unit cfg)]) ∧
    (∃ c : Cmd, ∃ s : State, Sent 0x1903 c s ∧ c.unit < 2 ∧ fibrePresent c.unit s = true ∧ 1400000 ≤ c.u32 16 ∧
      c.u32 16 ≤ 1600000 ∧ c.u32 20 ≤ 4194304 ∧ (c.u16 28 = 0 ∨ (8 ≤ c.u16 28 ∧ c.u16 28 ≤ 4096)) ∧
      (c.u8 30 ≤ 63 ∨ c.u8 30 = 0xFF) ∧ c.u8 31 ≤ 1 ∧ ZeroBytes c.entry 52 64 ∧
      let cfg : FibreCal := { nG := c.u32 16, dFix := c.u32 20, coilFirst := c.u32 24, coilCells := c.u16 28, rtdEntry := c.u8 30, rtdType := c.u8 31, refOhm := c.u32 32, gamma := c.u32 36, dalpha := c.i32 40, tFixed := c.u32 44, maxAge := c.u32 48 };
      let w : Write := .calFibre c.unit cfg;
      let ms := if dtsRuns c.unit s then [member (ctxOf c s) 0xA c.unit 1 .claimOnly, member (ctxOf c s) 0xB c.unit 1 w] else [member (ctxOf c s) 0xA c.unit 1 w, member (ctxOf c s) 0xB c.unit 1 .claimOnly];
      Lands c s ms) ∧
    (∃ c : Cmd, ∃ s : State, Sent 0x1903 c s ∧ c.unit < 2 ∧ fibrePresent c.unit s = true ∧ 1400000 ≤ c.u32 16 ∧
      c.u32 16 ≤ 1600000 ∧ c.u32 20 ≤ 4194304 ∧ (c.u16 28 = 0 ∨ (8 ≤ c.u16 28 ∧ c.u16 28 ≤ 4096)) ∧
      (c.u8 30 ≤ 63 ∨ c.u8 30 = 0xFF) ∧ c.u8 31 ≤ 1 ∧ ZeroBytes c.entry 52 64 ∧
      let cfg : FibreCal := { nG := c.u32 16, dFix := c.u32 20, coilFirst := c.u32 24, coilCells := c.u16 28, rtdEntry := c.u8 30, rtdType := c.u8 31, refOhm := c.u32 32, gamma := c.u32 36, dalpha := c.i32 40, tFixed := c.u32 44, maxAge := c.u32 48 };
      let w : Write := .calFibre c.unit cfg;
      let ms := if dtsRuns c.unit s then [member (ctxOf c s) 0xA c.unit 1 .claimOnly, member (ctxOf c s) 0xB c.unit 1 w] else [member (ctxOf c s) 0xA c.unit 1 w, member (ctxOf c s) 0xB c.unit 1 .claimOnly];
      RunsOn c s ms) ∧
    (∃ c : Cmd, ∃ s : State, Sent 0x1903 c s ∧ c.unit < 2 ∧ fibrePresent c.unit s = true ∧ 1400000 ≤ c.u32 16 ∧
      c.u32 16 ≤ 1600000 ∧ c.u32 20 ≤ 4194304 ∧ (c.u16 28 = 0 ∨ (8 ≤ c.u16 28 ∧ c.u16 28 ≤ 4096)) ∧
      (c.u8 30 ≤ 63 ∨ c.u8 30 = 0xFF) ∧ c.u8 31 ≤ 1 ∧ ZeroBytes c.entry 52 64 ∧
      let cfg : FibreCal := { nG := c.u32 16, dFix := c.u32 20, coilFirst := c.u32 24, coilCells := c.u16 28, rtdEntry := c.u8 30, rtdType := c.u8 31, refOhm := c.u32 32, gamma := c.u32 36, dalpha := c.i32 40, tFixed := c.u32 44, maxAge := c.u32 48 };
      let w : Write := .calFibre c.unit cfg;
      let ms := if dtsRuns c.unit s then [member (ctxOf c s) 0xA c.unit 1 .claimOnly, member (ctxOf c s) 0xB c.unit 1 w] else [member (ctxOf c s) 0xA c.unit 1 w, member (ctxOf c s) 0xB c.unit 1 .claimOnly];
      JoinsIt c s ms) ∧
    (∃ c : Cmd, ∃ s : State, Sent 0x1302 c s ∧ c.unit < 2 ∧ fibrePresent c.unit s = true ∧ c.u8 16 ≤ 1 ∧ c.u8 17 ≤ 12 ∧
      (∀ i, i < 5 → badCoef (c.i32 (24 + 4 * i)) = false) ∧ notDataRing (c.u16 20) s = false ∧ ZeroBytes c.entry 22 24 ∧
      ZeroBytes c.entry 44 64 ∧
      let cfg : BandCfg := { enable := c.u8 16 == 1, log2Win := c.u8 17, thresh := c.i16 18, ring := c.u16 20, coef := (List.range 5).map fun i => c.i32 (24 + 4 * i) };
      Lands c s [member (ctxOf c s) 0xA c.unit 1 (.curBand c.unit cfg)]) ∧
    (∃ c : Cmd, ∃ s : State, Sent 0x1302 c s ∧ c.unit < 2 ∧ fibrePresent c.unit s = true ∧ c.u8 16 ≤ 1 ∧ c.u8 17 ≤ 12 ∧
      (∀ i, i < 5 → badCoef (c.i32 (24 + 4 * i)) = false) ∧ notDataRing (c.u16 20) s = false ∧ ZeroBytes c.entry 22 24 ∧
      ZeroBytes c.entry 44 64 ∧
      let cfg : BandCfg := { enable := c.u8 16 == 1, log2Win := c.u8 17, thresh := c.i16 18, ring := c.u16 20, coef := (List.range 5).map fun i => c.i32 (24 + 4 * i) };
      RunsOn c s [member (ctxOf c s) 0xA c.unit 1 (.curBand c.unit cfg)]) ∧
    (∃ c : Cmd, ∃ s : State, Sent 0x1302 c s ∧ c.unit < 2 ∧ fibrePresent c.unit s = true ∧ c.u8 16 ≤ 1 ∧ c.u8 17 ≤ 12 ∧
      (∀ i, i < 5 → badCoef (c.i32 (24 + 4 * i)) = false) ∧ notDataRing (c.u16 20) s = false ∧ ZeroBytes c.entry 22 24 ∧
      ZeroBytes c.entry 44 64 ∧
      let cfg : BandCfg := { enable := c.u8 16 == 1, log2Win := c.u8 17, thresh := c.i16 18, ring := c.u16 20, coef := (List.range 5).map fun i => c.i32 (24 + 4 * i) };
      JoinsIt c s [member (ctxOf c s) 0xA c.unit 1 (.curBand c.unit cfg)]) :=
  ⟨⟨(cmd 0x0F01 0 [(16, 1), (17, 2)]), calm, by simp only [Sent, Lands, Alone, Admits, zeroBytes_iff]; decide +kernel⟩,
    ⟨(cmd 0x0F01 0 [(16, 1), (17, 2)]), busy, by simp only [Sent, RunsOn, Alone, zeroBytes_iff]; decide +kernel⟩,
    ⟨(joins 0x0F01 0 [(16, 1), (17, 2)]), opened, by simp only [Sent, JoinsIt, Joining, zeroBytes_iff]; decide +kernel⟩,
    ⟨(cmd 0x0F01 0 [(16, 0), (17, 2)]), calm, by simp only [Sent, Lands, Alone, Admits, zeroBytes_iff]; decide +kernel⟩,
    ⟨(cmd 0x0F01 0 [(16, 0), (17, 2)]), busy, by simp only [Sent, RunsOn, Alone, zeroBytes_iff]; decide +kernel⟩,
    ⟨(joins 0x0F01 0 [(16, 0), (17, 2)]), opened, by simp only [Sent, JoinsIt, Joining, zeroBytes_iff]; decide +kernel⟩,
    ⟨(cmd 0x0F02 0 [(16, 7), (17, 1), (18, 0), (19, 1), (20, 6400), (24, 200000), (28, 1), (30, 65535), (32, 1)]), calm, by simp only [Sent, Lands, Alone, Admits, zeroBytes_iff]; decide +kernel⟩,
    ⟨(cmd 0x0F02 0 [(16, 7), (17, 1), (18, 0), (19, 1), (20, 6400), (24, 200000), (28, 1), (30, 65535), (32, 1)]), busy, by simp only [Sent, RunsOn, Alone, zeroBytes_iff]; decide +kernel⟩,
    ⟨(joins 0x0F02 0 [(16, 7), (17, 1), (18, 0), (19, 1), (20, 6400), (24, 200000), (28, 1), (30, 65535), (32, 1)]), opened, by simp only [Sent, JoinsIt, Joining, zeroBytes_iff]; decide +kernel⟩,
    ⟨(cmd 0x0F03 0 [(16, 0), (20, 1024), (24, 1), (26, 1), (28, 1), (29, 1), (30, 3), (32, 0), (36, 64)]), calm, by simp only [Sent, Lands, Alone, Admits, zeroBytes_iff]; decide +kernel⟩,
    ⟨(cmd 0x0F03 0 [(16, 0), (20, 1024), (24, 1), (26, 1), (28, 1), (29, 1), (30, 3), (32, 0), (36, 64)]), busy, by simp only [Sent, RunsOn, Alone, zeroBytes_iff]; decide +kernel⟩,
    ⟨(joins 0x0F03 0 [(16, 0), (20, 1024), (24, 1), (26, 1), (28, 1), (29, 1), (30, 3), (32, 0), (36, 64)]), opened, by simp only [Sent, JoinsIt, Joining, zeroBytes_iff]; decide +kernel⟩,
    ⟨(cmd 0x0F04 0 [(16, 1), (17, 64), (18, 32767), (24, 16), (26, 1), (28, 31), (32, 64)]), { calm with fibre := [(0, { grid := { positions := 1024 } })] }, by simp only [Sent, Lands, Alone, Admits, zeroBytes_iff]; decide +kernel⟩,
    ⟨(cmd 0x0F04 0 [(16, 1), (17, 64), (18, 32767), (24, 16), (26, 1), (28, 31), (32, 64)]), { busy with fibre := [(0, { das := true, grid := { positions := 1024 } })] }, by simp only [Sent, RunsOn, Alone, zeroBytes_iff]; decide +kernel⟩,
    ⟨(joins 0x0F04 0 [(16, 1), (17, 64), (18, 32767), (24, 16), (26, 1), (28, 31), (32, 64)]), { opened with fibre := [(0, { grid := { positions := 1024 } })] }, by simp only [Sent, JoinsIt, Joining, zeroBytes_iff]; decide +kernel⟩,
    ⟨(cmd 0x1903 0 [(16, 1400000), (20, 4194304), (24, 1), (28, 8), (30, 63), (31, 1)]), calm, by simp only [Sent, Lands, Alone, Admits, zeroBytes_iff]; decide +kernel⟩,
    ⟨(cmd 0x1903 0 [(16, 1400000), (20, 4194304), (24, 1), (28, 8), (30, 63), (31, 1)]), busy, by simp only [Sent, RunsOn, Alone, zeroBytes_iff]; decide +kernel⟩,
    ⟨(joins 0x1903 0 [(16, 1400000), (20, 4194304), (24, 1), (28, 8), (30, 63), (31, 1)]), opened, by simp only [Sent, JoinsIt, Joining, zeroBytes_iff]; decide +kernel⟩,
    ⟨(cmd 0x1302 0 [(16, 1), (17, 12), (18, 1), (20, 3), (24, 1)]), calm, by simp only [Sent, Lands, Alone, Admits, zeroBytes_iff]; decide +kernel⟩,
    ⟨(cmd 0x1302 0 [(16, 1), (17, 12), (18, 1), (20, 3), (24, 1)]), busy, by simp only [Sent, RunsOn, Alone, zeroBytes_iff]; decide +kernel⟩,
    ⟨(joins 0x1302 0 [(16, 1), (17, 12), (18, 1), (20, 3), (24, 1)]), opened, by simp only [Sent, JoinsIt, Joining, zeroBytes_iff]; decide +kernel⟩⟩

theorem met_sensing_configures :
    (∃ c : Cmd, ∃ s : State, Sent 0x1001 c s ∧ c.unit < 2 ∧ c.u8 16 = 1 ∧ orxHealthy (2 * c.unit) s = true ∧
      orxHealthy (2 * c.unit + 1) s = true ∧ dacHealthy c.unit s = true ∧ ZeroBytes c.entry 17 64 ∧
      Lands c s [member (ctxOf c s) 0xB c.unit 1 (.dtsStart c.unit)]) ∧
    (∃ c : Cmd, ∃ s : State, Sent 0x1001 c s ∧ c.unit < 2 ∧ c.u8 16 = 1 ∧ orxHealthy (2 * c.unit) s = true ∧
      orxHealthy (2 * c.unit + 1) s = true ∧ dacHealthy c.unit s = true ∧ ZeroBytes c.entry 17 64 ∧
      RunsOn c s [member (ctxOf c s) 0xB c.unit 1 (.dtsStart c.unit)]) ∧
    (∃ c : Cmd, ∃ s : State, Sent 0x1001 c s ∧ c.unit < 2 ∧ c.u8 16 = 1 ∧ orxHealthy (2 * c.unit) s = true ∧
      orxHealthy (2 * c.unit + 1) s = true ∧ dacHealthy c.unit s = true ∧ ZeroBytes c.entry 17 64 ∧
      JoinsIt c s [member (ctxOf c s) 0xB c.unit 1 (.dtsStart c.unit)]) ∧
    (∃ c : Cmd, ∃ s : State, Sent 0x1001 c s ∧ c.unit < 2 ∧ c.u8 16 = 0 ∧ orxPresent (2 * c.unit) s = true ∧
      orxPresent (2 * c.unit + 1) s = true ∧ ZeroBytes c.entry 17 64 ∧ Lands c s [member (ctxOf c s) 0xB c.unit 1 (.dtsStop c.unit)]) ∧
    (∃ c : Cmd, ∃ s : State, Sent 0x1001 c s ∧ c.unit < 2 ∧ c.u8 16 = 0 ∧ orxPresent (2 * c.unit) s = true ∧
      orxPresent (2 * c.unit + 1) s = true ∧ ZeroBytes c.entry 17 64 ∧
      RunsOn c s [member (ctxOf c s) 0xB c.unit 1 (.dtsStop c.unit)]) ∧
    (∃ c : Cmd, ∃ s : State, Sent 0x1001 c s ∧ c.unit < 2 ∧ c.u8 16 = 0 ∧ orxPresent (2 * c.unit) s = true ∧
      orxPresent (2 * c.unit + 1) s = true ∧ ZeroBytes c.entry 17 64 ∧
      JoinsIt c s [member (ctxOf c s) 0xB c.unit 1 (.dtsStop c.unit)]) ∧
    (∃ c : Cmd, ∃ s : State, Sent 0x1002 c s ∧ c.unit < 2 ∧ fibrePresent c.unit s = true ∧ 1 ≤ c.u16 18 ∧ c.u16 18 ≤ 64 ∧
      1 ≤ c.u32 28 ∧ c.u32 28 ≤ 262144 ∧ 1 ≤ c.u16 32 ∧ c.u16 32 ≤ 4096 ∧ c.u8 34 < 4 ∧ notDataRing (c.u16 36) s = false ∧
      ZeroBytes c.entry 35 36 ∧ ZeroBytes c.entry 38 64 ∧
      let cfg : DtsCfg := { entry := c.u16 16, step := c.u16 18, offset := c.u32 20, firstCell := c.u32 24, positions := c.u32 28, parts := c.u16 32, content := c.u8 34, ring := c.u16 36 };
      Lands c s [member (ctxOf c s) 0xB c.unit 1 (.dtsSet c.unit cfg)]) ∧
    (∃ c : Cmd, ∃ s : State, Sent 0x1002 c s ∧ c.unit < 2 ∧ fibrePresent c.unit s = true ∧ 1 ≤ c.u16 18 ∧ c.u16 18 ≤ 64 ∧
      1 ≤ c.u32 28 ∧ c.u32 28 ≤ 262144 ∧ 1 ≤ c.u16 32 ∧ c.u16 32 ≤ 4096 ∧ c.u8 34 < 4 ∧ notDataRing (c.u16 36) s = false ∧
      ZeroBytes c.entry 35 36 ∧ ZeroBytes c.entry 38 64 ∧
      let cfg : DtsCfg := { entry := c.u16 16, step := c.u16 18, offset := c.u32 20, firstCell := c.u32 24, positions := c.u32 28, parts := c.u16 32, content := c.u8 34, ring := c.u16 36 };
      RunsOn c s [member (ctxOf c s) 0xB c.unit 1 (.dtsSet c.unit cfg)]) ∧
    (∃ c : Cmd, ∃ s : State, Sent 0x1002 c s ∧ c.unit < 2 ∧ fibrePresent c.unit s = true ∧ 1 ≤ c.u16 18 ∧ c.u16 18 ≤ 64 ∧
      1 ≤ c.u32 28 ∧ c.u32 28 ≤ 262144 ∧ 1 ≤ c.u16 32 ∧ c.u16 32 ≤ 4096 ∧ c.u8 34 < 4 ∧ notDataRing (c.u16 36) s = false ∧
      ZeroBytes c.entry 35 36 ∧ ZeroBytes c.entry 38 64 ∧
      let cfg : DtsCfg := { entry := c.u16 16, step := c.u16 18, offset := c.u32 20, firstCell := c.u32 24, positions := c.u32 28, parts := c.u16 32, content := c.u8 34, ring := c.u16 36 };
      JoinsIt c s [member (ctxOf c s) 0xB c.unit 1 (.dtsSet c.unit cfg)]) ∧
    (∃ c : Cmd, ∃ s : State, Sent 0x1101 c s ∧ c.unit = 0 ∧ 1 ≤ c.u8 16 ∧ c.u8 16 ≤ 64 ∧ (c.u8 17 = 50 ∨ c.u8 17 = 60) ∧
      notDataRing (c.u16 18) s = false ∧ (getRing (c.u16 18) s).entrySize = 64 ∧ ZeroBytes c.entry 20 24 ∧ ZeroBytes c.entry 32 64 ∧
      (∀ i, i < c.u8 16 → ∀ k ∈ scanChecks (readLe s.host (c.u64 24 + 16 * i) 16), k.2 = false) ∧
      let entries := (List.range (c.u8 16)).map fun i => scanEntryOf (readLe s.host (c.u64 24 + 16 * i) 16);
      Lands c s [member (ctxOf c s) 0xC 0 1 (.slowScan entries (c.u8 17) (c.u16 18))]) ∧
    (∃ c : Cmd, ∃ s : State, Sent 0x1101 c s ∧ c.unit = 0 ∧ 1 ≤ c.u8 16 ∧ c.u8 16 ≤ 64 ∧ (c.u8 17 = 50 ∨ c.u8 17 = 60) ∧
      notDataRing (c.u16 18) s = false ∧ (getRing (c.u16 18) s).entrySize = 64 ∧ ZeroBytes c.entry 20 24 ∧ ZeroBytes c.entry 32 64 ∧
      (∀ i, i < c.u8 16 → ∀ k ∈ scanChecks (readLe s.host (c.u64 24 + 16 * i) 16), k.2 = false) ∧
      let entries := (List.range (c.u8 16)).map fun i => scanEntryOf (readLe s.host (c.u64 24 + 16 * i) 16);
      RunsOn c s [member (ctxOf c s) 0xC 0 1 (.slowScan entries (c.u8 17) (c.u16 18))]) ∧
    (∃ c : Cmd, ∃ s : State, Sent 0x1101 c s ∧ c.unit = 0 ∧ 1 ≤ c.u8 16 ∧ c.u8 16 ≤ 64 ∧ (c.u8 17 = 50 ∨ c.u8 17 = 60) ∧
      notDataRing (c.u16 18) s = false ∧ (getRing (c.u16 18) s).entrySize = 64 ∧ ZeroBytes c.entry 20 24 ∧ ZeroBytes c.entry 32 64 ∧
      (∀ i, i < c.u8 16 → ∀ k ∈ scanChecks (readLe s.host (c.u64 24 + 16 * i) 16), k.2 = false) ∧
      let entries := (List.range (c.u8 16)).map fun i => scanEntryOf (readLe s.host (c.u64 24 + 16 * i) 16);
      JoinsIt c s [member (ctxOf c s) 0xC 0 1 (.slowScan entries (c.u8 17) (c.u16 18))]) ∧
    (∃ c : Cmd, ∃ s : State, Sent 0x1102 c s ∧ c.unit = 0 ∧ c.u8 16 = 1 ∧ (planned (taken c s)).slow.table ≠ [] ∧
      ZeroBytes c.entry 17 64 ∧ Lands c s [member (ctxOf c s) 0xC 0 1 .slowStart]) ∧
    (∃ c : Cmd, ∃ s : State, Sent 0x1102 c s ∧ c.unit = 0 ∧ c.u8 16 = 1 ∧ (planned (taken c s)).slow.table ≠ [] ∧
      ZeroBytes c.entry 17 64 ∧ RunsOn c s [member (ctxOf c s) 0xC 0 1 .slowStart]) ∧
    (∃ c : Cmd, ∃ s : State, Sent 0x1102 c s ∧ c.unit = 0 ∧ c.u8 16 = 1 ∧ (planned (taken c s)).slow.table ≠ [] ∧
      ZeroBytes c.entry 17 64 ∧ JoinsIt c s [member (ctxOf c s) 0xC 0 1 .slowStart]) ∧
    (∃ c : Cmd, ∃ s : State, Sent 0x1102 c s ∧ c.unit = 0 ∧ c.u8 16 = 0 ∧ ZeroBytes c.entry 17 64 ∧
      Lands c s [member (ctxOf c s) 0xC 0 1 .slowStop]) ∧
    (∃ c : Cmd, ∃ s : State, Sent 0x1102 c s ∧ c.unit = 0 ∧ c.u8 16 = 0 ∧ ZeroBytes c.entry 17 64 ∧
      RunsOn c s [member (ctxOf c s) 0xC 0 1 .slowStop]) ∧
    (∃ c : Cmd, ∃ s : State, Sent 0x1102 c s ∧ c.unit = 0 ∧ c.u8 16 = 0 ∧ ZeroBytes c.entry 17 64 ∧
      JoinsIt c s [member (ctxOf c s) 0xC 0 1 .slowStop]) ∧
    (∃ c : Cmd, ∃ s : State, Sent 0x1201 c s ∧ c.unit < 4 ∧ c.u8 16 ≤ 1 ∧ c.u16 18 ≤ 3600 ∧ 1 ≤ c.u32 20 ∧ c.u32 20 ≤ 20000 ∧
      ZeroBytes c.entry 17 18 ∧ ZeroBytes c.entry 24 64 ∧
      let cfg : ExcCfg := { enable := c.u8 16 == 1, impPeriod := c.u16 18, cMax := c.u32 20 };
      Lands c s [member (ctxOf c s) 0xD c.unit 1 (.excSet c.unit cfg)]) ∧
    (∃ c : Cmd, ∃ s : State, Sent 0x1201 c s ∧ c.unit < 4 ∧ c.u8 16 ≤ 1 ∧ c.u16 18 ≤ 3600 ∧ 1 ≤ c.u32 20 ∧ c.u32 20 ≤ 20000 ∧
      ZeroBytes c.entry 17 18 ∧ ZeroBytes c.entry 24 64 ∧
      let cfg : ExcCfg := { enable := c.u8 16 == 1, impPeriod := c.u16 18, cMax := c.u32 20 };
      RunsOn c s [member (ctxOf c s) 0xD c.unit 1 (.excSet c.unit cfg)]) ∧
    (∃ c : Cmd, ∃ s : State, Sent 0x1201 c s ∧ c.unit < 4 ∧ c.u8 16 ≤ 1 ∧ c.u16 18 ≤ 3600 ∧ 1 ≤ c.u32 20 ∧ c.u32 20 ≤ 20000 ∧
      ZeroBytes c.entry 17 18 ∧ ZeroBytes c.entry 24 64 ∧
      let cfg : ExcCfg := { enable := c.u8 16 == 1, impPeriod := c.u16 18, cMax := c.u32 20 };
      JoinsIt c s [member (ctxOf c s) 0xD c.unit 1 (.excSet c.unit cfg)]) :=
  ⟨⟨(cmd 0x1001 0 [(16, 1)]), calm, by simp only [Sent, Lands, Alone, Admits, zeroBytes_iff]; decide +kernel⟩,
    ⟨(cmd 0x1001 0 [(16, 1)]), busy, by simp only [Sent, RunsOn, Alone, zeroBytes_iff]; decide +kernel⟩,
    ⟨(joins 0x1001 0 [(16, 1)]), opened, by simp only [Sent, JoinsIt, Joining, zeroBytes_iff]; decide +kernel⟩,
    ⟨(cmd 0x1001 0 []), calm, by simp only [Sent, Lands, Alone, Admits, zeroBytes_iff]; decide +kernel⟩,
    ⟨(cmd 0x1001 0 []), busy, by simp only [Sent, RunsOn, Alone, zeroBytes_iff]; decide +kernel⟩,
    ⟨(joins 0x1001 0 []), opened, by simp only [Sent, JoinsIt, Joining, zeroBytes_iff]; decide +kernel⟩,
    ⟨(cmd 0x1002 0 [(16, 1), (18, 64), (28, 262144), (32, 4096), (34, 3), (36, 3)]), calm, by simp only [Sent, Lands, Alone, Admits, zeroBytes_iff]; decide +kernel⟩,
    ⟨(cmd 0x1002 0 [(16, 1), (18, 64), (28, 262144), (32, 4096), (34, 3), (36, 3)]), busy, by simp only [Sent, RunsOn, Alone, zeroBytes_iff]; decide +kernel⟩,
    ⟨(joins 0x1002 0 [(16, 1), (18, 64), (28, 262144), (32, 4096), (34, 3), (36, 3)]), opened, by simp only [Sent, JoinsIt, Joining, zeroBytes_iff]; decide +kernel⟩,
    ⟨(cmd 0x1101 0 [(16, 1), (17, 60), (18, 3), (24, 64)]), { calm with host := [(67, 1), (68, 1)] }, by simp only [Sent, Lands, Alone, Admits, zeroBytes_iff]; decide +kernel⟩,
    ⟨(cmd 0x1101 0 [(16, 1), (17, 60), (18, 3), (24, 64)]), { busy with host := [(67, 1), (68, 1)] }, by simp only [Sent, RunsOn, Alone, zeroBytes_iff]; decide +kernel⟩,
    ⟨(joins 0x1101 0 [(16, 1), (17, 60), (18, 3), (24, 64)]), { opened with host := [(67, 1), (68, 1)] }, by simp only [Sent, JoinsIt, Joining, zeroBytes_iff]; decide +kernel⟩,
    ⟨(cmd 0x1102 0 [(16, 1)]), { calm with slow := { table := [{ ain := 0, exc := 0, gain := 0, nplc := 1, repeats := 1, delayUs := 0 }], scanning := false } }, by simp only [Sent, Lands, Alone, Admits, zeroBytes_iff]; decide +kernel⟩,
    ⟨(cmd 0x1102 0 [(16, 1)]), { busy with slow := { table := [{ ain := 0, exc := 0, gain := 0, nplc := 1, repeats := 1, delayUs := 0 }], scanning := true } }, by simp only [Sent, RunsOn, Alone, zeroBytes_iff]; decide +kernel⟩,
    ⟨(joins 0x1102 0 [(16, 1)]), { opened with slow := { table := [{ ain := 0, exc := 0, gain := 0, nplc := 1, repeats := 1, delayUs := 0 }], scanning := false } }, by simp only [Sent, JoinsIt, Joining, zeroBytes_iff]; decide +kernel⟩,
    ⟨(cmd 0x1102 0 []), calm, by simp only [Sent, Lands, Alone, Admits, zeroBytes_iff]; decide +kernel⟩,
    ⟨(cmd 0x1102 0 []), busy, by simp only [Sent, RunsOn, Alone, zeroBytes_iff]; decide +kernel⟩,
    ⟨(joins 0x1102 0 []), opened, by simp only [Sent, JoinsIt, Joining, zeroBytes_iff]; decide +kernel⟩,
    ⟨(cmd 0x1201 0 [(16, 1), (18, 3600), (20, 20000)]), calm, by simp only [Sent, Lands, Alone, Admits, zeroBytes_iff]; decide +kernel⟩,
    ⟨(cmd 0x1201 0 [(16, 1), (18, 3600), (20, 20000)]), busy, by simp only [Sent, RunsOn, Alone, zeroBytes_iff]; decide +kernel⟩,
    ⟨(joins 0x1201 0 [(16, 1), (18, 3600), (20, 20000)]), opened, by simp only [Sent, JoinsIt, Joining, zeroBytes_iff]; decide +kernel⟩⟩

theorem met_stream_configures :
    (∃ c : Cmd, ∃ s : State, Sent 0x1602 c s ∧ notDataRing c.unit s = false ∧ (getRing c.unit s).consChannel = none ∧ c.u8 16 ≤ 3 ∧
      c.u8 17 ≤ 1 ∧ c.u8 18 ≤ 1 ∧ c.u8 19 < 64 ∧ (c.u16 20 = 0xFFFF ∨ bit (c.u8 21) 4 = false) ∧ ZeroBytes c.entry 48 64 ∧
      let cfg : StreamCfg := { port := c.u8 16, vdif := c.u8 17 == 1, ipv6 := c.u8 18 == 1, dscp := c.u8 19, vlan := c.u16 20, dstUdp := c.u16 22, dstMac := fld c.entry 24 6, srcUdp := c.u16 30, dstIp := fld c.entry 32 16 };
      frameBytes (getRing c.unit (planned (taken c s))) cfg ≤ 9216 ∧ let w : Write := .netStream c.unit (some cfg);
      Lands c s [member (ctxOf c s) 0xF c.unit 1 w]) ∧
    (∃ c : Cmd, ∃ s : State, Sent 0x1602 c s ∧ notDataRing c.unit s = false ∧ (getRing c.unit s).consChannel = none ∧ c.u8 16 ≤ 3 ∧
      c.u8 17 ≤ 1 ∧ c.u8 18 ≤ 1 ∧ c.u8 19 < 64 ∧ (c.u16 20 = 0xFFFF ∨ bit (c.u8 21) 4 = false) ∧ ZeroBytes c.entry 48 64 ∧
      let cfg : StreamCfg := { port := c.u8 16, vdif := c.u8 17 == 1, ipv6 := c.u8 18 == 1, dscp := c.u8 19, vlan := c.u16 20, dstUdp := c.u16 22, dstMac := fld c.entry 24 6, srcUdp := c.u16 30, dstIp := fld c.entry 32 16 };
      frameBytes (getRing c.unit (planned (taken c s))) cfg ≤ 9216 ∧ let w : Write := .netStream c.unit (some cfg);
      RunsOn c s [member (ctxOf c s) 0xF c.unit 1 w]) ∧
    (∃ c : Cmd, ∃ s : State, Sent 0x1602 c s ∧ notDataRing c.unit s = false ∧ (getRing c.unit s).consChannel = none ∧ c.u8 16 ≤ 3 ∧
      c.u8 17 ≤ 1 ∧ c.u8 18 ≤ 1 ∧ c.u8 19 < 64 ∧ (c.u16 20 = 0xFFFF ∨ bit (c.u8 21) 4 = false) ∧ ZeroBytes c.entry 48 64 ∧
      let cfg : StreamCfg := { port := c.u8 16, vdif := c.u8 17 == 1, ipv6 := c.u8 18 == 1, dscp := c.u8 19, vlan := c.u16 20, dstUdp := c.u16 22, dstMac := fld c.entry 24 6, srcUdp := c.u16 30, dstIp := fld c.entry 32 16 };
      frameBytes (getRing c.unit (planned (taken c s))) cfg ≤ 9216 ∧ let w : Write := .netStream c.unit (some cfg);
      JoinsIt c s [member (ctxOf c s) 0xF c.unit 1 w]) ∧
    (∃ c : Cmd, ∃ s : State, Sent 0x1602 c s ∧ notDataRing c.unit s = false ∧ c.u8 16 = 0xFF ∧ c.u8 17 ≤ 1 ∧ c.u8 18 ≤ 1 ∧
      c.u8 19 < 64 ∧ (c.u16 20 = 0xFFFF ∨ bit (c.u8 21) 4 = false) ∧ ZeroBytes c.entry 48 64 ∧
      Lands c s [member (ctxOf c s) 0xF c.unit 1 (.netStream c.unit none)]) ∧
    (∃ c : Cmd, ∃ s : State, Sent 0x1602 c s ∧ notDataRing c.unit s = false ∧ c.u8 16 = 0xFF ∧ c.u8 17 ≤ 1 ∧ c.u8 18 ≤ 1 ∧
      c.u8 19 < 64 ∧ (c.u16 20 = 0xFFFF ∨ bit (c.u8 21) 4 = false) ∧ ZeroBytes c.entry 48 64 ∧
      RunsOn c s [member (ctxOf c s) 0xF c.unit 1 (.netStream c.unit none)]) ∧
    (∃ c : Cmd, ∃ s : State, Sent 0x1602 c s ∧ notDataRing c.unit s = false ∧ c.u8 16 = 0xFF ∧ c.u8 17 ≤ 1 ∧ c.u8 18 ≤ 1 ∧
      c.u8 19 < 64 ∧ (c.u16 20 = 0xFFFF ∨ bit (c.u8 21) 4 = false) ∧ ZeroBytes c.entry 48 64 ∧
      JoinsIt c s [member (ctxOf c s) 0xF c.unit 1 (.netStream c.unit none)]) ∧
    (∃ c : Cmd, ∃ s : State, Sent 0x1603 c s ∧ notDataRing c.unit s = false ∧ isPath (c.u16 16) = true ∧
      pathAbsent (c.u16 16) s = false ∧ (c.u8 18 = 2 ∨ c.u8 18 = 4 ∨ c.u8 18 = 8 ∨ c.u8 18 = 16) ∧ c.u16 20 ≤ 1023 ∧
      c.u32 24 % 8 = 0 ∧ 1 ≤ c.u16 28 ∧ c.u16 28 ≤ 32767 ∧ c.u8 31 ≤ 63 ∧ ZeroBytes c.entry 19 20 ∧ ZeroBytes c.entry 32 64 ∧
      (getRing c.unit s).entrySize = ceilDiv (32 + c.u32 24) 64 * 64 ∧
      let cfg : VdifCfg := { path := c.u16 16, bits := c.u8 18, thread := c.u16 20, station := c.u16 22, payload := c.u32 24, thresh := c.u16 28, leap := c.u8 30, refEpoch := c.u8 31 };
      0 < vdifSamples cfg ∧ 20480000000 % (outPeriod cfg.path (getDdc cfg.path (planned (taken c s))).decim * vdifSamples cfg) = 0 ∧
      Lands c s [member (ctxOf c s) 0xF c.unit 1 (.netVdif c.unit cfg)]) ∧
    (∃ c : Cmd, ∃ s : State, Sent 0x1603 c s ∧ notDataRing c.unit s = false ∧ isPath (c.u16 16) = true ∧
      pathAbsent (c.u16 16) s = false ∧ (c.u8 18 = 2 ∨ c.u8 18 = 4 ∨ c.u8 18 = 8 ∨ c.u8 18 = 16) ∧ c.u16 20 ≤ 1023 ∧
      c.u32 24 % 8 = 0 ∧ 1 ≤ c.u16 28 ∧ c.u16 28 ≤ 32767 ∧ c.u8 31 ≤ 63 ∧ ZeroBytes c.entry 19 20 ∧ ZeroBytes c.entry 32 64 ∧
      (getRing c.unit s).entrySize = ceilDiv (32 + c.u32 24) 64 * 64 ∧
      let cfg : VdifCfg := { path := c.u16 16, bits := c.u8 18, thread := c.u16 20, station := c.u16 22, payload := c.u32 24, thresh := c.u16 28, leap := c.u8 30, refEpoch := c.u8 31 };
      0 < vdifSamples cfg ∧ 20480000000 % (outPeriod cfg.path (getDdc cfg.path (planned (taken c s))).decim * vdifSamples cfg) = 0 ∧
      RunsOn c s [member (ctxOf c s) 0xF c.unit 1 (.netVdif c.unit cfg)]) ∧
    (∃ c : Cmd, ∃ s : State, Sent 0x1603 c s ∧ notDataRing c.unit s = false ∧ isPath (c.u16 16) = true ∧
      pathAbsent (c.u16 16) s = false ∧ (c.u8 18 = 2 ∨ c.u8 18 = 4 ∨ c.u8 18 = 8 ∨ c.u8 18 = 16) ∧ c.u16 20 ≤ 1023 ∧
      c.u32 24 % 8 = 0 ∧ 1 ≤ c.u16 28 ∧ c.u16 28 ≤ 32767 ∧ c.u8 31 ≤ 63 ∧ ZeroBytes c.entry 19 20 ∧ ZeroBytes c.entry 32 64 ∧
      (getRing c.unit s).entrySize = ceilDiv (32 + c.u32 24) 64 * 64 ∧
      let cfg : VdifCfg := { path := c.u16 16, bits := c.u8 18, thread := c.u16 20, station := c.u16 22, payload := c.u32 24, thresh := c.u16 28, leap := c.u8 30, refEpoch := c.u8 31 };
      0 < vdifSamples cfg ∧ 20480000000 % (outPeriod cfg.path (getDdc cfg.path (planned (taken c s))).decim * vdifSamples cfg) = 0 ∧
      JoinsIt c s [member (ctxOf c s) 0xF c.unit 1 (.netVdif c.unit cfg)]) :=
  ⟨⟨(cmd 0x1602 3 [(16, 3), (17, 0), (18, 1), (19, 63), (20, 65535), (22, 9)]), calm, by simp only [Sent, Lands, Alone, Admits, zeroBytes_iff]; decide +kernel⟩,
    ⟨(cmd 0x1602 3 [(16, 3), (17, 0), (18, 1), (19, 63), (20, 65535), (22, 9)]), busy, by simp only [Sent, RunsOn, Alone, zeroBytes_iff]; decide +kernel⟩,
    ⟨(joins 0x1602 3 [(16, 3), (17, 0), (18, 1), (19, 63), (20, 65535), (22, 9)]), opened, by simp only [Sent, JoinsIt, Joining, zeroBytes_iff]; decide +kernel⟩,
    ⟨(cmd 0x1602 3 [(16, 255), (20, 65535)]), calm, by simp only [Sent, Lands, Alone, Admits, zeroBytes_iff]; decide +kernel⟩,
    ⟨(cmd 0x1602 3 [(16, 255), (20, 65535)]), busy, by simp only [Sent, RunsOn, Alone, zeroBytes_iff]; decide +kernel⟩,
    ⟨(joins 0x1602 3 [(16, 255), (20, 65535)]), opened, by simp only [Sent, JoinsIt, Joining, zeroBytes_iff]; decide +kernel⟩,
    ⟨(cmd 0x1603 3 [(16, 0), (18, 16), (20, 1023), (24, 32), (28, 1), (31, 63)]), calm, by simp only [Sent, Lands, Alone, Admits, zeroBytes_iff]; decide +kernel⟩,
    ⟨(cmd 0x1603 3 [(16, 0), (18, 16), (20, 1023), (24, 32), (28, 1), (31, 63)]), busy, by simp only [Sent, RunsOn, Alone, zeroBytes_iff]; decide +kernel⟩,
    ⟨(joins 0x1603 3 [(16, 0), (18, 16), (20, 1023), (24, 32), (28, 1), (31, 63)]), opened, by simp only [Sent, JoinsIt, Joining, zeroBytes_iff]; decide +kernel⟩⟩

theorem met_display_configures :
    (∃ c : Cmd, ∃ s : State, Sent 0x1701 c s ∧ c.unit = 0 ∧ s.fuse.display = true ∧ c.u8 16 = 0 ∧ c.u8 40 < 4 ∧
      ZeroBytes c.entry 41 44 ∧ ZeroBytes c.entry 48 64 ∧ let cfg : ModeCfg := { background := c.u32 44 };
      Lands c s [member (ctxOf c s) 0xE 0 1 (.dispMode cfg)]) ∧
    (∃ c : Cmd, ∃ s : State, Sent 0x1701 c s ∧ c.unit = 0 ∧ s.fuse.display = true ∧ c.u8 16 = 0 ∧ c.u8 40 < 4 ∧
      ZeroBytes c.entry 41 44 ∧ ZeroBytes c.entry 48 64 ∧ let cfg : ModeCfg := { background := c.u32 44 };
      RunsOn c s [member (ctxOf c s) 0xE 0 1 (.dispMode cfg)]) ∧
    (∃ c : Cmd, ∃ s : State, Sent 0x1701 c s ∧ c.unit = 0 ∧ s.fuse.display = true ∧ c.u8 16 = 0 ∧ c.u8 40 < 4 ∧
      ZeroBytes c.entry 41 44 ∧ ZeroBytes c.entry 48 64 ∧ let cfg : ModeCfg := { background := c.u32 44 };
      JoinsIt c s [member (ctxOf c s) 0xE 0 1 (.dispMode cfg)]) ∧
    (∃ c : Cmd, ∃ s : State, ∃ rate, Sent 0x1701 c s ∧ c.unit = 0 ∧ s.fuse.display = true ∧ (c.u8 16 = 1 ∨ c.u8 16 = 2) ∧
      (c.u8 17 = 8 ∨ c.u8 17 = 10) ∧ (c.u8 18 = 1 ∨ c.u8 18 = 2 ∨ c.u8 18 = 4) ∧ c.u8 19 ≤ 3 ∧ 25000 ≤ c.u32 20 ∧
      c.u32 20 ≤ 600000 ∧ c.u16 24 ≤ 3840 ∧ c.u16 32 ≤ 2160 ∧ c.u8 40 < 4 ∧ ZeroBytes c.entry 41 44 ∧ ZeroBytes c.entry 48 64 ∧
      (∀ i, i < 4 → (tget {} (planned (taken c s)).disp.layers i).enable = true → let l := tget {} (planned (taken c s)).disp.layers i; l.x + l.w ≤ c.u16 24 ∧ l.y + l.h ≤ c.u16 32) ∧
      rateFor (c.u8 16) (c.u32 20) (c.u8 17) (c.u8 18) (c.u8 19) = some rate ∧
      let cfg : ModeCfg := { output := c.u8 16, bpc := c.u8 17, lanes := c.u8 18, rate := rate, pclk := c.u32 20, h := [c.u16 24, c.u16 26, c.u16 28, c.u16 30], v := [c.u16 32, c.u16 34, c.u16 36, c.u16 38], syncPol := c.u8 40, background := c.u32 44 };
      Lands c s [member (ctxOf c s) 0xE 0 1 (.dispMode cfg)]) ∧
    (∃ c : Cmd, ∃ s : State, ∃ rate, Sent 0x1701 c s ∧ c.unit = 0 ∧ s.fuse.display = true ∧ (c.u8 16 = 1 ∨ c.u8 16 = 2) ∧
      (c.u8 17 = 8 ∨ c.u8 17 = 10) ∧ (c.u8 18 = 1 ∨ c.u8 18 = 2 ∨ c.u8 18 = 4) ∧ c.u8 19 ≤ 3 ∧ 25000 ≤ c.u32 20 ∧
      c.u32 20 ≤ 600000 ∧ c.u16 24 ≤ 3840 ∧ c.u16 32 ≤ 2160 ∧ c.u8 40 < 4 ∧ ZeroBytes c.entry 41 44 ∧ ZeroBytes c.entry 48 64 ∧
      (∀ i, i < 4 → (tget {} (planned (taken c s)).disp.layers i).enable = true → let l := tget {} (planned (taken c s)).disp.layers i; l.x + l.w ≤ c.u16 24 ∧ l.y + l.h ≤ c.u16 32) ∧
      rateFor (c.u8 16) (c.u32 20) (c.u8 17) (c.u8 18) (c.u8 19) = some rate ∧
      let cfg : ModeCfg := { output := c.u8 16, bpc := c.u8 17, lanes := c.u8 18, rate := rate, pclk := c.u32 20, h := [c.u16 24, c.u16 26, c.u16 28, c.u16 30], v := [c.u16 32, c.u16 34, c.u16 36, c.u16 38], syncPol := c.u8 40, background := c.u32 44 };
      RunsOn c s [member (ctxOf c s) 0xE 0 1 (.dispMode cfg)]) ∧
    (∃ c : Cmd, ∃ s : State, ∃ rate, Sent 0x1701 c s ∧ c.unit = 0 ∧ s.fuse.display = true ∧ (c.u8 16 = 1 ∨ c.u8 16 = 2) ∧
      (c.u8 17 = 8 ∨ c.u8 17 = 10) ∧ (c.u8 18 = 1 ∨ c.u8 18 = 2 ∨ c.u8 18 = 4) ∧ c.u8 19 ≤ 3 ∧ 25000 ≤ c.u32 20 ∧
      c.u32 20 ≤ 600000 ∧ c.u16 24 ≤ 3840 ∧ c.u16 32 ≤ 2160 ∧ c.u8 40 < 4 ∧ ZeroBytes c.entry 41 44 ∧ ZeroBytes c.entry 48 64 ∧
      (∀ i, i < 4 → (tget {} (planned (taken c s)).disp.layers i).enable = true → let l := tget {} (planned (taken c s)).disp.layers i; l.x + l.w ≤ c.u16 24 ∧ l.y + l.h ≤ c.u16 32) ∧
      rateFor (c.u8 16) (c.u32 20) (c.u8 17) (c.u8 18) (c.u8 19) = some rate ∧
      let cfg : ModeCfg := { output := c.u8 16, bpc := c.u8 17, lanes := c.u8 18, rate := rate, pclk := c.u32 20, h := [c.u16 24, c.u16 26, c.u16 28, c.u16 30], v := [c.u16 32, c.u16 34, c.u16 36, c.u16 38], syncPol := c.u8 40, background := c.u32 44 };
      JoinsIt c s [member (ctxOf c s) 0xE 0 1 (.dispMode cfg)]) ∧
    (∃ c : Cmd, ∃ s : State, Sent 0x1702 c s ∧ c.unit = 0 ∧ s.fuse.display = true ∧ c.u8 16 ≤ 3 ∧ c.u8 18 ≤ 3 ∧
      (if c.u8 16 = 0 then c.u8 29 < 2 ∧ c.u16 30 < 256 else c.u8 29 < 8) ∧ ZeroBytes c.entry 52 64 ∧ c.u8 17 ≤ 1 ∧
      (c.u8 17 = 1 → if c.u8 16 = 0 then c.u8 28 ≤ 3 ∧ 1 ≤ c.u8 30 % 16 ∧ c.u8 30 % 16 ≤ 8 ∧ 1 ≤ c.u8 30 / 16 ∧ c.u8 30 / 16 ≤ 8 ∧ (c.u8 30 % 16 = 1 ∨ c.u8 30 / 16 = 1) ∧ (c.u8 29 % 2 = 1 ∨ c.u16 50 ≠ 0) else c.u8 28 ≤ 3 ∧ c.u8 29 % 4 ≠ 3 ∧ (c.u8 28 ≠ 0 → c.u16 24 % 2 = 0) ∧ (c.u8 28 = 1 ∨ c.u8 28 = 3 → c.u16 26 % 2 = 0) ∧ c.u16 30 % 256 = 0 ∧ c.u16 24 * sampleBytes (c.u8 28) ≤ c.u16 30 ∧ c.u64 32 % 4096 = 0 ∧ outOfPool (c.u64 32) s = false ∧ (c.u8 28 = 0 → c.u64 40 = 0) ∧ (c.u8 28 ≠ 0 → c.u64 40 % 4096 = 0 ∧ outOfPool (c.u64 40) s = false ∧ c.u16 48 % 256 = 0 ∧ c.u16 24 * sampleBytes (c.u8 28) ≤ c.u16 48)) ∧
      (c.u8 17 = 1 → let plan := planned (taken c s); (∀ i, i < 4 → i ≠ c.u8 16 → (tget {} plan.disp.layers i).enable = true → (tget {} plan.disp.layers i).z ≠ c.u8 18) ∧ (plan.disp.mode.output ≠ 0 → c.u16 20 + c.u16 24 ≤ plan.disp.mode.h.getD 0 0 ∧ c.u16 22 + c.u16 26 ≤ plan.disp.mode.v.getD 0 0)) ∧
      let cfg : LayerCfg := { enable := c.u8 17 == 1, z := c.u8 18, alpha := c.u8 19, x := c.u16 20, y := c.u16 22, w := c.u16 24, h := c.u16 26, format := c.u8 28, csc := c.u8 29, pitch := c.u16 30, base0 := c.u64 32, base1 := c.u64 40, pitch1 := c.u16 48, gain := c.u16 50 };
      Lands c s [member (ctxOf c s) 0xE 0 1 (.dispLayer (c.u8 16) cfg)]) ∧
    (∃ c : Cmd, ∃ s : State, Sent 0x1702 c s ∧ c.unit = 0 ∧ s.fuse.display = true ∧ c.u8 16 ≤ 3 ∧ c.u8 18 ≤ 3 ∧
      (if c.u8 16 = 0 then c.u8 29 < 2 ∧ c.u16 30 < 256 else c.u8 29 < 8) ∧ ZeroBytes c.entry 52 64 ∧ c.u8 17 ≤ 1 ∧
      (c.u8 17 = 1 → if c.u8 16 = 0 then c.u8 28 ≤ 3 ∧ 1 ≤ c.u8 30 % 16 ∧ c.u8 30 % 16 ≤ 8 ∧ 1 ≤ c.u8 30 / 16 ∧ c.u8 30 / 16 ≤ 8 ∧ (c.u8 30 % 16 = 1 ∨ c.u8 30 / 16 = 1) ∧ (c.u8 29 % 2 = 1 ∨ c.u16 50 ≠ 0) else c.u8 28 ≤ 3 ∧ c.u8 29 % 4 ≠ 3 ∧ (c.u8 28 ≠ 0 → c.u16 24 % 2 = 0) ∧ (c.u8 28 = 1 ∨ c.u8 28 = 3 → c.u16 26 % 2 = 0) ∧ c.u16 30 % 256 = 0 ∧ c.u16 24 * sampleBytes (c.u8 28) ≤ c.u16 30 ∧ c.u64 32 % 4096 = 0 ∧ outOfPool (c.u64 32) s = false ∧ (c.u8 28 = 0 → c.u64 40 = 0) ∧ (c.u8 28 ≠ 0 → c.u64 40 % 4096 = 0 ∧ outOfPool (c.u64 40) s = false ∧ c.u16 48 % 256 = 0 ∧ c.u16 24 * sampleBytes (c.u8 28) ≤ c.u16 48)) ∧
      (c.u8 17 = 1 → let plan := planned (taken c s); (∀ i, i < 4 → i ≠ c.u8 16 → (tget {} plan.disp.layers i).enable = true → (tget {} plan.disp.layers i).z ≠ c.u8 18) ∧ (plan.disp.mode.output ≠ 0 → c.u16 20 + c.u16 24 ≤ plan.disp.mode.h.getD 0 0 ∧ c.u16 22 + c.u16 26 ≤ plan.disp.mode.v.getD 0 0)) ∧
      let cfg : LayerCfg := { enable := c.u8 17 == 1, z := c.u8 18, alpha := c.u8 19, x := c.u16 20, y := c.u16 22, w := c.u16 24, h := c.u16 26, format := c.u8 28, csc := c.u8 29, pitch := c.u16 30, base0 := c.u64 32, base1 := c.u64 40, pitch1 := c.u16 48, gain := c.u16 50 };
      RunsOn c s [member (ctxOf c s) 0xE 0 1 (.dispLayer (c.u8 16) cfg)]) ∧
    (∃ c : Cmd, ∃ s : State, Sent 0x1702 c s ∧ c.unit = 0 ∧ s.fuse.display = true ∧ c.u8 16 ≤ 3 ∧ c.u8 18 ≤ 3 ∧
      (if c.u8 16 = 0 then c.u8 29 < 2 ∧ c.u16 30 < 256 else c.u8 29 < 8) ∧ ZeroBytes c.entry 52 64 ∧ c.u8 17 ≤ 1 ∧
      (c.u8 17 = 1 → if c.u8 16 = 0 then c.u8 28 ≤ 3 ∧ 1 ≤ c.u8 30 % 16 ∧ c.u8 30 % 16 ≤ 8 ∧ 1 ≤ c.u8 30 / 16 ∧ c.u8 30 / 16 ≤ 8 ∧ (c.u8 30 % 16 = 1 ∨ c.u8 30 / 16 = 1) ∧ (c.u8 29 % 2 = 1 ∨ c.u16 50 ≠ 0) else c.u8 28 ≤ 3 ∧ c.u8 29 % 4 ≠ 3 ∧ (c.u8 28 ≠ 0 → c.u16 24 % 2 = 0) ∧ (c.u8 28 = 1 ∨ c.u8 28 = 3 → c.u16 26 % 2 = 0) ∧ c.u16 30 % 256 = 0 ∧ c.u16 24 * sampleBytes (c.u8 28) ≤ c.u16 30 ∧ c.u64 32 % 4096 = 0 ∧ outOfPool (c.u64 32) s = false ∧ (c.u8 28 = 0 → c.u64 40 = 0) ∧ (c.u8 28 ≠ 0 → c.u64 40 % 4096 = 0 ∧ outOfPool (c.u64 40) s = false ∧ c.u16 48 % 256 = 0 ∧ c.u16 24 * sampleBytes (c.u8 28) ≤ c.u16 48)) ∧
      (c.u8 17 = 1 → let plan := planned (taken c s); (∀ i, i < 4 → i ≠ c.u8 16 → (tget {} plan.disp.layers i).enable = true → (tget {} plan.disp.layers i).z ≠ c.u8 18) ∧ (plan.disp.mode.output ≠ 0 → c.u16 20 + c.u16 24 ≤ plan.disp.mode.h.getD 0 0 ∧ c.u16 22 + c.u16 26 ≤ plan.disp.mode.v.getD 0 0)) ∧
      let cfg : LayerCfg := { enable := c.u8 17 == 1, z := c.u8 18, alpha := c.u8 19, x := c.u16 20, y := c.u16 22, w := c.u16 24, h := c.u16 26, format := c.u8 28, csc := c.u8 29, pitch := c.u16 30, base0 := c.u64 32, base1 := c.u64 40, pitch1 := c.u16 48, gain := c.u16 50 };
      JoinsIt c s [member (ctxOf c s) 0xE 0 1 (.dispLayer (c.u8 16) cfg)]) ∧
    (∃ c : Cmd, ∃ s : State, Sent 0x1703 c s ∧ c.unit = 0 ∧ s.fuse.display = true ∧ ZeroBytes c.entry 16 24 ∧
      ZeroBytes c.entry 32 64 ∧ let entries := readU32s s.host (c.u64 24) 256;
      Lands c s [member (ctxOf c s) 0xE 0 1 (.dispPalette entries)]) ∧
    (∃ c : Cmd, ∃ s : State, Sent 0x1703 c s ∧ c.unit = 0 ∧ s.fuse.display = true ∧ ZeroBytes c.entry 16 24 ∧
      ZeroBytes c.entry 32 64 ∧ let entries := readU32s s.host (c.u64 24) 256;
      RunsOn c s [member (ctxOf c s) 0xE 0 1 (.dispPalette entries)]) ∧
    (∃ c : Cmd, ∃ s : State, Sent 0x1703 c s ∧ c.unit = 0 ∧ s.fuse.display = true ∧ ZeroBytes c.entry 16 24 ∧
      ZeroBytes c.entry 32 64 ∧ let entries := readU32s s.host (c.u64 24) 256;
      JoinsIt c s [member (ctxOf c s) 0xE 0 1 (.dispPalette entries)]) ∧
    (∃ c : Cmd, ∃ s : State, Sent 0x1705 c s ∧ c.unit = 0 ∧ s.fuse.display = true ∧ c.u8 16 ≤ 2 ∧ 2 ≤ c.u8 17 ∧
      ZeroBytes c.entry 18 64 ∧ (planned (taken c s)).disp.mode.output = 2 ∧
      Lands c s [member (ctxOf c s) 0xE 0 1 (.dispPsr (c.u8 16) (c.u8 17))]) ∧
    (∃ c : Cmd, ∃ s : State, Sent 0x1705 c s ∧ c.unit = 0 ∧ s.fuse.display = true ∧ c.u8 16 ≤ 2 ∧ 2 ≤ c.u8 17 ∧
      ZeroBytes c.entry 18 64 ∧ (planned (taken c s)).disp.mode.output = 2 ∧
      RunsOn c s [member (ctxOf c s) 0xE 0 1 (.dispPsr (c.u8 16) (c.u8 17))]) ∧
    (∃ c : Cmd, ∃ s : State, Sent 0x1705 c s ∧ c.unit = 0 ∧ s.fuse.display = true ∧ c.u8 16 ≤ 2 ∧ 2 ≤ c.u8 17 ∧
      ZeroBytes c.entry 18 64 ∧ (planned (taken c s)).disp.mode.output = 2 ∧
      JoinsIt c s [member (ctxOf c s) 0xE 0 1 (.dispPsr (c.u8 16) (c.u8 17))]) :=
  ⟨⟨(cmd 0x1701 0 [(40, 3), (44, 1)]), calm, by simp only [Sent, Lands, Alone, Admits, zeroBytes_iff]; decide +kernel⟩,
    ⟨(cmd 0x1701 0 [(40, 3), (44, 1)]), busy, by simp only [Sent, RunsOn, Alone, zeroBytes_iff]; decide +kernel⟩,
    ⟨(joins 0x1701 0 [(40, 3), (44, 1)]), opened, by simp only [Sent, JoinsIt, Joining, zeroBytes_iff]; decide +kernel⟩,
    ⟨(cmd 0x1701 0 [(16, 1), (17, 8), (18, 4), (19, 3), (20, 148500), (24, 1920), (26, 88), (28, 44), (30, 148), (32, 1080), (34, 4), (36, 5), (38, 36)]), calm, 1620, by simp only [Sent, Lands, Alone, Admits, zeroBytes_iff]; decide +kernel⟩,
    ⟨(cmd 0x1701 0 [(16, 1), (17, 8), (18, 4), (19, 3), (20, 148500), (24, 1920), (26, 88), (28, 44), (30, 148), (32, 1080), (34, 4), (36, 5), (38, 36)]), busy, 1620, by simp only [Sent, RunsOn, Alone, zeroBytes_iff]; decide +kernel⟩,
    ⟨(joins 0x1701 0 [(16, 1), (17, 8), (18, 4), (19, 3), (20, 148500), (24, 1920), (26, 88), (28, 44), (30, 148), (32, 1080), (34, 4), (36, 5), (38, 36)]), opened, 1620, by simp only [Sent, JoinsIt, Joining, zeroBytes_iff]; decide +kernel⟩,
    ⟨(cmd 0x1702 0 [(16, 3), (17, 1), (18, 3), (24, 64), (26, 64), (30, 256)]), calm, by simp only [Sent, Lands, Alone, Admits, zeroBytes_iff]; refine ⟨?_, ?_, ?_, ?_, ?_, ?_, ?_, ?_, ?_, ?_, ?_⟩ <;> decide +kernel⟩,
    ⟨(cmd 0x1702 0 [(16, 3), (17, 1), (18, 3), (24, 64), (26, 64), (30, 256)]), busy, by simp only [Sent, RunsOn, Alone, zeroBytes_iff]; refine ⟨?_, ?_, ?_, ?_, ?_, ?_, ?_, ?_, ?_, ?_, ?_⟩ <;> decide +kernel⟩,
    ⟨(joins 0x1702 0 [(16, 3), (17, 1), (18, 3), (24, 64), (26, 64), (30, 256)]), opened, by simp only [Sent, JoinsIt, Joining, zeroBytes_iff]; refine ⟨?_, ?_, ?_, ?_, ?_, ?_, ?_, ?_, ?_, ?_, ?_⟩ <;> decide +kernel⟩,
    ⟨(cmd 0x1703 0 [(24, 64)]), calm, by simp only [Sent, Lands, Alone, Admits, zeroBytes_iff]; decide +kernel⟩,
    ⟨(cmd 0x1703 0 [(24, 64)]), busy, by simp only [Sent, RunsOn, Alone, zeroBytes_iff]; decide +kernel⟩,
    ⟨(joins 0x1703 0 [(24, 64)]), opened, by simp only [Sent, JoinsIt, Joining, zeroBytes_iff]; decide +kernel⟩,
    ⟨(cmd 0x1705 0 [(16, 2), (17, 2)]), { calm with bunch := { deferred := [({ ring := 0, index := 0, tag := 0, opcode := 0x1701, quiet := false }, [{ claim := { cls := 0xE, inst := 0 }, write := .dispMode { output := 2 }, weight := 1, opcode := 0x1701, tag := 0, landed := false }])] } }, by simp only [Sent, Lands, Alone, Admits, zeroBytes_iff]; decide +kernel⟩,
    ⟨(cmd 0x1705 0 [(16, 2), (17, 2)]), busy, by simp only [Sent, RunsOn, Alone, zeroBytes_iff]; decide +kernel⟩,
    ⟨(joins 0x1705 0 [(16, 2), (17, 2)]), { opened with disp := busy.disp }, by simp only [Sent, JoinsIt, Joining, zeroBytes_iff]; decide +kernel⟩⟩

theorem met_power_up_events :
    (∃ t : DT, ∃ s : State, let u := advance t s; u.stone.porN = false) ∧
    (∃ t : DT, ∃ s : State, let u := advance t s; u.stone.porN = true ∧ u.stone.hold = .none ∧ u.stone.stage = .power ∧
      u.stone.fusesValid = false) ∧
    (∃ t : DT, ∃ s : State, let u := advance t s; u.stone.porN = true ∧ u.stone.hold = .none ∧ u.stone.stage = .power ∧
      u.stone.fusesValid = true) ∧
    (∃ t : DT, ∃ s : State, let u := advance t s; u.stone.stage = .wipeSram) ∧
    (∃ t : DT, ∃ s : State, let u := advance t s; downloading u = true ∧ u.stone.dramFill = false ∧ u.stone.dramWiped = false) ∧
    (∃ t : DT, ∃ s : State, let u := advance t s; downloading u = true ∧ u.stone.dramFill = true) ∧
    (∃ t : DT, ∃ s : State, let u := advance t s; u.stone.stage = .verify) ∧
    (∃ t : DT, ∃ s : State, let u := advance t s; u.stone.stage = .waitDram ∧ u.stone.dramWiped = true) ∧
    (∃ t : DT, ∃ s : State, let u := advance t s; u.stone.stage = .start) ∧
    (∃ t : DT, ∃ s : State, let u := advance t s; u.stone.stage = .start ∧ 500 * tkMs ≤ dtSub u.dt u.stone.startAt) ∧
    (∃ t : DT, ∃ s : State, let u := advance t s; u.stone.perstN = false) ∧
    (∃ t : DT, ∃ s : State, let u := advance t s; u.stone.porN = true ∧ u.stone.hold = .none) ∧
    (∃ t : DT, ∃ s : State, let u := advance t s; u.stone.hold = .undervoltage) ∧
    (∃ t : DT, ∃ s : State, let u := advance t s; u.stone.hold = .thermal ∧ 10 * tkS ≤ dtSub u.dt u.stone.seqStart) :=
  ⟨⟨second, { calm with stone := { calm.stone with porN := false } }, by decide +kernel⟩,
    ⟨second, { calm with stone := { calm.stone with stage := .power, fusesValid := false } }, by decide +kernel⟩,
    ⟨second, { calm with stone := { calm.stone with stage := .power, fusesValid := true } }, by decide +kernel⟩,
    ⟨second, { calm with stone := { calm.stone with stage := .wipeSram } }, by decide +kernel⟩,
    ⟨second, { calm with stone := { calm.stone with stage := .waitImage, dramWiped := false } }, by decide +kernel⟩,
    ⟨second, { calm with stone := { calm.stone with stage := .verify, dramFill := true } }, by decide +kernel⟩,
    ⟨second, { calm with stone := { calm.stone with stage := .verify } }, by decide +kernel⟩,
    ⟨second, { calm with stone := { calm.stone with stage := .waitDram } }, by decide +kernel⟩,
    ⟨second, { calm with stone := { calm.stone with stage := .start } }, by decide +kernel⟩,
    ⟨second, { calm with stone := { calm.stone with stage := .start } }, by decide +kernel⟩,
    ⟨second, { calm with stone := { calm.stone with perstN := false } }, by decide +kernel⟩,
    ⟨second, calm, by decide +kernel⟩,
    ⟨second, { calm with stone := { calm.stone with hold := .undervoltage } }, by decide +kernel⟩,
    ⟨10 * second, { calm with stone := { calm.stone with hold := .thermal } }, by decide +kernel⟩⟩

theorem met_host_accesses :
    (∃ t : DT, ∃ s : State, ∃ v : U32, let u := advance t s; bar0Serves u = true ∧ bit v.toNat 8 = true) ∧
    (∃ t : DT, ∃ s : State, ∃ v : U32, let u := advance t s; bar0Serves u = true ∧ bit v.toNat 8 = false) ∧
    (∃ t : DT, ∃ s : State, let u := advance t s; bar0Serves u = true) ∧
    (∃ t : DT, ∃ s : State, ∃ offset, ∃ width, let u := advance t s; bar0Serves u = true ∧
      (width ≠ 4 ∨ offset % 4 ≠ 0 ∨ (0x30 < offset ∧ offset < 0x8000) ∨ 0xFFFC < offset)) ∧
    (∃ t : DT, ∃ s : State, ∃ n, let u := advance t s; bar0Serves u = true ∧ let r := getRing n u;
      (u.stone.stage ≠ .ready ∨ (bellChannel n u = none ∧ r.created = false))) ∧
    (∃ t : DT, ∃ s : State, ∃ n, let u := advance t s; bar0Serves u = true ∧ let r := getRing n u; u.stone.stage = .ready ∧
      bellChannel n u = none ∧ r.created = true ∧ r.stopped = true) ∧
    (∃ t : DT, ∃ s : State, ∃ n, let u := advance t s; bar0Serves u = true ∧ let r := getRing n u; u.stone.stage = .ready ∧
      bellChannel n u = none ∧ r.created = true ∧ r.stopped = false ∧ hostProduces r = true) ∧
    (∃ t : DT, ∃ s : State, ∃ n, let u := advance t s; bar0Serves u = true ∧ let r := getRing n u; u.stone.stage = .ready ∧
      bellChannel n u = none ∧ r.created = true ∧ r.stopped = false ∧ hostProduces r = false ∧ r.stream = none ∧
      r.kind ≠ .completion) ∧
    (∃ t : DT, ∃ s : State, ∃ n, ∃ k, let u := advance t s; bar0Serves u = true ∧ u.stone.stage = .ready ∧ bellChannel n u = some k) ∧
    (∃ t : DT, ∃ s : State, let u := advance t s; bar0Serves u = true ∧ asleep u = false ∧ u.stone.sramWiped = false) ∧
    (∃ t : DT, ∃ s : State, ∃ offset, let u := advance t s; bar0Serves u = true ∧ asleep u = false ∧ u.stone.sramWiped = true ∧
      u.stone.stage = .waitImage ∧ u.stone.src ≠ .spi ∧ offset < 0x800000) ∧
    (∃ t : DT, ∃ s : State, ∃ offset, let u := advance t s; bar0Serves u = true ∧ asleep u = false ∧ u.stone.sramWiped = true ∧
      u.stone.stage ≠ .waitImage ∧ offset < 0x800000) ∧
    (∃ t : DT, ∃ s : State, ∃ offset, ∃ bytes : List Byte, let u := advance t s; bar0Serves u = true ∧ asleep u = false ∧
      u.stone.sramWiped = true ∧ 0x800000 ≤ offset ∧ offset + bytes.length ≤ 0xFF0000) ∧
    (∃ t : DT, ∃ s : State, ∃ offset, ∃ len, let u := advance t s; bar0Serves u = true ∧ asleep u = false ∧
      let a := u.pcie.windowBase + offset; a + len ≤ hostDram u ∧ u.stone.dramWiped = true ∧ dramStalled u = false ∧
      poisonedIn a len u = false) ∧
    (∃ t : DT, ∃ s : State, ∃ offset, ∃ len, let u := advance t s; bar0Serves u = true ∧ asleep u = false ∧
      let a := u.pcie.windowBase + offset; a + len ≤ hostDram u ∧ u.stone.dramWiped = true ∧ dramStalled u = false ∧
      poisonedIn a len u = true) ∧
    (∃ t : DT, ∃ s : State, ∃ offset, ∃ bytes : List Byte, let u := advance t s; bar0Serves u = true ∧ asleep u = false ∧
      let a := u.pcie.windowBase + offset; a + bytes.length ≤ hostDram u ∧ u.stone.dramWiped = true ∧ dramStalled u = false) ∧
    (∃ t : DT, ∃ s : State, ∃ offset, ∃ len, let u := advance t s; bar0Serves u = true ∧ asleep u = false ∧
      let a := u.pcie.windowBase + offset; a + len ≤ hostDram u ∧ u.stone.dramWiped = false) ∧
    (∃ t : DT, ∃ s : State, ∃ offset, ∃ bytes : List Byte, let u := advance t s; bar0Serves u = true ∧ asleep u = false ∧
      let a := u.pcie.windowBase + offset; a + bytes.length ≤ hostDram u ∧ u.stone.dramWiped = false) ∧
    (∃ t : DT, ∃ s : State, ∃ offset, ∃ len, let u := advance t s; bar0Serves u = true ∧ asleep u = false ∧
      let a := u.pcie.windowBase + offset; hostDram u < a + len) ∧
    (∃ t : DT, ∃ s : State, ∃ offset, ∃ bytes : List Byte, let u := advance t s; bar0Serves u = true ∧ asleep u = false ∧
      let a := u.pcie.windowBase + offset; hostDram u < a + bytes.length) :=
  ⟨⟨second, calm, 0xA5000100, by decide +kernel⟩,
    ⟨second, calm, 0xFF, by decide +kernel⟩,
    ⟨second, calm, by decide +kernel⟩,
    ⟨second, calm, 0x10, 2, by decide +kernel⟩,
    ⟨second, calm, 9, by decide +kernel⟩,
    ⟨second, { calm with rings := tmod {} calm.rings 3 fun r => { r with stopped := true } }, 3, by decide +kernel⟩,
    ⟨second, calm, 0, by decide +kernel⟩,
    ⟨second, calm, 3, by decide +kernel⟩,
    ⟨second, { calm with dma := { calm.dma with channels := [(0, { isSet := true, doorbell := 9 })] } }, 9, 0, by decide +kernel⟩,
    ⟨second, { calm with stone := { calm.stone with sramWiped := false } }, by decide +kernel⟩,
    ⟨second, { calm with stone := { calm.stone with stage := .waitImage } }, 0x7FFFFF, by decide +kernel⟩,
    ⟨second, calm, 0x7FFFFF, by decide +kernel⟩,
    ⟨second, calm, 0xFEFFFF, [1], by decide +kernel⟩,
    ⟨second, calm, hostDram calm - 1, 1, by decide +kernel⟩,
    ⟨second, { calm with memCtl := { calm.memCtl with poisoned := [8] } }, 8, 1, by decide +kernel⟩,
    ⟨second, calm, hostDram calm - 1, [1], by decide +kernel⟩,
    ⟨second, { calm with stone := { calm.stone with dramWiped := false } }, 0, 1, by decide +kernel⟩,
    ⟨second, { calm with stone := { calm.stone with dramWiped := false } }, 0, [1], by decide +kernel⟩,
    ⟨second, calm, hostDram calm, 1, by decide +kernel⟩,
    ⟨second, calm, hostDram calm, [1], by decide +kernel⟩⟩

theorem met_boot_spi :
    (∃ t : DT, ∃ s : State, ∃ bytes : List Byte, let u := advance t s; u.stone.porN = true ∧ u.stone.stage = .waitImage ∧
      u.stone.spiEnable = true ∧ 4 ≤ bytes.length ∧ u.stone.src = .pcie) ∧
    (∃ t : DT, ∃ s : State, ∃ bytes : List Byte, let u := advance t s; u.stone.porN = true ∧ u.stone.stage = .waitImage ∧
      u.stone.spiEnable = true ∧ 4 ≤ bytes.length ∧ u.stone.src ≠ .pcie) ∧
    (∃ t : DT, ∃ s : State, ∃ bytes : List Byte, let u := advance t s; u.stone.porN = true ∧ u.stone.stage = .waitImage ∧
      u.stone.spiEnable = true ∧ bytes.length = 4) ∧
    (∃ t : DT, ∃ s : State, let u := advance t s; u.stone.porN = true ∧ u.stone.stage = .waitImage ∧ u.stone.spiEnable = true) ∧
    (∃ t : DT, ∃ s : State, ∃ bytes : List Byte, let u := advance t s; u.stone.porN = true ∧
      (u.stone.stage ≠ .waitImage ∨ u.stone.spiEnable = false) ∧ 4 ≤ bytes.length) ∧
    (∃ t : DT, ∃ s : State, ∃ bytes : List Byte, let u := advance t s; u.stone.porN = true ∧
      (u.stone.stage ≠ .waitImage ∨ u.stone.spiEnable = false) ∧ bytes.length = 4) ∧
    (∃ t : DT, ∃ s : State, let u := advance t s; u.stone.porN = true ∧ (u.stone.stage ≠ .waitImage ∨ u.stone.spiEnable = false)) ∧
    (∃ t : DT, ∃ s : State, let u := advance t s; u.stone.porN = true) ∧
    (∃ t : DT, ∃ s : State, ∃ bytes : List Byte, let u := advance t s; u.stone.porN = true ∧ bytes ≠ []) ∧
    (∃ t : DT, ∃ s : State, ∃ bytes : List Byte, let u := advance t s; u.stone.porN = true ∧ bytes.length ≠ 4) ∧
    (∃ t : DT, ∃ s : State, ∃ bytes : List Byte, let u := advance t s; u.stone.porN = true ∧ bytes.length < 4) ∧
    (∃ t : DT, ∃ s : State, ∃ first : Byte, let u := advance t s; u.stone.porN = true ∧ first ≠ 0x02 ∧ first ≠ 0x0B ∧
      first ≠ 0x05 ∧ first ≠ 0x31 ∧ first ≠ 0x3A ∧ first ≠ 0x3B) :=
  ⟨⟨second, { calm with stone := { calm.stone with stage := .waitImage, src := .pcie } }, [0, 0, 0, 1], by decide +kernel⟩,
    ⟨second, { calm with stone := { calm.stone with stage := .waitImage } }, [0, 0, 0, 1], by decide +kernel⟩,
    ⟨second, { calm with stone := { calm.stone with stage := .waitImage } }, [0, 0, 0, 1], by decide +kernel⟩,
    ⟨second, { calm with stone := { calm.stone with stage := .waitImage } }, by decide +kernel⟩,
    ⟨second, calm, [0, 0, 0, 1], by decide +kernel⟩,
    ⟨second, calm, [0, 0, 0, 1], by decide +kernel⟩,
    ⟨second, calm, by decide +kernel⟩,
    ⟨second, { calm with stone := { calm.stone with stage := .waitImage } }, by decide +kernel⟩,
    ⟨second, { calm with stone := { calm.stone with stage := .waitImage } }, [1], by decide +kernel⟩,
    ⟨second, { calm with stone := { calm.stone with stage := .waitImage } }, [1, 2, 3], by decide +kernel⟩,
    ⟨second, calm, [1, 2, 3], by decide +kernel⟩,
    ⟨second, { calm with stone := { calm.stone with stage := .waitImage } }, 0x03, by decide +kernel⟩⟩

theorem met_bunch_events :
    (∃ t : DT, ∃ s : State, let u := advance t s; u.dt.toNat % 20480 = 0 ∧ u.steward.running = true ∧ u.bunch.retries = [] ∧
      u.steward.handover = none ∧ u.bunch.staged = []) ∧
    (∃ t : DT, ∃ s : State, ∃ g, let u := advance t s; u.dt.toNat % 20480 = 0 ∧ u.steward.running = true ∧ u.bunch.retries = [] ∧
      u.steward.handover = none ∧ u.bunch.staged = [g] ∧ (getBunch g.id u).direct = none ∧ (getBunch g.id u).retry = false ∧
      let empty := { u with bunch := { u.bunch with staged := [] } };
      let joined := modBunch g.id (fun b => { b with members := b.members ++ g.members }) empty; holderAgainst g u = none ∧
      admission (planned empty) (planned joined) (g.members.map (·.write)) = none) ∧
    (∃ t : DT, ∃ s : State, ∃ g, ∃ h, ∃ first, ∃ rest, let u := advance t s; u.dt.toNat % 20480 = 0 ∧ u.steward.running = true ∧
      u.bunch.retries = [] ∧ u.steward.handover = none ∧ u.bunch.staged = [g] ∧ (getBunch g.id u).direct = none ∧
      (getBunch g.id u).retry = false ∧ holderAgainst g u = some h ∧ g.members = first :: rest ∧ g.ref ≠ none) ∧
    (∃ t : DT, ∃ s : State, ∃ id : Nat, let u := advance t s; let b := getBunch id u; b.state = .arming ∧ b.direct = none ∧
      b.retry = false ∧ u.steward.running = true ∧ (∀ g ∈ u.bunch.staged, g.id ≠ id)) ∧
    (∃ t : DT, ∃ s : State, ∃ id : Nat, let u := advance t s; let b := getBunch id u; b.state = .armed ∧
      startable (b.members.map (·.write)) u = true ∧ (∀ m ∈ b.members, blockRuns m.write u = true) ∧ b.anchor = none ∧
      dtLe b.point u.dt = true) ∧
    (∃ t : DT, ∃ s : State, ∃ id : Nat, ∃ c, ∃ at_, let u := advance t s; let b := getBunch id u; b.state = .armed ∧
      startable (b.members.map (·.write)) u = true ∧ (∀ m ∈ b.members, blockRuns m.write u = true) ∧ b.anchor = some c ∧
      unitPoint b c u = some at_) ∧
    (∃ t : DT, ∃ s : State, ∃ id : Nat, ∃ m, let u := advance t s; let b := getBunch id u; b.state = .armed ∧
      startable (b.members.map (·.write)) u = true ∧ b.members = [m] ∧ blockRuns m.write u = false ∧ b.anchor = none ∧
      dtLe b.point u.dt = true) ∧
    (∃ t : DT, ∃ s : State, ∃ id : Nat, ∃ i, ∃ m, ∃ at_, let u := advance t s; let b := getBunch id u; b.members[i]? = some m ∧
      b.state = .landing ∧ memberWaits b i m u = false ∧ memberAt b.point m u = some at_) ∧
    (∃ t : DT, ∃ s : State, ∃ id : Nat, let u := advance t s; let b := getBunch id u; b.state = .opened ∧
      u.steward.running = true ∧ b.timeoutMs * tkMs ≤ dtSub u.dt b.openedAt ∧ b.direct = none ∧ b.retry = false ∧
      (∀ g ∈ u.bunch.staged, g.id ≠ id)) ∧
    (∃ t : DT, ∃ s : State, ∃ d, let u := advance t s; d ∈ u.power.starting) :=
  ⟨⟨second, calm, by decide +kernel⟩,
    ⟨second, { opened with bunch := { opened.bunch with staged := [stagedWindow] } }, stagedWindow, by decide +kernel⟩,
    ⟨second, { calm with bunch := { table := [(0, { state := .opened }), (1, { state := .armed, members := [windowMember] })], staged := [{ stagedWindow with ref := some { ring := 0, index := 0, tag := 0, opcode := 0x0902, quiet := false } }] } },
      { stagedWindow with ref := some { ring := 0, index := 0, tag := 0, opcode := 0x0902, quiet := false } }, .pf0, windowMember, [], by decide +kernel⟩,
    ⟨second, { calm with bunch := { table := [(63, { state := .arming })] } }, 63, by decide +kernel⟩,
    ⟨second, holding { state := .armed, members := [windowMember] } busy, 63, by decide +kernel⟩,
    ⟨second, holding { state := .armed, members := [detectMember], anchor := some { cls := 2, inst := 0 } } busy, 63, { cls := 2, inst := 0 }, second, by decide +kernel⟩,
    ⟨second, holding { state := .armed, members := [windowMember] } calm, 63, windowMember, by decide +kernel⟩,
    ⟨second, holding { state := .landing, members := [{ windowMember with atRest := true }] } calm, 63, 0, { windowMember with atRest := true }, 0, by decide +kernel⟩,
    ⟨second, holding { state := .opened, timeoutMs := 1000 } calm, 63, by decide +kernel⟩,
    ⟨second, { calm with power := { calm.power with starting := [.display] } }, .display, by decide +kernel⟩⟩

theorem met_clock_events :
    (∃ t : DT, ∃ s : State, ∃ n, let u := advance t s; let p := getPll n u; p.relocking = true ∧ p.locked = false ∧
      lockTurn n u = true) ∧
    (∃ t : DT, ∃ s : State, ∃ n, ∃ k, let u := advance t s; let p := getPll n u; p.relocking = true ∧ p.locked = false ∧
      lockTurn n u = true ∧ k ≠ n) ∧
    (∃ t : DT, ∃ s : State, ∃ n, ∃ since, let u := advance t s; let p := getPll n u; p.absent = some since ∧ p.locked = true ∧
      let v := event 0x0402 0 n [(16, 1, n), (17, 1, b2n p.hop), (18, 1, b2n p.xtal), (24, 8, since.toNat)] (modPll n (fun p => { p with absent := none, bypass := false, relocking := false }) u);
      n = 3 ∧ v.clock.relock = none) ∧
    (∃ t : DT, ∃ s : State, ∃ n, ∃ since, let u := advance t s; let p := getPll n u; p.absent = some since ∧ p.locked = true ∧
      let v := event 0x0402 0 n [(16, 1, n), (17, 1, b2n p.hop), (18, 1, b2n p.xtal), (24, 8, since.toNat)] (modPll n (fun p => { p with absent := none, bypass := false, relocking := false }) u);
      n = 2 ∧ v.clock.relock = none) ∧
    (∃ t : DT, ∃ s : State, ∃ n, ∃ since, let u := advance t s; let p := getPll n u; p.absent = some since ∧ p.locked = true ∧
      let v := event 0x0402 0 n [(16, 1, n), (17, 1, b2n p.hop), (18, 1, b2n p.xtal), (24, 8, since.toNat)] (modPll n (fun p => { p with absent := none, bypass := false, relocking := false }) u);
      n = 1 ∧ v.clock.relock = none) ∧
    (∃ t : DT, ∃ s : State, ∃ n, ∃ since, let u := advance t s; let p := getPll n u; p.absent = some since ∧ p.locked = true ∧
      let v := event 0x0402 0 n [(16, 1, n), (17, 1, b2n p.hop), (18, 1, b2n p.xtal), (24, 8, since.toNat)] (modPll n (fun p => { p with absent := none, bypass := false, relocking := false }) u);
      n = 0 ∧ (planeBack v).clock.relock = none ∧ (planeBack v).clock.skewWaiting = []) ∧
    (∃ t : DT, ∃ s : State, ∃ n, ∃ since, let u := advance t s; let p := getPll n u; p.absent = some since ∧ p.locked = true ∧
      n ≤ 3) ∧
    (∃ t : DT, ∃ s : State, ∃ n, let u := advance t s; let p := getPll n u; p.absent = none ∧ p.locked = true ∧ n ≠ 0) ∧
    (∃ t : DT, ∃ s : State, ∃ n, let u := advance t s; let p := getPll n u; p.locked = true ∧
      (p.absent.isSome = true ∨ p.relocking = true)) ∧
    (∃ t : DT, ∃ s : State, ∃ n, let u := advance t s; let p := getPll n u; p.locked = true ∧ p.absent = none ∧ p.relocking = false) ∧
    (∃ t : DT, ∃ s : State, let u := advance t s; u.clock.refOk = true ∧
      let v := event 0x0403 3 0xFFFF [] { u with clock := { u.clock with refOk := false } }; (∀ n, n < 4 → (getPll n v).xtal = true)) ∧
    (∃ t : DT, ∃ s : State, let u := advance t s; u.clock.refOk = true ∧
      let v := event 0x0403 3 0xFFFF [] { u with clock := { u.clock with refOk := false } };
      (∃ n, n < 4 ∧ (getPll n v).xtal = false)) ∧
    (∃ t : DT, ∃ s : State, let u := advance t s; u.clock.refOk = false) :=
  ⟨⟨second, { calm with clock := { calm.clock with plls := tput {} calm.clock.plls 3 { stopped := false, relocking := true } } }, 3, by decide +kernel⟩,
    ⟨second, { calm with clock := { calm.clock with plls := tput {} calm.clock.plls 3 { stopped := false, relocking := true } } }, 3, 0, by decide +kernel⟩,
    ⟨second, { calm with clock := { calm.clock with plls := tput {} calm.clock.plls 3 { stopped := false, locked := true, absent := some 0 } } }, 3, 0, by decide +kernel⟩,
    ⟨second, { calm with clock := { calm.clock with plls := tput {} calm.clock.plls 2 { stopped := false, locked := true, absent := some 0 } } }, 2, 0, by decide +kernel⟩,
    ⟨second, { calm with clock := { calm.clock with plls := tput {} calm.clock.plls 1 { stopped := false, locked := true, absent := some 0 } } }, 1, 0, by decide +kernel⟩,
    ⟨second, { calm with clock := { calm.clock with plls := tput {} calm.clock.plls 0 { stopped := false, locked := true, absent := some 0 } } }, 0, 0, by decide +kernel⟩,
    ⟨second, { calm with clock := { calm.clock with plls := tput {} calm.clock.plls 3 { stopped := false, locked := true, absent := some 0 } } }, 3, 0, by decide +kernel⟩,
    ⟨second, calm, 3, by decide +kernel⟩,
    ⟨second, { calm with clock := { calm.clock with plls := tput {} calm.clock.plls 3 { stopped := false, locked := true, relocking := true } } }, 3, by decide +kernel⟩,
    ⟨second, calm, 3, by decide +kernel⟩,
    ⟨second, { calm with clock := { refOk := true, plls := [(0, { xtal := true }), (1, { xtal := true }), (2, { xtal := true }), (3, { xtal := true })] } }, by decide +kernel⟩,
    ⟨second, calm, by decide +kernel⟩,
    ⟨second, { calm with clock := { calm.clock with refOk := false } }, by decide +kernel⟩⟩

theorem met_time_events :
    (∃ t : DT, ∃ s : State, ∃ prev, ∃ rest, ∃ k, let u := advance t s; let x := u.time; ppsSelected u = true ∧
      u.steward.running = true ∧ x.accepted = (prev, some k) :: rest ∧ secondLater prev u.dt = true ∧ x.nextTai = none ∧
      x.epochSet = false) ∧
    (∃ t : DT, ∃ s : State, ∃ prev, ∃ rest, let u := advance t s; let x := u.time; ppsSelected u = true ∧
      u.steward.running = true ∧ x.accepted = prev :: rest ∧ secondLater prev.1 u.dt = true) ∧
    (∃ t : DT, ∃ s : State, ∃ prev, ∃ rest, let u := advance t s; let x := u.time; ppsSelected u = true ∧
      u.steward.running = true ∧ x.accepted = prev :: rest ∧ secondLater prev.1 u.dt = false) ∧
    (∃ t : DT, ∃ s : State, let u := advance t s; let x := u.time; ppsSelected u = true ∧ u.steward.running = true ∧
      x.accepted = [] ∧ x.candidate = none) ∧
    (∃ t : DT, ∃ s : State, ∃ c, let u := advance t s; let x := u.time; ppsSelected u = true ∧ u.steward.running = true ∧
      x.accepted = [] ∧ x.candidate = some c ∧ secondLater c u.dt = false) ∧
    (∃ t : DT, ∃ s : State, ∃ c, let u := advance t s; let x := u.time; ppsSelected u = true ∧ u.steward.running = true ∧
      x.accepted = [] ∧ x.candidate = some c ∧ secondLater c u.dt = true ∧ x.holdover = false) ∧
    (∃ t : DT, ∃ s : State, ∃ prev, ∃ rest, let u := advance t s; let x := u.time; ppsSelected u = true ∧
      x.accepted = prev :: rest ∧ 30720000000 ≤ dtSub u.dt prev.1) ∧
    (∃ t : DT, ∃ s : State, ∃ n, let u := advance t s; let p := getPort n u; p.up = true ∧ bit p.options 0 = true) ∧
    (∃ t : DT, ∃ s : State, ∃ n, let u := advance t s; let x := u.time; let p := getPort n u; p.up = true ∧
      bit p.options 0 = true ∧ x.source = 2) ∧
    (∃ t : DT, ∃ s : State, ∃ n, let u := advance t s; let x := u.time; let p := getPort n u; p.up = true ∧
      bit p.options 0 = true ∧ x.source = 3 ∧ x.ppsOk = true) ∧
    (∃ t : DT, ∃ s : State, ∃ n, let u := advance t s; let x := u.time; let p := getPort n u; p.up = true ∧
      bit p.options 0 = true ∧ x.source = 3 ∧ x.ppsOk = false) ∧
    (∃ t : DT, ∃ s : State, ∃ n, let u := advance t s; let x := u.time; let p := getPort n u; p.up = true ∧
      bit p.options 0 = true ∧ x.source ≠ 2 ∧ x.source ≠ 3) ∧
    (∃ t : DT, ∃ s : State, ∃ a, let u := advance t s; u.clock.sync = some a ∧ a.mode ≠ 1 ∧ u.clock.refOk = true) ∧
    (∃ t : DT, ∃ s : State, ∃ a, let u := advance t s; u.clock.sync = some a ∧ a.mode = 1 ∧ u.dt = a.d ∧ u.clock.refOk = true) ∧
    (∃ t : DT, ∃ s : State, ∃ a, let u := advance t s; u.clock.sync = some a ∧ a.timeoutMs * tkMs ≤ dtSub u.dt a.armedAt) :=
  ⟨⟨second, { calm with time := { source := 1, accepted := [(0, some 5)] } }, 0, [], 5, by decide +kernel⟩,
    ⟨second, { calm with time := { source := 1, accepted := [(0, none)] } }, (0, none), [], by decide +kernel⟩,
    ⟨second, { calm with time := { source := 1, accepted := [(10240000000, none)] } }, (10240000000, none), [], by decide +kernel⟩,
    ⟨second, { calm with time := { source := 1 } }, by decide +kernel⟩,
    ⟨second, { calm with time := { source := 1, candidate := some 10240000000 } }, 10240000000, by decide +kernel⟩,
    ⟨second, { calm with time := { source := 1, candidate := some 0 } }, 0, by decide +kernel⟩,
    ⟨2 * second, { calm with time := { source := 1, accepted := [(0, none)] } }, (0, none), [], by decide +kernel⟩,
    ⟨second, { calm with time := { source := 2 }, port := [(3, { up := true, options := 1 })] }, 3, by decide +kernel⟩,
    ⟨second, { calm with time := { source := 2 }, port := [(3, { up := true, options := 1 })] }, 3, by decide +kernel⟩,
    ⟨second, { calm with time := { source := 3, ppsOk := true }, port := [(3, { up := true, options := 1 })] }, 3, by decide +kernel⟩,
    ⟨second, { calm with time := { source := 3 }, port := [(3, { up := true, options := 1 })] }, 3, by decide +kernel⟩,
    ⟨second, { calm with time := { source := 0 }, port := [(3, { up := true, options := 1 })] }, 3, by decide +kernel⟩,
    ⟨second, { calm with clock := { calm.clock with sync := some { mode := 2, position := 9, outEn := true, d := 0, timeoutMs := 1000, armedAt := 0 } } },
      { mode := 2, position := 9, outEn := true, d := 0, timeoutMs := 1000, armedAt := 0 }, by decide +kernel⟩,
    ⟨second, { calm with clock := { calm.clock with sync := some { mode := 1, position := 9, outEn := true, d := second, timeoutMs := 1000, armedAt := 0 } } },
      { mode := 1, position := 9, outEn := true, d := second, timeoutMs := 1000, armedAt := 0 }, by decide +kernel⟩,
    ⟨second, { calm with clock := { calm.clock with sync := some { mode := 2, position := 9, outEn := true, d := 0, timeoutMs := 1000, armedAt := 0 } } }, { mode := 2, position := 9, outEn := true, d := 0, timeoutMs := 1000, armedAt := 0 }, by decide +kernel⟩⟩

theorem met_converter_events :
    (∃ t : DT, ∃ s : State, ∃ n, ∃ codes : List Int, let u := advance t s; let v := settle (· == .group) u; let r := getRf n v;
      r.powered = true ∧ planeRuns v = true ∧ codes.length = 64 ∧ (∀ c ∈ codes, -2048 ≤ c ∧ c ≤ 2047) ∧ v.dt.toNat % 64 = 0 ∧
      r.lastGroup ≠ some v.dt) ∧
    (∃ t : DT, ∃ s : State, ∃ n, ∃ codes : List Int, let u := advance t s; let v := settle (· == .group) u; let r := getRf n v;
      r.powered = true ∧ planeRuns v = true ∧ codes.length = 64 ∧ (∀ c ∈ codes, -2048 ≤ c ∧ c ≤ 2047) ∧ v.dt.toNat % 64 = 0 ∧
      r.lastGroup ≠ some v.dt ∧ (∀ c ∈ codes, c ≠ 2047 ∧ c ≠ -2048) ∧ r.recovery = 0 ∧ r.overdrive = false ∧
      r.overdriveUntil.toNat ≤ v.dt.toNat) ∧
    (∃ t : DT, ∃ s : State, ∃ n, ∃ codes : List Int, let u := advance t s; let v := settle (· == .group) u; let r := getRf n v;
      r.powered = true ∧ planeRuns v = true ∧ codes.length = 64 ∧ (∀ c ∈ codes, -2048 ≤ c ∧ c ≤ 2047) ∧ v.dt.toNat % 64 = 0 ∧
      r.lastGroup ≠ some v.dt ∧ ((∃ c ∈ codes, c = 2047 ∨ c = -2048) ∨ 0 < r.recovery ∨ r.overdrive = true)) ∧
    (∃ t : DT, ∃ s : State, ∃ n, let u := advance t s; let r := getRf n u; r.powered = true ∧ r.overdrive = true) ∧
    (∃ t : DT, ∃ s : State, ∃ n, let u := advance t s; let r := getRf n u; r.powered = true ∧ r.overdrive = false ∧
      r.lastGroup = none) ∧
    (∃ t : DT, ∃ s : State, ∃ n, ∃ g, let u := advance t s; let r := getRf n u; r.powered = true ∧ r.overdrive = false ∧
      r.lastGroup = some g ∧ dtSub u.dt g < 64 ∧ r.sideband.getLsbD 6 = false) ∧
    (∃ t : DT, ∃ s : State, ∃ n, ∃ g, let u := advance t s; let r := getRf n u; r.powered = true ∧ r.overdrive = false ∧
      r.lastGroup = some g ∧ 64 ≤ dtSub u.dt g) ∧
    (∃ t : DT, ∃ s : State, ∃ n, let u := advance t s; dtLe (getRf n u).settleUntil u.dt = true) ∧
    (∃ t : DT, ∃ s : State, ∃ n, let u := advance t s; let r := getRf n u; r.burning = true ∧ r.returnPending = true) ∧
    (∃ t : DT, ∃ s : State, ∃ n, let u := advance t s; let r := getRf n u; r.burning = true ∧ r.returnPending = false ∧
      r.padTarget = none) ∧
    (∃ t : DT, ∃ s : State, ∃ n, ∃ pad, let u := advance t s; let r := getRf n u; r.burning = true ∧ r.returnPending = false ∧
      r.padTarget = some pad) ∧
    (∃ t : DT, ∃ s : State, ∃ n, ∃ spare, let u := advance t s; let r := getRf n u; r.powered = true ∧ planeRuns u = true ∧
      r.spare = some spare ∧ swapHere n u = true) ∧
    (∃ t : DT, ∃ s : State, ∃ n, ∃ slice, ∃ kind, let u := advance t s; let r := getRf n u; r.powered = true ∧ planeRuns u = true ∧
      r.spare = some slice ∧ r.retired = [] ∧ swapHere n (sliceFault n slice kind u) = false) ∧
    (∃ t : DT, ∃ s : State, ∃ n, ∃ codes : List Int, let u := advance t s; let v := settle (· == .group) u; orxPresent n v = true ∧
      fibreRuns (n / 2) v = true ∧ planeRuns v = true ∧ codes.length = 16 ∧ (∀ c ∈ codes, -8192 ≤ c ∧ c ≤ 8191) ∧
      v.dt.toNat % 64 = 0) ∧
    (∃ t : DT, ∃ s : State, ∃ path, let u := advance t s; let v := settle (· == .group) u; groupDue path v = true) ∧
    (∃ t : DT, ∃ s : State, ∃ path, let u := advance t s; let d := getDdc path u; d.enable = true ∧ d.detEnable ≠ 0 ∧
      2 ^ d.log2Win ≤ d.detQueue.length) ∧
    (∃ t : DT, ∃ s : State, ∃ path, let u := advance t s; let d := getDdc path u; d.enable = true ∧ d.detEnable ≠ 0 ∧
      2 ^ d.log2Win ≤ d.detQueue.length ∧ d.detRing = 0xFFFF ∧ isSlotPath path = true) :=
  ⟨⟨second, { calm with rf := [(3, { powered := true, invalidLeft := 0 })] }, 3, (List.replicate 64 2047), by decide +kernel⟩,
    ⟨second, { calm with rf := [(3, { powered := true, invalidLeft := 0 })] }, 3, (List.replicate 64 0), by decide +kernel⟩,
    ⟨second, { calm with rf := [(3, { powered := true, invalidLeft := 0 })] }, 3, (List.replicate 64 2047), by decide +kernel⟩,
    ⟨second, { calm with rf := [(3, { powered := true, overdrive := true })] }, 3, by decide +kernel⟩,
    ⟨second, { calm with rf := [(3, { powered := true, invalidLeft := 0 })] }, 3, by decide +kernel⟩,
    ⟨second + 63, { calm with rf := [(3, { powered := true, lastGroup := some second })] }, 3, second, by decide +kernel⟩,
    ⟨second + 64, { calm with rf := [(3, { powered := true, lastGroup := some second })] }, 3, second, by decide +kernel⟩,
    ⟨second, calm, 3, by decide +kernel⟩,
    ⟨second, { calm with rf := [(3, { powered := true, burning := true, returnPending := true })] }, 3, by decide +kernel⟩,
    ⟨second, { calm with rf := [(3, { powered := true, burning := true })] }, 3, by decide +kernel⟩,
    ⟨second, { calm with rf := [(3, { powered := true, burning := true, padTarget := some false })] }, 3, false, by decide +kernel⟩,
    ⟨second, { calm with rf := [(3, { powered := true, swapDue := second, lastGroup := some second, spare := some 16 })] }, 3, 16, by decide +kernel⟩,
    ⟨second, { calm with rf := [(3, { powered := true, spare := some 16 })] }, 3, 16, 0, by decide +kernel⟩,
    ⟨second, { calm with fibre := [(1, { das := true })] }, 3, (List.replicate 16 (-8192)), by decide +kernel⟩,
    ⟨second, { calm with rf := [(3, { powered := true })], ddc := [(3, { enable := true, nextGroup := 4096 })] }, 3, by decide +kernel⟩,
    ⟨second, { calm with ddc := [(47, { enable := true, detEnable := 1, log2Win := 0, detQueue := [(0, 0, 0, true)] })] }, 47, by decide +kernel⟩,
    ⟨second, { calm with ddc := [(47, { enable := true, detEnable := 1, log2Win := 0, detQueue := [(0, 0, 0, true)] })] }, 47, by decide +kernel⟩⟩

theorem met_spectral_events :
    (∃ t : DT, ∃ s : State, ∃ p, let u := advance t s; p < 4 ∧ let v := pump p u; let g := getSpec p v;
      let m := nextDealt (g.missing ++ g.lost) 64 g.completed; framesRun p v = true ∧ planeRuns v = true ∧
      frameComplete p m v = true) ∧
    (∃ t : DT, ∃ s : State, ∃ p, let u := advance t s; let x := getSpec p u; averageDue x = true ∧ x.limitStopped = false) ∧
    (∃ t : DT, ∃ s : State, ∃ p, let u := advance t s; let x := getSpec p u; averageDue x = true ∧ x.limitStopped = true) ∧
    (∃ t : DT, ∃ s : State, ∃ p, ∃ i, let u := advance t s; let x := getSpec p u; let tr := tget {} x.traces i;
      traceDue x tr = true ∧ (getTrig p u).limit = none) ∧
    (∃ t : DT, ∃ s : State, ∃ n, ∃ cause, let u := advance t s; pipHealthy n u = true ∧ 1 ≤ cause ∧ cause ≤ 4) ∧
    (∃ t : DT, ∃ s : State, ∃ n, ∃ cause, let u := advance t s; pipHealthy n u = true ∧ 1 ≤ cause ∧ cause ≤ 4 ∧
      (getPip n u).personality = 0xF ∧ (getPip n u).strike = none ∧ u.health.faults = [] ∧ u.health.halting = []) ∧
    (∃ t : DT, ∃ s : State, ∃ n, let u := advance t s;
      let mine := u.health.faults.find? fun r => r.cls == 1 && r.unit == n && r.state == 1 && r.spare.isSome; mine = none) ∧
    (∃ t : DT, ∃ s : State, ∃ n, ∃ r, ∃ k, let u := advance t s;
      let mine := u.health.faults.find? fun r => r.cls == 1 && r.unit == n && r.state == 1 && r.spare.isSome; mine = some r ∧
      r.spare = some k ∧ r.personality < 4) ∧
    (∃ t : DT, ∃ s : State, ∃ p, ∃ q, ∃ rest, let u := advance t s; let v := settle (· == .spectrum p) u;
      (getSpec p v).queue = q :: rest ∧ bloomTurn p v = true ∧ bloomFresh v ≠ []) ∧
    (∃ t : DT, ∃ s : State, ∃ m, let u := advance t s; (getBloom m u).owed = true) ∧
    (∃ t : DT, ∃ s : State, ∃ m, let u := advance t s; (getBloom m u).decaying = true ∧ (getBloom m u).owed = false) ∧
    (∃ t : DT, ∃ s : State, ∃ m, let u := advance t s; let v := settle (· == .spectrum (getBloom m u).cfg.personality) u;
      snapshotDue (getBloom m v) = true) ∧
    (∃ t : DT, ∃ s : State, ∃ line, let u := advance t s; line < 4 ∧ u.stone.stage ≠ .power ∧
      (∀ d, tget none u.trigIn line = some d → ¬ (u.dt.toNat < d.toNat + 64 ∧ dtLe d u.dt = true))) ∧
    (∃ t : DT, ∃ s : State, ∃ line, ∃ d, let u := advance t s; line < 4 ∧ u.stone.stage ≠ .power ∧
      tget none u.trigIn line = some d ∧ u.dt.toNat < d.toNat + 64 ∧ dtLe d u.dt = true) ∧
    (∃ t : DT, ∃ s : State, ∃ line, let u := advance t s; line < 4 ∧ u.stone.stage ≠ .power) ∧
    (∃ t : DT, ∃ s : State, ∃ p, let u := advance t s; (getTrig p u).seq.steps ≠ []) ∧
    (∃ t : DT, ∃ s : State, ∃ p, let u := advance t s; let v := seqEvaluate p u; (getTrig p v).armed = true) ∧
    (∃ t : DT, ∃ s : State, ∃ k, let u := advance t s; let c := getCap k u; c.phase = 2 ∧ postDone c = true) ∧
    (∃ t : DT, ∃ s : State, ∃ k, ∃ d, let u := advance t s; let c := getCap k u; (c.phase = 1 ∨ c.phase = 2) ∧ postDone c = false ∧
      c.stopAt = some d ∧ dtLe d u.dt = true) ∧
    (∃ t : DT, ∃ s : State, ∃ k, let u := advance t s; let c := getCap k u; (c.phase = 1 ∨ c.phase = 2)) :=
  ⟨⟨second, framed, 3, by decide +kernel⟩,
    ⟨second, { calm with spec := [(3, { seen := 1, frame := 1 })] }, 3, by decide +kernel⟩,
    ⟨second, { calm with spec := [(3, { seen := 1, frame := 1, limitStopped := true })] }, 3, by decide +kernel⟩,
    ⟨second, { calm with spec := [(3, { frame := 1, traces := [(3, { seen := 1 })] })] }, 3, 3, by decide +kernel⟩,
    ⟨second, calm, 35, 4, by decide +kernel⟩,
    ⟨second, calm, 35, 4, by decide +kernel⟩,
    ⟨second, calm, 35, by decide +kernel⟩,
    ⟨second, { calm with health := { calm.health with faults := [repairing] } }, 35, repairing, 4, by decide +kernel⟩,
    ⟨second, { calm with spec := [(3, { running := true, queue := [(0, { dt := 0, seq := 0, flags := 0, levels := [] })] })] }, 3, (0, { dt := 0, seq := 0, flags := 0, levels := [] }), [], by decide +kernel⟩,
    ⟨second, { calm with bloom := [(3, { owed := true })] }, 3, by decide +kernel⟩,
    ⟨second, { calm with bloom := [(3, { decaying := true })] }, 3, by decide +kernel⟩,
    ⟨second, { calm with bloom := [(3, { set := true, cfg := { snapRing := 3, snapSpectra := 2 }, spectra := 4 })] }, 3, by decide +kernel⟩,
    ⟨second, calm, 3, by decide, by decide +kernel, fun d h => by cases h⟩,
    ⟨second, { calm with trigIn := [(3, some (second - 63))] }, 3, second - 63, by decide +kernel⟩,
    ⟨second, calm, 3, by decide +kernel⟩,
    ⟨second, { calm with trig := [(5, { seq := { steps := [{ inputs := 1, all := false, reset := 0, count := 1, window := 0, timeout := 0, delay := 0 }] } })] }, 5, by decide +kernel⟩,
    ⟨second, { calm with trig := [(5, { armed := true })] }, 5, by decide +kernel⟩,
    ⟨second, { calm with cap := [(15, { phase := 2, trigSeen := true, cfg := { post := 0 } })] }, 15, by decide +kernel⟩,
    ⟨second, { calm with cap := [(15, { phase := 1, stopAt := some second })] }, 15, second, by decide +kernel⟩,
    ⟨second, { calm with cap := [(15, { phase := 1 })] }, 15, by decide +kernel⟩⟩

theorem met_generator_events :
    (∃ t : DT, ∃ s : State, ∃ d, ∃ e, let u := advance t s; let g := getGen d u; g.running = true ∧ g.latched = none ∧
      dtLe (playEnd g) (dtAdd u.dt 512) = true ∧ g.table[g.entry]? = some e) ∧
    (∃ t : DT, ∃ s : State, ∃ d, ∃ e, ∃ k, let u := advance t s;
      let v := settle (fun b => b == .segment d || b == .epoch d || b == .stack d) u; let g := getGen d v; g.running = true ∧
      playEnd g = v.dt ∧ g.latched = some (some e, k)) ∧
    (∃ t : DT, ∃ s : State, ∃ d, ∃ k, let u := advance t s;
      let v := settle (fun b => b == .segment d || b == .epoch d || b == .stack d) u; let g := getGen d v; g.running = true ∧
      playEnd g = v.dt ∧ g.latched = some (none, k)) ∧
    (∃ t : DT, ∃ s : State, ∃ line, let u := advance t s; bit u.route.trigOut line = true) ∧
    (∃ t : DT, ∃ s : State, ∃ d, let u := advance t s; let g := getGen d u; g.running = true ∧ g.missing = none) ∧
    (∃ t : DT, ∃ s : State, ∃ d, ∃ measure, let u := advance t s; dacOwned d u = true ∧ (getGen d u).running = true ∧
      (getGov d u).caps.isSome = true ∧ 1 ≤ measure ∧ measure ≤ 3) ∧
    (∃ t : DT, ∃ s : State, ∃ d, ∃ measure, let u := advance t s; dacOwned d u = true ∧ (getGen d u).running = true ∧
      (getGov d u).caps.isSome = true ∧ 1 ≤ measure ∧ measure ≤ 3 ∧ d < 2) ∧
    (∃ t : DT, ∃ s : State, let u := advance t s; u.laser.permit = true ∧ dacOwned 0 u = false ∧ dacOwned 1 u = false) ∧
    (∃ t : DT, ∃ s : State, let u := advance t s; u.laser.permit = true ∧ (dacOwned 0 u = true ∨ dacOwned 1 u = true)) ∧
    (∃ t : DT, ∃ s : State, let u := advance t s; u.laser.permit = false) :=
  ⟨⟨second, { calm with fibre := [(1, { das := true })], laser := { calm.laser with permit := true, dacs := [(1, { caps := some { peak := 0, pulse := 0, pulseWindow := 2048, avg := 0, avgWindow := 20480000 } })] }, gen := [(1, { segmented with running := true, segStart := second })] }, 1, { segment := 0, flags := 0, repeats := 1, loopTo := 0, loopCount := 0, next := 0xFFFF, jumpTo := 0, jumpCond := 0, stopCond := 0 }, by decide +kernel⟩,
    ⟨second, { calm with fibre := [(1, { das := true })], laser := { calm.laser with permit := true, dacs := [(1, { caps := some { peak := 0, pulse := 0, pulseWindow := 2048, avg := 0, avgWindow := 20480000 } })] }, gen := [(1, { segmented with running := true, segStart := second, latched := some (some 0, 1) })] }, 1, 0, 1, by decide +kernel⟩,
    ⟨second, { calm with fibre := [(1, { das := true })], laser := { calm.laser with permit := true, dacs := [(1, { caps := some { peak := 0, pulse := 0, pulseWindow := 2048, avg := 0, avgWindow := 20480000 } })] }, gen := [(1, { segmented with running := true, segStart := second, latched := some (none, 1) })] }, 1, 1, by decide +kernel⟩,
    ⟨second, { calm with fibre := [(1, { das := true })], laser := { calm.laser with permit := true, dacs := [(1, { caps := some { peak := 0, pulse := 0, pulseWindow := 2048, avg := 0, avgWindow := 20480000 } })] }, gen := [(1, { running := true, segStart := second })], route := { trigOut := 8 } }, 3, by decide +kernel⟩,
    ⟨second, { calm with fibre := [(1, { das := true })], laser := { calm.laser with permit := true, dacs := [(1, { caps := some { peak := 0, pulse := 0, pulseWindow := 2048, avg := 0, avgWindow := 20480000 } })] }, gen := [(1, { running := true, segStart := second })], route := { trigOut := 8 } }, 1, by decide +kernel⟩,
    ⟨second, { calm with fibre := [(1, { das := true })], laser := { calm.laser with permit := true, dacs := [(1, { caps := some { peak := 0, pulse := 0, pulseWindow := 2048, avg := 0, avgWindow := 20480000 } })] }, gen := [(1, { segmented with running := true, segStart := second })] }, 1, 3, by decide +kernel⟩,
    ⟨second, { calm with fibre := [(1, { das := true })], laser := { calm.laser with permit := true, dacs := [(1, { caps := some { peak := 0, pulse := 0, pulseWindow := 2048, avg := 0, avgWindow := 20480000 } })] }, gen := [(1, { segmented with running := true, segStart := second })] }, 1, 3, by decide +kernel⟩,
    ⟨second, { calm with laser := { calm.laser with permit := true, dacs := [(1, { caps := some { peak := 0, pulse := 0, pulseWindow := 2048, avg := 0, avgWindow := 20480000 } })] } }, by decide +kernel⟩,
    ⟨second, { calm with fibre := [(1, { das := true })], laser := { calm.laser with permit := true, dacs := [(1, { caps := some { peak := 0, pulse := 0, pulseWindow := 2048, avg := 0, avgWindow := 20480000 } })] }, gen := [(1, { segmented with running := true, segStart := second })] }, by decide +kernel⟩,
    ⟨second, calm, by decide +kernel⟩⟩

theorem met_fibre_events :
    (∃ t : DT, ∃ s : State, ∃ f, ∃ slot, ∃ tr, let u := advance t s; let x := getFibre f u; x.das = true ∧
      traceOfSlot f slot u = some tr) ∧
    (∃ t : DT, ∃ s : State, ∃ f, ∃ slot, ∃ tr, ∃ l, ∃ rest, let u := advance t s; let x := getFibre f u; x.das = true ∧
      traceOfSlot f slot u = some tr ∧ x.launches = l :: rest ∧ x.ready = [] ∧ l.slot ≠ slot) ∧
    (∃ t : DT, ∃ s : State, ∃ f, ∃ l, ∃ seq, let u := advance t s; let x := getFibre f u; x.das = true ∧ bandFull x = true ∧
      x.bandFirst = some (l, seq)) ∧
    (∃ t : DT, ∃ s : State, ∃ f, ∃ l, ∃ rest, let u := advance t s; let v := settle (· == .stack f) u; let x := getFibre f v;
      x.hopped = false ∧ x.dts = true ∧ x.launches = l :: rest ∧ x.stackSeen < dtsRequested x ∧ launchComplete f l v = true ∧
      let causes := leftOutCauses x l (launchOvr f l v); causes = 0) ∧
    (∃ t : DT, ∃ s : State, ∃ f, ∃ l, ∃ rest, let u := advance t s; let v := settle (· == .stack f) u; let x := getFibre f v;
      x.hopped = false ∧ x.dts = true ∧ x.launches = l :: rest ∧ x.stackSeen < dtsRequested x ∧ launchComplete f l v = true ∧
      let causes := leftOutCauses x l (launchOvr f l v); causes ≠ 0) ∧
    (∃ t : DT, ∃ s : State, ∃ f, let u := advance t s; let x := getFibre f u; x.dts = true ∧ dtsRequested x ≤ x.stackSeen) ∧
    (∃ t : DT, ∃ s : State, ∃ f, ∃ k, let u := advance t s; let x := getFibre f u; x.dts = true ∧ dtsRequested x ≤ x.stackSeen ∧
      k ≠ f) ∧
    (∃ t : DT, ∃ s : State, ∃ f, ∃ bytes : List Byte, let u := advance t s; (getFibre f u).record = some bytes) ∧
    (∃ t : DT, ∃ s : State, let u := advance t s; let v := settle (· == .conversion) u; jobDelayed v = true ∧ notStarted v = true ∧
      dtLe (convStart v) v.dt = true) ∧
    (∃ t : DT, ∃ s : State, let u := advance t s; let v := powerUp (settle (· == .conversion) u); integrationDue v = true ∧
      let e := jobEntry v; (getExc e.exc v).cfg.enable = false) ∧
    (∃ t : DT, ∃ s : State, let u := advance t s; let v := powerUp (settle (· == .conversion) u); integrationDue v = true ∧
      let e := jobEntry v; (getExc e.exc v).cfg.enable = true) ∧
    (∃ t : DT, ∃ s : State, let u := advance t s; u.slow.integrating = true ∧ dtLe (convEnd u) u.dt = true) ∧
    (∃ t : DT, ∃ s : State, let u := advance t s; u.slow.partials ≠ [] ∧ 100 * tkMs ≤ dtSub u.dt u.slow.partialFirst ∧
      let v := modSlow (fun x => { x with partials := [] }) u; ringRoom (getRing u.slow.ring v) v = true) ∧
    (∃ t : DT, ∃ s : State, let u := advance t s; u.slow.partials ≠ [] ∧ 100 * tkMs ≤ dtSub u.dt u.slow.partialFirst ∧
      let v := modSlow (fun x => { x with partials := [] }) u; ringRoom (getRing u.slow.ring v) v = false) ∧
    (∃ t : DT, ∃ s : State, ∃ n, let u := advance t s; let x := getExc n u; x.cfg.enable = true ∧ x.broken = false ∧
      converting n u = false) ∧
    (∃ t : DT, ∃ s : State, ∃ n, let u := advance t s; let x := getExc n u; x.cfg.enable = true ∧ x.broken = false ∧
      converting n u = true) ∧
    (∃ t : DT, ∃ s : State, ∃ n, let u := advance t s; let x := getExc n u; x.broken = true) ∧
    (∃ t : DT, ∃ s : State, ∃ n, let u := advance t s; let x := getExc n u; x.cfg.enable = true ∧ x.cfg.impPeriod ≠ 0 ∧ n < 4 ∧
      dtLe x.nextCheck u.dt = true ∧ n ∉ u.slow.checksDue) ∧
    (∃ t : DT, ∃ s : State, ∃ n, let u := advance t s; let x := getExc n u; x.cfg.enable = true ∧ x.cfg.impPeriod ≠ 0 ∧ n < 4 ∧
      dtLe x.nextCheck u.dt = true ∧ n ∉ u.slow.checksDue ∧ u.slow.job ≠ none) ∧
    (∃ t : DT, ∃ s : State, ∃ n, ∃ nF : Nat, let u := advance t s; let x := getExc n u; u.slow.job = some (.impedance n) ∧
      let dt := dtAdd u.slow.since toneTk; dtLe dt u.dt = true ∧ nF ≤ x.cfg.cMax) ∧
    (∃ t : DT, ∃ s : State, ∃ n, ∃ nF : Nat, let u := advance t s; let x := getExc n u; u.slow.job = some (.impedance n) ∧
      let dt := dtAdd u.slow.since toneTk; dtLe dt u.dt = true ∧ x.cfg.cMax < nF) ∧
    (∃ t : DT, ∃ s : State, ∃ n, ∃ cause, let u := advance t s; currantHealthy n u = true ∧ 1 ≤ cause ∧ cause ≤ 4) ∧
    (∃ t : DT, ∃ s : State, ∃ n, ∃ cause, let u := advance t s; currantHealthy n u = true ∧ 1 ≤ cause ∧ cause ≤ 4 ∧
      (getCurrant n u).personality = 0xF ∧ (getCurrant n u).strike = none ∧ u.health.faults = [] ∧ u.health.halting = []) ∧
    (∃ t : DT, ∃ s : State, ∃ n, let u := advance t s;
      let mine := u.health.faults.find? fun r => r.cls == 2 && r.unit == n && r.state == 1 && r.spare.isSome; mine = none) ∧
    (∃ t : DT, ∃ s : State, ∃ n, ∃ r, let u := advance t s;
      let mine := u.health.faults.find? fun r => r.cls == 2 && r.unit == n && r.state == 1 && r.spare.isSome; mine = some r ∧
      (getFibre (r.personality - 4) u).das = true) :=
  ⟨let ⟨tr, h⟩ := trace_there 7 (advance second traced) (by decide +kernel)
  ⟨second, traced, 1, 7, tr, by decide +kernel, h⟩,
    let ⟨tr, h⟩ := trace_there 7 (advance second { traced with fibre := [(1, { das := true, launches := [{ launched with slot := 3 }, launched] })] }) (by decide +kernel)
  ⟨second, { traced with fibre := [(1, { das := true, launches := [{ launched with slot := 3 }, launched] })] }, 1, 7, tr, { launched with slot := 3 }, [launched],
      by decide +kernel, h, by decide +kernel, by decide +kernel, by decide +kernel⟩,
    ⟨second, { calm with fibre := [(1, { das := true, band := { enable := true }, bandSeen := 1, bandFirst := some (launched, 0) })] }, 1, launched, 0, by decide +kernel⟩,
    ⟨second, stacking 0, 1, launched, [], by decide +kernel⟩,
    ⟨second, stacking 64, 1, launched, [], by decide +kernel⟩,
    ⟨second, { calm with fibre := [(1, { dts := true, stackSeen := 256, record := some [1] })] }, 1, by decide +kernel⟩,
    ⟨second, { calm with fibre := [(1, { dts := true, stackSeen := 256 })] }, 1, 0, by decide +kernel⟩,
    ⟨second, { calm with fibre := [(1, { record := some [1] })] }, 1, [1], by decide +kernel⟩,
    ⟨second, { calm with slow := { calm.slow with job := some (.urgent { ain := 0, exc := 0, gain := 0, nplc := 1, repeats := 1, delayUs := 1000 } { ring := 0, index := 0, tag := 0, opcode := 0x1103, quiet := false }) } }, by decide +kernel⟩,
    ⟨second, { calm with slow := { calm.slow with job := some (.urgent { ain := 0, exc := 3, gain := 0, nplc := 1, repeats := 1, delayUs := 1000 } { ring := 0, index := 0, tag := 0, opcode := 0x1103, quiet := false }) } }, by decide +kernel⟩,
    ⟨second, { calm with exc := [(3, { cfg := { enable := true } })], slow := { calm.slow with job := some (.urgent { ain := 0, exc := 3, gain := 0, nplc := 1, repeats := 1, delayUs := 1000 } { ring := 0, index := 0, tag := 0, opcode := 0x1103, quiet := false }) } }, by decide +kernel⟩,
    ⟨second, { calm with slow := { calm.slow with job := some (.urgent { ain := 0, exc := 0, gain := 0, nplc := 1, repeats := 1, delayUs := 0 } { ring := 0, index := 0, tag := 0, opcode := 0x1103, quiet := false }), poweredUp := true, integrating := true } }, by decide +kernel⟩,
    ⟨second, { calm with slow := { calm.slow with partials := [[1]], ring := 3 } }, by decide +kernel⟩,
    ⟨second, { calm with slow := { calm.slow with partials := [[1]], ring := 9 } }, by decide +kernel⟩,
    ⟨second, { calm with exc := [(3, { cfg := { enable := true } })] }, 3, by decide +kernel⟩,
    ⟨second, { calm with exc := [(3, { cfg := { enable := true } })], slow := { calm.slow with job := some (.urgent { ain := 0, exc := 3, gain := 0, nplc := 1, repeats := 1, delayUs := 0 } { ring := 0, index := 0, tag := 0, opcode := 0x1103, quiet := false }) } }, 3, by decide +kernel⟩,
    ⟨second, { calm with exc := [(3, { broken := true })] }, 3, by decide +kernel⟩,
    ⟨second, { calm with exc := [(3, { cfg := { enable := true, impPeriod := 3600 } })] }, 3, by decide +kernel⟩,
    ⟨second, { calm with exc := [(3, { cfg := { enable := true, impPeriod := 3600 } })], slow := { calm.slow with job := some (.scan 0) } }, 3, by decide +kernel⟩,
    ⟨second, { calm with slow := { calm.slow with job := some (.impedance 3) } }, 3, 0, by decide +kernel⟩,
    ⟨second, { calm with slow := { calm.slow with job := some (.impedance 3) } }, 3, 1, by decide +kernel⟩,
    ⟨second, calm, 17, 4, by decide +kernel⟩,
    ⟨second, calm, 17, 4, by decide +kernel⟩,
    ⟨second, calm, 17, by decide +kernel⟩,
    ⟨second, { calm with fibre := [(1, { das := true })], health := { calm.health with faults := [{ opened := 0, closed := 0, cls := 2, cause := 1, unit := 17, state := 1, outcome := 0, personality := 5, nest := 0, spare := some 4 }] } }, 17,
      { opened := 0, closed := 0, cls := 2, cause := 1, unit := 17, state := 1, outcome := 0, personality := 5, nest := 0, spare := some 4 }, by decide +kernel⟩⟩

theorem met_dma_instructions :
    (∃ t : DT, ∃ n, ∃ w : U128, ∃ s : State, let u := advance t s; let c := getChan n u; dmaReady c = true ∧
      spaceWaits c c.posSpace u = false ∧ dmaNoFetch c u = false ∧ dmaWordAt c u = w.toNat ∧ w.toNat % 16 = 1 ∧
      transferError c w = none ∧ let len := wbits w 43 21; len % 4 ≠ 0) ∧
    (∃ t : DT, ∃ n, ∃ w : U128, ∃ s : State, let u := advance t s; let c := getChan n u; dmaReady c = true ∧
      spaceWaits c c.posSpace u = false ∧ dmaNoFetch c u = false ∧ dmaWordAt c u = w.toNat ∧ w.toNat % 16 = 1 ∧
      transferError c w = none ∧ let len := wbits w 43 21; len % 4 = 0 ∧
      sideError c false true (wbits w 45 44) (wbits w 85 46) len u = none ∧
      sideError c true true (wbits w 87 86) (wbits w 127 88) len u = none) ∧
    (∃ t : DT, ∃ n, ∃ w : U128, ∃ s : State, ∃ items, let u := advance t s; let c := getChan n u; dmaReady c = true ∧
      spaceWaits c c.posSpace u = false ∧ dmaNoFetch c u = false ∧ dmaWordAt c u = w.toNat ∧
      spaceWaits c (wbits w 45 44) u = false ∧ dmaList c w u = .inr items ∧ w.toNat % 16 = 2 ∧
      sideError c true false (wbits w 87 86) (wbits w 127 88) ((items.map fun i => i.2.2).sum) u = none ∧
      (∀ i ∈ items, sideError c false false i.1 i.2.1 i.2.2 u = none)) ∧
    (∃ t : DT, ∃ n, ∃ w : U128, ∃ s : State, ∃ items, let u := advance t s; let c := getChan n u; dmaReady c = true ∧
      spaceWaits c c.posSpace u = false ∧ dmaNoFetch c u = false ∧ dmaWordAt c u = w.toNat ∧
      spaceWaits c (wbits w 45 44) u = false ∧ dmaList c w u = .inr items ∧ w.toNat % 16 = 3 ∧
      (∀ i ∈ items, sideError c true false i.1 i.2.1 i.2.2 u = none)) ∧
    (∃ t : DT, ∃ n, ∃ w : U128, ∃ s : State, ∃ cause, let u := advance t s; let c := getChan n u; dmaReady c = true ∧
      spaceWaits c c.posSpace u = false ∧ dmaNoFetch c u = false ∧ dmaWordAt c u = w.toNat ∧
      spaceWaits c (wbits w 45 44) u = false ∧ dmaList c w u = .inl cause ∧ w.toNat % 16 = 2) ∧
    (∃ t : DT, ∃ n, ∃ w : U128, ∃ s : State, ∃ cause, let u := advance t s; let c := getChan n u; dmaReady c = true ∧
      spaceWaits c c.posSpace u = false ∧ dmaNoFetch c u = false ∧ dmaWordAt c u = w.toNat ∧
      spaceWaits c (wbits w 45 44) u = false ∧ dmaList c w u = .inl cause ∧ w.toNat % 16 = 3) ∧
    (∃ t : DT, ∃ n, ∃ w : U128, ∃ s : State, let u := advance t s; let c := getChan n u; dmaReady c = true ∧
      spaceWaits c c.posSpace u = false ∧ dmaNoFetch c u = false ∧ dmaWordAt c u = w.toNat ∧ w.toNat % 16 = 4 ∧
      let back := wbits w 47 32; (wbits w 7 6 ≠ 0 ∨ wbits w 127 48 ≠ 0 ∨ back = 0 ∨ c.pos < 16 * back)) ∧
    (∃ t : DT, ∃ n, ∃ w : U128, ∃ s : State, let u := advance t s; let c := getChan n u; dmaReady c = true ∧
      spaceWaits c c.posSpace u = false ∧ dmaNoFetch c u = false ∧ dmaWordAt c u = w.toNat ∧ w.toNat % 16 = 4 ∧
      let k := wbits w 5 4; let back := wbits w 47 32; wbits w 7 6 = 0 ∧ wbits w 127 48 = 0 ∧ back ≠ 0 ∧ 16 * back ≤ c.pos ∧
      (tget none c.counters k).getD (wbits w 31 8) = 0) ∧
    (∃ t : DT, ∃ n, ∃ w : U128, ∃ s : State, ∃ v, let u := advance t s; let c := getChan n u; dmaReady c = true ∧
      spaceWaits c c.posSpace u = false ∧ dmaNoFetch c u = false ∧ dmaWordAt c u = w.toNat ∧ w.toNat % 16 = 4 ∧
      let k := wbits w 5 4; let back := wbits w 47 32; wbits w 7 6 = 0 ∧ wbits w 127 48 = 0 ∧ back ≠ 0 ∧ 16 * back ≤ c.pos ∧
      (tget none c.counters k).getD (wbits w 31 8) = v + 1) ∧
    (∃ t : DT, ∃ n, ∃ w : U128, ∃ s : State, let u := advance t s; let c := getChan n u; dmaReady c = true ∧
      spaceWaits c c.posSpace u = false ∧ dmaNoFetch c u = false ∧ dmaWordAt c u = w.toNat ∧ w.toNat % 16 = 5 ∧
      waitError c w = none ∧ wbits w 5 4 = 3 ∧ wbits w 127 64 ≤ u.dt.toNat) ∧
    (∃ t : DT, ∃ n, ∃ w : U128, ∃ s : State, let u := advance t s; let c := getChan n u; dmaReady c = true ∧
      spaceWaits c c.posSpace u = false ∧ dmaNoFetch c u = false ∧ dmaWordAt c u = w.toNat ∧ w.toNat % 16 = 5 ∧
      waitError c w = none ∧ (wbits w 5 4 ≠ 3 ∨ u.dt.toNat < wbits w 127 64)) ∧
    (∃ t : DT, ∃ n, ∃ w : U128, ∃ s : State, let u := advance t s; let c := getChan n u; dmaReady c = true ∧
      spaceWaits c c.posSpace u = false ∧ dmaNoFetch c u = false ∧ dmaWordAt c u = w.toNat ∧ w.toNat % 16 = 6 ∧ wbits w 7 7 = 0 ∧
      wbits w 63 45 = 0 ∧ wbits w 127 96 = 0 ∧ let obj := wbits w 44 32; let count := wbits w 31 8; let r := getRing obj u;
      wbits w 5 4 = 0 ∧ count ≠ 0 ∧ bit w.toNat 6 = true ∧ boundCons c obj = true ∧ count ≤ ringHeld r) ∧
    (∃ t : DT, ∃ n, ∃ w : U128, ∃ s : State, let u := advance t s; let c := getChan n u; dmaReady c = true ∧
      spaceWaits c c.posSpace u = false ∧ dmaNoFetch c u = false ∧ dmaWordAt c u = w.toNat ∧ w.toNat % 16 = 6 ∧ wbits w 7 7 = 0 ∧
      wbits w 63 45 = 0 ∧ wbits w 127 96 = 0 ∧ let obj := wbits w 44 32; let count := wbits w 31 8; let r := getRing obj u;
      wbits w 5 4 = 0 ∧ count ≠ 0 ∧ bit w.toNat 6 = false ∧ boundProd c obj = true ∧ count ≤ ringFree r) ∧
    (∃ t : DT, ∃ n, ∃ w : U128, ∃ s : State, let u := advance t s; let c := getChan n u; dmaReady c = true ∧
      spaceWaits c c.posSpace u = false ∧ dmaNoFetch c u = false ∧ dmaWordAt c u = w.toNat ∧ w.toNat % 16 = 6 ∧ wbits w 7 7 = 0 ∧
      wbits w 63 45 = 0 ∧ wbits w 127 96 = 0 ∧ wbits w 5 4 = 1) ∧
    (∃ t : DT, ∃ n, ∃ w : U128, ∃ s : State, let u := advance t s; let c := getChan n u; dmaReady c = true ∧
      spaceWaits c c.posSpace u = false ∧ dmaNoFetch c u = false ∧ dmaWordAt c u = w.toNat ∧ w.toNat % 16 = 6 ∧ wbits w 7 7 = 0 ∧
      wbits w 63 45 = 0 ∧ wbits w 127 96 = 0 ∧ let obj := wbits w 44 32; let count := wbits w 31 8; wbits w 5 4 = 2 ∧ count ≠ 0 ∧
      obj < 768) ∧
    (∃ t : DT, ∃ n, ∃ w : U128, ∃ s : State, let u := advance t s; let c := getChan n u; dmaReady c = true ∧
      spaceWaits c c.posSpace u = false ∧ dmaNoFetch c u = false ∧ dmaWordAt c u = w.toNat ∧ w.toNat % 16 = 6 ∧ wbits w 7 7 = 0 ∧
      wbits w 63 45 = 0 ∧ wbits w 127 96 = 0 ∧ let obj := wbits w 44 32; let count := wbits w 31 8; wbits w 5 4 = 3 ∧ count ≠ 0 ∧
      256 ≤ obj ∧ obj ≤ 447) ∧
    (∃ t : DT, ∃ n, ∃ w : U128, ∃ s : State, let u := advance t s; let c := getChan n u; dmaReady c = true ∧
      spaceWaits c c.posSpace u = false ∧ dmaNoFetch c u = false ∧ dmaWordAt c u = w.toNat ∧ w.toNat % 16 = 7 ∧
      let a := wbits w 127 64; wbits w 63 6 = 0 ∧ wbits w 5 4 ≤ 1 ∧ a % 16 = 0 ∧ (wbits w 5 4 = 1 → a < 2 ^ 40)) ∧
    (∃ t : DT, ∃ n, ∃ w : U128, ∃ s : State, let u := advance t s; let c := getChan n u; dmaReady c = true ∧
      spaceWaits c c.posSpace u = false ∧ dmaNoFetch c u = false ∧ dmaWordAt c u = w.toNat ∧ w.toNat % 16 = 7 ∧
      let a := wbits w 127 64; (wbits w 63 6 ≠ 0 ∨ 1 < wbits w 5 4 ∨ a % 16 ≠ 0 ∨ (wbits w 5 4 = 1 ∧ 2 ^ 40 ≤ a))) ∧
    (∃ t : DT, ∃ n, ∃ w : U128, ∃ s : State, let u := advance t s; let c := getChan n u; dmaReady c = true ∧
      spaceWaits c c.posSpace u = false ∧ dmaNoFetch c u = false ∧ dmaWordAt c u = w.toNat ∧ w.toNat % 16 = 0 ∧
      (bit w.toNat 4 = false ∨ c.refetch = true)) ∧
    (∃ t : DT, ∃ n, ∃ w : U128, ∃ s : State, let u := advance t s; let c := getChan n u; dmaReady c = true ∧
      spaceWaits c c.posSpace u = false ∧ dmaNoFetch c u = false ∧ dmaWordAt c u = w.toNat ∧ w.toNat % 16 = 0 ∧
      bit w.toNat 4 = true ∧ c.refetch = false) ∧
    (∃ t : DT, ∃ n, ∃ w : U128, ∃ s : State, let u := advance t s; let c := getChan n u; dmaReady c = true ∧
      spaceWaits c c.posSpace u = false ∧ dmaNoFetch c u = false ∧ dmaWordAt c u = w.toNat ∧ 8 ≤ w.toNat % 16) ∧
    (∃ t : DT, ∃ n, ∃ w : U128, ∃ s : State, let u := advance t s; let c := getChan n u; dmaReady c = true ∧
      spaceWaits c c.posSpace u = false ∧ dmaNoFetch c u = false ∧ dmaWordAt c u = w.toNat ∧ 8 ≤ w.toNat % 16 ∧ c.stopRef = none) :=
  ⟨⟨second, 223, 0x2200001, atWord 0x2200001, by decide +kernel⟩,
    ⟨second, 223, 0x800000000010000002000001, atWord 0x800000000010000002000001, by decide +kernel⟩,
    ⟨second, 223, 0x800000000800000000200002, { atWord 0x800000000800000000200002 with dram := writeBytes (writeBytes [] 4096 (leBytes 16 0x800000000800000000200002)) 8192 (leBytes 16 0x100000000000000040) }, [(0, 64, 16)], by decide +kernel⟩,
    ⟨second, 223, 0x800000000800000000200003, { atWord 0x800000000800000000200003 with dram := writeBytes (writeBytes [] 4096 (leBytes 16 0x800000000800000000200003)) 8192 (leBytes 16 0x100000000000000040) }, [(0, 64, 16)], by decide +kernel⟩,
    ⟨second, 223, 0x200042, atWord 0x200042, dmaBadField, by decide +kernel⟩,
    ⟨second, 223, 0x200043, atWord 0x200043, dmaBadField, by decide +kernel⟩,
    ⟨second, 223, 0x4, atWord 0x4, by decide +kernel⟩,
    ⟨second, 223, 0x10000000004, atWord 0x10000000004, by decide +kernel⟩,
    ⟨second, 223, 0x10000000104, atWord 0x10000000104, 0, by decide +kernel⟩,
    ⟨second, 223, 0x35, atWord 0x35, by decide +kernel⟩,
    ⟨second, 223, 0x1FF00000105, atWord 0x1FF00000105, by decide +kernel⟩,
    ⟨second, 223, 0x300000146, { atWord 0x300000146 with rings := tmod {} calm.rings 3 fun r => { r with prod := 1 } }, by decide +kernel⟩,
    ⟨second, 223, 0x300000106, atWord 0x300000106, by decide +kernel⟩,
    ⟨second, 223, 0x16, atWord 0x16, by decide +kernel⟩,
    ⟨second, 223, 0x2FF00000126, atWord 0x2FF00000126, by decide +kernel⟩,
    ⟨second, 223, 0x1BF00000136, atWord 0x1BF00000136, by decide +kernel⟩,
    ⟨second, 223, 0xFFFFFFFFF00000000000000017, atWord 0xFFFFFFFFF00000000000000017, by decide +kernel⟩,
    ⟨second, 223, 0x100000000000000000000000017, atWord 0x100000000000000000000000017, by decide +kernel⟩,
    ⟨second, 223, 0x0, atWord 0x0, by decide +kernel⟩,
    ⟨second, 223, 0x10, atWord 0x10, by decide +kernel⟩,
    ⟨second, 223, 0xF, atWord 0xF, by decide +kernel⟩,
    ⟨second, 223, 0xF, atWord 0xF, by decide +kernel⟩⟩

theorem met_dma_events :
    (∃ t : DT, ∃ s : State, ∃ n, ∃ w, let u := advance t s; (getChan n u).wait = some w ∧ (getChan n u).state = 2 ∧
      waitHolds w u = true ∧ waitFirst n w u = true ∧ wbits w 5 4 = 0) ∧
    (∃ t : DT, ∃ s : State, ∃ n, ∃ w, let u := advance t s; (getChan n u).wait = some w ∧ (getChan n u).state = 2 ∧
      waitHolds w u = true ∧ waitFirst n w u = true ∧ wbits w 5 4 = 1) ∧
    (∃ t : DT, ∃ s : State, ∃ n, ∃ w, let u := advance t s; (getChan n u).wait = some w ∧ (getChan n u).state = 2 ∧
      waitHolds w u = true ∧ waitFirst n w u = true ∧ 2 ≤ wbits w 5 4) ∧
    (∃ t : DT, ∃ s : State, ∃ n, ∃ x, ∃ p, ∃ rest, let u := advance t s; let c := getChan n u; c.transfer = some x ∧
      x.pieces = p :: rest ∧ burstReady c x u = true ∧ (p.1 = 0 ∨ p.2.2.1 = 0 → dramStalled u = false) ∧
      let len := min x.burst p.2.2.2.2; let bad := p.1 = 0 ∧ (inDram p.2.1 len u = false ∨ poisonedIn p.2.1 len u = true); bad) ∧
    (∃ t : DT, ∃ s : State, ∃ n, ∃ x, ∃ p, ∃ rest, let u := advance t s; let c := getChan n u; c.transfer = some x ∧
      x.pieces = p :: rest ∧ burstReady c x u = true ∧ (p.1 = 0 ∨ p.2.2.1 = 0 → dramStalled u = false) ∧
      let len := min x.burst p.2.2.2.2; let bad := p.1 = 0 ∧ (inDram p.2.1 len u = false ∨ poisonedIn p.2.1 len u = true);
      let out := p.2.2.1 = 0 ∧ inDram p.2.2.2.1 len u = false; ¬ bad ∧ out) ∧
    (∃ t : DT, ∃ s : State, ∃ n, ∃ x, ∃ p, ∃ rest, let u := advance t s; let c := getChan n u; c.transfer = some x ∧
      x.pieces = p :: rest ∧ burstReady c x u = true ∧ (p.1 = 0 ∨ p.2.2.1 = 0 → dramStalled u = false) ∧
      let len := min x.burst p.2.2.2.2; let bad := p.1 = 0 ∧ (inDram p.2.1 len u = false ∨ poisonedIn p.2.1 len u = true);
      let out := p.2.2.1 = 0 ∧ inDram p.2.2.2.1 len u = false; ¬ bad ∧ ¬ out) ∧
    (∃ t : DT, ∃ s : State, ∃ n, ∃ x, ∃ p, ∃ rest, let u := advance t s; let c := getChan n u; c.transfer = some x ∧
      x.pieces = p :: rest ∧ burstReady c x u = true ∧ (p.1 = 0 ∨ p.2.2.1 = 0 → dramStalled u = false) ∧
      let len := min x.burst p.2.2.2.2; let bad := p.1 = 0 ∧ (inDram p.2.1 len u = false ∨ poisonedIn p.2.1 len u = true);
      let out := p.2.2.1 = 0 ∧ inDram p.2.2.2.1 len u = false; ¬ bad ∧ ¬ out ∧ p.1 = 0 ∧ p.2.2.1 = 0 ∧ x.req = false ∧ c.rate = 0) ∧
    (∃ t : DT, ∃ s : State, ∃ n, ∃ x, let u := advance t s; (getChan n u).transfer = some x ∧ x.pieces = [] ∧
      (getChan n u).state = 1 ∧ (x.flush = true → dmaHostUp (getChan n u) u = true) ∧ (getChan n u).stopRef = none) ∧
    (∃ t : DT, ∃ s : State, ∃ n, ∃ x, ∃ r, let u := advance t s; (getChan n u).transfer = some x ∧ x.pieces = [] ∧
      (getChan n u).state = 1 ∧ (x.flush = true → dmaHostUp (getChan n u) u = true) ∧ (getChan n u).stopRef = some r) ∧
    (∃ t : DT, ∃ s : State, ∃ n, ∃ x, ∃ cause, let u := advance t s; (getChan n u).transfer = some x ∧ (getChan n u).state = 1 ∧
      (cause = 1 ∨ cause = 2) ∧ burstReady (getChan n u) x u = false) ∧
    (∃ t : DT, ∃ s : State, ∃ n, ∃ x, ∃ cause, ∃ p, ∃ rest, let u := advance t s; (getChan n u).transfer = some x ∧
      (getChan n u).state = 1 ∧ (cause = 1 ∨ cause = 2) ∧ burstReady (getChan n u) x u = true ∧ x.pieces = p :: rest) ∧
    (∃ t : DT, ∃ s : State, ∃ n, let u := advance t s; dmaReady (getChan n u) = true) ∧
    (∃ t : DT, ∃ s : State, ∃ line, let u := advance t s; lineListed line = true ∧ tget 0 u.dma.lines line < 65535) ∧
    (∃ t : DT, ∃ s : State, ∃ line, let u := advance t s; lineListed line = true ∧ tget 0 u.dma.lines line = 65535) ∧
    (∃ t : DT, ∃ s : State, ∃ n, let u := advance t s; let r := getRing n u; r.created = true ∧ 0 < r.unsignalled ∧ r.modTime ≠ 0 ∧
      r.modTime * tkUs ≤ dtSub u.dt r.firstUnsignalled ∧ ringStalled r u = false) ∧
    (∃ t : DT, ∃ s : State, ∃ function, ∃ vector, let u := advance t s; let key := 64 * function + vector; key ∉ u.pcie.pendingVecs) ∧
    (∃ t : DT, ∃ s : State, ∃ function, ∃ vector, let u := advance t s; let key := 64 * function + vector;
      key ∈ u.pcie.pendingVecs ∧ u.pcie.link = true ∧ (function = 0 ∨ u.pcie.pf1Enabled = true)) :=
  ⟨⟨second, { calm with dma := { channels := [(223, { isSet := true, state := 2, wait := some 0x1FF00000105 })], lines := [(511, 1)], semaphores := [(767, 1)] } }, 223, 0x1FF00000105, by decide +kernel⟩,
    ⟨second, { calm with dma := { channels := [(223, { isSet := true, state := 2, wait := some 0x2FF00000115 })], lines := [(511, 1)], semaphores := [(767, 1)] } }, 223, 0x2FF00000115, by decide +kernel⟩,
    ⟨second, { calm with dma := { channels := [(223, { isSet := true, state := 2, wait := some 0x35 })], lines := [(511, 1)], semaphores := [(767, 1)] } }, 223, 0x35, by decide +kernel⟩,
    ⟨second, { calm with dma := { channels := [(223, { isSet := true, state := 1, transfer := some { pieces := [(0, 2 ^ 36, 0, 64, 16)], burst := 16, req := false, line := 0 } })] } },
      223, { pieces := [(0, 2 ^ 36, 0, 64, 16)], burst := 16, req := false, line := 0 }, (0, 2 ^ 36, 0, 64, 16), [], by decide +kernel⟩,
    ⟨second, { calm with dma := { channels := [(223, { isSet := true, state := 1, transfer := some { pieces := [(0, 0, 0, 2 ^ 36, 16)], burst := 16, req := false, line := 0 } })] } },
      223, { pieces := [(0, 0, 0, 2 ^ 36, 16)], burst := 16, req := false, line := 0 }, (0, 0, 0, 2 ^ 36, 16), [], by decide +kernel⟩,
    ⟨second, { calm with dma := { channels := [(223, { isSet := true, state := 1, transfer := some { pieces := [(1, 0, 0, 64, 16)], burst := 16, req := false, line := 0 } })] } },
      223, { pieces := [(1, 0, 0, 64, 16)], burst := 16, req := false, line := 0 }, (1, 0, 0, 64, 16), [], by decide +kernel⟩,
    ⟨second, { calm with dma := { channels := [(223, { isSet := true, state := 1, transfer := some { pieces := [(0, 0, 0, 64, 16)], burst := 16, req := false, line := 0 } })] } },
      223, { pieces := [(0, 0, 0, 64, 16)], burst := 16, req := false, line := 0 }, (0, 0, 0, 64, 16), [], by decide +kernel⟩,
    ⟨second, { calm with dma := { channels := [(223, { isSet := true, state := 1, transfer := some { pieces := [], burst := 16, req := false, line := 0 } })] } }, 223, { pieces := [], burst := 16, req := false, line := 0 }, by decide +kernel⟩,
    ⟨second, { calm with dma := { channels := [(223, { isSet := true, state := 1, stopRef := some { ring := 0, index := 0, tag := 0, opcode := 0x1402, quiet := false }, transfer := some { pieces := [], burst := 16, req := false, line := 0 } })] } }, 223, { pieces := [], burst := 16, req := false, line := 0 },
      { ring := 0, index := 0, tag := 0, opcode := 0x1402, quiet := false }, by decide +kernel⟩,
    ⟨second, { calm with dma := { channels := [(223, { isSet := true, state := 1, transfer := some { pieces := [(0, 0, 0, 64, 16)], burst := 16, req := true, line := 0 } })] } }, 223, { pieces := [(0, 0, 0, 64, 16)], burst := 16, req := true, line := 0 }, 2, by decide +kernel⟩,
    ⟨second, { calm with dma := { channels := [(223, { isSet := true, state := 1, transfer := some { pieces := [(0, 0, 0, 64, 16)], burst := 16, req := false, line := 0 } })] } }, 223, { pieces := [(0, 0, 0, 64, 16)], burst := 16, req := false, line := 0 }, 2, (0, 0, 0, 64, 16), [], by decide +kernel⟩,
    ⟨second, { calm with dma := { channels := [(223, { isSet := true, state := 1 })] } }, 223, by decide +kernel⟩,
    ⟨second, calm, 511, by decide +kernel⟩,
    ⟨second, { calm with dma := { lines := [(511, 65535)] } }, 511, by decide +kernel⟩,
    ⟨second, { calm with rings := tmod {} calm.rings 2 (fun r => { r with unsignalled := 1, modTime := 1000000 }) }, 2, by decide +kernel⟩,
    ⟨second, calm, 0, 2, by decide +kernel⟩,
    ⟨second, { calm with pcie := { calm.pcie with pendingVecs := [2] } }, 0, 2, by decide +kernel⟩⟩

theorem met_memory_events :
    (∃ t : DT, ∃ s : State, ∃ target, ∃ ref, ∃ taken, ∃ began, let u := advance t s;
      u.memCtl.change = some (target, ref, taken, some began) ∧ (getPll 2 u).absent = none) ∧
    (∃ t : DT, ∃ s : State, let u := advance t s; u.stone.dramWiped = true ∧ u.memCtl.training = false ∧ dramStalled u = false) ∧
    (∃ t : DT, ∃ s : State, let u := advance t s; u.memCtl.training = true) ∧
    (∃ t : DT, ∃ s : State, let u := advance t s; u.memCtl.training = true ∧ u.memCtl.change = none) ∧
    (∃ t : DT, ∃ s : State, let u := advance t s; u.stone.dramWiped = true ∧ u.memCtl.idleUs ≠ 0 ∧ dramBusy u = false ∧
      dramStalled u = false ∧ u.memCtl.idleUs * tkUs ≤ dtSub u.dt u.memCtl.lastRequest) ∧
    (∃ t : DT, ∃ s : State, let u := advance t s; refreshHeld u = false) ∧
    (∃ t : DT, ∃ s : State, ∃ channel, let u := advance t s; u.stone.dramWiped = true ∧ channel < 16 ∧ u.memCtl.selfRefresh = false) ∧
    (∃ t : DT, ∃ s : State, ∃ address, let u := advance t s; let word := address / 8 * 8; word ∉ u.memCtl.poisoned) ∧
    (∃ t : DT, ∃ s : State, ∃ address, let u := advance t s; let word := address / 8 * 8; word ∈ u.memCtl.poisoned) ∧
    (∃ t : DT, ∃ s : State, ∃ r : DramError, let u := advance t s; u.stone.dramWiped = true ∧
      let cls := requesterClass r.requester u; let anew := fun (e : LogEntry) => u.memCtl.log.length < 256 ∧
      (∀ o ∈ u.memCtl.log, sameError o e = false ∨ o.read = true ∨ tkS ≤ dtSub u.dt o.dt); r.kind = 3 ∧
      let e := newEntry u 3 cls r.channel r.row r.column r.bank r.bit r.addr; anew e ∧ (∀ p ∈ u.memCtl.ceEvent, p.1 ≠ r.channel)) ∧
    (∃ t : DT, ∃ s : State, ∃ r : DramError, let u := advance t s; u.stone.dramWiped = true ∧ r.kind = 1) ∧
    (∃ t : DT, ∃ s : State, ∃ r : DramError, let u := advance t s; u.stone.dramWiped = true ∧ r.kind = 2) ∧
    (∃ r : SramError, 1 ≤ r.block ∧ r.block ≤ 7 ∧ r.uncorrectable = true ∧ (r.block = 1 ∨ r.block = 3 ∨ r.block = 6)) ∧
    (∃ r : SramError, 1 ≤ r.block ∧ r.block ≤ 7 ∧ r.uncorrectable = true ∧ (r.block = 2 ∨ r.block = 4 ∨ r.block = 5 ∨ r.block = 7)) ∧
    (∃ t : DT, ∃ s : State, ∃ r : SramError, let u := advance t s; 1 ≤ r.block ∧ r.block ≤ 7 ∧
      let unit := r.block * 256 + r.inst % 256; r.uncorrectable = false ∧
      let w := memError (newEntry u 4 0 unit r.row 0 0 r.bit r.addr) (16 + r.block) false { u with memCtl := { u.memCtl with sramCe := satAdd u32max u.memCtl.sramCe 1, sramHistory := (u.memCtl.sramHistory.filter fun h => decide (dtSub u.dt h.2 < 86400 * tkS)) ++ [((r.block, r.inst, r.row), u.dt)] } };
      let seen := (w.memCtl.sramHistory.filter fun h => h.1 == (r.block, r.inst, r.row)).length; seen < 2) ∧
    (∃ t : DT, ∃ s : State, ∃ r : SramError, let u := advance t s; 1 ≤ r.block ∧ r.block ≤ 7 ∧
      let unit := r.block * 256 + r.inst % 256; r.uncorrectable = false ∧
      let w := memError (newEntry u 4 0 unit r.row 0 0 r.bit r.addr) (16 + r.block) false { u with memCtl := { u.memCtl with sramCe := satAdd u32max u.memCtl.sramCe 1, sramHistory := (u.memCtl.sramHistory.filter fun h => decide (dtSub u.dt h.2 < 86400 * tkS)) ++ [((r.block, r.inst, r.row), u.dt)] } };
      let seen := (w.memCtl.sramHistory.filter fun h => h.1 == (r.block, r.inst, r.row)).length; 2 ≤ seen) :=
  ⟨⟨second, { calm with memCtl := { change := some (3, { ring := 0, index := 0, tag := 0, opcode := 0x1501, quiet := false }, 0, some 0) } }, 3, { ring := 0, index := 0, tag := 0, opcode := 0x1501, quiet := false }, 0, 0, by decide +kernel⟩,
    ⟨second, calm, by decide +kernel⟩,
    ⟨second, { calm with memCtl := { training := true } }, by decide +kernel⟩,
    ⟨second, { calm with memCtl := { training := true } }, by decide +kernel⟩,
    ⟨second, calm, by decide +kernel⟩,
    ⟨second, calm, by decide +kernel⟩,
    ⟨second, calm, 15, by decide +kernel⟩,
    ⟨second, calm, 15, by decide +kernel⟩,
    ⟨second, { calm with memCtl := { poisoned := [8] } }, 15, by decide +kernel⟩,
    ⟨second, calm, { kind := 3, requester := .scrub, channel := 15, bank := 15, row := 0, column := 0, bit := 0, addr := 0 }, by decide +kernel⟩,
    ⟨second, calm, { kind := 1, requester := .scrub, channel := 15, bank := 15, row := 0, column := 0, bit := 0, addr := 0 }, by decide +kernel⟩,
    ⟨second, calm, { kind := 2, requester := .scrub, channel := 15, bank := 15, row := 0, column := 0, bit := 0, addr := 0 }, by decide +kernel⟩,
    ⟨{ block := 6, inst := 0, row := 0, addr := 0, bit := 0, uncorrectable := true }, by decide +kernel⟩,
    ⟨{ block := 7, inst := 0, row := 0, addr := 0, bit := 0, uncorrectable := true }, by decide +kernel⟩,
    ⟨second, calm, { block := 7, inst := 0, row := 0, addr := 0, bit := 0, uncorrectable := false }, by decide +kernel⟩,
    ⟨second, { calm with memCtl := { sramHistory := [((7, 0, 0), 0)] } }, { block := 7, inst := 0, row := 0, addr := 0, bit := 0, uncorrectable := false }, by decide +kernel⟩⟩

theorem met_link_events :
    (∃ t : DT, ∃ s : State, ∃ width, ∃ rate, let u := advance t s; ¬ (u.pcie.width = width ∧ u.pcie.rate = rate) ∧ 8 ≤ width ∧
      32 ≤ rate) ∧
    (∃ t : DT, ∃ s : State, ∃ width, ∃ rate, let u := advance t s; ¬ (u.pcie.width = width ∧ u.pcie.rate = rate) ∧
      (width < 8 ∨ rate < 32)) ∧
    (∃ t : DT, ∃ s : State, ∃ port, ∃ up, let u := advance t s; (getPort port u).mode ≠ 0 ∧ (getPort port u).up ≠ up) ∧
    (∃ t : DT, ∃ s : State, ∃ port, ∃ frame : FrameKind, let u := advance t s; (getPort port u).up = true ∧
      (frame = .arp ∨ frame = .neighbour ∨ frame = .icmp) ∧ u.steward.running = true) ∧
    (∃ t : DT, ∃ s : State, ∃ port, ∃ frame : FrameKind, let u := advance t s; (getPort port u).up = true ∧ frame = .ptp ∧
      bit (getPort port u).options 0 = true) ∧
    (∃ t : DT, ∃ s : State, ∃ port, ∃ frame : FrameKind, let u := advance t s; (getPort port u).up = true ∧ frame = .other) ∧
    (∃ t : DT, ∃ s : State, ∃ ring, ∃ c, let u := advance t s; let u := settle (· == .stream ring) u; let r := getRing ring u;
      r.stream = some c ∧ ringHeld r ≠ 0 ∧ r.stopped = false ∧ ringReach r u = true ∧ (getPort c.port u).up = true) ∧
    (∃ t : DT, ∃ s : State, ∃ ring, ∃ c, let u := advance t s; let u := settle (· == .stream ring) u; let r := getRing ring u;
      r.stream = some c ∧ ringHeld r ≠ 0 ∧ r.stopped = false ∧ ringReach r u = true ∧ (getPort c.port u).up = false) ∧
    (∃ t : DT, ∃ s : State, ∃ ring, ∃ d, let u := advance t s; (getRing ring u).dropEvent = some d ∧ tkS ≤ dtSub u.dt d ∧
      0 < (getRing ring u).drops) ∧
    (∃ t : DT, ∃ s : State, ∃ ring, ∃ c, ∃ next, ∃ base, let u := advance t s; let u := settle (· == .stream ring) u;
      let r := getRing ring u; let p := outPeriod c.path (getDdc c.path u).decim;
      let ts := (List.range (vdifSamples c)).map fun i => next.toNat + i * p; r.vdif = some c ∧ r.vdifNext = some next ∧
      r.vdifSecond = some base ∧ (getDdc c.path u).enable = true ∧ vdifSkip c.path p (vdifSamples c) next.toNat u = 0 ∧
      (∀ x ∈ ts, (groupAt c.path p x u).isSome = true)) ∧
    (∃ t : DT, ∃ s : State, ∃ d, let u := advance t s; let n := u.endpoint.ring; fromPeer d u = true ∧ d.kind = 1 ∧ d.ring = n ∧
      d.count = d.entries.length ∧ d.seq = (u.endpoint.lastSeq + 1).toNat ∧ d.first = (getRing n u).prod.toNat ∧
      ringHeld (getRing n u) + d.count ≤ ringSize (getRing n u)) ∧
    (∃ t : DT, ∃ s : State, ∃ d, ∃ p, let u := advance t s; fromPeer d u = true ∧ d.kind = 4 ∧ d.count = 0 ∧
      u.endpoint.port = some p) :=
  ⟨⟨second, { calm with pcie := { calm.pcie with width := 4 } }, 8, 32, by decide +kernel⟩,
    ⟨second, calm, 4, 32, by decide +kernel⟩,
    ⟨second, { calm with port := [(3, { mode := 1, up := true })] }, 3, false, by decide +kernel⟩,
    ⟨second, { calm with port := [(3, { mode := 1, up := true, options := 1 })] }, 3, .icmp, by decide +kernel⟩,
    ⟨second, { calm with port := [(3, { mode := 1, up := true, options := 1 })] }, 3, .ptp, by decide +kernel⟩,
    ⟨second, { calm with port := [(3, { mode := 1, up := true, options := 1 })] }, 3, .other, by decide +kernel⟩,
    ⟨second, { calm with port := [(3, { mode := 1, up := true })], rings := tmod {} calm.rings 3 (fun r => { r with stream := some { port := 3, vdif := false, ipv6 := false, dscp := 0, vlan := 0xFFFF, dstUdp := 0, dstMac := 0, srcUdp := 0, dstIp := 0 }, prod := 1 }) }, 3,
      { port := 3, vdif := false, ipv6 := false, dscp := 0, vlan := 0xFFFF, dstUdp := 0, dstMac := 0, srcUdp := 0, dstIp := 0 }, by decide +kernel⟩,
    ⟨second, { calm with port := [(3, { mode := 1, up := false })], rings := tmod {} calm.rings 3 (fun r => { r with stream := some { port := 3, vdif := false, ipv6 := false, dscp := 0, vlan := 0xFFFF, dstUdp := 0, dstMac := 0, srcUdp := 0, dstIp := 0 }, prod := 1 }) }, 3,
      { port := 3, vdif := false, ipv6 := false, dscp := 0, vlan := 0xFFFF, dstUdp := 0, dstMac := 0, srcUdp := 0, dstIp := 0 }, by decide +kernel⟩,
    ⟨second, { calm with rings := tmod {} calm.rings 3 (fun r => { r with dropEvent := some 0, drops := 1 }) }, 3, 0, by decide +kernel⟩,
    ⟨second, { calm with ddc := [(0, { enable := true, nextGroup := 128, groups := [{ dt := 0, flags := 0, valid := 0, range := 0 }] })], rings := tmod {} calm.rings 3 (fun r => { r with vdif := some { path := 0, bits := 16, thread := 0, station := 0, payload := 8, thresh := 1, leap := 0, refEpoch := 0 }, vdifNext := some 0, vdifSecond := some 0 }) }, 3,
      { path := 0, bits := 16, thread := 0, station := 0, payload := 8, thresh := 1, leap := 0, refEpoch := 0 }, 0, 0, by decide +kernel⟩,
    ⟨second, { calm with endpoint := { port := some 3, ring := 3 }, port := [(3, { up := true })] }, { port := 3, srcIp := 0, srcUdp := 0, magic := 0x4347, kind := 1, count := 1, seq := 0, ring := 3, first := 0, entries := [0] }, by decide +kernel⟩,
    ⟨second, { calm with endpoint := { port := some 3, ring := 3 }, port := [(3, { up := true })] },
      { port := 3, srcIp := 0, srcUdp := 0, magic := 0x4347, kind := 4, count := 0, seq := 0, ring := 3, first := 0, entries := [] }, 3, by decide +kernel⟩⟩

theorem met_display_events :
    (∃ t : DT, ∃ s : State, let u := advance t s; u.disp.mode.output ≠ 0 ∧ let v := pllRun 3 u.disp.mode.pclk u; framesOut v = true) ∧
    (∃ t : DT, ∃ s : State, let u := advance t s; framesOut u = true ∧ u.disp.frame ≠ 0 ∧ u.disp.modeChange = none) ∧
    (∃ t : DT, ∃ s : State, ∃ underflow : List Nat, let u := advance t s; framesOut u = true ∧ u.disp.frame ≠ 0 ∧
      let w := if scansOut u = true then underflows (underflow.take 4) u else u;
      let v := settle (fun _ => false) { w with disp := { w.disp with update := [] } }; displayAnchored v = [] ∧ displayDue v = []) ∧
    (∃ t : DT, ∃ s : State, ∃ underflow : List Nat, let u := advance t s; framesOut u = true ∧ u.disp.frame ≠ 0 ∧
      let w := if scansOut u = true then underflows (underflow.take 4) u else u;
      let v := settle (fun _ => false) { w with disp := { w.disp with update := [] } }; displayAnchored v = [] ∧ displayDue v = [] ∧
      v.disp.psrMode = 0) ∧
    (∃ t : DT, ∃ s : State, ∃ underflow : List Nat, let u := advance t s; framesOut u = true ∧ u.disp.frame ≠ 0 ∧
      let w := if scansOut u = true then underflows (underflow.take 4) u else u;
      let v := settle (fun _ => false) { w with disp := { w.disp with update := [] } }; displayAnchored v = [] ∧ displayDue v ≠ []) ∧
    (∃ t : DT, ∃ s : State, let u := advance t s; u.fuse.display = true ∧ u.disp.sink = true) ∧
    (∃ t : DT, ∃ s : State, let u := advance t s; u.fuse.display = true ∧ u.disp.sink = false) ∧
    (∃ t : DT, ∃ s : State, let u := advance t s; u.disp.mode.output ≠ 0 ∧ (getPll 3 u).absent = none ∧ u.disp.sink = true ∧
      u.disp.link = false ∧ u.disp.retries < 3 ∧ (∀ m ∈ u.disp.modeChange, m.2 = false)) ∧
    (∃ t : DT, ∃ s : State, ∃ late, let u := advance t s; u.disp.mode.output ≠ 0 ∧ (getPll 3 u).absent = none ∧
      u.disp.sink = true ∧ u.disp.link = false ∧ u.disp.retries < 3 ∧ u.disp.modeChange = some (late, true)) ∧
    (∃ t : DT, ∃ s : State, let u := advance t s; u.disp.mode.output ≠ 0 ∧ (getPll 3 u).absent = none ∧ u.disp.sink = true ∧
      u.disp.link = false ∧ u.disp.retries < 3 ∧ (u.disp.modeChange = none ∨ u.disp.retries < 2)) ∧
    (∃ t : DT, ∃ s : State, ∃ late, let u := advance t s; u.disp.mode.output ≠ 0 ∧ (getPll 3 u).absent = none ∧
      u.disp.sink = true ∧ u.disp.link = false ∧ u.disp.retries < 3 ∧ u.disp.modeChange = some (late, true) ∧ u.disp.retries = 2) :=
  ⟨⟨second, { calm with disp := { mode := { output := 1, h := [64, 0, 0, 0], v := [64, 0, 0, 0] }, frame := 0 } }, by decide +kernel⟩,
    ⟨second, { calm with disp := { mode := { output := 2 }, frame := 1 } }, by decide +kernel⟩,
    ⟨second, { calm with disp := { mode := { output := 1, h := [64, 0, 0, 0], v := [64, 0, 0, 0] }, frame := 1 } }, [], by decide +kernel⟩,
    ⟨second, { calm with disp := { mode := { output := 1, h := [64, 0, 0, 0], v := [64, 0, 0, 0] }, frame := 1 } }, [], by decide +kernel⟩,
    ⟨second, { calm with disp := { mode := { output := 1, h := [64, 0, 0, 0], v := [64, 0, 0, 0] }, frame := 1 }, bunch := { table := [(63, { state := .landing, members := [{ windowMember with claim := { cls := 0xE, inst := 0 }, write := .dispPsr 0 2 }] })] } }, [], by decide +kernel⟩,
    ⟨second, { calm with disp := { sink := true } }, by decide +kernel⟩,
    ⟨second, calm, by decide +kernel⟩,
    ⟨second, { calm with disp := { mode := { output := 1, h := [64, 0, 0, 0], v := [64, 0, 0, 0] }, sink := true, retries := 2 } }, by decide +kernel⟩,
    ⟨second, { calm with disp := { mode := { output := 1, h := [64, 0, 0, 0], v := [64, 0, 0, 0] }, sink := true, retries := 2, modeChange := some (true, true) } }, true, by decide +kernel⟩,
    ⟨second, { calm with disp := { mode := { output := 1, h := [64, 0, 0, 0], v := [64, 0, 0, 0] }, sink := true, retries := 1, modeChange := some (true, true) } }, by decide +kernel⟩,
    ⟨second, { calm with disp := { mode := { output := 1, h := [64, 0, 0, 0], v := [64, 0, 0, 0] }, sink := true, retries := 2, modeChange := some (true, true) } }, true, by decide +kernel⟩⟩

theorem met_health_events :
    (∃ t : DT, ∃ s : State, ∃ sensor, ∃ centi, let u := advance t s;
      let r := tempStep u.health.tempWarn (tget 0 u.health.tempLevel sensor) centi; r.2 = none) ∧
    (∃ t : DT, ∃ s : State, ∃ sensor, ∃ centi, ∃ sev, let u := advance t s;
      let r := tempStep u.health.tempWarn (tget 0 u.health.tempLevel sensor) centi; r.2 = some sev) ∧
    (∃ t : DT, ∃ s : State, ∃ n, let u := advance t s; rotationHeld 1 u = false ∧ u.health.admitted = true ∧
      u.health.firstTest = false ∧ n = nextPipVisit u ∧ pipHealthy n u = true ∧ (getPip n u).state = .spare) ∧
    (∃ t : DT, ∃ s : State, ∃ n, ∃ k, let u := advance t s; rotationHeld 1 u = false ∧ u.health.admitted = true ∧
      u.health.firstTest = false ∧ n = nextPipVisit u ∧ pipHealthy n u = true ∧ let p := (getPip n u).personality;
      (getPip n u).state = .assigned ∧ idlePip u = some k ∧ hostHolds { cls := 3, inst := p } u = false) ∧
    (∃ t : DT, ∃ s : State, ∃ n, ∃ k, let u := advance t s; rotationHeld 1 u = false ∧ u.health.admitted = true ∧
      u.health.firstTest = false ∧ n = nextPipVisit u ∧ pipHealthy n u = true ∧ let p := (getPip n u).personality;
      (getPip n u).state = .assigned ∧ idlePip u = some k ∧ hostHolds { cls := 3, inst := p } u = true) ∧
    (∃ t : DT, ∃ s : State, ∃ n, let u := advance t s; rotationHeld 2 u = false ∧ u.health.admitted = true ∧
      u.health.firstTest = false ∧ n = nextCurrantVisit u ∧ currantHealthy n u = true ∧ (getCurrant n u).state = .spare) ∧
    (∃ t : DT, ∃ s : State, ∃ n, ∃ k, let u := advance t s; rotationHeld 2 u = false ∧ u.health.admitted = true ∧
      u.health.firstTest = false ∧ n = nextCurrantVisit u ∧ currantHealthy n u = true ∧ let p := (getCurrant n u).personality;
      let claim : Claim := { cls := if dasRuns (p - 4) u then 0xA else 0xB, inst := p - 4 }; (getCurrant n u).state = .assigned ∧
      idleCurrant u = some k ∧ hostHolds claim u = false) ∧
    (∃ t : DT, ∃ s : State, ∃ n, let u := advance t s; u.steward.running = true ∧ u.health.firstTest = false ∧
      pipHealthy n u = true ∧ (getPip n u).state = .inTest) ∧
    (∃ t : DT, ∃ s : State, ∃ n, let u := advance t s; u.steward.running = true ∧ u.health.firstTest = false ∧
      currantHealthy n u = true ∧ (getCurrant n u).state = .inTest) ∧
    (∃ t : DT, ∃ s : State, ∃ n, ∃ sp, let u := advance t s; orxHealthy n u = true ∧ fibreRuns (n / 2) u = true ∧
      planeRuns u = true ∧ orxSwapHere n u = true ∧ (getOrx n u).spare = some sp) ∧
    (∃ t : DT, ∃ s : State, ∃ n, ∃ ppm, let u := advance t s; orxHealthy n u = true ∧ fibreRuns (n / 2) u = true ∧
      planeRuns u = true ∧ let v := orxFault n ppm u; orxSwapHere n v = false) ∧
    (∃ t : DT, ∃ s : State, ∃ dac, ∃ ppm : Int, let u := advance t s; dacHealthy dac u = true ∧ u.steward.running = true ∧
      ppm.natAbs ≤ 20000) ∧
    (∃ t : DT, ∃ s : State, ∃ dac, ∃ ppm : Int, let u := advance t s; dacHealthy dac u = true ∧ u.steward.running = true ∧
      let n := tget 0 u.health.loopFails dac + 1; 20000 < ppm.natAbs ∧ n ≠ 2) ∧
    (∃ t : DT, ∃ s : State, ∃ dac, ∃ ppm : Int, let u := advance t s; dacHealthy dac u = true ∧ u.steward.running = true ∧
      let n := tget 0 u.health.loopFails dac + 1; 20000 < ppm.natAbs ∧ n = 2) ∧
    (∃ t : DT, ∃ s : State, ∃ die, ∃ milliDy : Int, let u := advance t s; tget false u.power.dies die = true ∧
      u.steward.running = true ∧ milliDy.natAbs ≤ 50) ∧
    (∃ t : DT, ∃ s : State, ∃ die, ∃ milliDy : Int, let u := advance t s; tget false u.power.dies die = true ∧
      u.steward.running = true ∧ 50 < milliDy.natAbs ∧ milliDy.natAbs ≤ 250) ∧
    (∃ t : DT, ∃ s : State, ∃ die, ∃ milliDy : Int, let u := advance t s; tget false u.power.dies die = true ∧
      u.steward.running = true ∧ 250 < milliDy.natAbs) ∧
    (∃ t : DT, ∃ s : State, let u := advance t s; u.steward.running = true) ∧
    (∃ t : DT, ∃ s : State, let u := advance t s; u.steward.running = true ∧ u.slow.job ≠ none) :=
  ⟨⟨second, calm, 3, 9500, by decide +kernel⟩,
    ⟨second, calm, 3, 9501, 1, by decide +kernel⟩,
    ⟨second, { calm with health := { calm.health with nextPip := 35, pips := [(35, { state := .spare })] } }, 35, by decide +kernel⟩,
    ⟨second, { calm with health := { calm.health with nextPip := 35, pips := [(0, { state := .spare }), (35, { state := .assigned, personality := 3 })] } }, 35, 0, by decide +kernel⟩,
    ⟨second, { calm with health := { calm.health with nextPip := 35, pips := [(0, { state := .spare }), (35, { state := .assigned, personality := 3 })] }, bunch := { table := [(0, { state := .opened, members := [{ windowMember with claim := { cls := 3, inst := 3 } }] })] } }, 35, 0, by decide +kernel⟩,
    ⟨second, { calm with health := { calm.health with nextCurrant := 17, currants := [(17, { state := .spare })] } }, 17, by decide +kernel⟩,
    ⟨second, { calm with health := { calm.health with nextCurrant := 17, currants := [(0, { state := .spare }), (17, { state := .assigned, personality := 5 })] }, fibre := [(1, { das := true })] }, 17, 0, by decide +kernel⟩,
    ⟨second, { calm with health := { calm.health with pips := [(35, { state := .inTest })] } }, 35, by decide +kernel⟩,
    ⟨second, { calm with health := { calm.health with currants := [(17, { state := .inTest })] } }, 17, by decide +kernel⟩,
    ⟨second, { calm with fibre := [(1, { dts := true })], orx := [(3, { swapDue := second, input := [(second, [])], spare := some 4 })] }, 3, 4, by decide +kernel⟩,
    ⟨second, { calm with fibre := [(1, { dts := true })] }, 3, 1000000, by decide +kernel⟩,
    ⟨second, calm, 1, -20000, by decide +kernel⟩,
    ⟨second, calm, 1, 20001, by decide +kernel⟩,
    ⟨second, { calm with health := { calm.health with loopFails := [(1, 1)] } }, 1, 20001, by decide +kernel⟩,
    ⟨second, calm, 1, -50, by decide +kernel⟩,
    ⟨second, calm, 1, 250, by decide +kernel⟩,
    ⟨second, calm, 1, -251, by decide +kernel⟩,
    ⟨second, calm, by decide +kernel⟩,
    ⟨second, { calm with slow := { calm.slow with job := some (.scan 0) } }, by decide +kernel⟩⟩

theorem met_steward_events :
    (∃ t : DT, ∃ s : State, let u := advance t s; u.stone.stage = .ready ∧ u.steward.running = true) ∧
    (∃ t : DT, ∃ s : State, ∃ cause, ∃ since, let u := advance t s; u.steward.outage = some (cause, since)) ∧
    (∃ t : DT, ∃ s : State, ∃ cause, ∃ since, let u := advance t s; u.steward.outage = some (cause, since) ∧ cause ≠ 3 ∧ cause ≠ 4) ∧
    (∃ t : DT, ∃ s : State, ∃ cause, ∃ since, let u := advance t s; u.steward.running = false ∧ u.stone.stage = .ready ∧
      u.steward.outage = some (cause, since) ∧ 2 * tkS ≤ dtSub u.dt since) ∧
    (∃ t : DT, ∃ s : State, ∃ since, ∃ h, let u := advance t s; u.steward.outage = some (3, since) ∧ u.steward.handover = some h ∧
      500 * tkMs ≤ dtSub u.dt since) :=
  ⟨⟨second, calm, by decide +kernel⟩,
    ⟨second, { calm with steward := { outage := some (1, 0) } }, 1, 0, by decide +kernel⟩,
    ⟨second, { calm with steward := { outage := some (1, 0) } }, 1, 0, by decide +kernel⟩,
    ⟨2 * second, { calm with steward := { outage := some (1, 0) } }, 1, 0, by decide +kernel⟩,
    ⟨second, { calm with steward := { outage := some (3, 0), handover := some { ref := { ring := 0, index := 0, tag := 0, opcode := 0x1501, quiet := false }, sec := 0, len := 4096, image := [], oldImage := [] } } }, 0, { ref := { ring := 0, index := 0, tag := 0, opcode := 0x1501, quiet := false }, sec := 0, len := 4096, image := [], oldImage := [] }, by decide +kernel⟩⟩

theorem met_power_events :
    (∃ t : DT, ∃ s : State, let u := advance t s; u.power.state = .active ∧ domainUsed u = false ∧ u.steward.running = true) ∧
    (∃ t : DT, ∃ s : State, ∃ deep, let u := advance t s; u.power.entering = some deep ∧
      let v := dramResumed (each [0, 1, 2, 3] pllStop (domainsDown (laserCut u)));
      let w := alignedSettle { v with dram := if deep = .off then [] else v.dram, memCtl := { v.memCtl with selfRefresh := true, poisoned := if deep = .off then [] else v.memCtl.poisoned }, clock := { v.clock with relock := none }, steward := { v.steward with running := false }, power := { v.power with state := deep, entering := none } };
      w.power.wakePending = 0) ∧
    (∃ t : DT, ∃ s : State, ∃ deep, let u := advance t s; u.power.entering = some deep ∧
      let v := dramResumed (each [0, 1, 2, 3] pllStop (domainsDown (laserCut u)));
      let w := alignedSettle { v with dram := if deep = .off then [] else v.dram, memCtl := { v.memCtl with selfRefresh := true, poisoned := if deep = .off then [] else v.memCtl.poisoned }, clock := { v.clock with relock := none }, steward := { v.steward with running := false }, power := { v.power with state := deep, entering := none } };
      w.power.wakePending ≠ 0) ∧
    (∃ t : DT, ∃ s : State, ∃ deep, let u := advance t s; u.power.entering = some deep) ∧
    (∃ t : DT, ∃ s : State, ∃ sources, let u := advance t s; u.power.entering = none ∧ asleep u = true ∧
      u.stone.restoring = false ∧ let fired := wakeFired u.power.state sources u; fired = 0) ∧
    (∃ t : DT, ∃ s : State, ∃ sources, let u := advance t s; u.power.entering = none ∧ asleep u = true ∧
      u.stone.restoring = false ∧ let fired := wakeFired u.power.state sources u; fired ≠ 0 ∧ u.power.state ≠ .standby) ∧
    (∃ t : DT, ∃ s : State, ∃ sources, let u := advance t s; u.power.entering = none ∧ asleep u = true ∧
      u.stone.restoring = false ∧ let fired := wakeFired u.power.state sources u; fired ≠ 0 ∧ u.power.state = .standby) ∧
    (∃ t : DT, ∃ s : State, let u := advance t s; u.stone.restoring = true) :=
  ⟨⟨second, calm, by decide +kernel⟩,
    ⟨second, { calm with power := { calm.power with entering := some .off } }, .off, by decide +kernel⟩,
    ⟨second, { calm with power := { calm.power with entering := some .standby, wakePending := 1 } }, .standby, by decide +kernel⟩,
    ⟨second, { calm with power := { calm.power with entering := some .standby } }, .standby, by decide +kernel⟩,
    ⟨second, { calm with power := { calm.power with state := .standby } }, 0, by decide +kernel⟩,
    ⟨second, { calm with power := { calm.power with state := .off } }, 1, by decide +kernel⟩,
    ⟨second, { calm with power := { calm.power with state := .standby } }, 1, by decide +kernel⟩,
    ⟨second, { calm with stone := { calm.stone with restoring := true } }, by decide +kernel⟩⟩

end Sys2Proof.Tests
end

/-! # Memory, absent units and the DEV commands

First what later proofs share: the bunches that an answer leaves alone, and what a taken command comes to when it is a
status command, a configuration command of an absent unit, or one that only PF0 may send. Then the statements themselves. -/

namespace Sys2Proof.Machine

/-! ## An answer leaves every bunch but those of direct commands (R46, R50) -/

theorem tget_filter_of_kept {α : Type} (d : α) (p : Nat × α → Bool) (t : Table α) (k : Nat) (h : p (k, tget d t k) = true) :
    tget d (t.filter p) k = tget d t k := by
  induction t with
  | nil => rfl
  | cons e rest ih =>
    obtain ⟨i, v⟩ := e
    by_cases hik : i = k
    · subst hik
      have hv : p (i, v) = true := by simpa [tget] using h
      rw [List.filter_cons_of_pos hv]
      simp [tget]
    · have hrest : tget d (rest.filter p) k = tget d rest k := ih (by simpa [tget, hik] using h)
      by_cases hp : p (i, v) = true
      · rw [List.filter_cons_of_pos hp]
        simp [tget, hik, hrest]
      · rw [List.filter_cons_of_neg hp, hrest]
        simp [tget, hik]

@[simp] theorem sendMsi_bunch (f v : Nat) (s : State) : (sendMsi f v s).bunch = s.bunch := by
  unfold sendMsi
  dsimp only
  split
  · split <;> rfl
  · split <;> rfl

@[simp] theorem signalRing_bunch (n : Nat) (s : State) : (signalRing n s).bunch = s.bunch := by simp [signalRing]

@[simp] theorem endpointSend_bunch (n first count : Nat) (s : State) : (endpointSend n first count s).bunch = s.bunch := by
  unfold endpointSend
  dsimp only
  split
  · rfl
  · split
    · split <;> rfl
    · rfl

@[simp] theorem storeAt_bunch (l a : Nat) (bs : List Byte) (s : State) : (storeAt l a bs s).bunch = s.bunch := by
  unfold storeAt unpoison
  split
  · rfl
  · split <;> rfl

@[simp] theorem publishMany_bunch (n count : Nat) (s : State) : (publishMany n count s).bunch = s.bunch := by
  unfold publishMany
  dsimp only
  split <;> simp

@[simp] theorem publish_bunch (n : Nat) (bs : List Byte) (s : State) : (publish n bs s).bunch = s.bunch := by simp [publish]

@[simp] theorem getBunch_publish (k n : Nat) (bs : List Byte) (s : State) : getBunch k (publish n bs s) = getBunch k s := by
  simp [getBunch]

/-- R50: an answer frees only the bunch of its own direct command. -/
theorem getBunch_freeDirect {id : Nat} {s : State} (ref : CmdRef) (h : (getBunch id s).direct = none) :
    getBunch id (freeDirect ref s) = getBunch id s := by
  refine tget_filter_of_kept _ _ _ _ ?_
  change (!(decide ((getBunch id s).direct = some ref) && _)) = true
  simp [h]

theorem getBunch_flushCompletions (n k : Nat) {id : Nat} {s : State} (h : (getBunch id s).direct = none) :
    getBunch id (flushCompletions n k s) = getBunch id s := by
  induction k generalizing s with
  | zero => rfl
  | succ k ih =>
    have hpop : ∀ ref rest, getBunch id (freeDirect ref (modRing n (fun r => { r with inflight := rest }) s)) = getBunch id s :=
      fun ref _ => getBunch_freeDirect ref h
    unfold flushCompletions
    dsimp only
    split
    · rfl
    · split
      · next ref d rest _ =>
        split
        · rw [ih (by rw [hpop]; exact h), hpop]
        · split
          · rw [ih (by rw [getBunch_publish, hpop]; exact h), getBunch_publish, hpop]
          · rfl
      · rfl

theorem getBunch_fail (ref : CmdRef) (status reason : Nat) {id : Nat} {s : State} (h : (getBunch id s).direct = none) :
    getBunch id (fail ref status reason s) = getBunch id s := by
  unfold fail complete
  split
  · rfl
  · exact getBunch_flushCompletions _ _ h

/-- The bunch a member command names stays its master's open bunch through an answer. -/
theorem ownBunch_fail (ref : CmdRef) (status reason : Nat) {x : Ctx} {s : State} (h : ownBunch x s = true) :
    ownBunch x (fail ref status reason s) = true := by
  have hd : (getBunch x.bunchId s).direct = none := by
    simp only [ownBunch, Bool.and_eq_true, Option.isNone_iff_eq_none] at h
    exact h.2
  unfold ownBunch at *
  rw [getBunch_fail ref status reason hd]
  exact h

/-! ## Member commands that fail (R3, R52, R64) -/

theorem memberFail_alone {unit : Nat} {c : Cmd} {s : State} (cause status reason : Nat) (u : State) (h : Alone unit c) :
    memberFail (ctxOf c s) cause status reason u = fail (ctxOf c s).ref status reason u := by
  simp [memberFail, alone_inBunch s h]

theorem memberFail_joining {id unit : Nat} {c : Cmd} {s u : State} (cause status reason : Nat) (h : Joining id unit c)
    (hown : ownBunch (ctxOf c s) u = true) :
    memberFail (ctxOf c s) cause status reason u =
      abortBunch id cause status reason (ctxOf c s).opcode (c.u32 4) (fail (ctxOf c s).ref status reason u) := by
  have hid : (ctxOf c s).bunchId = id := h.2.1
  simp only [memberFail, joining_inBunch s h, ownBunch_fail _ status reason hown, Bool.and_self, if_true, hid, ctxOf_e]

/-- R3: a configuration command with a right entry whose unit is absent fails with ABSENT. -/
theorem clashCommand_absent {op : Nat} {rule : UnitRule} {wrong clash : Ctx → State → State → Checks} {absent : Ctx → State → Bool}
    {c : Cmd} {s : State} (busy : Ctx → State → State → Bool) (members : Ctx → State → List Member) (result : Ctx → State → Nat)
    (h : Sent op c s) (he : badOffset (envelope true rule (ctxOf c s)) = none)
    (hown : (ctxOf c s).inBunch = true → ownBunch (ctxOf c s) (taken c s) = true)
    (hfull : (ctxOf c s).inBunch = true →
      bunchWrites (ctxOf c s).bunchId s + ((members (ctxOf c s) (taken c s)).map (·.weight)).sum ≤ 256)
    (hw : badOffset (wrong (ctxOf c s) (taken c s) (planned (taken c s))) = none)
    (ha : absent (ctxOf c s) (taken c s) = true) :
    clashCommand op rule wrong clash absent busy members result c s = memberFail (ctxOf c s) 1 stAbsent 0 (taken c s) := by
  have hwrites : bunchWrites (ctxOf c s).bunchId (taken c s) = bunchWrites (ctxOf c s).bunchId s := by simp [bunchWrites]
  have hchecks : badOffset ((8, (ctxOf c s).inBunch && decide (256 < bunchWrites (ctxOf c s).bunchId (taken c s) +
      ((members (ctxOf c s) (taken c s)).map (·.weight)).sum)) :: memberChecks rule wrong clash absent (ctxOf c s) (taken c s)) = none := by
    cases hin : (ctxOf c s).inBunch with
    | false => simp [memberChecks, he, hw, ha, hin]
    | true => simp [memberChecks, he, hw, ha, hin, hown hin, hwrites, hfull hin]
  rw [clashCommand, takeCommand_sent _ h]
  dsimp only
  rw [hchecks]
  simp only [ha, if_true]

/-! ## Status commands -/

theorem statusCommand_absent {op : Nat} {rule : UnitRule} {unit : Nat} {absent : Ctx → State → Bool} {c : Cmd} {s : State}
    (record : Ctx → State → List Byte) (h : Sent op c s) (hal : Alone unit c) (hu : unitWrong rule unit = false)
    (hz : ZeroBytes c.entry 24 64) (ha : absent (ctxOf c s) (taken c s) = true) :
    statusCommand op rule absent record c s = fail (ctxOf c s).ref stAbsent 0 (taken c s) := by
  rw [statusCommand, plainCommand_sent _ _ h hal hu ((badOffset_reserved _ _ _).2 hz), if_pos ha]

theorem statusCommand_present {op : Nat} {rule : UnitRule} {unit : Nat} {absent : Ctx → State → Bool} {c : Cmd} {s : State}
    (record : Ctx → State → List Byte) (h : Sent op c s) (hal : Alone unit c) (hu : unitWrong rule unit = false)
    (hz : ZeroBytes c.entry 24 64) (ha : absent (ctxOf c s) (taken c s) = false) :
    statusCommand op rule absent record c s =
      done c s 0 (toHost (c.u64 16) (record (ctxOf c s) (taken c s)) (taken c s)) := by
  rw [statusCommand, plainCommand_sent _ _ h hal hu ((badOffset_reserved _ _ _).2 hz), if_neg (by simp [ha])]
  rfl

/-! ## Commands that only PF0 may send (R328, R364, R371) -/

theorem pf0Only_of_pf0 {c : Cmd} {s : State} (go : Ctx → State → State) (u : State) (h : (getRing c.ring s).master = .pf0) :
    pf0Only go (ctxOf c s) u = go (ctxOf c s) u := if_pos h

/-! ## The commands' rows -/

theorem exec_rfStatus (c : Cmd) (s : State) : exec (.rfStatus c) s = .next (rfStatus c s) := rfl
theorem exec_genStatus (c : Cmd) (s : State) : exec (.genStatus c) s = .next (genStatus c s) := rfl
theorem exec_dasStatus (c : Cmd) (s : State) : exec (.dasStatus c) s = .next (dasStatus c s) := rfl
theorem exec_dispStatus (c : Cmd) (s : State) : exec (.dispStatus c) s = .next (dispStatus c s) := rfl
theorem exec_specSetWindow (c : Cmd) (s : State) : exec (.specSetWindow c) s = .next (specSetWindow c s) := rfl
theorem exec_devInfo (c : Cmd) (s : State) : exec (.devInfo c) s = .next (devInfo c s) := rfl
theorem exec_devCaps (c : Cmd) (s : State) : exec (.devCaps c) s = .next (devCaps c s) := rfl
theorem exec_devReset (c : Cmd) (s : State) : exec (.devReset c) s = .next (devReset c s) := rfl
theorem exec_devSetWindow (c : Cmd) (s : State) : exec (.devSetWindow c) s = .next (devSetWindow c s) := rfl
theorem exec_devUpdate (c : Cmd) (s : State) : exec (.devUpdate c) s = .next (devUpdate c s) := rfl
theorem exec_devSetPower (c : Cmd) (d : Bool) (s : State) : exec (.devSetPower c d) s = .next (devSetPower d c s) := rfl

/-! ## Memory -/

/-- Settles O9, from the laws of writing and zeroing a range of memory. -/
theorem memoryReadsBack : Obligations.MemoryReadsBack := by
  intro m a bs
  refine ⟨fun hwf => ⟨wf_writeBytes m a bs hwf, wf_zeroRange a bs.length m hwf⟩, readBytes_writeBytes m a bs, ?_, ?_⟩
  · intro x hx
    refine ⟨readByte_writeBytes_outside m a x bs hx, ?_⟩
    rw [readByte_zeroRange, if_neg (by omega)]
  · intro x hlo hhi
    rw [readByte_zeroRange, if_pos ⟨hlo, hhi⟩]

/-! ## Absent units (R3) -/

theorem rfStatus_absent {c : Cmd} {s : State} (hz : ZeroBytes c.entry 24 64) (h : Sent 0x0602 c s) (hu : c.unit < 4)
    (hal : Alone c.unit c) (ha : rfPresent c.unit s = false) :
    exec (.rfStatus c) s = .next (fail (ctxOf c s).ref stAbsent 0 (taken c s)) := by
  rw [exec_rfStatus, rfStatus, statusCommand_absent _ h hal (by simpa [unitWrong] using hu) hz (by simp [ctxOf_unit, ha])]

theorem genStatus_absent {c : Cmd} {s : State} (hz : ZeroBytes c.entry 24 64) (h : Sent 0x0D07 c s) (hu : c.unit < 2)
    (hal : Alone c.unit c) (ha : dacPresent c.unit s = false) :
    exec (.genStatus c) s = .next (fail (ctxOf c s).ref stAbsent 0 (taken c s)) := by
  rw [exec_genStatus, genStatus,
    statusCommand_absent _ h hal (by simpa [unitWrong] using hu) hz (by simp [dacAbsent, ctxOf_unit, ha])]

theorem dasStatus_absent {c : Cmd} {s : State} (hz : ZeroBytes c.entry 24 64) (h : Sent 0x0F05 c s) (hu : c.unit < 2)
    (hal : Alone c.unit c) (ha : fibrePresent c.unit s = false) :
    exec (.dasStatus c) s = .next (fail (ctxOf c s).ref stAbsent 0 (taken c s)) := by
  rw [exec_dasStatus, dasStatus,
    statusCommand_absent _ h hal (by simpa [unitWrong] using hu) hz (by simp [fibreAbsent, ctxOf_unit, ha])]

theorem dispStatus_absent {c : Cmd} {s : State} (hz : ZeroBytes c.entry 24 64) (h : Sent 0x1706 c s) (hal : Alone 0 c)
    (ha : s.fuse.display = false) :
    exec (.dispStatus c) s = .next (fail (ctxOf c s).ref stAbsent 0 (taken c s)) := by
  rw [exec_dispStatus, dispStatus, plainCommand_sent _ _ h hal rfl ((badOffset_reserved _ _ _).2 hz),
    if_pos (by simp [displayAbsent, ha])]

theorem zeroBytes_append {e : Entry} {a b d : Nat} (h1 : ZeroBytes e a b) (h2 : ZeroBytes e b d) : ZeroBytes e a d :=
  fun i hlo hhi => if hi : i < b then h1 i hlo hi else h2 i (Nat.le_of_not_lt hi) hhi

/-- SPEC.SET_WINDOW of an absent RF channel, alone or in a bunch that is its master's and has room. -/
theorem specSetWindow_absent {c : Cmd} {s : State} (hz : ZeroBytes c.entry 17 64) (h : Sent 0x0902 c s)
    (he : badOffset (envelope true (.below 4) (ctxOf c s)) = none)
    (hown : (ctxOf c s).inBunch = true → ownBunch (ctxOf c s) (taken c s) = true)
    (hfull : (ctxOf c s).inBunch = true → bunchWrites (ctxOf c s).bunchId s + 1 ≤ 256)
    (ha : rfPresent c.unit s = false) (hwin : c.u8 16 ≤ 4) :
    exec (.specSetWindow c) s = .next (memberFail (ctxOf c s) 1 stAbsent 0 (taken c s)) := by
  rw [exec_specSetWindow, specSetWindow, memberCommand, clashCommand_absent _ _ _ h he hown]
  · simpa [member] using hfull
  · rw [badOffset_cons]
    exact ⟨decide_eq_false (Nat.not_lt.2 hwin), (badOffset_reserved _ _ _).2 hz⟩
  · simp [ctxOf_unit, ha]

/-- Settles O18: each of the five commands passes its checks and meets the absence; a failing member leaves its bunch as it
is until R64 aborts it. -/
theorem absentUnitsAnswerAbsent : Obligations.AbsentUnitsAnswerAbsent := by
  intro c s hz
  refine ⟨rfStatus_absent hz, genStatus_absent hz, dasStatus_absent hz, dispStatus_absent hz, ?_, ?_⟩
  · intro h hu hal ha hwin hz17
    have hin : (ctxOf c s).inBunch = false := alone_inBunch s hal
    rw [specSetWindow_absent (zeroBytes_append hz17 hz) h (envelope_alone s hal (by simpa [unitWrong] using hu))
      (by simp [hin]) (by simp [hin]) ha hwin, memberFail_alone _ _ _ _ hal]
  · intro id h hu hj hown ha hfull hwin hz17
    have hid : (ctxOf c s).bunchId = id := hj.2.1
    have hop : (ctxOf c s).opcode = 0x0902 := h.1
    rw [specSetWindow_absent (zeroBytes_append hz17 hz) h (envelope_joining s hj (by simpa [unitWrong] using hu))
      (fun _ => hown) (fun _ => by rw [hid]; exact hfull) ha hwin, memberFail_joining _ _ _ hj hown, hop]

/-! ## DEV commands (Table 2-20) -/

theorem devInfo_answers {c : Cmd} {s : State} (h : Sent 0x0101 c s) (hal : Alone 0xFFFF c) (hz : ZeroBytes c.entry 16 64) :
    exec (.devInfo c) s = .next (done c s (3 + 2 ^ 8 * s.fuse.siRev + 2 ^ 16 * s.fuse.variant + 2 ^ 24 * lcCode s.stone.lifeCycle)
      (taken c s)) := by
  rw [exec_devInfo, devInfo, plainCommand_sent _ _ h hal rfl ((badOffset_reserved _ _ _).2 hz), taken_fuse, taken_stone]
  rfl

theorem devCaps_answers {c : Cmd} {s : State} (h : Sent 0x0102 c s) (hal : Alone 0xFFFF c) (hz : ZeroBytes c.entry 24 64) :
    exec (.devCaps c) s = .next (done c s 0 (toHost (c.u64 16) (capsBytes (taken c s)) (taken c s))) := by
  rw [exec_devCaps, devCaps, statusCommand_present _ h hal rfl hz rfl]

/-- R30: the command completes before the reset takes effect. -/
theorem devReset_resets {c : Cmd} {s : State} (h : Sent 0x0103 c s) (hal : Alone 0xFFFF c)
    (hm : (getRing c.ring s).master = .pf0) (hz : ZeroBytes c.entry 16 64) :
    exec (.devReset c) s = .next (deviceReset false (laserCut (done c s 0 (taken c s)))) := by
  have hchecks : badOffset (envelope false .none (ctxOf c s) ++ reserved (ctxOf c s).e 16 64) = none := by
    rw [badOffset_append]
    exact ⟨envelope_alone s hal rfl, (badOffset_reserved _ _ _).2 hz⟩
  rw [exec_devReset, devReset, takeCommand_sent _ h, pf0Only_of_pf0 _ _ hm]
  rw [hchecks]
  rfl

theorem devSetWindow_moves {c : Cmd} {s : State} (h : Sent 0x0104 c s) (hal : Alone 0xFFFF c) (hbase : c.u64 16 % 2 ^ 30 = 0)
    (hz : ZeroBytes c.entry 24 64) :
    exec (.devSetWindow c) s =
      .next (done c s 0 { taken c s with pcie := { (taken c s).pcie with windowBase := c.u64 16 } }) := by
  have hchecks : badOffset ((16, (ctxOf c s).u64 16 % 2 ^ 30 != 0) :: reserved (ctxOf c s).e 24 64) = none := by
    rw [badOffset_cons, ctxOf_u64, hbase]
    exact ⟨rfl, (badOffset_reserved _ _ _).2 hz⟩
  rw [exec_devSetWindow, devSetWindow, plainCommand_sent _ _ h hal rfl hchecks]
  rfl

/-- R38, R364, R365: a wrong image is REFUSED; a good one closes the steward to commands, and the bunches that are open abort
before it is taken over. -/
theorem devUpdate_judges {c : Cmd} {s : State} (h : Sent 0x0105 c s) (hal : Alone 0xFFFF c)
    (hm : (getRing c.ring s).master = .pf0) (hmin : 4096 ≤ c.u32 24) (hmax : c.u32 24 ≤ 0x800000) (h4 : c.u32 24 % 4 = 0)
    (hz : ZeroBytes c.entry 28 64) :
    let u := taken c s
    let head := headerAt u.host (c.u64 16)
    let took : Handover := { ref := (ctxOf c s).ref, sec := head.sec, len := c.u32 24
                             image := readBytes u.host (c.u64 16) (c.u32 24), oldImage := [] }
    let t := { u with steward := { u.steward with closed := true, handover := some took } }
    let open_ := (u.bunch.table.filter fun b => b.2.state == .opened).map (·.1)
    exec (.devUpdate c) s = .next (match imageError u.host (c.u64 16) (c.u32 24) u with
      | some e => fail (ctxOf c s).ref stRefused (0x20 + e) u
      | none => handoverGo (each open_ (fun id => abortBunch id 9 0 0 0 0) t)) := by
  have hchecks : badOffset (envelope false .none (ctxOf c s) ++ [(24, decide ((ctxOf c s).u32 24 < 4096) ||
      decide (0x800000 < (ctxOf c s).u32 24) || (ctxOf c s).u32 24 % 4 != 0)] ++ reserved (ctxOf c s).e 28 64) = none := by
    have hlen : (decide (c.u32 24 < 4096) || decide (0x800000 < c.u32 24) || c.u32 24 % 4 != 0) = false := by
      rw [decide_eq_false (Nat.not_lt.2 hmin), decide_eq_false (Nat.not_lt.2 hmax), h4]
      rfl
    simp only [badOffset_append, badOffset_cons]
    exact ⟨⟨envelope_alone s hal rfl, hlen, rfl⟩, (badOffset_reserved _ _ _).2 hz⟩
  intro u head took t open_
  rw [exec_devUpdate, devUpdate, takeCommand_sent _ h, pf0Only_of_pf0 _ _ hm]
  dsimp only
  rw [hchecks]
  rfl

/-- R371, R372: an idle part with PF1 in D3hot answers, drops its links and begins to enter the state asked for. -/
theorem devSetPower_enters {c : Cmd} {s : State} (h : Sent 0x0106 c s) (hal : Alone 0xFFFF c)
    (hm : (getRing c.ring s).master = .pf0) (hstate : c.u8 16 = 2 ∨ c.u8 16 = 3) (hz1 : ZeroBytes c.entry 17 24)
    (hz2 : ZeroBytes c.entry 32 64) (hidle : powerIdle (taken c s) = true) :
    let t := each [0, 1, 2, 3] (fun p => portLink p false) (done c s 0 (taken c s))
    let deep : Power := if c.u8 16 = 2 then .standby else .off
    exec (.devSetPower c true) s = .next { t with
      steward := { t.steward with closed := true }
      power := { t.power with entering := some deep, wakeDt := BitVec.ofNat 64 (c.u64 24), wakePending := 0 } } := by
  have hchecks : badOffset (envelope false .none (ctxOf c s) ++ [(16, (ctxOf c s).u8 16 != 2 && (ctxOf c s).u8 16 != 3)] ++
      reserved (ctxOf c s).e 17 24 ++ reserved (ctxOf c s).e 32 64) = none := by
    have hfield : (c.u8 16 != 2 && c.u8 16 != 3) = false := by
      rcases hstate with h2 | h3
      · simp [h2]
      · simp [h3]
    simp only [badOffset_append, badOffset_cons]
    exact ⟨⟨⟨envelope_alone s hal rfl, hfield, rfl⟩, (badOffset_reserved _ _ _).2 hz1⟩, (badOffset_reserved _ _ _).2 hz2⟩
  intro t deep
  rw [exec_devSetPower, devSetPower, takeCommand_sent _ h, pf0Only_of_pf0 _ _ hm]
  dsimp only
  rw [hchecks]
  simp only [hidle, Bool.not_true, Bool.or_self, Bool.false_eq_true, if_false]
  rfl

/-- Settles O20, command by command. -/
theorem deviceCommands : Obligations.DeviceCommands :=
  ⟨fun _ _ => devInfo_answers, fun _ _ => devCaps_answers, fun _ _ => devReset_resets, fun _ _ => devSetWindow_moves,
    fun _ _ => devUpdate_judges, fun _ _ => devSetPower_enters⟩

end Sys2Proof.Machine

/-! # Rows of bunches: a lone member that has landed already

The clause of COMMIT_POINT for a bunch with one member at rest says that the member lands at T. It does not ask that the member
has not landed yet, and a member lands once (R54): `memberAt` gives a landed one no boundary. -/

namespace Sys2Proof.Machine

/-- Korsyn runs, and bunch 0 is ARMED with T come; its one member claims a unit, writes nothing, and has landed already. -/
def landedArmed : State :=
  { steward := { running := true }
    bunch := { table := [(0, {
      state := .armed
      members := [{ claim := { cls := 2, inst := 0 }, write := .claimOnly, weight := 1, opcode := 0, tag := 0, landed := true }] })] } }

/-- The state of bunch 0 after a row; FREE where the row answers no next state. -/
def bunchStateAfter (o : Out) : BunchState :=
  match o with
  | .next s => (getBunch 0 s).state
  | _ => .free

/-- With no member left to land at T, nothing ends the bunch: the row leaves it LANDING. -/
theorem bunchStateAfter_commitPoint_landedArmed : bunchStateAfter (exec (.commitPoint 0 0) landedArmed) = .landing := by
  decide

/-- Refutes O46, in its clause of a bunch with one member at rest: of `landedArmed` it says that COMMIT_POINT lands the member
and so ends the bunch, which is then FREE, where the row leaves the bunch LANDING. The clause lacks the premise that the member
has not landed. -/
theorem not_bunchEvents : ¬ Obligations.BunchEvents := by
  intro h
  obtain ⟨-, hrows, -⟩ := h 0 landedArmed
  obtain ⟨-, hpoint, -, -⟩ := hrows 0
  obtain ⟨-, hlone⟩ := hpoint rfl (by decide)
  have hends := congrArg bunchStateAfter (hlone _ rfl (by decide) rfl (by decide))
  rw [bunchStateAfter_commitPoint_landedArmed] at hends
  exact absurd hends (by decide)

end Sys2Proof.Machine

/-! # The stone domain, the lowest wrong offset, answers and events

`exec_change` says once what a command can do to the stone domain; the safety statements are a case split over it. Answers
and events rest on what writing one entry to a ring does. -/

namespace Sys2Proof.Machine

/-! ## The stone domain (R40, R377, R379) -/

/-- What a step can do to the fuses, LC_STATE, the key slot and scan: nothing on an empty queue, else what its command can. -/
theorem step_change {s t : State} (h : step s = .next t) :
    kept t = kept s ∨ ∃ i rest, s.pending = i :: rest ∧ Change i { s with pending := rest } t := by
  unfold step at h
  split at h
  · cases h
    exact .inl (kept_idleTick s)
  · next i rest hq =>
    obtain ⟨u, hu, hc⟩ := exec_change i { s with pending := rest }
    rw [hu] at h
    cases h
    exact .inr ⟨i, rest, hq, hc⟩

theorem stoneSafe_of_kept {s t : State} (h : kept t = kept s) (hs : StoneSafe s) : StoneSafe t := by
  obtain ⟨hfuse, hfloor, hstate, hkey, hscan, -⟩ := kept_eq h
  unfold StoneSafe at *
  rwa [hfuse, hfloor, hstate, hkey, hscan]

theorem stoneSafe_of_afterReset {s t : State} (h : AfterReset s t) (hs : StoneSafe s) : StoneSafe t := by
  obtain ⟨hfuse, hfloor, -, hstate, hscan⟩ := h
  obtain ⟨-, hno, hle, -⟩ := hs
  exact ⟨.inl (hstate.trans hfuse.symm), hfuse ▸ hno, hfloor ▸ hle, hscan⟩

/-- A move to a state that is fused (Table 19-5). -/
theorem stoneSafe_of_afterMove {target : LifeCycle} {s t : State} (ht : target ≠ .service) (h : AfterMove target s t)
    (hs : StoneSafe s) : StoneSafe t := by
  obtain ⟨hfuse, hfloor, -, hstate, hscan⟩ := h
  obtain ⟨-, -, hle, -⟩ := hs
  rw [if_neg ht] at hfuse
  exact ⟨.inl (hstate.trans hfuse.symm), hfuse ▸ ht, hfloor ▸ hle, fun q => absurd (hscan ▸ q) (by decide)⟩

/-- The move to SERVICE leaves the fuses at SECURED. -/
theorem stoneSafe_of_afterService {s t : State} (hsec : s.stone.lifeCycle = .secured) (h : AfterMove .service s t)
    (hs : StoneSafe s) : StoneSafe t := by
  obtain ⟨hfuse, hfloor, -, hstate, hscan⟩ := h
  obtain ⟨hagree, hno, hle, -⟩ := hs
  rw [if_pos rfl] at hfuse
  have hsecured : s.fuse.lifeCycle = .secured := by
    rcases hagree with heq | ⟨hserv, -⟩
    · exact heq.symm.trans hsec
    · exact absurd (hserv.symm.trans hsec) (by decide)
  exact ⟨.inr ⟨hstate, hfuse.trans hsecured⟩, hfuse ▸ hno, hfloor ▸ hle, fun q => absurd (hscan ▸ q) (by decide)⟩

theorem stoneSafe_of_change {i : Instr} {s t : State} (h : Change i s t) (hs : StoneSafe s) : StoneSafe t := by
  cases h with
  | none hk => exact stoneSafe_of_kept hk hs
  | reset hr => exact stoneSafe_of_afterReset hr hs
  | fuses hfuse hfloor _ hstate hscan =>
    obtain ⟨hagree, hno, hle, -⟩ := hs
    refine ⟨?_, hfuse ▸ hno, hfloor ▸ hle, hscan⟩
    rw [hstate, hfuse]
    split
    · next hserv => exact .inr ⟨rfl, hagree.elim (fun heq => absurd (heq.symm.trans hserv) hno) (·.2)⟩
    · exact .inl rfl
  | floor c _ hfloor hfuse _ hstate hkey hscan =>
    obtain ⟨hagree, hno, hle, hz⟩ := hs
    refine ⟨?_, hfuse ▸ hno, ?_, ?_⟩
    · rwa [hstate, hfuse]
    · rw [hfloor]
      exact max_le hle (min_le_left _ _)
    · rwa [hscan, hkey]
  | secure _ _ _ hm => exact stoneSafe_of_afterMove (by decide) hm hs
  | service hsec hm => exact stoneSafe_of_afterService hsec hm hs
  | resume _ hm => exact stoneSafe_of_afterMove (by decide) hm hs
  | retirn _ _ _ hm => exact stoneSafe_of_afterMove (by decide) hm hs
  | retire _ _ _ hm => exact stoneSafe_of_afterMove (by decide) hm hs

/-- Settles O6: `StoneSafe` survives everything a step can do to the stone domain. -/
theorem stoneSafeKept : Obligations.StoneSafeKept := by
  intro s t hs h
  rcases step_change h with hk | ⟨i, rest, -, hc⟩
  · exact stoneSafe_of_kept hk hs
  · exact stoneSafe_of_change hc hs

/-- R40: only LC.RAISE_FLOOR writes the floor, with the greater of the floor and the running image's SEC_VERSION up to 127. -/
theorem floor_of_change {i : Instr} {s t : State} (h : Change i s t) :
    t.fuse.floor = s.fuse.floor ∨ ∃ c, i = .lcRaiseFloor c ∧ t.fuse.floor = max s.fuse.floor (min 127 s.stone.runSec) := by
  cases h with
  | none hk => exact .inl (kept_eq hk).2.1
  | reset hr => exact .inl hr.2.1
  | fuses _ hfloor => exact .inl hfloor
  | floor c hi hfloor => exact .inr ⟨c, hi, hfloor⟩
  | secure _ _ _ hm => exact .inl hm.2.1
  | service _ hm => exact .inl hm.2.1
  | resume _ hm => exact .inl hm.2.1
  | retirn _ _ _ hm => exact .inl hm.2.1
  | retire _ _ _ hm => exact .inl hm.2.1

/-- Settles O8: the floor is as it was, or LC.RAISE_FLOOR made it the greater of itself and a number up to SEC_VERSION. -/
theorem floorOnlyRises : Obligations.FloorOnlyRises := by
  intro s t h
  rcases step_change h with hk | ⟨i, rest, hq, hc⟩
  · exact .inl (kept_eq hk).2.1
  · rcases floor_of_change hc with hsame | ⟨c, rfl, hfloor⟩
    · exact .inl hsame
    · have hraised : t.fuse.floor = max s.fuse.floor (min 127 s.stone.runSec) := hfloor
      by_cases hle : min 127 s.stone.runSec ≤ s.fuse.floor
      · exact .inl (hraised.trans (max_eq_left hle))
      · exact .inr ⟨by omega, by omega, c, by rw [hq]; rfl⟩

/-- Settles O5. -/
theorem stoneSafeAtReset : Obligations.StoneSafeAtReset := ⟨.inl rfl, by decide, by decide, by decide⟩

/-- Settles O3: each field at its reset value; a table or memory with nothing listed reads its default. -/
theorem resetState : Obligations.ResetState :=
  ⟨rfl, rfl, rfl, rfl, rfl, rfl, rfl, rfl, rfl, rfl, rfl, rfl, fun _ => rfl, fun _ => ⟨rfl, rfl⟩⟩

/-! ## The lowest wrong offset (R398) -/

theorem badOffset_snoc_right (cs : Checks) (c : Nat × Bool) (h : c.2 = false) : badOffset (cs ++ [c]) = badOffset cs := by
  simp [badOffset, List.foldl_append, h]

theorem badOffset_snoc_first {cs : Checks} {c : Nat × Bool} (h : c.2 = true) (hcs : badOffset cs = none) :
    badOffset (cs ++ [c]) = some c.1 := by
  unfold badOffset at *
  simp [List.foldl_append, h, hcs]

theorem badOffset_snoc_wrong {cs : Checks} {c : Nat × Bool} {b : Nat} (h : c.2 = true) (hcs : badOffset cs = some b) :
    badOffset (cs ++ [c]) = some (min b c.1) := by
  unfold badOffset at *
  simp [List.foldl_append, h, hcs]

/-- The offset reported is that of a check that fails. -/
theorem mem_of_badOffset {cs : Checks} {off : Nat} (h : badOffset cs = some off) : (off, true) ∈ cs := by
  induction cs using List.reverseRecOn generalizing off with
  | nil => cases h
  | append_singleton cs c ih =>
    obtain ⟨o, wrong⟩ := c
    cases wrong with
    | false =>
      rw [badOffset_snoc_right _ _ rfl] at h
      exact List.mem_append_left _ (ih h)
    | true =>
      cases hcs : badOffset cs with
      | none =>
        rw [badOffset_snoc_first rfl hcs] at h
        cases h
        exact List.mem_append_right _ (List.mem_singleton_self _)
      | some b =>
        rw [badOffset_snoc_wrong rfl hcs] at h
        cases h
        rcases min_choice b o with hmin | hmin
        · rw [hmin]
          exact List.mem_append_left _ (ih hcs)
        · rw [hmin]
          exact List.mem_append_right _ (List.mem_singleton_self _)

/-- The offset reported lies at or below that of every check that fails. -/
theorem badOffset_le {cs : Checks} {off : Nat} (h : badOffset cs = some off) : ∀ c ∈ cs, c.2 = true → off ≤ c.1 := by
  induction cs using List.reverseRecOn generalizing off with
  | nil => cases h
  | append_singleton cs d ih =>
    simp only [List.mem_append, List.mem_singleton]
    cases hd : d.2 with
    | false =>
      rw [badOffset_snoc_right _ _ hd] at h
      rintro c (hc | rfl) hw
      · exact ih h c hc hw
      · exact absurd (hd.symm.trans hw) (by decide)
    | true =>
      cases hcs : badOffset cs with
      | none =>
        rw [badOffset_snoc_first hd hcs] at h
        cases h
        rintro c (hc | rfl) hw
        · exact absurd (((badOffset_none cs).1 hcs c hc).symm.trans hw) (by decide)
        · exact le_refl _
      | some b =>
        rw [badOffset_snoc_wrong hd hcs] at h
        cases h
        rintro c (hc | rfl) hw
        · exact (min_le_left _ _).trans (ih hcs c hc hw)
        · exact min_le_right _ _

/-- Settles O10: what is reported is wrong and lowest, and no other offset is both. -/
theorem lowestWrongOffset : Obligations.LowestWrongOffset := by
  intro cs off
  refine ⟨fun h => ⟨mem_of_badOffset h, badOffset_le h⟩, fun ⟨hmem, hlow⟩ => ?_⟩
  cases h : badOffset cs with
  | none => exact absurd ((badOffset_none cs).1 h _ hmem) (by simp)
  | some b => exact congrArg some (le_antisymm (badOffset_le h _ hmem rfl) (hlow _ (mem_of_badOffset h) rfl))

/-! ## Answers (R46, Tables 2-16 to 2-18) -/

/-- Settles O11: a completion with nothing in flight before it is written at once, and writes nothing else. -/
theorem completionsAnswer : Obligations.CompletionsAnswer := by
  intro c s r status reason u hcan hfree hmail
  refine ⟨fun hquiet => ?_, fun hstatus => ?_⟩
  · obtain ⟨hans, honly, hother⟩ := complete_answered (d := { status := stOk, result := r }) hcan hfree (fun _ => hquiet) hmail
    exact ⟨hans, honly, hother, blocks_ok _ _ _⟩
  · obtain ⟨hans, honly, hother⟩ :=
      complete_answered (d := { status := status, reason := reason }) hcan hfree (fun h => absurd h hstatus) hmail
    exact ⟨hans, honly, hother, blocks_fail _ _ _ _⟩

/-! ## Events (R46, R47, Table 2-19) -/

theorem seq_endpointSend (n first count : Nat) (s : State) : (getRing n (endpointSend n first count s)).seq = (getRing n s).seq := by
  unfold endpointSend
  dsimp only
  split
  · rfl
  · split
    · have hcons : (getRing n (modRing n (fun r => { r with cons := r.prod }) s)).seq = (getRing n s).seq := by rw [getRing_modRing]
      split
      · exact hcons
      · exact hcons
    · rfl

/-- Publishing entries numbers no event. -/
theorem seq_publish (n : Nat) (bs : List Byte) (s : State) : (getRing n (publish n bs s)).seq = (getRing n s).seq := by
  unfold publish publishMany
  dsimp only
  split
  · simp [getRing_signalRing, seq_endpointSend]
  · simp [seq_endpointSend]

theorem writeEvent_of_room {e : Event} {n : Nat} {s : State} (h : ringRoom (getRing n s) s = true) :
    writeEvent e n s = modRing n (fun r => { r with seq := r.seq + 1, lost := false })
      (publish n (eventBytes e (ringPhase (getRing n s)) (getRing n s).lost (getRing n s).seq.toNat) s) := if_pos h

theorem writeEvent_of_full {e : Event} {n : Nat} {s : State} (h : ringRoom (getRing n s) s = false) :
    writeEvent e n s = modRing n (fun r => { r with seq := r.seq + 1, lost := true }) s := if_neg (by simp [h])

/-- Every event is numbered, whether there is room for it or not. -/
theorem seq_writeEvent (e : Event) (n : Nat) (s : State) : (getRing n (writeEvent e n s)).seq = (getRing n s).seq + 1 := by
  cases h : ringRoom (getRing n s) s with
  | true => rw [writeEvent_of_room h, getRing_modRing, seq_publish]
  | false => rw [writeEvent_of_full h, getRing_modRing]

theorem getRing_writeEvent_other (e : Event) {n k : Nat} (s : State) (hk : k ≠ n) : getRing k (writeEvent e n s) = getRing k s := by
  cases h : ringRoom (getRing n s) s with
  | true => rw [writeEvent_of_room h, getRing_modRing_other _ _ _ _ hk, (publish_spec n _ s).2.1 k hk]
  | false => rw [writeEvent_of_full h, getRing_modRing_other _ _ _ _ hk]

/-- Settles O12: a ring with room publishes the event's entry; a full one keeps its entries. -/
theorem eventsReachRings : Obligations.EventsReachRings := by
  intro e n s
  refine ⟨seq_writeEvent e n s, fun k hk => getRing_writeEvent_other e s hk, blocks_writeEvent e n s, fun hroom => ?_,
    fun hfull => ?_⟩
  · obtain ⟨hprod, -, hread, honly⟩ :=
      publish_spec n (eventBytes e (ringPhase (getRing n s)) (getRing n s).lost (getRing n s).seq.toNat) s
    rw [length_eventBytes] at hread honly
    rw [writeEvent_of_room hroom, getRing_modRing]
    exact ⟨hprod, rfl, hread, honly⟩
  · rw [writeEvent_of_full hfull, getRing_modRing]
    exact ⟨rfl, rfl, fun _ _ => rfl⟩

theorem getRing_each_writeEvent_other (e : Event) {ns : List Nat} {k : Nat} (hk : k ∉ ns) (s : State) :
    getRing k (each ns (writeEvent e) s) = getRing k s := by
  unfold each
  induction ns generalizing s with
  | nil => rfl
  | cons n ns ih =>
    rw [List.mem_cons, not_or] at hk
    rw [List.foldl_cons, ih hk.2, getRing_writeEvent_other e s hk.1]

theorem seq_each_writeEvent (e : Event) {ns : List Nat} {k : Nat} (hk : k ∈ ns) (hnd : ns.Nodup) (s : State) :
    (getRing k (each ns (writeEvent e) s)).seq = (getRing k s).seq + 1 := by
  induction ns generalizing s with
  | nil => cases hk
  | cons n ns ih =>
    rw [List.nodup_cons] at hnd
    change (getRing k (each ns (writeEvent e) (writeEvent e n s))).seq = _
    rcases List.mem_cons.1 hk with rfl | hin
    · rw [getRing_each_writeEvent_other e hnd.1, seq_writeEvent]
    · have hne : k ≠ n := fun h => hnd.1 (h ▸ hin)
      rw [ih hin hnd.2, getRing_writeEvent_other e s hne]

/-- A table in canonical form reads, at a number it lists, the value listed. -/
theorem tget_of_mem {α : Type} [DecidableEq α] {d : α} {t : Table α} {k : Nat} {v : α} (h : twf d t = true) (hm : (k, v) ∈ t) :
    tget d t k = v := by
  obtain ⟨hrise, -⟩ := (twf_iff d t).1 h
  clear h
  induction t with
  | nil => cases hm
  | cons p rest ih =>
    obtain ⟨i, w⟩ := p
    rw [List.pairwise_cons] at hrise
    obtain ⟨hbelow, hrest⟩ := hrise
    rcases List.mem_cons.1 hm with heq | hin
    · cases heq
      exact if_pos rfl
    · have hlt : i < k := hbelow _ hin
      have hskip : tget d ((i, w) :: rest) k = tget d rest k := if_neg hlt.ne
      rw [hskip, ih hin hrest]

/-- A number that reads other than the default is listed. -/
theorem mem_of_tget_ne {α : Type} {d : α} {t : Table α} {k : Nat} (h : tget d t k ≠ d) : (k, tget d t k) ∈ t := by
  induction t with
  | nil => exact absurd rfl h
  | cons p rest ih =>
    obtain ⟨i, w⟩ := p
    by_cases hik : i = k
    · subst hik
      have hhere : tget d ((i, w) :: rest) i = w := if_pos rfl
      rw [hhere]
      exact List.mem_cons_self
    · have hskip : tget d ((i, w) :: rest) k = tget d rest k := if_neg hik
      rw [hskip] at h ⊢
      exact List.mem_cons_of_mem _ (ih h)

/-- The numbers of the event rings that take a code. -/
def takers (code : Nat) (s : State) : List Nat := (s.rings.filter fun p => takesEvent code p.2).map (·.1)

theorem deliverEvent_eq (e : Event) (s : State) : deliverEvent e s = each (takers e.code s) (writeEvent e) s := rfl

theorem mem_takers {code k : Nat} {s : State} (h : twf {} s.rings = true) :
    k ∈ takers code s ↔ takesEvent code (getRing k s) = true := by
  simp only [takers, List.mem_map, List.mem_filter]
  constructor
  · rintro ⟨⟨n, r⟩, ⟨hmem, htake⟩, rfl⟩
    have hread : getRing n s = r := tget_of_mem h hmem
    rwa [hread]
  · intro htake
    have hlisted : getRing k s ≠ {} := by
      intro hdef
      rw [hdef] at htake
      exact absurd htake (by simp [takesEvent])
    exact ⟨(k, getRing k s), ⟨mem_of_tget_ne hlisted, htake⟩, rfl⟩

theorem nodup_takers {code : Nat} {s : State} (h : twf {} s.rings = true) : (takers code s).Nodup := by
  obtain ⟨hrise, -⟩ := (twf_iff _ _).1 h
  exact List.pairwise_map.2 ((hrise.filter _).imp fun hlt => hlt.ne)

/-- Settles O13: the rings written are those that take the namespace, each listed once. -/
theorem eventsReachOnlyTakers : Obligations.EventsReachOnlyTakers := by
  intro e s k hwf
  rw [deliverEvent_eq]
  refine ⟨fun hno => getRing_each_writeEvent_other e ?_ s,
    fun hyes => seq_each_writeEvent e ((mem_takers hwf).2 hyes) (nodup_takers hwf) s⟩
  rw [mem_takers hwf, hno]
  decide

end Sys2Proof.Machine

/-! # STATUS, LC and RING commands

Each command passes its checks, so its own effect is what it answers. -/

namespace Sys2Proof.Machine

/-! ## STATUS commands -/

theorem exec_pipStatus (c : Cmd) (s : State) : exec (.pipStatus c) s = .next (pipStatus c s) := rfl
theorem exec_capStatus (c : Cmd) (s : State) : exec (.capStatus c) s = .next (capStatus c s) := rfl
theorem exec_laserStatus (c : Cmd) (s : State) : exec (.laserStatus c) s = .next (laserStatus c s) := rfl
theorem exec_dtsStatus (c : Cmd) (s : State) : exec (.dtsStatus c) s = .next (dtsStatus c s) := rfl
theorem exec_curStatus (c : Cmd) (s : State) : exec (.curStatus c) s = .next (curStatus c s) := rfl
theorem exec_dmaStatus (c : Cmd) (s : State) : exec (.dmaStatus c) s = .next (dmaStatus c s) := rfl
theorem exec_memStatus (c : Cmd) (s : State) : exec (.memStatus c) s = .next (memStatus c s) := rfl

/-- A row that is a status command, of a unit that is there, writes its record and completes (R46). -/
theorem exec_status {i : Instr} {op : Nat} {rule : UnitRule} {unit : Nat} {absent : Ctx → State → Bool}
    {record : Ctx → State → List Byte} {c : Cmd} {s : State} (hi : exec i s = .next (statusCommand op rule absent record c s))
    (hz : ZeroBytes c.entry 24 64) (h : Sent op c s) (hal : Alone unit c) (hu : unitWrong rule unit = false)
    (ha : absent (ctxOf c s) (taken c s) = false) :
    exec i s = .next (done c s 0 (toHost (c.u64 16) (record (ctxOf c s) (taken c s)) (taken c s))) := by
  rw [hi, statusCommand_present record h hal hu hz ha]

theorem unitWrong_below {n unit : Nat} (h : unit < n) : unitWrong (.below n) unit = false := decide_eq_false (Nat.not_le.2 h)

/-- Settles O26, command by command: each record is the one its own row writes. -/
theorem statusCommands : Obligations.StatusCommands := by
  intro c s hz
  refine ⟨?_, ?_, ?_, ?_, ?_, ?_, ?_, ?_, ?_, ?_⟩
  · intro h hu hal hp
    exact (exec_status (exec_rfStatus c s) hz h hal (unitWrong_below hu) (by simp [ctxOf_unit, hp])).trans rfl
  · intro h hal
    exact (exec_status (exec_pipStatus c s) hz h hal rfl rfl).trans rfl
  · intro h hu hal
    exact (exec_status (exec_capStatus c s) hz h hal (unitWrong_below hu) rfl).trans rfl
  · intro h hu hal hp
    exact (exec_status (exec_genStatus c s) hz h hal (unitWrong_below hu) (by simp [dacAbsent, ctxOf_unit, hp])).trans rfl
  · intro h hal
    exact (exec_status (exec_laserStatus c s) hz h hal rfl rfl).trans rfl
  · intro h hu hal hp
    exact (exec_status (exec_dasStatus c s) hz h hal (unitWrong_below hu) (by simp [fibreAbsent, ctxOf_unit, hp])).trans rfl
  · intro h hu hal hp
    exact (exec_status (exec_dtsStatus c s) hz h hal (unitWrong_below hu) (by simp [fibreAbsent, ctxOf_unit, hp])).trans rfl
  · intro h hal
    exact (exec_status (exec_curStatus c s) hz h hal rfl rfl).trans rfl
  · intro h hu hal
    exact (exec_status (exec_dmaStatus c s) hz h hal (unitWrong_below hu) rfl).trans rfl
  · intro h hal
    exact (exec_status (exec_memStatus c s) hz h hal rfl rfl).trans rfl

/-! ## LC commands (R40, R377 to R379) -/

/-- A clean entry whose bytes from one offset on are reserved passes every check. -/
theorem badOffset_entry {first : Nat} {c : Cmd} (s : State) (hal : Alone 0xFFFF c) (hz : ZeroBytes c.entry first 64) :
    badOffset (envelope false .none (ctxOf c s) ++ reserved (ctxOf c s).e first 64) = none :=
  (badOffset_append _ _).2 ⟨envelope_alone s hal rfl, (badOffset_reserved _ _ _).2 hz⟩

theorem lcSecure_sent {c : Cmd} {s : State} (h : Sent 0x1A01 c s) (hal : Alone 0xFFFF c) (hm : (getRing c.ring s).master = .pf0)
    (hz : ZeroBytes c.entry 16 64) (hstate : s.stone.lifeCycle = .manufacture) :
    lcSecure c s = lcMove .secured (done c s 0 (modStone (fun x => { x with idKey := .held }) (taken c s))) := by
  rw [lcSecure, takeCommand_sent _ h, pf0Only_of_pf0 _ _ hm]
  rw [badOffset_entry s hal hz, taken_stone]
  exact if_pos hstate

theorem lcPlain_sent {op : Nat} {source target : LifeCycle} {c : Cmd} {s : State} (h : Sent op c s) (hal : Alone 0xFFFF c)
    (hm : (getRing c.ring s).master = .pf0) (hz : ZeroBytes c.entry 16 64) (hstate : s.stone.lifeCycle = source) :
    lcPlain op source target c s = lcMove target (done c s 0 (taken c s)) := by
  rw [lcPlain, takeCommand_sent _ h, pf0Only_of_pf0 _ _ hm]
  rw [badOffset_entry s hal hz, taken_stone]
  exact if_pos hstate

/-- What a command with a token does past its checks: RETIRE from RETURN needs no token, a token with a reserved byte set is
BADARG, and the rest rests on the state and the token. -/
theorem lcToken_sent {op : Nat} {sources : List LifeCycle} {target : LifeCycle} {c : Cmd} {s : State} (h : Sent op c s)
    (hal : Alone 0xFFFF c) (hm : (getRing c.ring s).master = .pf0) (hz : ZeroBytes c.entry 24 64) :
    lcToken op sources target c s =
      if target = .retired ∧ s.stone.lifeCycle = .retirn then lcMove target (done c s 0 (taken c s))
      else if tokenWrong (c.u64 16) (taken c s) = true then fail (ctxOf c s).ref stBadArg 16 (taken c s)
      else if (sources.contains s.stone.lifeCycle && tokenGood (c.u64 16) (lcCode target) (taken c s)) = true then
        lcMove target (done c s 0 (nonceUsed (taken c s)))
      else fail (ctxOf c s).ref stDenied (lcCode s.stone.lifeCycle) (nonceUsed (taken c s)) := by
  have hdenied : lcDenied (ctxOf c s) (nonceUsed (taken c s)) =
      fail (ctxOf c s).ref stDenied (lcCode s.stone.lifeCycle) (nonceUsed (taken c s)) := by
    simp [lcDenied, nonceUsed, modStone]
  rw [lcToken, takeCommand_sent _ h, pf0Only_of_pf0 _ _ hm]
  rw [badOffset_entry s hal hz, hdenied, taken_stone]
  rfl

/-- From a state the command lists, with a token whose reserved bytes are zero, the token decides; the nonce is used up. -/
theorem lcToken_judged {op : Nat} {sources : List LifeCycle} {target : LifeCycle} {c : Cmd} {s : State} (h : Sent op c s)
    (hal : Alone 0xFFFF c) (hm : (getRing c.ring s).master = .pf0) (hz : ZeroBytes c.entry 24 64)
    (hsrc : s.stone.lifeCycle ∈ sources) (hret : s.stone.lifeCycle ≠ .retirn) (htok : tokenWrong (c.u64 16) (taken c s) = false) :
    lcToken op sources target c s =
      if tokenGood (c.u64 16) (lcCode target) (taken c s) = true then lcMove target (done c s 0 (nonceUsed (taken c s)))
      else fail (ctxOf c s).ref stDenied (lcCode s.stone.lifeCycle) (nonceUsed (taken c s)) := by
  rw [lcToken_sent h hal hm hz, if_neg fun hboth => hret hboth.2, if_neg (by simp [htok]), List.contains_iff_mem.2 hsrc,
    Bool.true_and]

/-- R13: a token with a reserved byte set. -/
theorem lcToken_badToken {op : Nat} {sources : List LifeCycle} {target : LifeCycle} {c : Cmd} {s : State} (h : Sent op c s)
    (hal : Alone 0xFFFF c) (hm : (getRing c.ring s).master = .pf0) (hz : ZeroBytes c.entry 24 64) (ht : target ≠ .retired)
    (htok : tokenWrong (c.u64 16) (taken c s) = true) :
    lcToken op sources target c s = fail (ctxOf c s).ref stBadArg 16 (taken c s) := by
  rw [lcToken_sent h hal hm hz, if_neg fun hboth => ht hboth.1, if_pos htok]

theorem lcRetire_fromReturn {c : Cmd} {s : State} (h : Sent 0x1A06 c s) (hal : Alone 0xFFFF c)
    (hm : (getRing c.ring s).master = .pf0) (hz : ZeroBytes c.entry 24 64) (hstate : s.stone.lifeCycle = .retirn) :
    lcToken 0x1A06 [.secured, .service] .retired c s = lcMove .retired (done c s 0 (taken c s)) := by
  rw [lcToken_sent h hal hm hz, if_pos ⟨rfl, hstate⟩]

theorem lcRaiseFloor_sent {c : Cmd} {s : State} (h : Sent 0x1A05 c s) (hal : Alone 0xFFFF c)
    (hm : (getRing c.ring s).master = .pf0) (hz : ZeroBytes c.entry 16 64) :
    let u := taken c s
    let floor := max u.fuse.floor (min 127 u.stone.runSec)
    lcRaiseFloor c s = done c s floor (rewriteCaps { u with fuse := { u.fuse with floor := floor } }) := by
  rw [lcRaiseFloor, takeCommand_sent _ h, pf0Only_of_pf0 _ _ hm]
  dsimp only
  rw [badOffset_entry s hal hz]
  rfl

theorem lcChallenge_sent {c : Cmd} {s : State} (h : Sent 0x1A07 c s) (hal : Alone 0xFFFF c)
    (hm : (getRing c.ring s).master = .pf0) (hz : ZeroBytes c.entry 24 64) :
    let v := draw (taken c s)
    lcChallenge c s = done c s 0 (toHost (c.u64 16) (leBytes 8 (v.1 % 2 ^ 64))
      (modStone (fun x => { x with nonce := some (v.1 % 2 ^ 64) }) v.2)) := by
  rw [lcChallenge, takeCommand_sent _ h, pf0Only_of_pf0 _ _ hm]
  dsimp only
  rw [badOffset_entry s hal hz]
  rfl

/-- Settles O31, command by command. -/
theorem lifeCycleCommands : Obligations.LifeCycleCommands := by
  refine ⟨fun c s h hal hm hz hstate => congrArg Host.Outcome.next (lcSecure_sent h hal hm hz hstate),
    fun c s h hal hm hz hstate => congrArg Host.Outcome.next (lcPlain_sent h hal hm hz hstate), ?_,
    fun c s h hal hm hz => congrArg Host.Outcome.next (lcRaiseFloor_sent h hal hm hz),
    fun c s h hal hm hz => congrArg Host.Outcome.next (lcChallenge_sent h hal hm hz)⟩
  intro c s hal hm hz
  refine ⟨fun htok => ⟨fun h hstate => ?_, fun h hstate => ?_, fun h hstate => ?_⟩, fun htok => ⟨fun h => ?_, fun h => ?_⟩,
    fun h hstate => congrArg Host.Outcome.next (lcRetire_fromReturn h hal hm hz hstate)⟩
  · exact congrArg Host.Outcome.next (lcToken_judged h hal hm hz (by simp [hstate]) (by simp [hstate]) htok)
  · exact congrArg Host.Outcome.next (lcToken_judged h hal hm hz (by simp [hstate]) (by simp [hstate]) htok)
  · have hret : s.stone.lifeCycle ≠ .retirn := by
      rcases hstate with hsec | hserv
      · simp [hsec]
      · simp [hserv]
    exact congrArg Host.Outcome.next (lcToken_judged h hal hm hz (by simpa using hstate) hret htok)
  · exact congrArg Host.Outcome.next (lcToken_badToken h hal hm hz (by decide) htok)
  · exact congrArg Host.Outcome.next (lcToken_badToken h hal hm hz (by decide) htok)

end Sys2Proof.Machine

namespace Sys2Proof.Machine

/-! ## RING commands (Table 2-20, R44, R45, R296) -/

theorem exec_ringCreate (c : Cmd) (s : State) : exec (.ringCreate c) s = .next (ringCreate c s) := rfl
theorem exec_ringDestroy (c : Cmd) (s : State) : exec (.ringDestroy c) s = .next (ringDestroy c s) := rfl
theorem exec_ringModerate (c : Cmd) (s : State) : exec (.ringModerate c) s = .next (ringModerate c s) := rfl

@[simp] theorem bellChannel_taken (n : Nat) (c : Cmd) (s : State) : bellChannel n (taken c s) = bellChannel n s := by
  simp [bellChannel]

@[simp] theorem dramUsable_taken (c : Cmd) (s : State) : dramUsable (taken c s) = dramUsable s := by
  unfold dramUsable dramFitted
  rw [taken_fuse]

@[simp] theorem ringBeyond_taken (r : Ring) (c : Cmd) (s : State) : ringBeyond r (taken c s) = ringBeyond r s := by
  unfold ringBeyond hostDram
  rw [dramUsable_taken]

/-- Table 2-15 and R45, kind by kind: the location, SIZE, PAIR and the namespace mask that go with each. -/
theorem ringKindWrong_right {c : Cmd} {s : State} (hkind : c.u8 18 ≤ 3) (hhost : c.u8 20 = 0 → c.u8 18 ≤ 2)
    (hpf1 : c.u8 20 = 1 → c.u8 18 = 3) (hsize : c.u8 18 = 3 → 64 ≤ c.u16 22 ∧ c.u16 22 % 64 = 0)
    (hfixed : c.u8 18 ≠ 3 → c.u16 22 = 0)
    (hpair : c.u8 18 = 0 → (getRing (c.u16 32) s).created = true ∧ (getRing (c.u16 32) s).kind = .completion)
    (hnopair : c.u8 18 = 1 ∨ c.u8 18 = 2 → c.u16 32 = 0xFFFF) (hmask : c.u8 18 ≠ 2 → c.u32 40 = 0) :
    ringKindWrong (ctxOf c s) (taken c s) = false := by
  have hcases : c.u8 18 = 0 ∨ c.u8 18 = 1 ∨ c.u8 18 = 2 ∨ c.u8 18 = 3 := by omega
  have hnotHost : c.u8 18 = 3 → c.u8 20 ≠ 0 := fun h3 h0 => by have := hhost h0; omega
  have hnotPf1 : c.u8 18 ≠ 3 → c.u8 20 ≠ 1 := fun h3 h1 => h3 (hpf1 h1)
  have hsmall : c.u8 18 = 3 → decide (c.u16 22 < 64) = false := fun h3 => decide_eq_false (Nat.not_lt.2 (hsize h3).1)
  change ((c.u8 20 == 0 && decide (2 < c.u8 18)) || (c.u8 20 == 1 && c.u8 18 != 3) ||
    (if c.u8 18 = 3 then decide (c.u16 22 < 64) || c.u16 22 % 64 != 0 else c.u16 22 != 0) ||
    (if c.u8 18 = 0 then _ else c.u8 18 != 3 && c.u16 32 != 0xFFFF) || (c.u8 18 != 2 && c.u32 40 != 0)) = false
  rcases hcases with h | h | h | h
  · simpa [h, hnotPf1, hfixed, hmask, ctxOf_u16] using hpair h
  · simp [h, hnotPf1, hfixed, hnopair, hmask]
  · simp [h, hnotPf1, hfixed, hnopair]
  · simp [h, hnotHost, hsize, hmask]

/-- R44, R45: a ring that fits its location, on a free number, is created with its memory zeroed. -/
theorem ringCreate_creates {c : Cmd} {s : State} (h : Sent 0x0201 c s) (hal : Alone 0xFFFF c) (hlow : 3 ≤ c.u16 16)
    (hhigh : c.u16 16 ≤ 8191) (hkind : c.u8 18 ≤ 3) (hkinds : ringKindWrong (ctxOf c s) (taken c s) = false) (hlog : 2 ≤ c.u8 19)
    (hlog' : c.u8 19 ≤ 15) (hloc : c.u8 20 ≤ 3) (hmsix : c.u8 21 ≤ 63) (hbase : c.u64 24 % 4096 = 0) (hmask : c.u32 40 % 2 = 0)
    (hmask' : c.u32 40 < 2 ^ 27) (hz : ZeroBytes c.entry 44 64) (hfits : ringBeyond (ringOfCmd (ctxOf c s)) s = false)
    (hfree : (getRing (c.u16 16) s).created = false) (hbell : bellChannel (c.u16 16) s = none)
    (hspace : c.u8 20 = 2 → dramSpace (planned (taken c s)) + ringBytes (ringOfCmd (ctxOf c s)) ≤ dramUsable s - 536870912) :
    exec (.ringCreate c) s = .next (done c s 0 (modRing (c.u16 16) (fun _ => ringOfCmd (ctxOf c s))
      (ringZero (ringOfCmd (ctxOf c s)) (taken c s)))) := by
  have hlocation : (ringOfCmd (ctxOf c s)).location = c.u8 20 := rfl
  have hbusy : ¬((getRing (c.u16 16) s).created = true ∨ (bellChannel (c.u16 16) s).isSome = true) := by simp [hfree, hbell]
  have hroom : ¬((ringOfCmd (ctxOf c s)).location = 2 ∧
      dramUsable s - 536870912 < dramSpace (planned (taken c s)) + ringBytes (ringOfCmd (ctxOf c s))) :=
    fun ⟨h2, hlt⟩ => absurd (hspace (hlocation ▸ h2)) (by omega)
  rw [exec_ringCreate, ringCreate, plainCommand_sent _ _ h hal rfl]
  · simp only [ctxOf_u16, taken_ring_created, bellChannel_taken, dramUsable_taken]
    rw [if_neg hbusy, if_neg hroom]
    rfl
  · simp only [badOffset_append, badOffset_cons, badOffset_nil, badOffset_reserved, Bool.or_eq_false_iff, decide_eq_false_iff_not,
      bne_eq_false_iff_eq, beq_eq_false_iff_ne, ringBeyond_taken, hkinds, hfits]
    simp only [ctxOf_u8, ctxOf_u16, ctxOf_u32, ctxOf_u64, ctxOf_e]
    exact ⟨⟨by omega, ⟨by omega, trivial⟩, ⟨by omega, trivial⟩, by omega, by omega, hbase, by omega, trivial⟩, hz⟩

/-- R44: a ring that nothing keeps is destroyed. -/
theorem ringDestroy_destroys {c : Cmd} {s : State} (h : Sent 0x0202 c s) (hal : Alone 0xFFFF c) (hlow : 3 ≤ c.u16 16)
    (hhigh : c.u16 16 ≤ 8191) (hthere : (getRing (c.u16 16) s).created = true) (hz : ZeroBytes c.entry 18 64)
    (hown : c.ring ≠ c.u16 16) (hheld : ringHeldBy (c.u16 16) (taken c s) = false) :
    exec (.ringDestroy c) s = .next (done c s 0 (modRing (c.u16 16) (fun _ => {}) (taken c s))) := by
  have hkept : ¬(c.ring = c.u16 16 ∨ ringHeldBy (c.u16 16) (taken c s) = true) := by simp [hown, hheld]
  rw [exec_ringDestroy, ringDestroy, plainCommand_sent _ _ h hal rfl]
  · exact congrArg Host.Outcome.next (if_neg hkept)
  · simp only [badOffset_cons, badOffset_reserved, Bool.or_eq_false_iff, decide_eq_false_iff_not]
    simp only [ctxOf_u16, ctxOf_e, taken_ring_created, hthere]
    exact ⟨⟨⟨by omega, by omega⟩, rfl⟩, hz⟩

/-- R296: the moderation of a ring holds for what is published after the command completes. -/
theorem ringModerate_moderates {c : Cmd} {s : State} (h : Sent 0x0203 c s) (hal : Alone 0xFFFF c) (hnum : c.u16 16 ≠ 0)
    (hthere : (getRing (c.u16 16) s).created = true) (hmsix : c.u8 18 ≤ 63) (hz1 : ZeroBytes c.entry 19 20)
    (hz2 : ZeroBytes c.entry 22 24) (hz3 : ZeroBytes c.entry 28 64) :
    exec (.ringModerate c) s = .next (modRing (c.u16 16)
      (fun r => { r with msix := c.u8 18, modCount := c.u16 20, modTime := c.u32 24 }) (done c s 0 (taken c s))) := by
  rw [exec_ringModerate, ringModerate, plainCommand_sent _ _ h hal rfl]
  · rfl
  · simp only [badOffset_append, badOffset_cons, badOffset_nil, badOffset_reserved, Bool.or_eq_false_iff, beq_eq_false_iff_ne,
      decide_eq_false_iff_not]
    simp only [ctxOf_u8, ctxOf_u16, ctxOf_e, taken_ring_created, hthere]
    exact ⟨⟨⟨⟨⟨hnum, rfl⟩, by omega, trivial⟩, hz1⟩, hz2⟩, hz3⟩

/-- Settles O21, command by command. -/
theorem ringCommands : Obligations.RingCommands := by
  refine ⟨?_, fun c s h hal hlow hhigh hthere hz hown hheld => ringDestroy_destroys h hal hlow hhigh hthere hz hown hheld,
    fun c s h hal hnum hthere hmsix hz1 hz2 hz3 => ringModerate_moderates h hal hnum hthere hmsix hz1 hz2 hz3⟩
  intro c s h hal hlow hhigh hkind hlog hlog' hloc hhost hpf1 hmsix hsize hfixed hbase hpair hnopair hmask heven hmask' hz r hfits hfree
    hbell hspace
  exact ringCreate_creates h hal hlow hhigh hkind (ringKindWrong_right hkind hhost hpf1 hsize hfixed hpair hnopair hmask) hlog hlog'
    hloc hmsix hbase heven hmask' hz hfits hfree hbell hspace

end Sys2Proof.Machine

/-! # BOOT_SPI, the host's accesses and the power-up sequence

What each shared operation of the download and of the stone domain does, case by case; the statements then go row by row. -/

namespace Sys2Proof.Machine

/-! ## Staging, GO and ABORT (R38, R41) -/

/-- A staging write whose source has the claim, or finds none, stores what fits in staging and holds the claim. -/
theorem stageWrite_stores {src : Source} {u : State} (offset : Nat) (bytes : List Byte)
    (h : u.stone.src = .none ∨ u.stone.src = src) :
    stageWrite src offset bytes u = modStone (fun x => { x with
      src := src, claimAt := if u.stone.src = src then u.stone.claimAt else u.dt })
      { u with sram := writeBytes u.sram offset (bytes.take (stagingSize - offset)) } := by
  have hfree : ¬(u.stone.src ≠ .none ∧ u.stone.src ≠ src) := fun ⟨h1, h2⟩ => h.elim h1 h2
  exact if_neg hfree

/-- BOOT_SPI never takes a claim that PCIe has. -/
theorem stageWrite_spi_claimed {u : State} (offset : Nat) (bytes : List Byte) (h : u.stone.src = .pcie) :
    stageWrite .spi offset bytes u = stoneFlag errStageClaim u := by
  have hclaimed : u.stone.src ≠ .none ∧ u.stone.src ≠ .spi := by simp [h]
  exact (if_pos hclaimed).trans (if_neg fun hboth => absurd hboth.1 (by decide))

theorem source_of_ne_pcie {x : Source} (h : x ≠ .pcie) : x = .none ∨ x = .spi := by
  cases x with
  | none => exact .inl rfl
  | pcie => exact absurd rfl h
  | spi => exact .inr rfl

theorem source_of_ne_spi {x : Source} (h : x ≠ .spi) : x = .none ∨ x = .pcie := by
  cases x with
  | none => exact .inl rfl
  | pcie => exact .inr rfl
  | spi => exact absurd rfl h

/-- Of two sources with a claim, one is not the other. -/
theorem claimed_from_spi (x : Source) : (x ≠ .none ∧ x ≠ .spi) ↔ x = .pcie := by cases x <;> decide
theorem claimed_from_pcie (x : Source) : (x ≠ .none ∧ x ≠ .pcie) ↔ x = .spi := by cases x <;> decide

/-- R41: GO from BOOT_SPI in WAIT_IMAGE. -/
theorem goFrom_spi {u : State} (h : u.stone.stage = .waitImage) : goFrom .spi u =
    if u.stone.src = .pcie then stoneFlag errStageClaim u else modStone (fun x => { x with stage := .verify, error := 0 }) u := by
  simp only [goFrom, h, ne_eq, not_true_eq_false, if_false]
  exact if_congr (claimed_from_spi _) rfl rfl

/-- R38, R41: GO from PCIe, in any stage. -/
theorem goFrom_pcie (u : State) : goFrom .pcie u =
    if u.stone.stage = .waitImage then
      (if u.stone.src = .spi then stoneFlag errStageClaim u else modStone (fun x => { x with stage := .verify, error := 0 }) u)
    else u := by
  by_cases h : u.stone.stage = .waitImage
  · rw [if_pos h]
    simp only [goFrom, h, ne_eq, not_true_eq_false, if_false]
    exact if_congr (claimed_from_pcie _) rfl rfl
  · rw [if_neg h]
    exact if_pos h

/-! ## BOOT_SPI (Table 2-12, R397) -/

section
variable {count : Bool} {act idle : State → State} {u : State}

theorem spiActs_frame (h : u.stone.porN = true) (hc : count = false) : spiActs count act idle u = stoneFlag errSpiFrame u := by
  simp [spiActs, h, hc]

theorem spiActs_act (h : u.stone.porN = true) (hc : count = true) (hstage : u.stone.stage = .waitImage)
    (hen : u.stone.spiEnable = true) : spiActs count act idle u = act u := by
  simp [spiActs, h, hc, hstage, hen]

theorem spiActs_idle (h : u.stone.porN = true) (hc : count = true) (hoff : u.stone.stage ≠ .waitImage ∨ u.stone.spiEnable = false) :
    spiActs count act idle u = idle u := by
  have hno : ¬(u.stone.stage = .waitImage ∧ u.stone.spiEnable = true) := by
    rintro ⟨hstage, hen⟩
    rcases hoff with hs | he
    · exact hs hstage
    · exact absurd (he.symm.trans hen) (by decide)
  simp only [spiActs, h, hc, Bool.not_true, Bool.false_eq_true, if_false]
  exact if_neg hno

end

theorem exec_bootSpiWriteStaging (t : DT) (bytes : List Byte) (s : State) :
    exec (.bootSpiWriteStaging t bytes) s = .next (spiActs (decide (4 ≤ bytes.length))
      (stageWrite .spi (leNat (bytes.take 3)) (bytes.drop 3)) (fun s => s) (advance t s)) := rfl
theorem exec_bootSpiReadStaging (t : DT) (bytes : List Byte) (len : Nat) (s : State) :
    exec (.bootSpiReadStaging t bytes len) s = .next (spiActs (decide (bytes.length = 4))
      (fun s => answer ((readBytes s.sram (leNat (bytes.take 3)) len).zipIdx.map fun b =>
        if leNat (bytes.take 3) + b.2 < stagingSize then b.1 else 0) s)
      (answer (List.replicate len 0)) (advance t s)) := rfl
theorem exec_bootSpiReadStatus {t : DT} {s : State} (bytes : List Byte) (h : (advance t s).stone.porN = true) :
    exec (.bootSpiReadStatus t bytes) s =
      .next (if bytes ≠ [] then stoneFlag errSpiFrame (advance t s) else answer (leBytes 4 (bootStat (advance t s))) (advance t s)) := by
  change Host.Outcome.next (ite (!(advance t s).stone.porN) _ _) = _
  rw [h]
  rfl
theorem exec_bootSpiWriteBootLen (t : DT) (bytes : List Byte) (s : State) :
    exec (.bootSpiWriteBootLen t bytes) s = .next (spiActs (decide (bytes.length = 4))
      (modStone fun x => { x with bootLen := leNat bytes % 2 ^ 24 }) (fun s => s) (advance t s)) := rfl
theorem exec_bootSpiGo (t : DT) (bytes : List Byte) (s : State) :
    exec (.bootSpiGo t bytes) s = .next (spiActs bytes.isEmpty (goFrom .spi) (fun s => s) (advance t s)) := rfl
theorem exec_bootSpiAbort (t : DT) (bytes : List Byte) (s : State) :
    exec (.bootSpiAbort t bytes) s = .next (spiActs bytes.isEmpty abortImage (fun s => s) (advance t s)) := rfl

theorem abortImage_waitImage {u : State} (h : u.stone.stage = .waitImage) :
    abortImage u = modStone (fun x => { x with src := .none }) { u with sram := zeroRange 0 0x800000 u.sram } := if_pos h

/-- A first byte that Table 2-12 does not list. -/
theorem bootSpiUnknown_flags {t : DT} {s : State} {first : Byte} (h : (advance t s).stone.porN = true) (h02 : first ≠ 0x02)
    (h0B : first ≠ 0x0B) (h05 : first ≠ 0x05) (h31 : first ≠ 0x31) (h3A : first ≠ 0x3A) (h3B : first ≠ 0x3B) :
    exec (.bootSpiUnknownTransaction t first) s = .next (stoneFlag errSpiFrame (advance t s)) := by
  have hlisted : ([0x02, 0x0B, 0x05, 0x31, 0x3A, 0x3B] : List Byte).contains first = false := by
    simp only [List.contains_eq_mem, decide_eq_false_iff_not, List.mem_cons, List.not_mem_nil, or_false, not_or]
    exact ⟨h02, h0B, h05, h31, h3A, h3B⟩
  change Host.Outcome.next (ite ((advance t s).stone.porN && !([0x02, 0x0B, 0x05, 0x31, 0x3A, 0x3B] : List Byte).contains first) _ _) = _
  rw [h, hlisted]
  rfl

/-- Settles O45, transaction by transaction: those that act, those that idle, and those with a wrong count. -/
theorem bootSpi : Obligations.BootSpi := by
  intro t s u hpor
  refine ⟨fun hstage hen bytes => ⟨?_, ?_, ?_, ?_, ?_, ?_⟩, fun hoff bytes len => ⟨?_, ?_, ?_, ?_⟩, ?_,
    fun bytes hne => ⟨?_, ?_, ?_⟩,
    fun bytes hlen => ⟨fun len => ?_, ?_⟩, fun bytes hlen => ?_, ?_⟩
  · intro hlen hsrc
    rw [exec_bootSpiWriteStaging, spiActs_act hpor (decide_eq_true hlen) hstage hen, stageWrite_spi_claimed _ _ hsrc]
  · intro hlen hsrc a
    rw [exec_bootSpiWriteStaging, spiActs_act hpor (decide_eq_true hlen) hstage hen, stageWrite_stores _ _ (source_of_ne_pcie hsrc)]
    exact ⟨_, rfl⟩
  · intro hlen len a
    rw [exec_bootSpiReadStaging, spiActs_act hpor (decide_eq_true hlen) hstage hen]
    rfl
  · intro hlen
    rw [exec_bootSpiWriteBootLen, spiActs_act hpor (decide_eq_true hlen) hstage hen]
  · rw [exec_bootSpiGo, spiActs_act hpor List.isEmpty_nil hstage hen, goFrom_spi hstage]
  · rw [exec_bootSpiAbort, spiActs_act hpor List.isEmpty_nil hstage hen, abortImage_waitImage hstage]
  · intro hlen
    rw [exec_bootSpiWriteStaging, spiActs_idle hpor (decide_eq_true hlen) hoff]
  · intro hlen
    rw [exec_bootSpiReadStaging, spiActs_idle hpor (decide_eq_true hlen) hoff]
  · rw [exec_bootSpiGo, spiActs_idle hpor List.isEmpty_nil hoff]
  · rw [exec_bootSpiAbort, spiActs_idle hpor List.isEmpty_nil hoff]
  · exact exec_bootSpiReadStatus [] hpor
  · rw [exec_bootSpiReadStatus bytes hpor, if_pos hne]
  · rw [exec_bootSpiGo, spiActs_frame hpor (List.isEmpty_eq_false_iff.2 hne)]
  · rw [exec_bootSpiAbort, spiActs_frame hpor (List.isEmpty_eq_false_iff.2 hne)]
  · rw [exec_bootSpiReadStaging, spiActs_frame hpor (decide_eq_false hlen)]
  · rw [exec_bootSpiWriteBootLen, spiActs_frame hpor (decide_eq_false hlen)]
  · rw [exec_bootSpiWriteStaging, spiActs_frame hpor (decide_eq_false (Nat.not_le.2 hlen))]
  · intro first h02 h0B h05 h31 h3A h3B
    exact bootSpiUnknown_flags hpor h02 h0B h05 h31 h3A h3B

end Sys2Proof.Machine

namespace Sys2Proof.Machine

/-! ## BOOT_CTRL and the other stone registers (Tables 2-4 to 2-10, R30, R35) -/

theorem exec_bootCtrlDevReset (t : DT) (v : U32) (s : State) :
    exec (.bootCtrlDevReset t v) s = .next (bootCtrlWrite v (advance t s)) := rfl
theorem exec_go (t : DT) (v : U32) (s : State) : exec (.go t v) s = .next (bootCtrlWrite v (advance t s)) := rfl
theorem exec_abort (t : DT) (v : U32) (s : State) : exec (.abort t v) s = .next (bootCtrlWrite v (advance t s)) := rfl
theorem exec_spiEnable (t : DT) (v : U32) (s : State) : exec (.spiEnable t v) s = .next (bootCtrlWrite v (advance t s)) := rfl

section
variable {t : DT} {s u : State}

theorem bootCtrlWrite_reset {v : U32} (hb : bar0Serves u = true) (hv : bit v.toNat 8 = true) :
    bootCtrlWrite v u = if v.toNat / 2 ^ 24 = 0xA5 then deviceReset false (laserCut u) else stoneFlag errResetKey u := by
  simp only [bootCtrlWrite, hb, hv, Bool.not_true, Bool.false_eq_true, if_false, if_true]

/-- R41: ABORT acts in WAIT_IMAGE alone. -/
theorem abortImage_eq (u : State) : abortImage u =
    if u.stone.stage = .waitImage then modStone (fun x => { x with src := .none }) { u with sram := zeroRange 0 0x800000 u.sram }
    else u := rfl

/-- SPI_ENABLE takes its bit, ABORT acts, then GO. -/
theorem bootCtrlWrite_acts {v : U32} (hb : bar0Serves u = true) (hv : bit v.toNat 8 = false) :
    let a := modStone (fun x => { x with spiEnable := bit v.toNat 4 }) u
    let b := if bit v.toNat 1 = true ∧ a.stone.stage = .waitImage then
      modStone (fun x => { x with src := .none }) { a with sram := zeroRange 0 0x800000 a.sram } else a
    bootCtrlWrite v u = if bit v.toNat 0 = true ∧ b.stone.stage = .waitImage then
      (if b.stone.src = .spi then stoneFlag errStageClaim b else modStone (fun x => { x with stage := .verify, error := 0 }) b) else b := by
  intro a b
  have habort : (if bit v.toNat 1 = true then abortImage a else a) = b := by
    rw [abortImage_eq, ← ite_and]
  have hwrite : bootCtrlWrite v u =
      let w := if bit v.toNat 1 = true then abortImage a else a
      if bit v.toNat 0 = true then goFrom .pcie w else w := by
    simp only [bootCtrlWrite, hb, hv, Bool.not_true, Bool.false_eq_true, if_false]
    rfl
  dsimp only at hwrite
  rw [hwrite, habort, goFrom_pcie, ← ite_and]

/-- A register write while BAR0 answers. -/
theorem exec_registerWrite {offset width : Nat} {v : U32} (hb : bar0Serves (advance t s) = true) :
    exec (.registerWrite t offset width v) s = .next (
      if width ≠ 4 ∨ offset % 4 ≠ 0 then stoneFlag errBadAccess (advance t s)
      else if offset = 0 then bootCtrlWrite v (advance t s)
      else if offset = 8 then modStone (fun x => { x with bootLen := v.toNat % 2 ^ 24 }) (advance t s)
      else if offset = 0x28 then modStone (fun x => { x with wakeCtrl := v.setWidth 8 }) (advance t s)
      else if offset = 0x2C then modStone (fun x => { x with wakeStat := x.wakeStat &&& ~~~(v.setWidth 8) }) (advance t s)
      else if offset = 0x30 then modStone (fun x => { x with stoneErr := x.stoneErr &&& ~~~(v.setWidth 6) }) (advance t s)
      else if 0x8000 ≤ offset ∧ offset ≤ 0xFFFC then doorbell ((offset - 0x8000) / 4) v (advance t s)
      else if offset ≤ 0x30 then advance t s
      else stoneFlag errBadAccess (advance t s)) := by
  change Host.Outcome.next (ite (!bar0Serves (advance t s)) _ _) = _
  rw [hb]
  rfl

theorem registerWrite_bootCtrl {v : U32} (hb : bar0Serves (advance t s) = true) :
    exec (.registerWrite t 0 4 v) s = .next (bootCtrlWrite v (advance t s)) := by
  rw [exec_registerWrite hb, if_neg (by decide), if_pos rfl]

/-- R35: a write of another width or alignment, or of an offset that Table 2-3 does not list. -/
theorem registerWrite_badAccess {offset width : Nat} {v : U32} (hb : bar0Serves (advance t s) = true)
    (h : width ≠ 4 ∨ offset % 4 ≠ 0 ∨ (0x30 < offset ∧ offset < 0x8000) ∨ 0xFFFC < offset) :
    exec (.registerWrite t offset width v) s = .next (stoneFlag errBadAccess (advance t s)) := by
  rw [exec_registerWrite hb]
  by_cases hshape : width ≠ 4 ∨ offset % 4 ≠ 0
  · rw [if_pos hshape]
  · rw [if_neg hshape, if_neg (by omega), if_neg (by omega), if_neg (by omega), if_neg (by omega), if_neg (by omega),
      if_neg (by omega), if_neg (by omega)]

/-- R35: a read of DT_SNAP_LO. -/
theorem exec_dtSnapLoRead (hb : bar0Serves (advance t s) = true) : exec (.dtSnapLoRead t) s =
    .next (answer (leBytes 4 ((advance t s).dt.toNat % 2 ^ 32)) (dtLatch (advance t s))) := by
  change Host.Outcome.next (ite (bar0Serves (advance t s) = true) _ _) = _
  rw [if_pos hb]
  rfl

/-! ## Doorbells and ring indices (R36, R43, R292 to R294) -/

theorem exec_doorbellWrite (t : DT) (n : Nat) (v : U32) (s : State) :
    exec (.doorbellWrite t n v) s = .next (doorbell n v (advance t s)) := rfl
theorem exec_dmaDoorbell (t : DT) (n : Nat) (v : U32) (s : State) :
    exec (.dmaDoorbell t n v) s = .next (doorbell n v (advance t s)) := rfl

/-- R36: no doorbell works before READY, nor one of no ring and no channel. -/
theorem doorbell_flags {n : Nat} {v : U32} (hb : bar0Serves u = true)
    (h : u.stone.stage ≠ .ready ∨ (bellChannel n u = none ∧ (getRing n u).created = false)) :
    doorbell n v u = stoneFlag errDoorbell u := by
  rw [doorbell, hb]
  by_cases hstage : u.stone.stage = .ready
  · obtain ⟨hbell, hring⟩ := h.resolve_left (not_not_intro hstage)
    rw [if_neg (by decide), if_neg (not_not_intro hstage), hbell]
    exact if_neg (by simp [hring])
  · rw [if_neg (by decide), if_pos hstage]

theorem doorbell_ring {n : Nat} {v : U32} (hb : bar0Serves u = true) (hstage : u.stone.stage = .ready)
    (hbell : bellChannel n u = none) (hring : (getRing n u).created = true) :
    doorbell n v u = hostIndex n (BitVec.ofNat 16 v.toNat) u := by
  rw [doorbell, hb, if_neg (by decide), if_neg (not_not_intro hstage), hbell]
  exact if_pos hring

theorem doorbell_channel {n k : Nat} {v : U32} (hb : bar0Serves u = true) (hstage : u.stone.stage = .ready)
    (hbell : bellChannel n u = some k) : doorbell n v u = dmaBell k u := by
  rw [doorbell, hb, if_neg (by decide), if_neg (not_not_intro hstage), hbell]

theorem hostIndex_stopped {n : Nat} {i : BitVec 16} (h : (getRing n u).stopped = true) : hostIndex n i u = u := if_pos h

/-- R43: the producer index of a ring the host fills moves up, over at most what the ring holds. -/
theorem hostIndex_producer {n : Nat} {i : BitVec 16} (hrun : (getRing n u).stopped = false) (hprod : hostProduces (getRing n u) = true) :
    hostIndex n i u =
      if ringHeld (getRing n u) ≤ (i - (getRing n u).cons).toNat ∧ (i - (getRing n u).cons).toNat ≤ ringSize (getRing n u) then
        modRing n (fun r => { r with prod := i }) u else ringFault n u := by
  rw [hostIndex]
  simp only [hrun, hprod, Bool.false_eq_true, if_false, if_true]

/-- R43: the consumer index of a ring the host empties moves up, over at most what the ring holds. -/
theorem hostIndex_consumer {n : Nat} {i : BitVec 16} (hrun : (getRing n u).stopped = false) (hprod : hostProduces (getRing n u) = false)
    (hstream : (getRing n u).stream = none) (hkind : (getRing n u).kind ≠ .completion) :
    hostIndex n i u = if ((getRing n u).prod - i).toNat ≤ ringHeld (getRing n u) then modRing n (fun r => { r with cons := i }) u
      else ringFault n u := by
  rw [hostIndex]
  simp only [hrun, hprod, hstream, hkind, Option.isSome_none, Bool.false_eq_true, if_false]

/-! ## Staging and the rings' memory in BAR2 (R33, R41, R315) -/

/-- A write to BAR2 while BAR0 answers and the part is awake. -/
theorem exec_imageStagingWrite {offset : Nat} {bytes : List Byte} (hb : bar0Serves (advance t s) = true)
    (hawake : asleep (advance t s) = false) :
    exec (.imageStagingWrite t offset bytes) s = .next (
      if (advance t s).stone.sramWiped = true then
        (if offset < 0x800000 then stageFrom .pcie offset bytes (advance t s)
        else vectorsWritten offset bytes
          { advance t s with sram := writeBytes (advance t s).sram offset (bytes.take (0x1000000 - offset)) })
      else stoneFlag errEarlyWrite (advance t s)) := by
  change Host.Outcome.next (ite (!bar0Serves (advance t s) || asleep (advance t s)) _ (ite (!(advance t s).stone.sramWiped) _ _)) = _
  rw [hb, hawake]
  cases (advance t s).stone.sramWiped with
  | false => rfl
  | true => rfl

/-- Outside WAIT_IMAGE what PCIe writes to staging is discarded. -/
theorem stageFrom_discarded {offset : Nat} {bytes : List Byte} (h : u.stone.stage ≠ .waitImage) :
    stageFrom .pcie offset bytes u = if u.stone.src = .spi then stoneFlag errStageClaim u else u := by
  rw [stageFrom, if_neg h]
  exact if_congr (claimed_from_pcie _) rfl rfl

theorem stageFrom_waitImage {src : Source} {offset : Nat} {bytes : List Byte} (h : u.stone.stage = .waitImage) :
    stageFrom src offset bytes u = stageWrite src offset bytes u := if_pos h

/-- A write below the MSI-X table touches no vector. -/
theorem vectorsWritten_below {offset : Nat} {bytes : List Byte} (h : offset + bytes.length ≤ 0xFF0000) :
    vectorsWritten offset bytes u = u := by
  have hnone : (List.range 64).filter (fun v =>
      decide (offset ≤ 0xFF0000 + 16 * v + 12) && decide (0xFF0000 + 16 * v + 12 < offset + bytes.length)) = [] := by
    rw [List.filter_eq_nil_iff]
    intro v _ hv
    simp only [Bool.and_eq_true, decide_eq_true_eq] at hv
    omega
  rw [vectorsWritten, hnone]
  rfl

/-! ## The BAR4 window (R32, R316) -/

theorem not_bang_of_true {b : Bool} (h : b = true) : ¬(!b) = true := by simp [h]

/-- A read through BAR4 while BAR0 answers and the part is awake. -/
theorem exec_bar4Read {offset len : Nat} (hb : bar0Serves (advance t s) = true) (hawake : asleep (advance t s) = false) :
    exec (.bar4Read t offset len) s = .next (
      if hostDram (advance t s) < (advance t s).pcie.windowBase + offset + len then completerAbort (advance t s)
      else if (!(advance t s).stone.dramWiped) = true then answer (List.replicate len 0) (advance t s)
      else if dramStalled (advance t s) = true then bar4Hold ((advance t s).pcie.windowBase + offset) len [] (advance t s)
      else bar4Serve ((advance t s).pcie.windowBase + offset) len (advance t s)) := by
  change Host.Outcome.next (ite _ _ (ite _ _ _)) = _
  rw [if_neg (not_bang_of_true hb), if_neg (ne_true_of_eq_false hawake)]

theorem exec_bar4Write {offset : Nat} {bytes : List Byte} (hb : bar0Serves (advance t s) = true)
    (hawake : asleep (advance t s) = false) :
    exec (.bar4Write t offset bytes) s = .next (
      if hostDram (advance t s) < (advance t s).pcie.windowBase + offset + bytes.length then aerReport (advance t s)
      else if (!(advance t s).stone.dramWiped) = true then advance t s
      else if dramStalled (advance t s) = true then bar4Hold ((advance t s).pcie.windowBase + offset) bytes.length bytes (advance t s)
      else storeAt 2 ((advance t s).pcie.windowBase + offset) bytes (dramTouch (advance t s))) := by
  have hgo : ¬(!bar0Serves (advance t s) || asleep (advance t s)) = true := by simp [hb, hawake]
  change Host.Outcome.next (ite _ _ _) = _
  rw [if_neg hgo]

end

/-! ## The host's accesses together -/

/-- Settles O44, access by access. -/
theorem hostAccesses : Obligations.HostAccesses := by
  intro t s u hb
  refine ⟨fun v hv => ?_, fun v hv => ?_, fun v => ?_, exec_dtSnapLoRead hb, fun n v => ?_, fun hawake offset bytes => ?_,
    fun hawake offset => ?_⟩
  · intro after
    rw [exec_bootCtrlDevReset, registerWrite_bootCtrl hb, bootCtrlWrite_reset hb hv]
    exact ⟨rfl, rfl⟩
  · intro a b after
    have hwrite : bootCtrlWrite v (advance t s) = after := bootCtrlWrite_acts hb hv
    rw [exec_go, exec_abort, exec_spiEnable, registerWrite_bootCtrl hb, hwrite]
    exact ⟨rfl, rfl, rfl, rfl⟩
  · refine ⟨?_, ?_, ?_, ?_, fun offset width h => registerWrite_badAccess hb h⟩
    · rw [exec_registerWrite hb]
      rfl
    · rw [exec_registerWrite hb]
      rfl
    · rw [exec_registerWrite hb]
      rfl
    · rw [exec_registerWrite hb]
      rfl
  · intro r i faulted
    refine ⟨?_, ?_, ?_, ?_, ?_⟩
    · intro h
      rw [exec_doorbellWrite, doorbell_flags hb h]
    · intro hstage hbell hring hstop
      rw [exec_doorbellWrite, doorbell_ring hb hstage hbell hring, hostIndex_stopped hstop]
    · intro hstage hbell hring hrun hprod
      rw [exec_doorbellWrite, doorbell_ring hb hstage hbell hring, hostIndex_producer hrun hprod]
      rfl
    · intro hstage hbell hring hrun hprod hstream hkind
      rw [exec_doorbellWrite, doorbell_ring hb hstage hbell hring, hostIndex_consumer hrun hprod hstream hkind]
      rfl
    · intro hstage k hbell
      rw [exec_dmaDoorbell, doorbell_channel hb hstage hbell]
      rfl
  · rw [exec_imageStagingWrite hb hawake]
    refine ⟨fun hwiped => ?_, fun hwiped hstage hsrc hlow => ?_, fun hwiped hstage hlow => ?_, fun hwiped hhigh hend => ?_⟩
    · rw [if_neg (ne_true_of_eq_false hwiped)]
    · rw [if_pos hwiped, if_pos hlow, stageFrom_waitImage hstage, stageWrite_stores _ _ (source_of_ne_spi hsrc)]
      exact ⟨_, rfl⟩
    · rw [if_pos hwiped, if_pos hlow, stageFrom_discarded hstage]
    · rw [if_pos hwiped, if_neg (Nat.not_lt.2 hhigh), vectorsWritten_below hend, List.take_of_length_le (by omega)]
  · intro a touched
    refine ⟨fun len hin hwiped hstall => ⟨fun hclean => ?_, fun hpoison => ?_⟩, fun bytes hin hwiped hstall => ?_,
      fun len hin hwiped => ?_, fun bytes hin hwiped => ?_, fun len hout => ?_, fun bytes hout => ?_⟩
    · rw [exec_bar4Read hb hawake, if_neg (Nat.not_lt.2 hin), if_neg (not_bang_of_true hwiped),
        if_neg (ne_true_of_eq_false hstall), bar4Serve, if_neg (ne_true_of_eq_false hclean)]
      rfl
    · rw [exec_bar4Read hb hawake, if_neg (Nat.not_lt.2 hin), if_neg (not_bang_of_true hwiped),
        if_neg (ne_true_of_eq_false hstall), bar4Serve, if_pos hpoison]
      rfl
    · rw [exec_bar4Write hb hawake, if_neg (Nat.not_lt.2 hin), if_neg (not_bang_of_true hwiped),
        if_neg (ne_true_of_eq_false hstall)]
      rfl
    · rw [exec_bar4Read hb hawake, if_neg (Nat.not_lt.2 hin), if_pos ((Bool.not_eq_true' _).mpr hwiped)]
    · rw [exec_bar4Write hb hawake, if_neg (Nat.not_lt.2 hin), if_pos ((Bool.not_eq_true' _).mpr hwiped)]
    · rw [exec_bar4Read hb hawake, if_pos hout]
    · rw [exec_bar4Write hb hawake, if_pos hout]

end Sys2Proof.Machine

namespace Sys2Proof.Machine

/-! ## What the power-up sequence's operations leave alone -/

@[simp] theorem laserCut_stone (u : State) : (laserCut u).stone = u.stone := by
  unfold laserCut
  split
  · rfl
  · rfl

@[simp] theorem laserCut_dt (u : State) : (laserCut u).dt = u.dt := by
  unfold laserCut
  split
  · rfl
  · rfl

@[simp] theorem laserCut_fuse (u : State) : (laserCut u).fuse = u.fuse := by
  unfold laserCut
  split
  · rfl
  · rfl

@[simp] theorem pllBegin_sram (n target : Nat) (u : State) : (pllBegin n target u).sram = u.sram := by
  unfold pllBegin
  dsimp only
  split
  · rfl
  · split
    · rfl
    · rfl

@[simp] theorem dtStep_sram (step : Nat) (u : State) : (dtStep step u).sram = u.sram := by
  unfold dtStep
  split
  · rfl
  · rfl

@[simp] theorem pllRun_sram (n target : Nat) (u : State) : (pllRun n target u).sram = u.sram := by
  have hlock : ∀ v : State, (pllLock n v).sram = v.sram := fun _ => rfl
  have hdraw : ∀ v : State, (draw v).2.sram = v.sram := fun _ => rfl
  unfold pllRun
  dsimp only
  split
  · exact pllBegin_sram n target u
  · split
    · exact pllBegin_sram n target u
    · split
      · rw [modPll_sram, dtStep_sram, hdraw, hlock, pllBegin_sram]
      · rw [modPll_sram, hlock, pllBegin_sram]

/-- What every change of a list keeps, the changes together keep. -/
theorem each_keeps {α β : Type} (g : State → β) (xs : List α) (f : α → State → State) (h : ∀ x u, g (f x u) = g u)
    (u : State) :
    g (each xs f u) = g u := by
  unfold each
  induction xs generalizing u with
  | nil => rfl
  | cons x xs ih => rw [List.foldl_cons, ih, h]

/-! ## A reset hold (R385, R392) -/

/-- From a part that runs, a reset hold leaves the stone domain out of POR at POWER, with nothing running. -/
theorem holdReset_holds {why : Hold} {u : State} (hpor : u.stone.porN = true) (hhold : u.stone.hold = .none) :
    (holdReset why u).stone.hold = why ∧ (holdReset why u).stone.stage = .power ∧ (holdReset why u).stone.porN = true ∧
      (holdReset why u).stone.seqStart = u.dt ∧ (holdReset why u).stone.stoneErr = u.stone.stoneErr ∧
      (holdReset why u).steward.running = false ∧ (holdReset why u).rings = [] ∧ (holdReset why u).laser.en = false := by
  have hadd : (holdReset why u).stone.hold = holdAdd (laserCut u).stone.hold why := rfl
  have hpin : (holdReset why u).stone.porN = (laserCut u).stone.porN := rfl
  have herr : (holdReset why u).stone.stoneErr = (laserCut u).stone.stoneErr := rfl
  rw [hadd, hpin, herr, laserCut_stone, hhold]
  exact ⟨rfl, rfl, hpor, rfl, rfl, rfl, rfl, rfl⟩

/-! ## The rows, each in its stage (R30 to R34, R385, R392) -/

/-- POR_N low: every part takes its reset value; LC_STATE reads the fuses, and the key slot and PERST_N stay. -/
theorem porNLow_resets (t : DT) (s : State) : let u := advance t s
    ∃ v, exec (.porNLow t) s = .next v ∧ v.stone.porN = false ∧ v.stone.stage = .power ∧ v.stone.error = 0 ∧
      v.stone.ifaceLevel = 0 ∧ v.stone.stoneErr = 0 ∧ v.stone.hold = .none ∧ v.stone.idKey = u.stone.idKey ∧
      v.stone.perstN = u.stone.perstN ∧ v.fuse = u.fuse ∧ v.steward.running = false ∧ v.rings = [] ∧
      v.bunch.table = [] ∧ v.laser.en = false ∧ v.dt = u.dt ∧ ∀ n, (getPll n v).locked = false := by
  have hkey : (laserCut (advance t s)).stone.idKey = (advance t s).stone.idKey := by rw [laserCut_stone]
  have hpin : (laserCut (advance t s)).stone.perstN = (advance t s).stone.perstN := by rw [laserCut_stone]
  exact ⟨_, rfl, rfl, rfl, rfl, rfl, rfl, rfl, hkey, hpin, laserCut_fuse _, rfl, rfl, rfl, rfl, laserCut_dt _, fun _ => rfl⟩

/-- The state in which Korsyn has come up: the stage, the steward, the bootstrap rings with their memory zero, and the visits
of R345. -/
def korsynUp (u : State) : State :=
  let v := modStone (fun x => { x with
      stage := .ready, ifaceLevel := 3, src := .none, runSec := (headerAt (pllRun 1 640000 u).sram 0).sec })
    (pllRun 1 640000 u)
  { v with
    steward := { v.steward with running := true, bootDt := v.dt }, rings := bootstrapRings, sram := zeroRange 0x800000 0x7000 v.sram
    health := { v.health with
      pipDue := dtAdd v.dt (visitSpacing v.health.pipPeriod (pipsHealthy v))
      curDue := dtAdd v.dt (visitSpacing v.health.curPeriod (currantsHealthy v)) } }

/-- R94: the pad counts of the channels that are there, from their OTP bits. -/
def padCounted (u : State) : State :=
  each ((List.range 4).filter fun n => rfPresent n u) (fun n u => modRf n (fun c => { c with padCount := otpFloor n u + 1 }) u) u

theorem padCounted_leaves (u : State) :
    (padCounted u).stone = u.stone ∧ (padCounted u).steward = u.steward ∧ (padCounted u).rings = u.rings := by
  unfold padCounted
  refine ⟨each_keeps State.stone _ _ (fun n v => ?_) u, each_keeps State.steward _ _ (fun n v => ?_) u,
    each_keeps State.rings _ _ (fun n v => ?_) u⟩
  · rfl
  · rfl
  · rfl

theorem storeAt_leaves (l a : Nat) (bs : List Byte) (u : State) :
    (storeAt l a bs u).stone = u.stone ∧ (storeAt l a bs u).steward = u.steward ∧ (storeAt l a bs u).rings = u.rings := by
  unfold storeAt unpoison
  split
  · exact ⟨rfl, rfl, rfl⟩
  · split
    · exact ⟨rfl, rfl, rfl⟩
    · exact ⟨rfl, rfl, rfl⟩

theorem rewriteCaps_leaves (u : State) :
    (rewriteCaps u).stone = u.stone ∧ (rewriteCaps u).steward = u.steward ∧ (rewriteCaps u).rings = u.rings :=
  storeAt_leaves _ _ _ _

theorem exec_korsynReady {t : DT} {s : State} (h : (advance t s).stone.stage = .start) :
    exec (.korsynReady t) s = .next (event 0x0101 0 0xFFFF [] (rewriteCaps (padCounted (korsynUp (advance t s))))) := by
  change Host.Outcome.next (ite _ _ _) = _
  rw [if_pos h]
  rfl

/-- R34: Korsyn is ready: the bootstrap rings stand, and EV_READY is the last thing posted. -/
theorem korsynReady_readies {t : DT} {s : State} (h : (advance t s).stone.stage = .start) : let u := advance t s
    ∃ v, exec (.korsynReady t) s = .next (event 0x0101 0 0xFFFF [] v) ∧ v.stone.stage = .ready ∧ v.stone.ifaceLevel = 3 ∧
      v.stone.src = .none ∧ v.stone.runSec = (headerAt u.sram 0).sec ∧ v.steward.running = true ∧ v.rings = bootstrapRings := by
  refine ⟨_, exec_korsynReady h, ?_⟩
  obtain ⟨hstone, hsteward, hrings⟩ := rewriteCaps_leaves (padCounted (korsynUp (advance t s)))
  obtain ⟨hstone', hsteward', hrings'⟩ := padCounted_leaves (korsynUp (advance t s))
  rw [hstone, hsteward, hrings, hstone', hsteward', hrings']
  refine ⟨rfl, rfl, rfl, ?_, rfl, rfl⟩
  change (headerAt (pllRun 1 640000 (advance t s)).sram 0).sec = _
  rw [pllRun_sram]

/-- R38: the row answers the outcome of the image's checks. -/
theorem verifyDone_judges {t : DT} {s : State} (h : (advance t s).stone.stage = .verify) : let u := advance t s
    exec (.verifyDone t) s = .next (match imageError u.sram 0 u.stone.bootLen u with
      | none => modStone (fun x => { x with stage := .waitDram, imageLen := x.bootLen }) u
      | some e => modStone (fun x => { x with stage := .waitImage, error := e, src := .none }) (dropImage u)) := by
  change Host.Outcome.next (ite _ _ _) = _
  rw [if_pos h]
  cases imageError (advance t s).sram 0 (advance t s).stone.bootLen (advance t s) with
  | none => rfl
  | some e => rfl

/-- Settles O43, row by row: the stage each belongs to opens its row. -/
theorem powerUpEvents : Obligations.PowerUpEvents := by
  intro t s u
  refine ⟨porNLow_resets t s, fun h => ?_, fun hpor hhold hstage hfuses => ?_, fun hpor hhold hstage hfuses => ?_, fun h => ?_,
    fun hdown hfill hwiped ok => ?_, fun hdown hfill => ?_, verifyDone_judges, fun hstage hwiped => ?_, korsynReady_readies,
    fun hstage hlate => ?_, rfl, fun h => ?_, fun hpor hhold => ⟨?_, ?_⟩, fun h => ?_, fun h hover => ?_⟩
  · exact congrArg Host.Outcome.next (if_neg (ne_true_of_eq_false h))
  · exact congrArg Host.Outcome.next (if_pos ⟨hpor, hhold, hstage, hfuses⟩)
  · exact congrArg Host.Outcome.next (if_pos ⟨hpor, hhold, hstage, hfuses⟩)
  · exact congrArg Host.Outcome.next (if_pos h)
  · have hgo : (downloading u && !u.stone.dramFill && !u.stone.dramWiped) = true := by rw [hdown, hfill, hwiped]; rfl
    exact congrArg Host.Outcome.next (if_pos hgo)
  · have hgo : (downloading u && u.stone.dramFill) = true := by rw [hdown, hfill]; rfl
    exact congrArg Host.Outcome.next (if_pos hgo)
  · exact congrArg Host.Outcome.next (if_pos ⟨hstage, hwiped⟩)
  · exact congrArg Host.Outcome.next (if_pos ⟨hstage, hlate⟩)
  · exact congrArg Host.Outcome.next (if_neg (ne_true_of_eq_false h))
  · exact ⟨_, congrArg Host.Outcome.next (if_pos hpor), holdReset_holds hpor hhold⟩
  · exact ⟨_, congrArg Host.Outcome.next (if_pos hpor), holdReset_holds hpor hhold⟩
  · have hend : holdEnd .undervoltage u = modStone (fun x => { x with hold := .none, seqStart := u.dt }) u := by
      rw [holdEnd, h]
      rfl
    exact congrArg Host.Outcome.next ((if_pos (.inl h)).trans hend)
  · have hend : holdEnd .thermal u = modStone (fun x => { x with hold := .none, seqStart := u.dt }) u := by
      rw [holdEnd, h]
      rfl
    exact congrArg Host.Outcome.next ((if_pos ⟨.inl h, hover⟩).trans hend)

end Sys2Proof.Machine

/-! # Bunches: what is staged, who acts on a bunch, and the BUNCH commands

Staging rests on the start of domains leaving the bunches alone. That only the opener acts on a bunch rests on answers doing
nothing to the table of bunches but filter it. -/

namespace Sys2Proof.Machine

/-! ## What an event and the start of domains leave alone -/

@[simp] theorem writeEvent_bunch (e : Event) (n : Nat) (s : State) : (writeEvent e n s).bunch = s.bunch := by
  cases h : ringRoom (getRing n s) s with
  | true => rw [writeEvent_of_room h, modRing_bunch, publish_bunch]
  | false => rw [writeEvent_of_full h, modRing_bunch]

@[simp] theorem postEvent_bunch (e : Event) (s : State) : (postEvent e s).bunch = s.bunch := by
  unfold postEvent
  split
  · exact each_keeps State.bunch _ _ (writeEvent_bunch e) s
  · split
    · split
      · rfl
      · rfl
    · rfl

@[simp] theorem powerChange_bunch (next : Power) (wake : Nat) (t : DT) (s : State) :
    (powerChange next wake t s).bunch = s.bunch := by
  unfold powerChange
  dsimp only
  split
  · rfl
  · exact postEvent_bunch _ _

@[simp] theorem pllBegin_bunch (n target : Nat) (s : State) : (pllBegin n target s).bunch = s.bunch := by
  unfold pllBegin
  dsimp only
  split
  · rfl
  · split
    · rfl
    · rfl

@[simp] theorem domainPll_pllBegin_bunch (d : Domain) (s : State) : (domainPll pllBegin d s).bunch = s.bunch := by
  cases d with
  | ethernet p => rfl
  | fabric | converter k | display => exact pllBegin_bunch _ _ s

@[simp] theorem firstAdmission_bunch (s : State) : (firstAdmission s).bunch = s.bunch := by
  unfold firstAdmission
  split
  · rfl
  · refine (each_keeps State.bunch _ _ (fun n u => ?_) _).trans (each_keeps State.bunch _ _ (fun n u => ?_) s)
    · split
      · rfl
      · rfl
    · split
      · rfl
      · rfl

@[simp] theorem wakeDomains_bunch (ds : List Domain) (s : State) : (wakeDomains ds s).bunch = s.bunch := by
  unfold wakeDomains
  split
  · rfl
  · refine (each_keeps State.bunch _ _ domainPll_pllBegin_bunch _).trans ?_
    split
    · exact powerChange_bunch _ _ _ s
    · rfl

/-- R369: starting the domains that some writes need stages nothing and changes no bunch. -/
@[simp] theorem startDomains_bunch (ws : List Write) (s : State) : (startDomains ws s).bunch = s.bunch := by
  unfold startDomains
  split
  · rw [wakeDomains_bunch, firstAdmission_bunch]
  · exact wakeDomains_bunch _ s

theorem getBunch_congr (k : Nat) {s t : State} (h : t.bunch.table = s.bunch.table) : getBunch k t = getBunch k s :=
  congrArg (fun table => tget ({} : Bunch) table k) h

@[simp] theorem getBunch_startDomains (k : Nat) (ws : List Write) (s : State) : getBunch k (startDomains ws s) = getBunch k s :=
  getBunch_congr k (by rw [startDomains_bunch])

/-! ## Staging (R52, R55, R58, R59) -/

/-- A claim joins the staging cycle after those made before it. -/
def stage (g : Staged) (s : State) : State := { s with bunch := { s.bunch with staged := s.bunch.staged ++ [g] } }

@[simp] theorem getBunch_stage (k : Nat) (g : Staged) (s : State) : getBunch k (stage g s) = getBunch k s := rfl

@[simp] theorem stage_staged (g : Staged) (s : State) : (stage g s).bunch.staged = s.bunch.staged ++ [g] := rfl

@[simp] theorem modBunch_staged (n : Nat) (f : Bunch → Bunch) (s : State) : (modBunch n f s).bunch.staged = s.bunch.staged := rfl

/-- R58, R59: the bunch that a direct write to a running block becomes. -/
def directBunchOf (x : Ctx) (ms : List Member) (result : Nat) (s : State) : Bunch :=
  { state := .arming, master := x.master, direct := some x.ref, openedAt := x.t
    point := nowPoint x.t (startDelay (ms.map (·.write)) s), result := result }

theorem directBunch_of_free {id : Nat} {s : State} (x : Ctx) (ms : List Member) (result : Nat) (h : freeId s = some id) :
    directBunch x ms result s =
      stage { id := id, master := x.master, members := ms, ref := some x.ref, result := result }
        (modBunch id (fun _ => directBunchOf x ms result s) (startDomains (ms.map (·.write)) s)) := by
  unfold directBunch
  rw [h]
  rfl

/-- R18, R355: an open bunch takes note of the starts and tests that writes staged into it wait for. -/
def noteStarts (ws : List Write) (s : State) (b : Bunch) : Bunch :=
  { b with starts := b.starts ++ (domainsOff ws s).filter fun d => !b.starts.contains d, tests := b.tests || testsWait ws s }

theorem stageMember_eq (x : Ctx) (ms : List Member) (result : Nat) (s : State) :
    stageMember x ms result s =
      stage { id := x.bunchId, master := x.master, members := ms, ref := some x.ref, result := result }
        (startDomains (ms.map (·.write)) (modBunch x.bunchId (noteStarts (ms.map (·.write)) s) s)) := rfl

/-- Settles O14: both outcomes are one change of one bunch and one claim staged last. -/
theorem writesAreStaged : Obligations.WritesAreStaged := by
  intro x ms r s
  refine ⟨fun id hfree => ?_, ?_⟩
  · intro t
    have ht : t = _ := directBunch_of_free x ms r hfree
    rw [ht]
    refine ⟨?_, fun k hk => ?_, ?_⟩
    · rw [getBunch_stage, getBunch_modBunch]
      rfl
    · rw [getBunch_stage, getBunch_modBunch_other _ _ _ _ hk, getBunch_startDomains]
    · rw [stage_staged, modBunch_staged, startDomains_bunch]
  · intro t
    have ht : t = _ := stageMember_eq x ms r s
    rw [ht]
    refine ⟨?_, fun k hk => ?_, ?_⟩
    · rw [stage_staged, startDomains_bunch, modBunch_staged]
    · rw [getBunch_stage, getBunch_startDomains, getBunch_modBunch_other _ _ _ _ hk]
    · rw [getBunch_stage, getBunch_startDomains, getBunch_modBunch]
      exact ⟨rfl, rfl, rfl, rfl⟩

/-! ## Only the opener of a bunch acts on it (R51) -/

/-- An entry of a table in canonical form that survives a filter reads as before; one that does not reads the default. -/
theorem tget_filter_or {α : Type} [DecidableEq α] {d : α} {t : Table α} (p : Nat × α → Bool) (k : Nat) (h : twf d t = true) :
    tget d (t.filter p) k = tget d t k ∨ tget d (t.filter p) k = d := by
  by_cases hd : tget d (t.filter p) k = d
  · exact .inr hd
  · exact .inl (tget_of_mem h (List.mem_of_mem_filter (mem_of_tget_ne hd))).symm

/-- R50: completions only free bunches. -/
theorem flushCompletions_filters (n k : Nat) (s : State) :
    ∃ p, (flushCompletions n k s).bunch.table = s.bunch.table.filter p := by
  have hsame : ∃ p, s.bunch.table = s.bunch.table.filter p := ⟨fun _ => true, (List.filter_true _).symm⟩
  induction k generalizing s with
  | zero => exact hsame
  | succ k ih =>
    have hpop : ∀ ref rest u, u.bunch = (freeDirect ref (modRing n (fun r => { r with inflight := rest }) s)).bunch →
        ∃ p, (flushCompletions n k u).bunch.table = s.bunch.table.filter p := by
      intro ref rest u hu
      obtain ⟨p, hp⟩ := ih u ⟨fun _ => true, (List.filter_true _).symm⟩
      rw [hp, hu]
      exact ⟨_, List.filter_filter⟩
    unfold flushCompletions
    dsimp only
    split
    · exact hsame
    · split
      · next ref d rest _ =>
        split
        · exact hpop ref rest _ rfl
        · split
          · exact hpop ref rest _ (publish_bunch _ _ _)
          · exact hsame
      · exact hsame

theorem fail_filters (ref : CmdRef) (status reason : Nat) (s : State) :
    ∃ p, (fail ref status reason s).bunch.table = s.bunch.table.filter p := by
  unfold fail complete
  split
  · exact ⟨fun _ => true, (List.filter_true _).symm⟩
  · exact flushCompletions_filters _ _ _

theorem ownBunch_of_otherMaster {x : Ctx} {s : State} (h : (getBunch x.bunchId s).master ≠ x.master) : ownBunch x s = false := by
  simp [ownBunch, h]

/-- In a table in canonical form, an answer gives no bunch to a master whose bunch it was not. -/
theorem ownBunch_fail_of_otherMaster {x : Ctx} {s : State} (ref : CmdRef) (status reason : Nat)
    (htable : twf {} s.bunch.table = true) (h : (getBunch x.bunchId s).master ≠ x.master) :
    ownBunch x (fail ref status reason s) = false := by
  obtain ⟨p, hp⟩ := fail_filters ref status reason s
  have hbunch : getBunch x.bunchId (fail ref status reason s) = tget {} (s.bunch.table.filter p) x.bunchId :=
    congrArg (fun t => tget ({} : Bunch) t x.bunchId) hp
  rcases tget_filter_or p x.bunchId htable with hkept | hfreed
  · exact ownBunch_of_otherMaster (by rw [hbunch, hkept]; exact h)
  · have hclosed : (getBunch x.bunchId (fail ref status reason s)).state ≠ .opened := by
      rw [hbunch, hfreed]
      decide
    simp [ownBunch, hclosed]

/-- R51: a configuration command sent into a bunch that another master opened fails with BADARG and changes no bunch, where the
table of bunches is in canonical form. -/
theorem clashCommand_of_otherMaster {op : Nat} {rule : UnitRule} {wrong clash : Ctx → State → State → Checks}
    {absent : Ctx → State → Bool} {busy : Ctx → State → State → Bool} {members : Ctx → State → List Member}
    {result : Ctx → State → Nat} {c : Cmd} {s : State} (htable : twf {} s.bunch.table = true)
    (h : Sent op c s) (hin : bit (fld c.entry 2 2) 0 = true)
    (hmaster : (getBunch (fld c.entry 8 2) s).master ≠ (getRing c.ring s).master) :
    ∃ off ≤ 8, clashCommand op rule wrong clash absent busy members result c s =
      fail (ctxOf c s).ref stBadArg off (taken c s) := by
  have hother : (getBunch (ctxOf c s).bunchId (taken c s)).master ≠ (ctxOf c s).master := by rw [getBunch_taken]; exact hmaster
  have hmem : ((8 : Nat), true) ∈ memberChecks rule wrong clash absent (ctxOf c s) (taken c s) := by
    have hcheck : ((ctxOf c s).inBunch && !ownBunch (ctxOf c s) (taken c s)) = true := by
      rw [ownBunch_of_otherMaster hother]
      exact (Bool.and_true _).trans hin
    simp [memberChecks, hcheck]
  rw [clashCommand, takeCommand_sent _ h]
  dsimp only
  generalize hcs : (8, _) :: memberChecks rule wrong clash absent (ctxOf c s) (taken c s) = cs
  have hcs8 : (8, true) ∈ cs := hcs ▸ List.mem_cons_of_mem _ hmem
  cases hoff : badOffset cs with
  | none => exact absurd ((badOffset_none cs).1 hoff _ hcs8) (by decide)
  | some off =>
    refine ⟨off, badOffset_le hoff _ hcs8 rfl, ?_⟩
    have hfail := ownBunch_fail_of_otherMaster (ctxOf c s).ref stBadArg off (by rw [taken_bunch]; exact htable) hother
    simp [memberFail, hfail]

/-- Ring 0, PF0's, holds TRIG.LIMIT_RESUME as a member of bunch 0. The table lists number 0 twice: first a bunch of
another master, made from a direct write that goes by the reference this command gets, then PF0's own bunch, OPEN. -/
def shadowedOpen : State :=
  { steward := { running := true }
    rings := [(0, { created := true, kind := .command, pair := 1, prod := 1 }), (1, { created := true, kind := .completion })]
    bunch := { table := [
      (0, { state := .aborted, master := .ethernet
            direct := some { ring := 0, index := 0, tag := 0, opcode := 0x0B05, quiet := false } }),
      (0, { state := .opened })] } }

/-- TRIG.LIMIT_RESUME with FLAGS[0] set, of bunch 0 and personality 0. -/
def resumeInBunch : Cmd := { t := 0, ring := 0, entry := 0x10B05 }

/-- The answer frees the bunch listed first; the one listed behind it is now the command's own, and aborts with it. -/
theorem bunchStateAfter_resumeInBunch : bunchStateAfter (exec (.trigLimitResume resumeInBunch) shadowedOpen) = .free := by
  decide +kernel

/-- An answer alone leaves the bunch listed second OPEN. -/
theorem bunchStateAfter_fail_shadowedOpen : ∀ off ≤ 8, bunchStateAfter (.next (fail (ctxOf resumeInBunch shadowedOpen).ref stBadArg off
    (taken resumeInBunch shadowedOpen))) = .opened := by
  decide +kernel

/-- Refutes O15, in its clause of configuration commands: of `shadowedOpen` it says that TRIG.LIMIT_RESUME only fails, where the row
also aborts a bunch. The clause lacks the premise that the table of bunches is in canonical form, with which it holds:
`clashCommand_of_otherMaster`. -/
theorem not_onlyTheOpenerActs : ¬ Obligations.OnlyTheOpenerActs := by
  rintro ⟨hmembers, -⟩
  have hsent : Sent 0x0B05 resumeInBunch shadowedOpen := ⟨by decide +kernel, by decide +kernel⟩
  obtain ⟨off, hoff, hexec⟩ := hmembers resumeInBunch shadowedOpen (by decide +kernel) (by decide +kernel)
    (0x0B05, .trigLimitResume resumeInBunch) (by simp) hsent
  have hfree := bunchStateAfter_resumeInBunch
  rw [hexec, bunchStateAfter_fail_shadowedOpen off hoff] at hfree
  exact absurd hfree (by decide)

/-! ## BUNCH commands (Table 3-8, R50, R59 to R61) -/

theorem exec_bunchOpen (c : Cmd) (s : State) : exec (.bunchOpen c) s = .next (bunchOpen c s) := rfl
theorem exec_bunchCommit (c : Cmd) (s : State) : exec (.bunchCommit c) s = .next (bunchCommit c s) := rfl
theorem exec_bunchAbort (c : Cmd) (s : State) : exec (.bunchAbort c) s = .next (bunchAbort c s) := rfl
theorem exec_bunchQuery (c : Cmd) (s : State) : exec (.bunchQuery c) s = .next (bunchQuery c s) := rfl

@[simp] theorem freeId_taken (c : Cmd) (s : State) : freeId (taken c s) = freeId s := by simp [freeId]
@[simp] theorem bunchClaims_taken (id : Nat) (c : Cmd) (s : State) : bunchClaims id (taken c s) = bunchClaims id s := by
  simp [bunchClaims]

/-- R50, R51: an ID that COMMIT and ABORT may name: of the master's own bunch, not made from a direct write. -/
theorem badBunchId_taken {c : Cmd} {s : State} :
    badBunchId (ctxOf c s) (taken c s) = false ↔ c.u16 16 < 64 ∧ (getBunch (c.u16 16) s).state ≠ .free ∧
      (getBunch (c.u16 16) s).master = (getRing c.ring s).master ∧ (getBunch (c.u16 16) s).direct = none := by
  change (decide (64 ≤ c.u16 16) || (getBunch (c.u16 16) (taken c s)).state == .free ||
    (getBunch (c.u16 16) (taken c s)).master != (getRing c.ring s).master || (getBunch (c.u16 16) (taken c s)).direct.isSome) = false ↔ _
  simp [and_assoc]

theorem bunchOpen_opens {c : Cmd} {s : State} {id : Nat} (h : Sent 0x0301 c s) (hal : Alone 0xFFFF c) (hms : c.u32 16 ≤ 600000)
    (hz : ZeroBytes c.entry 20 64) (hfree : freeId s = some id) :
    exec (.bunchOpen c) s = .next (done c s id (modBunch id (fun _ =>
      { state := .opened, master := (getRing c.ring s).master, timeoutMs := if c.u32 16 = 0 then 10000 else c.u32 16
        openedAt := (taken c s).dt }) (taken c s))) := by
  rw [exec_bunchOpen, bunchOpen, plainCommand_sent _ _ h hal rfl]
  · simp only [freeId_taken, hfree]
    rfl
  · simp only [badOffset_append, badOffset_cons, badOffset_nil, badOffset_reserved, ctxOf_u32, ctxOf_e]
    exact ⟨⟨decide_eq_false (Nat.not_lt.2 hms), trivial⟩, hz⟩

theorem bunchAbort_aborts {c : Cmd} {s : State} (h : Sent 0x0303 c s) (hal : Alone 0xFFFF c)
    (hstate : (getBunch (c.u16 16) s).state = .opened ∨ (getBunch (c.u16 16) s).state = .arming)
    (hid : badBunchId (ctxOf c s) (taken c s) = false) (hz : ZeroBytes c.entry 18 64) :
    exec (.bunchAbort c) s = .next (done c s 0 (abortBunch (c.u16 16) 6 0 0 0 0 (taken c s))) := by
  rw [exec_bunchAbort, bunchAbort, plainCommand_sent _ _ h hal rfl]
  · simp only [ctxOf_u16, getBunch_taken]
    rw [if_pos hstate]
    rfl
  · simp only [badOffset_cons, badOffset_reserved]
    exact ⟨hid, hz⟩

theorem bunchQuery_answers {c : Cmd} {s : State} (h : Sent 0x0304 c s) (hal : Alone 0xFFFF c) (hid : c.u16 16 < 64)
    (hz : ZeroBytes c.entry 18 64) : let b := getBunch (c.u16 16) s
    exec (.bunchQuery c) s = .next (done c s (if b.state = .free then 0
      else bunchCode b.state + 256 * masterCode b.master + 65536 * bunchWrites (c.u16 16) (taken c s)) (taken c s)) := by
  intro b
  rw [exec_bunchQuery, bunchQuery, plainCommand_sent _ _ h hal rfl]
  · simp only [ctxOf_u16, getBunch_taken]
    split
    · rfl
    · rfl
  · simp only [badOffset_cons, badOffset_reserved]
    exact ⟨decide_eq_false (Nat.not_le.2 hid), hz⟩

/-- R59, R60: a bunch that is committed: it arms, with its anchor and the commit point that goes with it. -/
def commitsAs (c : Cmd) (s : State) (b : Bunch) : Bunch :=
  let delay := delayOf (getBunch (c.u16 16) s).starts (getBunch (c.u16 16) s).tests
  { b with
    state := .arming, commit := some (ctxOf c s).ref
    point := if c.u8 18 = 1 then BitVec.ofNat 64 (c.u64 24)
      else if c.u8 18 = 2 then dtAdd (taken c s).dt (leadTk + delay) else nowPoint (taken c s).dt delay
    anchor := if c.u8 18 = 2 then some { cls := c.u8 19, inst := c.u16 20 } else none }

/-- The checks of BUNCH.COMMIT on its own fields (Table 3-8). -/
abbrev commitChecks (x : Ctx) (s : State) : Checks :=
  let anchor := x.u8 18
  let unit : Claim := { cls := x.u8 19, inst := x.u16 20 }
  [(16, badBunchId x s), (18, decide (2 < anchor)), (18, anchor != 2 && (x.u8 19 != 0 || x.u16 20 != 0)),
   (18, anchor == 2 && !(bunchClaims (x.u16 16) s).contains unit), (18, anchor != 1 && x.u64 24 != 0),
   (24, x.u64 24 % 64 != 0)] ++ reserved x.e 22 24 ++ reserved x.e 32 64

theorem commitChecks_right {c : Cmd} {s : State} (hid : badBunchId (ctxOf c s) (taken c s) = false) (hanchor : c.u8 18 ≤ 2)
    (hnone : c.u8 18 ≠ 2 → c.u8 19 = 0 ∧ c.u16 20 = 0)
    (hunit : c.u8 18 = 2 → { cls := c.u8 19, inst := c.u16 20 } ∈ bunchClaims (c.u16 16) s) (hat : c.u8 18 ≠ 1 → c.u64 24 = 0)
    (hgroup : c.u64 24 % 64 = 0) (hz1 : ZeroBytes c.entry 22 24) (hz2 : ZeroBytes c.entry 32 64) :
    badOffset (commitChecks (ctxOf c s) (taken c s)) = none := by
  simp only [commitChecks, badOffset_append, badOffset_cons, badOffset_nil, badOffset_reserved, bunchClaims_taken]
  refine ⟨⟨⟨hid, decide_eq_false (Nat.not_lt.2 hanchor), ?_, ?_, ?_, ?_, trivial⟩, hz1⟩, hz2⟩
  · simpa [or_iff_not_imp_left, ctxOf_u8, ctxOf_u16] using hnone
  · simpa [or_iff_not_imp_left, ctxOf_u8, ctxOf_u16] using hunit
  · simpa [or_iff_not_imp_left, ctxOf_u8, ctxOf_u64] using hat
  · simpa [ctxOf_u64] using hgroup

/-- R59 to R61: an open bunch whose geometry fits is committed; a T of its own that lies less than L ahead aborts it. -/
theorem bunchCommit_commits {c : Cmd} {s : State} (h : Sent 0x0302 c s) (hal : Alone 0xFFFF c)
    (hstate : (getBunch (c.u16 16) s).state = .opened) (hchecks : badOffset (commitChecks (ctxOf c s) (taken c s)) = none)
    (hfits : geometryWrong (c.u16 16) (modBunch (c.u16 16) (commitsAs c s) (taken c s)) = false) :
    let delay := delayOf (getBunch (c.u16 16) s).starts (getBunch (c.u16 16) s).tests
    let v := modBunch (c.u16 16) (commitsAs c s) (taken c s)
    exec (.bunchCommit c) s = .next (if c.u8 18 = 1 ∧ c.u64 24 < (taken c s).dt.toNat + leadTk + delay
      then abortBunch (c.u16 16) 5 stLate 0 0 0 v else v) := by
  intro delay v
  have hdt : ((ctxOf c s).dt 24).toNat = c.u64 24 := Nat.mod_eq_of_lt (fld_lt c.entry 24 8)
  rw [exec_bunchCommit, bunchCommit, plainCommand_sent commitChecks _ h hal rfl hchecks]
  simp only [ctxOf_u16, getBunch_taken, hdt]
  rw [if_neg (not_not.2 hstate)]
  exact congrArg Host.Outcome.next (if_neg (ne_true_of_eq_false hfits))

/-- Settles O22, command by command. -/
theorem bunchCommands : Obligations.BunchCommands := by
  refine ⟨fun c s id => bunchOpen_opens, ?_, ?_, fun c s => bunchQuery_answers⟩
  · intro c s h hal hid hstate hmaster hdirect hanchor hnone hunit hat hgroup hz1 hz2 delay now v hfits
    have hown : badBunchId (ctxOf c s) (taken c s) = false := badBunchId_taken.2 ⟨hid, by simp [hstate], hmaster, hdirect⟩
    exact bunchCommit_commits h hal hstate (commitChecks_right hown hanchor hnone hunit hat hgroup hz1 hz2) hfits
  · intro c s h hal hid hstate hmaster hdirect hz
    have hthere : (getBunch (c.u16 16) s).state ≠ .free := by
      rcases hstate with hopen | harming
      · simp [hopen]
      · simp [harming]
    exact bunchAbort_aborts h hal hstate (badBunchId_taken.2 ⟨hid, hthere, hmaster, hdirect⟩) hz

end Sys2Proof.Machine

/-! # Device time by itself, the CLK and the TIME commands

First DT's own course, then the commands, each past its checks. -/

namespace Sys2Proof.Machine

/-! ## Device time by itself (R76, Table 4-3) -/

theorem step_of_empty {s : State} (h : s.pending = []) : step s = .next (idleTick s) := by
  unfold step
  rw [h]

/-- Row 0 or 1 of Table 4-3: while ADPLL-S serves its tree, a cycle of DT's source is one tick. -/
theorem idleTick_dt_of_serves {s : State} (hpower : s.power.state = .active) (hserves : pllServes 0 s = true) :
    (idleTick s).dt = dtAdd s.dt ((s.clock.fifths + 5) / 5) := by
  have hfive : sourceFifths (dtSource s) = 5 := by
    simp only [pllServes, Bool.and_eq_true, Option.isNone_iff_eq_none, Bool.not_eq_true'] at hserves
    obtain ⟨⟨hlocked, habsent⟩, hdone⟩ := hserves
    have hawake : ¬ ((s.power.state = .standby ∨ s.power.state = .off) ∧ s.stone.restoring = false) := by simp [hpower]
    rw [dtSource, if_neg hawake]
    simp only [if_pos (And.intro hlocked (And.intro habsent hdone))]
    split
    · rfl
    · rfl
  rw [idleTick, hfive]

/-- What O2 says holds with the return of the gated output for its premise. -/
theorem step_ticks_of_serves {s : State} (hempty : s.pending = []) (hpower : s.power.state = .active)
    (hserves : pllServes 0 s = true) :
    step s = .next (idleTick s) ∧ (idleTick s).dt = dtAdd s.dt ((s.clock.fifths + 5) / 5) :=
  ⟨step_of_empty hempty, idleTick_dt_of_serves hpower hserves⟩

/-- ADPLL-S has locked for the first time, and its gated output has not returned: it is not absent, and its lock is still
under way (R68). REFCLK is present. -/
def lockedGated : State :=
  { power := { state := .active }, clock := { plls := [(0, { locked := true, stopped := false, relocking := true })] } }

/-- DT counts REFCLK there: 1,024 / 5 tk in a cycle. -/
theorem idleTick_dt_lockedGated : (idleTick lockedGated).dt = 204 := by decide +kernel

/-- Refutes O2, in its clause of a locked ADPLL-S: of `lockedGated` it says one tick, where DT counts REFCLK until the gated
output has returned (Table 4-3, log 78). With that return as a premise the clause holds: `step_ticks_of_serves`. -/
theorem not_emptyQueueIdles : ¬ Obligations.EmptyQueueIdles := by
  intro h
  obtain ⟨-, htick⟩ := h lockedGated rfl
  have hone := htick rfl rfl rfl
  rw [idleTick_dt_lockedGated] at hone
  exact absurd hone (by decide)

/-! ## CLK commands (Table 4-4) -/

theorem exec_clkStatus (c : Cmd) (s : State) : exec (.clkStatus c) s = .next (clkStatus c s) := rfl
theorem exec_clkSetLockMode (c : Cmd) (s : State) : exec (.clkSetLockMode c) s = .next (clkSetLockMode c s) := rfl
theorem exec_clkSelectRef (c : Cmd) (s : State) : exec (.clkSelectRef c) s = .next (clkSelectRef c s) := rfl
theorem exec_clkSyncArm (c : Cmd) (s : State) : exec (.clkSyncArm c) s = .next (clkSyncArm c s) := rfl
theorem exec_clkSetSkew (c : Cmd) (s : State) : exec (.clkSetSkew c) s = .next (clkSetSkew c s) := rfl

/-- R65: the four bytes of CLK.STATUS. -/
theorem clkStatus_reports {c : Cmd} {s : State} (h : Sent 0x0401 c s) (hal : Alone 0xFFFF c) (hz : ZeroBytes c.entry 16 64) :
    let u := taken c s
    exec (.clkStatus c) s =
      .next (done c s (pllByte 0 u + 2 ^ 8 * pllByte 1 u + 2 ^ 16 * pllByte 2 u + 2 ^ 24 * pllByte 3 u) u) := by
  rw [exec_clkStatus, clkStatus, plainCommand_sent _ _ h hal rfl ((badOffset_reserved _ _ _).2 hz)]
  rfl

/-- R66: the mode of an ADPLL's hop cache, and its clearing. -/
theorem clkSetLockMode_sets {c : Cmd} {s : State} (h : Sent 0x0402 c s) (hal : Alone 0xFFFF c) (hpll : c.u8 16 ≤ 3)
    (hmode : c.u8 17 ≤ 1) (hclear : c.u8 18 ≤ 1) (hz : ZeroBytes c.entry 19 64) :
    exec (.clkSetLockMode c) s = .next (done c s 0 (modPll (c.u8 16) (fun p => { p with
      cacheMode := c.u8 17 == 1, cache := if c.u8 18 = 1 then [] else p.cache }) (taken c s))) := by
  rw [exec_clkSetLockMode, clkSetLockMode, plainCommand_sent _ _ h hal rfl]
  · rfl
  · simp only [badOffset_append, badOffset_cons, badOffset_nil, badOffset_reserved, ctxOf_u8]
    exact ⟨⟨decide_eq_false (Nat.not_lt.2 hpll), decide_eq_false (Nat.not_lt.2 hmode), decide_eq_false (Nat.not_lt.2 hclear),
      trivial⟩, hz⟩

/-- R71: a relock to the reference named begins, unless one runs, REFCLK is away, or a personality runs unforced. -/
theorem clkSelectRef_relocks {c : Cmd} {s : State} (h : Sent 0x0403 c s) (hal : Alone 0xFFFF c) (href : c.u8 16 ≤ 1)
    (hforce : c.u8 17 ≤ 1) (hz : ZeroBytes c.entry 18 64) (hidle : relockRuns (taken c s) = false)
    (hthere : c.u8 16 = 0 → (taken c s).clock.refOk = true) (hpers : c.u8 17 = 0 → anyPersonality (taken c s) = false) :
    exec (.clkSelectRef c) s = .next (relockTo (c.u8 16 == 1) false (some (ctxOf c s).ref) (taken c s)) := by
  rw [exec_clkSelectRef, clkSelectRef, plainCommand_sent _ _ h hal rfl]
  · have hfree : ¬ (relockRuns (taken c s) || (c.u8 16 == 0 && !(taken c s).clock.refOk) ||
        (anyPersonality (taken c s) && c.u8 17 == 0)) = true := by
      simp only [hidle, Bool.false_or, Bool.or_eq_true, Bool.and_eq_true, beq_iff_eq, Bool.not_eq_true', not_or, not_and]
      exact ⟨fun h0 => ne_false_of_eq_true (hthere h0), fun hruns h0 => absurd hruns (ne_true_of_eq_false (hpers h0))⟩
    exact congrArg Host.Outcome.next (if_neg hfree)
  · simp only [badOffset_append, badOffset_cons, badOffset_nil, badOffset_reserved, ctxOf_u8]
    exact ⟨⟨decide_eq_false (Nat.not_lt.2 href), decide_eq_false (Nat.not_lt.2 hforce), trivial⟩, hz⟩

/-- Table 4-4: the arming a CLK.SYNC_ARM asks for. -/
def armingOf (c : Cmd) (u : State) : SyncArm :=
  { mode := c.u8 16, position := c.u8 17, outEn := c.u8 18 == 1, d := BitVec.ofNat 64 (c.u64 24)
    timeoutMs := if c.u32 32 = 0 then 10000 else c.u32 32, armedAt := u.dt }

/-- R82: nothing runs and no bunch is open, and a master's D is not past: the part is armed. -/
theorem clkSyncArm_arms {c : Cmd} {s : State} (h : Sent 0x0404 c s) (hal : Alone 0xFFFF c) (hmode : c.u8 16 ≤ 3)
    (hpos : c.u8 16 ≠ 2 → c.u8 17 = 0) (hout : c.u8 18 ≤ 1) (hd : c.u64 24 % 1024 = 0) (hz1 : ZeroBytes c.entry 19 24)
    (hz2 : ZeroBytes c.entry 36 64) (hidle : syncBusy (taken c s) = false)
    (htime : c.u8 16 = 1 → (taken c s).dt.toNat ≤ c.u64 24) : let u := taken c s
    exec (.clkSyncArm c) s =
      .next (done c s 0 { u with clock := { u.clock with syncOut := false, sync := some (armingOf c u) } }) := by
  have hdt : ((ctxOf c s).dt 24).toNat = c.u64 24 := Nat.mod_eq_of_lt (fld_lt c.entry 24 8)
  have hlate : ¬ ((ctxOf c s).u8 16 = 1 ∧ dtLe (taken c s).dt ((ctxOf c s).dt 24) = false) := by
    rintro ⟨hmaster, hpast⟩
    rw [dtLe, hdt, decide_eq_true (htime hmaster)] at hpast
    cases hpast
  rw [exec_clkSyncArm, clkSyncArm, plainCommand_sent _ _ h hal rfl]
  · rw [if_neg (ne_true_of_eq_false hidle), if_neg hlate]
    rfl
  · simp only [badOffset_append, badOffset_cons, badOffset_nil, badOffset_reserved, ctxOf_u8, ctxOf_u64]
    refine ⟨⟨⟨decide_eq_false (Nat.not_lt.2 hmode), ?_, decide_eq_false (Nat.not_lt.2 hout), ?_, trivial⟩, hz1⟩, hz2⟩
    · simpa [or_iff_not_imp_left] using hpos
    · simp [hd]

/-- R84: the tick phase of ADPLL-S advances. -/
def skewed (d : Int) (u : State) : State := { u with clock := { u.clock with skew := u.clock.skew + d } }

/-- R84: the next lock of ADPLL-S is the hop of a skew; a lock whose output has not returned counts no more. -/
def toHop (p : Pll) : Pll := { p with hopNext := true, locked := p.locked && !p.relocking }

/-- R84: ADPLL-S is to hop, and a command waits for its return. -/
def skewAwaited (ref : CmdRef) (u : State) : State :=
  let w := modPll 0 toHop u
  { w with clock := { w.clock with skewWaiting := w.clock.skewWaiting ++ [ref] } }

theorem getPll_skewAwaited (ref : CmdRef) (u : State) : getPll 0 (skewAwaited ref u) = toHop (getPll 0 u) :=
  getPll_modPll 0 toHop u

/-- R84: what a CLK.SET_SKEW with right fields does: a stopped ADPLL-S takes the phase at its next lock, one whose lock is
under way or about to begin hops with it, and any other leaves for its hop. -/
theorem clkSetSkew_sent {c : Cmd} {s : State} (h : Sent 0x0406 c s) (hal : Alone 0xFFFF c) (hlow : -1024 ≤ c.i16 16)
    (hhigh : c.i16 16 ≤ 1024) (hz : ZeroBytes c.entry 18 64) (hidle : syncBusy (taken c s) = false) :
    let u := taken c s
    let x := skewAwaited (ctxOf c s).ref (skewed (c.i16 16) u)
    exec (.clkSetSkew c) s = .next (if (getPll 0 u).stopped = true then done c s 0 (skewed (c.i16 16) u)
      else if (getPll 0 u).relocking = true ∨ (∃ r, u.clock.relock = some r ∧ 0 ∈ r.remaining) then x else pllLeave 0 3 x) := by
  intro u x
  have hrelocking : (getPll 0 x).relocking = (getPll 0 u).relocking := by
    rw [getPll_skewAwaited]
    rfl
  have hrelock : (x.clock.relock.any fun r => r.remaining.contains 0) = true ↔
      ∃ r, u.clock.relock = some r ∧ 0 ∈ r.remaining := by
    change (u.clock.relock.any fun r => r.remaining.contains 0) = true ↔ _
    simp [Option.any_eq_true]
  have hlocks : ((getPll 0 x).relocking || x.clock.relock.any fun r => r.remaining.contains 0) = true ↔
      (getPll 0 u).relocking = true ∨ ∃ r, u.clock.relock = some r ∧ 0 ∈ r.remaining := by
    rw [Bool.or_eq_true, hrelocking, hrelock]
  rw [exec_clkSetSkew, clkSetSkew, plainCommand_sent _ _ h hal rfl]
  · rw [if_neg (ne_true_of_eq_false hidle), ← if_congr hlocks rfl rfl]
    rfl
  · simp only [badOffset_cons, badOffset_reserved, ctxOf_i16, Bool.or_eq_false_iff]
    exact ⟨⟨decide_eq_false (Int.not_lt.2 hlow), decide_eq_false (Int.not_lt.2 hhigh)⟩, hz⟩

/-- Settles O23, command by command; the three outcomes of a skew are the branches of `clkSetSkew_sent`. -/
theorem clockCommands : Obligations.ClockCommands := by
  refine ⟨fun c s => clkStatus_reports, fun c s => clkSetLockMode_sets, fun c s => clkSelectRef_relocks,
    fun c s => clkSyncArm_arms, ?_⟩
  intro c s h hal hlow hhigh hz u hidle v p w x
  have hsent := clkSetSkew_sent h hal hlow hhigh hz hidle
  refine ⟨fun hstop => ?_, fun hruns hlocked hrelock => ?_, fun hruns hlocks => ?_⟩
  · exact hsent.trans (congrArg Host.Outcome.next (if_pos hstop))
  · have hfree : ¬ (p.relocking = true ∨ ∃ r, u.clock.relock = some r ∧ 0 ∈ r.remaining) := by
      rintro (hr | ⟨r, hr, h0⟩)
      · exact absurd hr (ne_true_of_eq_false hlocked)
      · exact hrelock r hr h0
    exact hsent.trans (congrArg Host.Outcome.next ((if_neg (ne_true_of_eq_false hruns)).trans (if_neg hfree)))
  · exact hsent.trans (congrArg Host.Outcome.next ((if_neg (ne_true_of_eq_false hruns)).trans (if_pos hlocks)))

/-! ## TIME commands (Tables 4-4, 4-5) -/

theorem exec_timeGet (c : Cmd) (s : State) : exec (.timeGet c) s = .next (timeGet c s) := rfl
theorem exec_timeSetTai (c : Cmd) (s : State) : exec (.timeSetTai c) s = .next (timeSetTai c s) := rfl
theorem exec_timeConfig (c : Cmd) (s : State) : exec (.timeConfig c) s = .next (timeConfig c s) := rfl

/-- R80, R81: TIME.SET_TAI with right fields, in either mode. -/
theorem timeSetTai_sets {c : Cmd} {s : State} (h : Sent 0x0502 c s) (hal : Alone 0xFFFF c) (hmode : c.u8 16 ≤ 1)
    (hzero : c.u8 16 = 0 → c.u64 32 = 0 ∧ c.u32 40 = 0) (hns : c.u32 40 ≤ 999999999) (hz1 : ZeroBytes c.entry 17 24)
    (hz2 : ZeroBytes c.entry 44 64) : let u := taken c s
    exec (.timeSetTai c) s = .next (done c s 0 { u with time := if c.u8 16 = 0 then { u.time with nextTai := some (c.u64 24) }
      else { u.time with
        epoch := { u.time.epoch with dt := BitVec.ofNat 64 (c.u64 32), taiS := c.u64 24, taiNs := c.u32 40 }
        epochSet := ppsSelected u } }) := by
  intro u
  rw [exec_timeSetTai, timeSetTai, plainCommand_sent _ _ h hal rfl]
  · rfl
  · simp only [badOffset_append, badOffset_cons, badOffset_nil, badOffset_reserved, ctxOf_u8, ctxOf_u32, ctxOf_u64]
    refine ⟨⟨⟨decide_eq_false (Nat.not_lt.2 hmode), ?_, decide_eq_false (Nat.not_lt.2 hns), trivial⟩, hz1⟩, hz2⟩
    simpa [or_iff_not_imp_left] using hzero

theorem timeConfig_sets {c : Cmd} {s : State} (h : Sent 0x0503 c s) (hal : Alone 0xFFFF c) (hsource : c.u8 16 ≤ 3)
    (hedge : c.u8 17 ≤ 1) (hz : ZeroBytes c.entry 18 64) : let u := taken c s
    exec (.timeConfig c) s = .next (done c s 0 { u with time := { u.time with
      source := c.u8 16, fallingEdge := c.u8 17 == 1, ppsOk := false, ptpOk := false, holdover := false, rejected := 0
      candidate := none, accepted := [], epochSet := false } }) := by
  intro u
  rw [exec_timeConfig, timeConfig, plainCommand_sent _ _ h hal rfl]
  · rfl
  · simp only [badOffset_append, badOffset_cons, badOffset_nil, badOffset_reserved, ctxOf_u8]
    exact ⟨⟨decide_eq_false (Nat.not_lt.2 hsource), decide_eq_false (Nat.not_lt.2 hedge), trivial⟩, hz⟩

/-- Settles O24, command by command; the modes of TIME.SET_TAI are the branches of `timeSetTai_sets`. -/
theorem timeCommands : Obligations.TimeCommands := by
  refine ⟨fun c s h hal hz => ?_, fun c s h hal hmode hdt hns hz1 hz2 => ?_, fun c s h hal hmode hns hz1 hz2 => ?_,
    fun c s => timeConfig_sets⟩
  · rw [exec_timeGet, timeGet, statusCommand_present _ h hal rfl hz rfl]
  · exact (timeSetTai_sets h hal (by omega) (fun _ => ⟨hdt, hns⟩) (by omega) hz1 hz2).trans
      (congrArg (fun x : TimeBase => Host.Outcome.next (done c s 0 { taken c s with time := x })) (if_pos hmode))
  · have hother : c.u8 16 ≠ 0 := by omega
    exact (timeSetTai_sets h hal (by omega) (fun h0 => absurd h0 hother) hns hz1 hz2).trans
      (congrArg (fun x : TimeBase => Host.Outcome.next (done c s 0 { taken c s with time := x })) (if_neg hother))

end Sys2Proof.Machine

/-! # The clock rows

Where an absence ends, the data plane goes on with records, traces, captures and pips, and the DRAM with what it held: first that
none of this touches the clocks, then the rows. -/

namespace Sys2Proof.Machine

/-! ## What leaves the clocks alone -/

theorem clock_of_blocks {s t : State} (h : blocks t = blocks s) : t.clock = s.clock := by
  have hclock : (blocks t).clock = (blocks s).clock := by rw [h]
  exact hclock

@[simp] theorem event_clock (code sev unit : Nat) (fs : List (Nat × Nat × Nat)) (s : State) :
    (event code sev unit fs s).clock = s.clock := clock_of_blocks (blocks_event code sev unit fs s)

@[simp] theorem eventAt_clock (dt : DT) (code sev unit : Nat) (fs : List (Nat × Nat × Nat)) (s : State) :
    (eventAt dt code sev unit fs s).clock = s.clock := clock_of_blocks (blocks_eventAt dt code sev unit fs s)

@[simp] theorem storeAt_clock (l a : Nat) (bs : List Byte) (s : State) : (storeAt l a bs s).clock = s.clock :=
  clock_of_blocks (blocks_storeAt l a bs s)

@[simp] theorem publish_clock (n : Nat) (bs : List Byte) (s : State) : (publish n bs s).clock = s.clock :=
  clock_of_blocks (blocks_publish n bs s)

@[simp] theorem publishMany_clock (n count : Nat) (s : State) : (publishMany n count s).clock = s.clock :=
  clock_of_blocks (blocks_publishMany n count s)

@[simp] theorem each_clock {α : Type} {xs : List α} {f : α → State → State} (h : ∀ x u, (f x u).clock = u.clock) (s : State) :
    (each xs f s).clock = s.clock := each_keeps State.clock xs f h s

@[simp] theorem ite_clock (c : Prop) [Decidable c] (s t : State) : (if c then s else t).clock = if c then s.clock else t.clock :=
  apply_ite State.clock c s t

/-! ### Records (R143, R330) -/

@[simp] theorem reportDrops_clock (n : Nat) (s : State) : (reportDrops n s).clock = s.clock := by simp [reportDrops]

@[simp] theorem drop_clock (n cause : Nat) (s : State) : (drop n cause s).clock = s.clock := by
  unfold drop
  dsimp only
  split
  · split
    · exact reportDrops_clock n _
    · rfl
  · exact reportDrops_clock n _

@[simp] theorem writeRecord_clock (n : Nat) (bs : List Byte) (s : State) : (writeRecord n bs s).clock = s.clock := by
  simp [writeRecord]

@[simp] theorem packBytes_clock (n : Nat) (bs : List Byte) (s : State) : (packBytes n bs s).clock = s.clock := by
  simp [packBytes]

@[simp] theorem lineLog_clock (code edge data : Nat) (dt : DT) (s : State) : (lineLog code edge data dt s).clock = s.clock := by
  simp [lineLog]

/-! ### Captures (R184 to R193) -/

@[simp] theorem capEnd_clock (k extra : Nat) (goOn : Bool) (s : State) : (capEnd k extra goOn s).clock = s.clock := by
  simp [capEnd]

@[simp] theorem capsStopAt_clock (ks : List Nat) (dt : DT) (s : State) : (capsStopAt ks dt s).clock = s.clock := by
  unfold capsStopAt
  split
  · exact each_clock (fun k u => capEnd_clock k _ _ u) s
  · refine each_clock (fun k u => ?_) s
    exact modCap_clock k _ u

@[simp] theorem capSpill_clock (k : Nat) (u : DT × Nat) (s : State) : (capSpill k u s).clock = s.clock := by simp [capSpill]

@[simp] theorem capFeed_clock (k : Nat) (u : DT × Nat) (s : State) : (capFeed k u s).clock = s.clock := by
  unfold capFeed
  dsimp only
  split
  · rw [modCap_clock]
    split
    · simp
    · rfl
  · rfl

@[simp] theorem capSpectrum_clock (p f : Nat) (dt : DT) (bs : List Byte) (s : State) :
    (capSpectrum p f dt bs s).clock = s.clock := by
  simp [capSpectrum, capNote]

/-! ### Spectra, traces and the limit test (R139, R166, R182) -/

@[simp] theorem endAverage_clock (p : Nat) (s : State) : (endAverage p s).2.clock = s.clock := by
  unfold endAverage
  dsimp only
  split
  · rfl
  · simp

@[simp] theorem averageEnd_clock (p : Nat) (s : State) : (averageEnd p s).clock = s.clock := by
  unfold averageEnd
  dsimp only
  split
  · simp
  · simp

@[simp] theorem endTrace_clock (p i : Nat) (s : State) : (endTrace p i s).2.2.clock = s.clock := by simp [endTrace]

@[simp] theorem deliverTrig_clock (source : Nat) (dt onset : DT) (s : State) :
    (deliverTrig source dt onset s).clock = s.clock := by
  simp [deliverTrig]

@[simp] theorem limitViolation_clock (p i fails : Nat) (c : LimitCfg) (dt : DT) (seq : Nat) (s : State) :
    (limitViolation p i fails c dt seq s).clock = s.clock := by simp [limitViolation]

@[simp] theorem limitTest_clock (p i : Nat) (values : List Int) (flags : Nat) (dt : DT) (seq : Nat) (s : State) :
    (limitTest p i values flags dt seq s).clock = s.clock := by
  unfold limitTest
  split
  · rfl
  · simp

@[simp] theorem traceEnd_clock (p i : Nat) (s : State) : (traceEnd p i s).clock = s.clock := by simp [traceEnd]

@[simp] theorem blocksEnd_clock (p : Nat) (s : State) : (blocksEnd p s).clock = s.clock := by simp [blocksEnd]

/-! ### Pips and currants, grids and generators (R133, R148, R215) -/

@[simp] theorem setPips_clock (p : Nat) (l : List Nat) (s : State) : (setPips p l s).clock = s.clock := by simp [setPips]

@[simp] theorem assignPips_clock (p n : Nat) (s : State) : (assignPips p n s).clock = s.clock := by
  induction n generalizing s with
  | zero => rfl
  | succ n ih =>
    unfold assignPips
    dsimp only
    split
    · split
      · simp [ih, pipTo]
      · rfl
    · split
      · split
        · simp [ih, pipTo]
        · rfl
      · rfl

@[simp] theorem assignCurrants_clock (f n : Nat) (s : State) : (assignCurrants f n s).clock = s.clock := by
  induction n generalizing s with
  | zero => rfl
  | succ n ih =>
    unfold assignCurrants
    dsimp only
    split
    · split
      · simp [ih, currantTo]
      · rfl
    · split
      · split
        · simp [ih, currantTo]
        · rfl
      · rfl

@[simp] theorem assignUnits_clock (p : Nat) (s : State) : (assignUnits p s).clock = s.clock := by simp [assignUnits]

@[simp] theorem gridSwitch_clock (p : Nat) (s : State) : (gridSwitch p s).clock = s.clock := by
  unfold gridSwitch
  dsimp only
  split
  · rfl
  · simp

@[simp] theorem pathRestarted_clock (p bits : Nat) (s : State) : (pathRestarted p bits s).clock = s.clock := by
  simp [pathRestarted, gridQueue]

@[simp] theorem genRestart_clock (d : Nat) (s : State) : (genRestart d s).clock = s.clock := by
  unfold genRestart
  dsimp only
  split
  · rfl
  · split
    · rfl
    · rfl

/-- R74: the data plane's return leaves the clocks as they are. -/
@[simp] theorem planeBack_clock (s : State) : (planeBack s).clock = s.clock := by
  unfold planeBack
  split
  · rfl
  · refine (genRestart_clock 1 _).trans ((genRestart_clock 0 _).trans ?_)
    refine (each_clock (fun p u => pathRestarted_clock p 1 u) _).trans ?_
    refine (each_clock (fun p u => ?_) _).trans (each_clock (fun n u => ?_) s)
    · exact modDdc_clock p _ u
    · split
      · exact modRf_clock n _ u
      · rfl

/-- R73, R304: so does serving the accesses that a stalled DRAM held. -/
@[simp] theorem dramResumed_clock (s : State) : (dramResumed s).clock = s.clock := by
  have hserve : ∀ (r : Nat × Nat × List Byte) (u : State),
      (if r.2.2 = [] then bar4Serve r.1 r.2.1 u else storeAt 2 r.1 r.2.2 (dramTouch u)).clock = u.clock := by
    intro r u
    simp [bar4Serve, completerAbort, aerReport, dramTouch, answer]
  unfold dramResumed
  split
  · rfl
  · exact each_clock hserve _

/-! ## Locks (R66, R67, R70, R77) -/

theorem exec_gatedOutputReturn (t : DT) (n : Nat) (s : State) :
    exec (.gatedOutputReturn t n) s = execGatedOutputReturn t n s := rfl

theorem getPll_pllLock_other {n k : Nat} (s : State) (h : k ≠ n) : getPll k (pllLock n s) = getPll k s :=
  getPll_modPll_other n k _ s h

/-- R66: by the hop of a skew, by a hop from the cache or by a band search, the ADPLL is locked and runs; an absence goes on
until its output returns. -/
theorem getPll_pllLock (n : Nat) (s : State) : (getPll n (pllLock n s)).locked = true ∧
    (getPll n (pllLock n s)).stopped = false ∧ (getPll n (pllLock n s)).absent = (getPll n s).absent := by
  unfold pllLock
  dsimp only
  rw [getPll_modPll]
  split
  · exact ⟨rfl, rfl, rfl⟩
  · split
    · exact ⟨rfl, rfl, rfl⟩
    · exact ⟨rfl, rfl, rfl⟩

/-- R77: DT steps forward at a lock of ADPLL-S unless ALIGNED is kept. -/
theorem dtStep_eq (step : Nat) (s : State) :
    dtStep step s = if s.clock.aligned = false then { s with dt := dtAdd s.dt (step % 1024) } else s := by
  unfold dtStep
  cases s.clock.aligned with
  | true => rfl
  | false => rfl

/-- R67, R77: an ADPLL locks in its turn; at a lock of ADPLL-S, DT steps forward unless ALIGNED is kept. -/
theorem adpllLock_locks {t : DT} {n : Nat} {s : State} (step : Nat) (hsearch : (getPll n (advance t s)).relocking = true)
    (hfree : (getPll n (advance t s)).locked = false) (hturn : lockTurn n (advance t s) = true) :
    let u := advance t s
    let v := pllLock n u
    exec (.adpllLock t n step) s =
      .next (if n = 0 ∧ u.clock.aligned = false then { v with dt := dtAdd u.dt (step % 1024) } else v) := by
  intro u v
  have hrow : exec (.adpllLock t n step) s = .next (if n = 0 then dtStep step v else v) :=
    congrArg Host.Outcome.next (if_pos ⟨hsearch, hfree, hturn⟩)
  rw [hrow, dtStep_eq, ite_and]
  rfl

/-! ## The return of a gated output (R68, R71, R84) -/

/-- R68: the absence that began at a DT is over, and EV_CLK_LOCK is posted. -/
def returned (n : Nat) (since : DT) (u : State) : State :=
  event 0x0402 0 n [(16, 1, n), (17, 1, b2n (getPll n u).hop), (18, 1, b2n (getPll n u).xtal), (24, 8, since.toNat)]
    (modPll n (fun p => { p with absent := none, bypass := false, relocking := false }) u)

/-- R73, R74: what the tree of an ADPLL drives goes on: the data plane, or the DRAM. -/
def treeBack (n : Nat) (v : State) : State :=
  if n ≤ 1 then planeBack v
  else if n = 2 then dramResumed { v with memCtl := { v.memCtl with selfRefresh := dramStalled v } } else v

theorem treeBack_of_plane {n : Nat} (v : State) (h : n ≤ 1) : treeBack n v = planeBack v := if_pos h

theorem treeBack_dram (v : State) :
    treeBack 2 v = dramResumed { v with memCtl := { v.memCtl with selfRefresh := dramStalled v } } := by
  rw [treeBack, if_neg (by decide), if_pos rfl]

theorem treeBack_display (v : State) : treeBack 3 v = v := by
  rw [treeBack, if_neg (by decide), if_neg (by decide)]

/-- R71: a relock under way waits for one ADPLL less. -/
def relockDrop (n : Nat) (x : State) : State :=
  { x with clock := { x.clock with relock := x.clock.relock.map fun r => { r with remaining := r.remaining.filter (· != n) } } }

@[simp] theorem treeBack_clock (n : Nat) (v : State) : (treeBack n v).clock = v.clock := by simp [treeBack]

/-- R71: with no relock under way, none goes on. -/
theorem relockGo_relockDrop_of_none {n : Nat} {x : State} (h : x.clock.relock = none) : relockGo (relockDrop n x) = x := by
  have hsame : relockDrop n x = x := by
    unfold relockDrop
    rw [h, Option.map_none, ← h]
  rw [hsame, relockGo, h]

theorem skewDone_of_none {status : Nat} {w : State} (h : w.clock.skewWaiting = []) : skewDone status w = w := by
  unfold skewDone
  rw [h]
  change { w with clock := { w.clock with skewWaiting := [] } } = w
  rw [← h]

/-- R68: the return of a gated output that was absent. -/
theorem gatedOutputReturn_ends {t : DT} {n : Nat} {s : State} {since : DT}
    (habsent : (getPll n (advance t s)).absent = some since) (hlocked : (getPll n (advance t s)).locked = true) :
    let w := treeBack n (returned n since (advance t s))
    exec (.gatedOutputReturn t n) s =
      .next (alignedSettle (relockGo (relockDrop n (if n = 0 then skewDone stOk w else w)))) := by
  rw [exec_gatedOutputReturn, execGatedOutputReturn]
  simp only [habsent, hlocked, if_true]
  rfl

/-- The same with no relock under way and, of ADPLL-S, no skew that waits. -/
theorem gatedOutputReturn_ends_of_idle {t : DT} {n : Nat} {s : State} {since : DT}
    (habsent : (getPll n (advance t s)).absent = some since) (hlocked : (getPll n (advance t s)).locked = true)
    (hrelock : (returned n since (advance t s)).clock.relock = none)
    (hskew : n = 0 → (returned n since (advance t s)).clock.skewWaiting = []) :
    exec (.gatedOutputReturn t n) s = .next (alignedSettle (treeBack n (returned n since (advance t s)))) := by
  have hdone : (if n = 0 then skewDone stOk (treeBack n (returned n since (advance t s)))
      else treeBack n (returned n since (advance t s))) = treeBack n (returned n since (advance t s)) := by
    split
    · next h0 => exact skewDone_of_none (by rw [treeBack_clock, hskew h0])
    · rfl
  rw [gatedOutputReturn_ends habsent hlocked, hdone, relockGo_relockDrop_of_none (by rw [treeBack_clock, hrelock])]

/-- R68: the first return, after a start or a change of point: the tree leaves bypass. -/
theorem gatedOutputReturn_first {t : DT} {n : Nat} {s : State} (hpresent : (getPll n (advance t s)).absent = none)
    (hlocked : (getPll n (advance t s)).locked = true) (hn : n ≠ 0) :
    exec (.gatedOutputReturn t n) s =
      .next (modPll n (fun p => { p with bypass := false, relocking := false }) (advance t s)) := by
  rw [exec_gatedOutputReturn, execGatedOutputReturn]
  simp only [hpresent, hlocked, if_true, if_neg hn]

/-! ## Losses of lock and of REFCLK (R67, R69, R70) -/

/-- R69: before its output has returned, an ADPLL that loses lock only stays away longer. -/
theorem adpllLockLoss_away {t : DT} {n : Nat} {s : State} (hlocked : (getPll n (advance t s)).locked = true)
    (haway : (getPll n (advance t s)).absent.isSome = true ∨ (getPll n (advance t s)).relocking = true) :
    exec (.adpllLockLoss t n) s = .next (lockLost n 1 (advance t s)) := by
  have hor : ((getPll n (advance t s)).absent.isSome || (getPll n (advance t s)).relocking) = true := by simpa using haway
  exact congrArg Host.Outcome.next ((if_neg (ne_false_of_eq_true hlocked)).trans (if_pos hor))

/-- R69, R73: once its output had returned, its absence begins. -/
theorem adpllLockLoss_leaves {t : DT} {n : Nat} {s : State} (hlocked : (getPll n (advance t s)).locked = true)
    (hpresent : (getPll n (advance t s)).absent = none) (hdone : (getPll n (advance t s)).relocking = false) :
    exec (.adpllLockLoss t n) s = .next (alignedSettle (pllLeave n 1 (advance t s))) := by
  have hor : ¬ ((getPll n (advance t s)).absent.isSome || (getPll n (advance t s)).relocking) = true := by
    rw [hpresent, hdone]
    decide
  exact congrArg Host.Outcome.next ((if_neg (ne_false_of_eq_true hlocked)).trans (if_neg hor))

/-- R70: an ADPLL leaves for XTAL_B, unless its lock is under way anyway. -/
def leaveForXtal (n : Nat) (u : State) : State :=
  let v := modPll n (fun p => { p with xtal := true, locked := false, hopNext := false }) u
  if (getPll n v).relocking = true then v else pllLeave n 2 v

/-- R70, R71: every running ADPLL leaves for XTAL_B, a waiting skew ends with BUSY, and the relock to XTAL_B takes over a
commanded one. -/
def allLeave (v : State) : State :=
  let w := skewDone stBusy v
  relockTo true (v.clock.relock.any fun r => r.busy || !r.toXtal) (v.clock.relock.bind (·.waiting))
    (each (relockOrder.filter fun n => !(getPll n w).stopped) leaveForXtal w)

/-- R70: REFCLK is gone, and the event of its loss is posted. -/
def refclkLost (u : State) : State := event 0x0403 3 0xFFFF [] { u with clock := { u.clock with refOk := false } }

/-- R70: what the loss of REFCLK does once it is posted, as some ADPLL is on REFCLK or none is. -/
def refclkGone (off : Bool) (v : State) : State :=
  match off with
  | true => alignedSettle (allLeave v)
  | false => alignedSettle v

theorem refclkLoss_goes {t : DT} {s : State} (h : (advance t s).clock.refOk = true) : exec (.refclkLoss t) s =
    .next (refclkGone (relockOrder.any fun n => !(getPll n (refclkLost (advance t s))).xtal) (refclkLost (advance t s))) := by
  refine (congrArg Host.Outcome.next (if_pos h)).trans ?_
  cases hoff : relockOrder.any fun n => !(getPll n (refclkLost (advance t s))).xtal with
  | true =>
    dsimp only
    rw [← refclkLost, hoff]
    simp only [if_true, Bool.not_true, Bool.false_eq_true, if_false]
    rfl
  | false =>
    dsimp only
    rw [← refclkLost, hoff]
    simp only [Bool.not_false, if_true, Bool.false_eq_true, if_false]
    rfl

/-- R71: the ADPLLs in the order in which they relock are all four. -/
theorem mem_relockOrder {n : Nat} : n ∈ relockOrder ↔ n < 4 := by
  simp only [relockOrder, List.mem_cons, List.not_mem_nil, or_false]
  omega

theorem exists_offXtal {v : State} :
    (relockOrder.any fun n => !(getPll n v).xtal) = true ↔ ∃ n, n < 4 ∧ (getPll n v).xtal = false := by
  simp [mem_relockOrder]

theorem refclkRestored_reports {t : DT} {s : State} (h : (advance t s).clock.refOk = false) :
    let u := advance t s
    exec (.refclkRestored t) s = .next (event 0x0404 1 0xFFFF [] { u with clock := { u.clock with refOk := true } }) :=
  congrArg Host.Outcome.next (if_neg (ne_true_of_eq_false h))

/-! ## The clock rows together -/

/-- Settles O47, row by row: a return goes through `gatedOutputReturn_ends`, whose idle case needs that the data plane's and
the DRAM's return leave the relock alone. -/
theorem clockEvents : Obligations.ClockEvents := by
  intro t s u
  refine ⟨fun n step => ?_, fun hok => ?_, refclkRestored_reports⟩
  · intro p
    refine ⟨fun hsearch hfree hturn => ?_, fun since habsent hlocked => ?_, gatedOutputReturn_first, adpllLockLoss_away,
      adpllLockLoss_leaves⟩
    · obtain ⟨hlocked, hruns, habsent⟩ := getPll_pllLock n u
      exact ⟨adpllLock_locks step hsearch hfree hturn, hlocked, hruns, habsent, rfl, fun k hk => getPll_pllLock_other u hk⟩
    · have hends := gatedOutputReturn_ends_of_idle habsent hlocked
      intro v
      refine ⟨?_, ?_, ?_, ?_, fun hn => gatedOutputReturn_ends habsent hlocked⟩
      · rintro rfl hrelock
        rw [hends hrelock (fun h0 => absurd h0 (by decide)), treeBack_display]
        rfl
      · rintro rfl hrelock
        rw [hends hrelock (fun h0 => absurd h0 (by decide)), treeBack_dram]
        rfl
      · rintro rfl hrelock
        rw [hends hrelock (fun h0 => absurd h0 (by decide)), treeBack_of_plane _ (by decide)]
        rfl
      · rintro rfl hrelock hskew
        rw [planeBack_clock] at hrelock hskew
        rw [hends hrelock (fun _ => hskew), treeBack_of_plane _ (by decide)]
        rfl
  · intro v
    have hv : v = refclkLost u := rfl
    have hrow := refclkLoss_goes hok
    rw [← hv] at hrow
    refine ⟨fun hall => ?_, fun hsome => ?_⟩
    · have hoff : (relockOrder.any fun n => !(getPll n v).xtal) = false := by
        rw [Bool.eq_false_iff, Ne, exists_offXtal]
        rintro ⟨n, hn, hx⟩
        exact absurd (hall n hn) (ne_true_of_eq_false hx)
      rw [hrow, hoff, refclkGone]
    · rw [hrow, exists_offXtal.2 hsome, refclkGone]
      rfl

end Sys2Proof.Machine

/-! # The rows of TAI and SYNC -/

namespace Sys2Proof.Machine

theorem exec_ppsLossTimeout (t : DT) (s : State) : exec (.ppsLossTimeout t) s = execPpsLossTimeout t s := rfl
theorem exec_syncInEdge (t : DT) (fraction marginPs : Nat) (s : State) :
    exec (.syncInEdge t fraction marginPs) s = execSyncInEdge t fraction marginPs s := rfl
theorem exec_syncOutLaunch (t : DT) (s : State) : exec (.syncOutLaunch t) s = execSyncOutLaunch t s := rfl
theorem exec_syncArmTimeout (t : DT) (s : State) : exec (.syncArmTimeout t) s = execSyncArmTimeout t s := rfl

/-! ## PPS (R80, R81) -/

/-- R80: a pulse a second after one whose TAI second is known has the next second, and the epoch follows it; the rate is fitted
over the pulses accepted. -/
theorem ppsAccept_follows {d prev : DT} {k : Nat} {rest : List (DT × Option Nat)} {x : TimeBase}
    (hacc : x.accepted = (prev, some k) :: rest) (hnext : x.nextTai = none) (hset : x.epochSet = false) :
    let acc := ((d, some (k + 1)) :: x.accepted).take 16
    ppsAccept d x = { x with
      accepted := acc, candidate := none, ppsOk := true
      epoch := { dt := d, taiS := k + 1, taiNs := 0, ratePpt := fitRate (acc.map (·.1.toNat)) } } := by
  intro acc
  have htwo : 2 ≤ acc.length := by
    simp only [acc, hacc, List.length_take, List.length_cons]
    omega
  have hsecond : (x.accepted.head?.bind (·.2)).map (· + 1) = some (k + 1) := by rw [hacc]; rfl
  unfold ppsAccept
  simp only [hsecond, hnext, hset, Bool.false_eq_true, if_false]
  rw [if_pos htwo, decide_eq_true htwo]

section
variable {t : DT} {s : State} (hsel : ppsSelected (advance t s) = true) (hrun : (advance t s).steward.running = true)
include hsel hrun

theorem ppsEdge_chosen : (ppsSelected (advance t s) && (advance t s).time.fallingEdge == (advance t s).time.fallingEdge &&
    (advance t s).steward.running) = true := by
  rw [hsel, hrun, beq_self_eq_true]
  rfl

/-- R80: the chosen edge while pulses are followed: in its window it is accepted, outside it is discarded. -/
theorem ppsInEdge_following {prev : DT × Option Nat} {rest : List (DT × Option Nat)}
    (hacc : (advance t s).time.accepted = prev :: rest) : let u := advance t s
    exec (.ppsInEdge t u.time.fallingEdge) s = .next (if secondLater prev.1 u.dt = true then
        { u with time := ppsAccept u.dt u.time }
      else if u.time.ppsOk = true then { u with time := { u.time with rejected := satAdd 65535 u.time.rejected 1 } } else u) := by
  intro u
  have hhead : u.time.accepted.head? = some prev := congrArg List.head? hacc
  refine congrArg Host.Outcome.next ((if_pos (ppsEdge_chosen hsel hrun)).trans ?_)
  rw [hhead]

/-- R81: the first edge of an acquisition is its candidate. -/
theorem ppsInEdge_first (hacc : (advance t s).time.accepted = []) (hcand : (advance t s).time.candidate = none) :
    let u := advance t s
    exec (.ppsInEdge t u.time.fallingEdge) s = .next { u with time := { u.time with candidate := some u.dt } } := by
  intro u
  have hhead : u.time.accepted.head? = none := congrArg List.head? hacc
  refine congrArg Host.Outcome.next ((if_pos (ppsEdge_chosen hsel hrun)).trans ?_)
  rw [hhead, hcand]

/-- R81: a later edge ends the acquisition a second after the candidate, and is the candidate itself otherwise. -/
theorem ppsInEdge_acquiring {c : DT} (hacc : (advance t s).time.accepted = []) (hcand : (advance t s).time.candidate = some c) :
    let u := advance t s
    exec (.ppsInEdge t u.time.fallingEdge) s = .next (if secondLater c u.dt = true then ppsAcquire c u.dt u
      else { u with time := { u.time with candidate := some u.dt } }) := by
  intro u
  have hhead : u.time.accepted.head? = none := congrArg List.head? hacc
  refine congrArg Host.Outcome.next ((if_pos (ppsEdge_chosen hsel hrun)).trans ?_)
  rw [hhead, hcand]

end

/-- R81: out of holdover, an acquisition accepts both its pulses. -/
theorem ppsAcquire_fresh {c d : DT} {u : State} (hacc : u.time.accepted = []) (hheld : u.time.holdover = false) :
    ppsAcquire c d u =
      { u with time := { ppsAccept d { ppsAccept c u.time with epochSet := false } with holdover := false } } := by
  have hnone : { u.time with accepted := [] } = u.time := by rw [← hacc]
  have hfresh : (u.time.holdover && u.time.nextTai.isNone) = false := by rw [hheld]; rfl
  unfold ppsAcquire
  dsimp only
  rw [hfresh, if_neg (ne_true_of_eq_false hheld), if_neg Bool.false_ne_true]
  exact congrArg (fun y : TimeBase =>
    { u with time := { ppsAccept d { ppsAccept c y with epochSet := false } with holdover := false } }) hnone

/-- R80: 1.5 s after the last accepted pulse a holdover begins. -/
theorem ppsLossTimeout_holdsOver {t : DT} {s : State} {prev : DT × Option Nat} {rest : List (DT × Option Nat)}
    (hsel : ppsSelected (advance t s) = true) (hacc : (advance t s).time.accepted = prev :: rest)
    (hlate : 30720000000 ≤ dtSub (advance t s).dt prev.1) : let u := advance t s
    exec (.ppsLossTimeout t) s = .next (event 0x0501 1 0xFFFF [(16, 8, prev.1.toNat)]
      { u with time := { u.time with ppsOk := false, holdover := true, accepted := [], candidate := none } }) := by
  intro u
  have hgo : (ppsSelected u && decide (30720000000 ≤ dtSub u.dt prev.1)) = true := by
    rw [hsel, decide_eq_true hlate]
    rfl
  rw [exec_ppsLossTimeout, execPpsLossTimeout]
  dsimp only
  rw [hacc]
  exact congrArg Host.Outcome.next (if_pos hgo)

/-! ## PTP (R80, R81, R326) -/

/-- R326: the stamp of an event message at the MDI, with the port's delays. -/
def stamped (n : Nat) (received : Bool) (u : State) : State :=
  let p := getPort n u
  let stamp := u.dt + BitVec.ofInt 64 (if received = true then -p.rxDelay else p.txDelay)
  modPort n (fun p => { p with ptpStamps := (stamp :: p.ptpStamps).take 16 }) u

/-- R80, R81: the servo's epoch is taken as SOURCE says: with PPS as the edge, only until pulses are followed. -/
def servoTime (e : Epoch) (x : TimeBase) : TimeBase :=
  if x.source = 2 then { x with epoch := e, ptpOk := true, holdover := false }
  else if x.source = 3 then
    if x.ppsOk then { x with ptpOk := true } else { x with epoch := e, ptpOk := true, epochSet := true }
  else x

section
variable {t : DT} {n : Nat} {s : State} (hup : (getPort n (advance t s)).up = true)
  (hptp : bit (getPort n (advance t s)).options 0 = true)
include hup hptp

theorem ptpEventMessage_stamped (received : Bool) :
    exec (.ptpEventMessage t n received none) s = .next (stamped n received (advance t s)) :=
  congrArg Host.Outcome.next (if_pos (by rw [hup, hptp]; rfl))

theorem ptpEventMessage_served (received : Bool) (e : Epoch) : let v := stamped n received (advance t s)
    exec (.ptpEventMessage t n received (some e)) s = .next { v with time := servoTime e (advance t s).time } := by
  intro v
  refine congrArg Host.Outcome.next ((if_pos (by rw [hup, hptp]; rfl)).trans ?_)
  have htime : v.time = (advance t s).time := rfl
  change (if v.time.source = 2 then { v with time := { v.time with epoch := e, ptpOk := true, holdover := false } }
    else if v.time.source = 3 then { v with time := if v.time.ppsOk then { v.time with ptpOk := true }
      else { v.time with epoch := e, ptpOk := true, epochSet := true } }
    else v) = _
  rw [servoTime, ← htime]
  split
  · rfl
  · split
    · rfl
    · rfl

end

/-! ## SYNC (R82, R83) -/

/-- R82, R83: an edge on SYNC_IN ends the arming and is stamped; modes 0 and 2 load DT, 5 and 4 REFCLK cycles later. -/
theorem syncInEdge_captures {t : DT} {s : State} {a : SyncArm} (fraction marginPs : Nat)
    (harm : (advance t s).clock.sync = some a) (hmode : a.mode ≠ 1) (href : (advance t s).clock.refOk = true) :
    let u := advance t s
    let low := decide (marginPs < 1000) || decide (9000 < marginPs)
    let v := { u with clock := { u.clock with sync := none, syncOut := u.clock.syncOut || (a.mode == 2 && a.outEn) } }
    let w := if a.mode = 0 then dtLoad a.d (dtAtLoad u.dt fraction marginPs 5) v
      else if a.mode = 2 then dtLoad (dtAdd a.d (1024 * a.position)) (dtAtLoad u.dt fraction marginPs 4) v else v
    exec (.syncInEdge t fraction marginPs) s = .next (event 0x0405 0 0xFFFF [(16, 8, u.dt.toNat), (24, 1, fraction),
      (25, 1, b2n low + 2 * b2n (a.mode != 3)), (26, 2, sat 2 marginPs)] w) := by
  intro u low v w
  have hgo : ¬ (a.mode = 1 || !(advance t s).clock.refOk) = true := by
    rw [href, decide_eq_false hmode]
    decide
  rw [exec_syncInEdge, execSyncInEdge]
  dsimp only
  rw [harm]
  exact congrArg Host.Outcome.next (if_neg hgo)

/-- R82: at the REFCLK edge where DT = D the master raises SYNC_OUT. -/
theorem syncOutLaunch_raises {t : DT} {s : State} {a : SyncArm} (harm : (advance t s).clock.sync = some a) (hmode : a.mode = 1)
    (hd : (advance t s).dt = a.d) (href : (advance t s).clock.refOk = true) : let u := advance t s
    exec (.syncOutLaunch t) s = .next { u with clock := { u.clock with sync := none, syncOut := true } } := by
  intro u
  rw [exec_syncOutLaunch, execSyncOutLaunch]
  dsimp only
  rw [harm]
  exact congrArg Host.Outcome.next (if_pos ⟨hmode, hd, href⟩)

/-- R82: an arming ends when its time is over. -/
theorem syncArmTimeout_disarms {t : DT} {s : State} {a : SyncArm} (harm : (advance t s).clock.sync = some a)
    (hover : a.timeoutMs * tkMs ≤ dtSub (advance t s).dt a.armedAt) : let u := advance t s
    exec (.syncArmTimeout t) s = .next { u with clock := { u.clock with sync := none } } := by
  intro u
  rw [exec_syncArmTimeout, execSyncArmTimeout]
  dsimp only
  rw [harm]
  exact congrArg Host.Outcome.next (if_pos hover)

/-! ## The rows of TAI and SYNC together -/

/-- Settles O48, row by row: the clauses on PPS_IN are the branches of its three rows, those on the servo the sources it
knows. -/
theorem timeEvents : Obligations.TimeEvents := by
  intro t s u x
  refine ⟨fun hsel hrun => ⟨?_, ?_, ?_, ppsInEdge_first hsel hrun, ?_, ?_⟩, fun prev rest hsel hacc hlate => ?_,
    fun n received hup hptp => ?_, fun a fraction marginPs => syncInEdge_captures fraction marginPs,
    fun a harm hmode hd href => syncOutLaunch_raises harm hmode hd href, fun a harm hover => syncArmTimeout_disarms harm hover⟩
  · intro prev rest k hacc hlater hnext hset
    rw [ppsInEdge_following hsel hrun hacc, if_pos hlater, ppsAccept_follows hacc hnext hset]
  · intro prev rest hacc hlater
    rw [ppsInEdge_following hsel hrun hacc, if_pos hlater]
  · intro prev rest hacc hlater
    rw [ppsInEdge_following hsel hrun hacc, if_neg (ne_true_of_eq_false hlater)]
    rfl
  · intro c hacc hcand hlater
    rw [ppsInEdge_acquiring hsel hrun hacc hcand, if_neg (ne_true_of_eq_false hlater)]
  · intro c hacc hcand hlater hheld
    rw [ppsInEdge_acquiring hsel hrun hacc hcand, if_pos hlater, ppsAcquire_fresh hacc hheld]
  · exact ppsLossTimeout_holdsOver hsel hacc hlate
  · refine ⟨ptpEventMessage_stamped hup hptp received, fun e => ?_⟩
    rw [ptpEventMessage_served hup hptp received e, servoTime]
    refine ⟨fun h2 => ?_, fun h3 hok => ?_, fun h3 hnot => ?_, fun h2 h3 => ?_⟩
    · rw [if_pos h2]
      rfl
    · rw [if_neg (by rw [h3]; decide), if_pos h3, if_pos hok]
      rfl
    · rw [if_neg (by rw [h3]; decide), if_pos h3, if_neg (ne_true_of_eq_false hnot)]
      rfl
    · rw [if_neg h2, if_neg h3]
      rfl

end Sys2Proof.Machine

/-! # Commands that act on units at once

Each passes its checks and meets a unit that is there and free. -/

namespace Sys2Proof.Machine

/-! ## The rows, and what taking a command leaves of a unit -/

theorem exec_rfSetPadCount (c : Cmd) (s : State) : exec (.rfSetPadCount c) s = .next (rfSetPadCount c s) := rfl
theorem exec_pipSetSpares (c : Cmd) (s : State) : exec (.pipSetSpares c) s = .next (pipSetSpares c s) := rfl
theorem exec_capRead (c : Cmd) (s : State) : exec (.capRead c) s = .next (capRead c s) := rfl
theorem exec_genJump (c : Cmd) (s : State) : exec (.genJump c) s = .next (genJump c s) := rfl
theorem exec_genRoute (c : Cmd) (s : State) : exec (.genRoute c) s = .next (genRoute c s) := rfl
theorem exec_slowUrgent (c : Cmd) (s : State) : exec (.slowUrgent c) s = .next (slowUrgent c s) := rfl

@[simp] theorem otpFloor_taken (ch : Nat) (c : Cmd) (s : State) : otpFloor ch (taken c s) = otpFloor ch s := by
  simp [otpFloor, otpBits, otpBurned]

@[simp] theorem routeAbsent_taken (mark trig : Nat) (c : Cmd) (s : State) :
    routeAbsent mark trig (taken c s) = routeAbsent mark trig s := by simp [routeAbsent]

/-! ## Receivers and pips -/

/-- R94: before the first pad change the count is set above the greater of the one given and the floor, and a burn it makes due
becomes due. -/
theorem rfSetPadCount_counts {c : Cmd} {s : State} (h : Sent 0x0603 c s) (hu : c.unit < 4) (hal : Alone c.unit c)
    (hz : ZeroBytes c.entry 24 64) (hp : rfPresent c.unit s = true) (hmoved : (getRf c.unit s).padMoved = false) :
    exec (.rfSetPadCount c) s = .next (done c s 0 (burnDue c.unit (modRf c.unit
      (fun r => { r with padCount := max (c.u64 16) (otpFloor c.unit s) + 1 }) (taken c s)))) := by
  rw [exec_rfSetPadCount, rfSetPadCount,
    plainCommand_sent _ _ h hal (unitWrong_below hu) ((badOffset_reserved _ _ _).2 hz)]
  simp only [ctxOf_unit, ctxOf_u64, rfPresent_taken, getRf_taken, otpFloor_taken]
  rw [if_neg (not_bang_of_true hp), if_neg (ne_true_of_eq_false hmoved)]
  rfl

/-- R20, R48: spares that the running configuration leaves are set and shown in the descriptor. -/
theorem pipSetSpares_sets {c : Cmd} {s : State} (h : Sent 0x0802 c s) (hal : Alone 0xFFFF c) (hlow : 2 ≤ c.u8 16)
    (hhigh : c.u8 16 ≤ 8) (hz : ZeroBytes c.entry 17 64) :
    let u := taken c s
    (pipsInUse u : Int) ≤ (pipsHealthy u : Int) - c.u8 16 →
    exec (.pipSetSpares c) s =
      .next (done c s 0 (rewriteCaps { u with health := { u.health with spares := c.u8 16 } })) := by
  intro u hleft
  have henough : ¬ pipsHealthy u < pipsInUse u + c.u8 16 := by omega
  rw [exec_pipSetSpares, pipSetSpares, plainCommand_sent _ _ h hal rfl]
  · exact congrArg Host.Outcome.next (if_neg henough)
  · rw [badOffset_cons, Bool.or_eq_false_iff]
    exact ⟨⟨decide_eq_false (Nat.not_lt.2 hlow), decide_eq_false (Nat.not_lt.2 hhigh)⟩, (badOffset_reserved _ _ _).2 hz⟩

/-! ## Captures -/

/-- R192: the record that a CAP.READ names, as bytes. -/
def readoutBytes (c : Cmd) (u : State) : List Byte := capBytes c.unit (tget {} (getCap c.unit u).records (c.u8 16)) u

/-- Table 9-8: a CAP.READ whose destination lies in device memory. -/
def readoutToDevice (c : Cmd) (u : State) : Bool := deviceDest (c.u64 24) (readoutBytes c u).length u

/-- R27: the PF1 output charge of a CAP.READ: its RATE when its bytes go to the host. -/
def readoutPf1 (c : Cmd) (u : State) : Nat :=
  if (c.u16 18 = 0xFFFF ∧ readoutToDevice c u = false) ∨ (c.u16 18 ≠ 0xFFFF ∧ (getRing (c.u16 18) u).location = 1) then
    c.u64 32 else 0

/-- R28: the budget that a readout with a RATE breaks. -/
def readoutRefusal (c : Cmd) (u : State) : Option Nat :=
  if c.u64 32 = 0 then none else brokenBudget (planned u) (planned u) (c.u64 32) (readoutPf1 c u)

/-- R25, R193: a readout with a RATE is charged while it lasts. -/
def readoutCharged (c : Cmd) (u : State) : State :=
  if c.u64 32 = 0 then u else readoutBegin (c.u64 32) (readoutPf1 c u) (readoutBytes c u).length u

/-- R192: the bytes of a readout go to a ring or to an address. -/
def readoutStored (c : Cmd) (u v : State) : State :=
  if c.u16 18 ≠ 0xFFFF then writeRecord (c.u16 18) (readoutBytes c u) v
  else storeAt (if readoutToDevice c u = true then 2 else 0) (c.u64 24) (readoutBytes c u) v

/-- R192, R193: a full segment that is not being written is read out, if its RATE is admitted. -/
theorem capRead_reads {c : Cmd} {s : State} (h : Sent 0x0C04 c s) (hu : c.unit < 16) (hal : Alone c.unit c)
    (hz1 : ZeroBytes c.entry 17 18) (hz2 : ZeroBytes c.entry 20 24) (hz3 : ZeroBytes c.entry 40 64) :
    let u := taken c s
    let k := getCap c.unit u
    k.isSet = true → c.u8 16 < k.cfg.segments → (tget {} k.records (c.u8 16)).full = true →
    ((k.phase = 1 ∨ k.phase = 2) → k.segment ≠ c.u8 16) → badRing (c.u16 18) s = false →
    (c.u64 32 ≠ 0 → brokenBudget (planned u) (planned u) (c.u64 32) (readoutPf1 c u) = none) →
    exec (.capRead c) s = .next (done c s 0 (readoutStored c u (readoutCharged c u))) := by
  intro u k hset hseg hfull hidle hring hbudget
  have hfree : segmentBusy (ctxOf c s) u = false := by
    change ((k.phase == 1 || k.phase == 2) && k.segment == c.u8 16) = false
    simpa using hidle
  rw [exec_capRead, capRead, plainCommand_sent _ _ h hal (unitWrong_below hu)]
  · have hrefusal : readoutRefusal c u = none := by
      rw [readoutRefusal, ite_eq_left_iff]
      exact hbudget
    rw [if_neg (ne_true_of_eq_false hfree)]
    change Host.Outcome.next (match readoutRefusal c u with
      | some r => fail (ctxOf c s).ref stRefused r u
      | none => done c s 0 (readoutStored c u (readoutCharged c u))) = _
    rw [hrefusal]
  · simp only [badOffset_append, badOffset_cons, badOffset_nil, badOffset_reserved, badRing_taken, Bool.or_eq_false_iff]
    refine ⟨⟨⟨⟨?_, ⟨decide_eq_false (Nat.not_le.2 hseg), ?_⟩, hring, trivial⟩, hz1⟩, hz2⟩, hz3⟩
    · exact congrArg not hset
    · change (!segmentBusy (ctxOf c s) u && !(tget {} k.records (c.u8 16)).full) = false
      rw [hfull]
      exact Bool.and_false _

/-! ## Generators and the slow converter -/

/-- R208: a delivered request joins those that a running generator has not used yet. -/
theorem genPend_eq (b d : Nat) (s : State) : genPend b d s = modGen d (fun g =>
    if g.running = true ∧ b ∉ g.pending then { g with pending := g.pending ++ [b] } else g) (latchDue d s) := by
  simp [genPend]

theorem genJump_requests {c : Cmd} {s : State} (h : Sent 0x0D05 c s) (hu : c.unit < 2) (hal : Alone c.unit c)
    (hflag : c.u8 16 ≤ 7) (hz : ZeroBytes c.entry 17 64) (hp : dacPresent c.unit s = true) :
    exec (.genJump c) s = .next (done c s 0 (genPend (48 + c.u8 16) c.unit (taken c s))) := by
  have hthere : ¬ dacAbsent (ctxOf c s) (taken c s) = true := by simp [dacAbsent, ctxOf_unit, hp]
  rw [exec_genJump, genJump, plainCommand_sent _ _ h hal (unitWrong_below hu)]
  · rw [if_neg hthere]
    rfl
  · rw [badOffset_cons]
    exact ⟨decide_eq_false (Nat.not_lt.2 hflag), (badOffset_reserved _ _ _).2 hz⟩

/-- R211: with both generators stopped the marker and trigger lines are routed. -/
theorem genRoute_routes {c : Cmd} {s : State} (h : Sent 0x0D06 c s) (hal : Alone 0xFFFF c) (htrig : c.u8 17 < 16)
    (hwidth : 1 ≤ c.u8 18) (hz : ZeroBytes c.entry 19 64) (hp : routeAbsent (c.u8 16) (c.u8 17) s = false)
    (hstop0 : (getGen 0 s).running = false) (hstop1 : (getGen 1 s).running = false) :
    let u := taken c s
    exec (.genRoute c) s = .next (done c s 0
      { u with route := { u.route with markDac := c.u8 16, trigDac := c.u8 17, width := c.u8 18 } }) := by
  intro u
  rw [exec_genRoute, genRoute, plainCommand_sent _ _ h hal rfl]
  · simp only [ctxOf_u8, routeAbsent_taken, getGen_taken, hstop0, hstop1, Bool.or_self]
    rw [if_neg (ne_true_of_eq_false hp), if_neg Bool.false_ne_true]
    rfl
  · simp only [badOffset_append, badOffset_cons, badOffset_reservedBits_15, badOffset_reserved, beq_eq_false_iff_ne]
    exact ⟨⟨Nat.one_le_iff_ne_zero.1 hwidth, htrig⟩, hz⟩

/-- R252: an entry with right fields and one conversion joins those that go before the scan. -/
theorem slowUrgent_queues {c : Cmd} {s : State} (h : Sent 0x1103 c s) (hal : Alone 0 c)
    (hentry : ∀ k ∈ scanChecks (fld c.entry 16 16), k.2 = false) (hone : (scanEntryOf (fld c.entry 16 16)).repeats = 1)
    (hz : ZeroBytes c.entry 32 64) :
    exec (.slowUrgent c) s = .next (slowKick (modSlow
      (fun y => { y with urgents := y.urgents ++ [(scanEntryOf (fld c.entry 16 16), (ctxOf c s).ref)] }) (taken c s))) := by
  rw [exec_slowUrgent, slowUrgent, plainCommand_sent _ _ h hal rfl]
  · rfl
  · simp only [badOffset_append, badOffset_cons, badOffset_nil, badOffset_reserved, ctxOf_e, hone]
    refine ⟨⟨?_, rfl, trivial⟩, hz⟩
    rw [badOffset_none, List.forall_mem_map]
    exact fun k hk => hentry k hk

/-- Settles O25, command by command. -/
theorem unitCommands : Obligations.UnitCommands := by
  refine ⟨fun c s => rfSetPadCount_counts, fun c s h hal hlow hhigh hz => pipSetSpares_sets h hal hlow hhigh hz,
    fun c s h hu hal hz1 hz2 hz3 => capRead_reads h hu hal hz1 hz2 hz3, fun c s h hu hal hflag hz hp => ?_,
    fun c s h hal htrig hwidth hz hp hstop0 hstop1 => genRoute_routes h hal htrig hwidth hz hp hstop0 hstop1,
    fun c s h hu hal hentry hone hz => slowUrgent_queues h hal hentry hone hz⟩
  rw [genJump_requests h hu hal hflag hz hp, genPend_eq]

end Sys2Proof.Machine

/-! # The converter rows

`groupArrive_keeps` says once what a group leaves in its channel; overload handling then adds OVR to it. The other rows are
each one step of a channel, receiver or path. -/

namespace Sys2Proof.Machine

/-! ## The rows -/

theorem exec_rfGroup (t : DT) (n : Nat) (codes : List Int) (s : State) :
    exec (.rfGroup t n codes) s = execRfGroup t n codes s := rfl
theorem exec_overdriveComparator (t : DT) (n : Nat) (fires : Bool) (s : State) :
    exec (.overdriveComparator t n fires) s = execOverdriveComparator t n fires s := rfl
theorem exec_padSettleEnd (t : DT) (n : Nat) (s : State) : exec (.padSettleEnd t n) s = execPadSettleEnd t n s := rfl
theorem exec_otpBurnDone (t : DT) (n : Nat) (s : State) : exec (.otpBurnDone t n) s = execOtpBurnDone t n s := rfl
theorem exec_sliceSwap (t : DT) (n : Nat) (fault : Option (Nat × Nat)) (s : State) :
    exec (.sliceSwap t n fault) s = execSliceSwap t n fault s := rfl
theorem exec_opticalGroup (t : DT) (n : Nat) (codes : List Int) (s : State) :
    exec (.opticalGroup t n codes) s = execOpticalGroup t n codes s := rfl
theorem exec_ddcOutputGroup (t : DT) (path : Nat) (s : State) :
    exec (.ddcOutputGroup t path) s = execDdcOutputGroup t path () s := rfl
theorem exec_detectorWindowEnd (t : DT) (path : Nat) (s : State) :
    exec (.detectorWindowEnd t path) s = execDetectorWindowEnd t path s := rfl

/-! ## What an event leaves of the receivers; codes and bits -/

@[simp] theorem event_dt (code sev unit : Nat) (fs : List (Nat × Nat × Nat)) (s : State) :
    (event code sev unit fs s).dt = s.dt :=
  (congrArg State.dt (blocks_event code sev unit fs s) :)

@[simp] theorem getRf_event (n code sev unit : Nat) (fs : List (Nat × Nat × Nat)) (s : State) :
    getRf n (event code sev unit fs s) = getRf n s :=
  (congrArg (getRf n) (blocks_event code sev unit fs s) :)

theorem bit_toNat {w : Nat} (v : BitVec w) (i : Nat) : bit v.toNat i = v.getLsbD i := by
  rw [BitVec.getLsbD, Nat.testBit_eq_decide_div_mod_eq]
  rfl

/-- A list holds a code that is looked for exactly when there is a last place where it stands. -/
theorem isSome_lastPlace (p : Int → Bool) (codes : List Int) :
    ((codes.zipIdx.filter fun q => p q.1).getLast?.map (·.2)).isSome = codes.any p := by
  have hany : (codes.zipIdx.any fun q => p q.1) = codes.any p := by
    conv_rhs => rw [← List.zipIdx_map_fst 0 codes, List.any_map]
    rfl
  rw [Option.isSome_map, ← hany, Bool.eq_iff_iff, List.getLast?_isSome, List.any_eq_true]
  simp [List.filter_eq_nil_iff]

theorem lastClip_isSome (codes : List Int) : (lastClip codes).isSome = codes.any fun c => c == 2047 || c == -2048 :=
  isSome_lastPlace (fun c => c == 2047 || c == -2048) codes

/-! ## Groups (R89, R98 to R103) -/

theorem partner_ne (n : Nat) : n ≠ partner n := by
  unfold partner
  split
  · omega
  · omega

/-- R98, R117: what a group leaves in its channel whether it carries OVR or not. -/
def groupFacts (c : RfChan) : Option DT × Option (DT × List Int) × Nat := (c.lastGroup, c.input.head?, c.invalidLeft)

/-- R99, R100: a group carries OVR: it clips, recovers from a clip, or the comparator is on or released too lately. -/
def groupOvr (c : RfChan) (codes : List Int) (dt : DT) : Bool :=
  (lastClip codes).isSome || decide (0 < c.recovery) || c.overdrive || decide (dt.toNat < c.overdriveUntil.toNat)

theorem groupOvr_of_clean {c : RfChan} {codes : List Int} {dt : DT} (hcodes : ∀ v ∈ codes, v ≠ 2047 ∧ v ≠ -2048)
    (hrec : c.recovery = 0) (hover : c.overdrive = false) (huntil : c.overdriveUntil.toNat ≤ dt.toNat) :
    groupOvr c codes dt = false := by
  have hclip : (lastClip codes).isSome = false := by simpa [lastClip_isSome] using hcodes
  simp [groupOvr, hclip, hrec, hover, huntil]

theorem groupOvr_of_overload {c : RfChan} {codes : List Int} (dt : DT)
    (h : (∃ v ∈ codes, v = 2047 ∨ v = -2048) ∨ 0 < c.recovery ∨ c.overdrive = true) : groupOvr c codes dt = true := by
  simp only [groupOvr, lastClip_isSome, Bool.or_eq_true, decide_eq_true_eq, List.any_eq_true, beq_iff_eq]
  exact .inl (or_assoc.2 h)

@[simp] theorem markOvr_dt (n : Nat) (t : DT) (s : State) : (markOvr n t s).dt = s.dt := by
  unfold markOvr
  dsimp only
  split
  · rfl
  · rfl

/-- R99, R101: of its own channel an OVR group changes the sideband and its entry among the flagged groups. -/
theorem getRf_markOvr (n : Nat) (t : DT) (s : State) :
    (getRf n (markOvr n t s)).sideband = (getRf n s).sideband ||| 0x40 ∧
      groupFacts (getRf n (markOvr n t s)) = groupFacts (getRf n s) := by
  unfold markOvr
  dsimp only
  split
  · rw [getRf_modRf_other _ _ _ _ (partner_ne n), getRf_modRf]
    exact ⟨rfl, rfl⟩
  · rw [getRf_modRf]
    exact ⟨rfl, rfl⟩

/-- R103: the channel notes when it last carried OVR, and posts an event after a quiet second. -/
theorem overloadReport_notes (n : Nat) (t : DT) (s : State) : let w := overloadReport n t s
    w.dt = s.dt ∧ (getRf n w).lastOvr = some t ∧ (getRf n w).sideband = (getRf n s).sideband ∧
      groupFacts (getRf n w) = groupFacts (getRf n s) := by
  unfold overloadReport
  dsimp only
  cases (getRf n s).lastOvr with
  | none =>
    rw [if_pos rfl, event_dt, getRf_event, getRf_modRf]
    exact ⟨rfl, rfl, rfl, rfl⟩
  | some d =>
    dsimp only
    split
    · rw [event_dt, getRf_event, getRf_modRf]
      exact ⟨rfl, rfl, rfl, rfl⟩
    · rw [getRf_modRf]
      exact ⟨rfl, rfl, rfl, rfl⟩

/-- A group is kept with its sideband; one that carries OVR is marked and reported. -/
theorem groupArrive_keeps (n : Nat) (codes : List Int) (s : State) : let r := getRf n s
    ∃ k, groupArrive n codes s =
        (if groupOvr r codes s.dt = true then overloadReport n s.dt (markOvr n s.dt k) else k) ∧ k.dt = s.dt ∧
      groupFacts (getRf n k) = (some s.dt, some (s.dt, codes.map fun c => gained c (rfK r)), r.invalidLeft - 1) ∧
      (getRf n k).ovrGroups = r.ovrGroups ∧
      (getRf n k).sideband = BitVec.ofNat 16 (sidebandWord r.atten r.pad (groupOvr r codes s.dt) (neighbourAt n s.dt.toNat s)
        (decide (s.dt.toNat < r.rangingUntil.toNat)) (decide (s.dt.toNat < r.settleUntil.toNat)) (r.invalidLeft == 0)) := by
  intro r
  refine ⟨_, rfl, rfl, ?_, ?_, ?_⟩
  · rw [getRf_modRf]
    rfl
  · rw [getRf_modRf]
  · rw [getRf_modRf]
    rfl

theorem groupArrive_facts (n : Nat) (codes : List Int) (s : State) : let r := getRf n s
    (groupArrive n codes s).dt = s.dt ∧ groupFacts (getRf n (groupArrive n codes s)) =
      (some s.dt, some (s.dt, codes.map fun c => gained c (rfK r)), r.invalidLeft - 1) := by
  intro r
  obtain ⟨k, hk, hdt, hfacts, -, -⟩ := groupArrive_keeps n codes s
  rw [hk]
  split
  · obtain ⟨hsame, -, -, hreport⟩ := overloadReport_notes n s.dt (markOvr n s.dt k)
    obtain ⟨-, hmark⟩ := getRf_markOvr n s.dt k
    rw [hsame, markOvr_dt, hreport, hmark]
    exact ⟨hdt, hfacts⟩
  · exact ⟨hdt, hfacts⟩

/-- R98, Table 5-5: the sideband of a group without OVR. -/
theorem groupArrive_clean {n : Nat} {codes : List Int} {s : State} (h : groupOvr (getRf n s) codes s.dt = false) :
    let r := getRf n s
    let w := groupArrive n codes s
    (getRf n w).ovrGroups = r.ovrGroups ∧ (getRf n w).sideband = BitVec.ofNat 16 (r.atten % 32 + 32 * b2n r.pad +
      128 * b2n (neighbourAt n s.dt.toNat s) + 256 * b2n (decide (s.dt.toNat < r.rangingUntil.toNat)) +
      512 * b2n (decide (s.dt.toNat < r.settleUntil.toNat)) + 1024 * b2n (r.invalidLeft == 0)) := by
  intro r w
  obtain ⟨k, hk, -, -, hgroups, hside⟩ := groupArrive_keeps n codes s
  have hw : w = k := hk.trans (if_neg (ne_true_of_eq_false h))
  rw [h] at hside
  rw [hw]
  exact ⟨hgroups, hside⟩

/-- R99, R100, R103: a group with OVR says so in its sideband, and its channel notes it. -/
theorem groupArrive_overload {n : Nat} {codes : List Int} {s : State} (h : groupOvr (getRf n s) codes s.dt = true) :
    let w := groupArrive n codes s
    (getRf n w).sideband.getLsbD 6 = true ∧ (getRf n w).lastOvr = some s.dt := by
  intro w
  obtain ⟨k, hk, -⟩ := groupArrive_keeps n codes s
  have hw : w = overloadReport n s.dt (markOvr n s.dt k) := hk.trans (if_pos h)
  obtain ⟨-, hlast, hside, -⟩ := overloadReport_notes n s.dt (markOvr n s.dt k)
  obtain ⟨hmark, -⟩ := getRf_markOvr n s.dt k
  have hbit : (0x40 : BitVec 16).getLsbD 6 = true := by decide
  rw [hw, hside, hmark, BitVec.getLsbD_or, hbit]
  exact ⟨Bool.or_true _, hlast⟩

/-- R54: what lands at the group boundary that has come lands before the group. -/
def groupStart (t : DT) (s : State) : State := settle (· == .group) (advance t s)

theorem rfGroup_arrives {t : DT} {n : Nat} {codes : List Int} {s : State} : let v := groupStart t s
    let r := getRf n v
    r.powered = true → planeRuns v = true → codes.length = 64 → (∀ c ∈ codes, -2048 ≤ c ∧ c ≤ 2047) →
    v.dt.toNat % 64 = 0 → r.lastGroup ≠ some v.dt →
    exec (.rfGroup t n codes) s = .next (capRawGroup n codes (groupArrive n codes v)) := by
  intro v r hp hplane hlen hcodes hgroup hlast
  have hall : (codes.all fun c => -2048 ≤ c && c ≤ 2047) = true := by simpa using hcodes
  exact congrArg Host.Outcome.next (if_pos ⟨hp, hplane, hlen, hall, hgroup, hlast⟩)

/-! ## The overdrive comparator (R100) -/

theorem overdriveGroup_none {n : Nat} {s : State} (h : (getRf n s).lastGroup = none) : overdriveGroup n s = s := by
  rw [overdriveGroup, h]

theorem overdriveGroup_some {n : Nat} {g : DT} {s : State} (h : (getRf n s).lastGroup = some g) : overdriveGroup n s =
    if dtSub s.dt g < 64 ∧ (getRf n s).sideband.getLsbD 6 = false then
      capRawIndex (partner n) g (capRawIndex n g (overloadReport n g (markOvr n g s))) else s := by
  rw [overdriveGroup, h]
  simp only [bit_toNat]

section
variable {t : DT} {n : Nat} {s : State}

theorem comparator_releases (hp : (getRf n (advance t s)).powered = true) (hon : (getRf n (advance t s)).overdrive = true) :
    let u := advance t s
    exec (.overdriveComparator t n false) s =
      .next (modRf n (fun r => { r with overdrive := false, overdriveUntil := dtAdd u.dt 1024 }) u) :=
  congrArg Host.Outcome.next (if_pos ⟨hp, ne_false_of_eq_true hon⟩)

/-- R100: the comparator of a channel is on. -/
def overdriven (n : Nat) (u : State) : State := modRf n (fun r => { r with overdrive := true }) u

theorem getRf_overdriven (n : Nat) (u : State) : (getRf n (overdriven n u)).lastGroup = (getRf n u).lastGroup ∧
    (getRf n (overdriven n u)).sideband = (getRf n u).sideband := by
  rw [overdriven, getRf_modRf]
  exact ⟨rfl, rfl⟩

theorem comparator_fires (hp : (getRf n (advance t s)).powered = true) (hoff : (getRf n (advance t s)).overdrive = false) :
    exec (.overdriveComparator t n true) s = .next (overdriveGroup n (overdriven n (advance t s))) :=
  congrArg Host.Outcome.next (if_pos ⟨hp, ne_true_of_eq_false hoff⟩)

/-- R100 to R103: a group under way that carries no OVR yet is marked; with none under way only the channel changes. -/
theorem overdriveGroup_overdriven (n : Nat) (u : State) : let r := getRf n u
    let v := overdriven n u
    (r.lastGroup = none → overdriveGroup n v = v) ∧
    (∀ g, r.lastGroup = some g →
      (dtSub u.dt g < 64 → r.sideband.getLsbD 6 = false → overdriveGroup n v =
        capRawIndex (partner n) g (capRawIndex n g (overloadReport n g (markOvr n g v)))) ∧
      (64 ≤ dtSub u.dt g → overdriveGroup n v = v)) := by
  intro r v
  obtain ⟨hlast, hside⟩ := getRf_overdriven n u
  refine ⟨fun hnone => overdriveGroup_none (hlast.trans hnone), fun g hg => ?_⟩
  rw [overdriveGroup_some (hlast.trans hg), hside]
  exact ⟨fun hnear hclear => if_pos ⟨hnear, hclear⟩,
    fun hfar => if_neg fun ⟨hnear, _⟩ => absurd hnear (Nat.not_lt.2 hfar)⟩

/-! ## Settling, burns and slices (R88, R91 to R97) -/

theorem padSettleEnd_ends (h : dtLe (getRf n (advance t s)).settleUntil (advance t s).dt = true) :
    exec (.padSettleEnd t n) s = .next (modRf n (fun r => { r with settleUntil := 0 }) (advance t s)) :=
  congrArg Host.Outcome.next (if_pos h)

/-- R93: the bit that was burning is burned. -/
def bitBurned (n : Nat) (u : State) : State :=
  modRf n (fun r => { r with burning := false, burnBit := 0 }) { u with fuse := { u.fuse with
    padBits := tput 0 u.fuse.padBits n (tget 0 u.fuse.padBits n ||| 2 ^ ((getRf n u).burnBit - 1)) } }

theorem otpBurnDone_burns (h : (getRf n (advance t s)).burning = true) :
    exec (.otpBurnDone t n) s = .next (burnFollows n (bitBurned n (advance t s))) :=
  congrArg Host.Outcome.next (if_pos h)

theorem getRf_bitBurned (n : Nat) (u : State) : getRf n (bitBurned n u) = { getRf n u with burning := false, burnBit := 0 } :=
  getRf_modRf _ _ _

/-- R88, R93: what the end of a burn lets go on: the return of the pad before power-down, nothing, or the move of a power-up. -/
theorem burnFollows_bitBurned (n : Nat) (u : State) : let r := getRf n u
    let v := bitBurned n u
    (r.returnPending = true → burnFollows n v = rfPowerDown n (padChange n v)) ∧
    (r.returnPending = false → r.padTarget = none → burnFollows n v = v) ∧
    (∀ pad, r.returnPending = false → r.padTarget = some pad →
      let w := modRf n (fun r => { r with padTarget := none }) v
      burnFollows n v = if r.pad = pad then w else rangeNote n (padMove n w)) := by
  intro r v
  have hv : getRf n v = { r with burning := false, burnBit := 0 } := getRf_bitBurned n u
  rw [burnFollows, hv]
  dsimp only
  refine ⟨fun hret => if_pos hret, fun hret htarget => ?_, fun pad hret htarget => ?_⟩
  · rw [if_neg (ne_true_of_eq_false hret), htarget]
  · rw [if_neg (ne_true_of_eq_false hret), htarget]

theorem modRf_congr {f g : RfChan → RfChan} (h : f (getRf n s) = g (getRf n s)) : modRf n f s = modRf n g s :=
  congrArg (fun c => ({ s with rf := tput {} s.rf n c } : State)) h

theorem sliceSwap_swaps (hp : (getRf n (advance t s)).powered = true) (hplane : planeRuns (advance t s) = true) :
    let u := advance t s
    swapHere n u = true → exec (.sliceSwap t n none) s = .next (modRf n sliceRotate u) :=
  fun hswap => congrArg Host.Outcome.next ((if_pos ⟨hp, hplane⟩).trans (if_pos hswap))

theorem sliceSwap_faults {slice kind : Nat} (hp : (getRf n (advance t s)).powered = true)
    (hplane : planeRuns (advance t s) = true) : let v := sliceFault n slice kind (advance t s)
    swapHere n v = false → exec (.sliceSwap t n (some (slice, kind))) s = .next v :=
  fun hstay => congrArg Host.Outcome.next ((if_pos ⟨hp, hplane⟩).trans (if_neg (ne_true_of_eq_false hstay)))

/-- R96: the spare takes the place of the slice whose turn it is. -/
theorem modRf_sliceRotate {u : State} {spare : Nat} (h : (getRf n u).spare = some spare) :
    modRf n sliceRotate u = modRf n (fun r => { r with
      positions := r.positions.set r.nextPos spare, spare := r.positions[r.nextPos]?
      nextPos := (r.nextPos + 1) % 16, swapDue := dtAdd r.swapDue (2 * tkS) }) u := by
  refine modRf_congr ?_
  rw [sliceRotate, h]

/-- R97: the first slice to fail is the spare: it is retired, and its channel goes on without one. -/
theorem sliceFault_first {u : State} {slice : Nat} (kind : Nat) (hspare : (getRf n u).spare = some slice)
    (hret : (getRf n u).retired = []) : sliceFault n slice kind u = faultArrive 3 kind n n outRetired [{ cls := 1, inst := n }]
      (event 0x0603 2 n [(16, 1, slice), (17, 1, kind), (18, 1, 1)]
        (rewriteCaps (modRf n (fun r => { r with retired := [slice], spare := none }) u))) := by
  have hretire : modRf n (fun r => { r with retired := r.retired ++ [slice], spare := none }) u =
      modRf n (fun r => { r with retired := [slice], spare := none }) u := modRf_congr (by rw [hret]; rfl)
  simp [sliceFault, hspare, hret, hretire]

end

/-! ## Optical groups (R218) -/

theorem opticalGroup_arrives {t : DT} {n : Nat} {codes : List Int} {s : State} : let v := groupStart t s
    orxPresent n v = true → fibreRuns (n / 2) v = true → planeRuns v = true → codes.length = 16 →
    (∀ c ∈ codes, -8192 ≤ c ∧ c ≤ 8191) → v.dt.toNat % 64 = 0 →
    exec (.opticalGroup t n codes) s = .next (opticalArrive n codes v) := by
  intro v hp hruns hplane hlen hcodes hgroup
  have hall : (codes.all fun c => -8192 ≤ c && c ≤ 8191) = true := by simpa using hcodes
  exact congrArg Host.Outcome.next (if_pos ⟨hp, hruns, hplane, hlen, hall, hgroup⟩)

/-- An optical group changes its receiver and nothing else. -/
theorem opticalArrive_only (n : Nat) (codes : List Int) (v : State) : let w := opticalArrive n codes v
    (∀ k, k ≠ n → getOrx k w = getOrx k v) ∧ { w with orx := v.orx } = v :=
  ⟨fun k hk => getOrx_modOrx_other n k _ v hk, rfl⟩

theorem getOrx_opticalArrive (n : Nat) (codes : List Int) (v : State) : let w := opticalArrive n codes v
    (getOrx n w).input.head? = some (v.dt, codes) ∧
      (getOrx n w).ovr = ((codes.any fun c => c == 8191 || c == -8192) || decide (0 < (getOrx n v).recovery)) := by
  rw [← isSome_lastPlace fun c => c == 8191 || c == -8192]
  unfold opticalArrive
  dsimp only
  rw [getOrx_modOrx]
  exact ⟨rfl, rfl⟩

/-! ## Output groups and detector windows (R113, R124, R125) -/

/-- R116: with no chain from before a start left, the path's own chain moves on by one group. -/
theorem chainStep_nextGroup {path : Nat} {d : DdcPath} (h : d.old = []) :
    (chainStep path d).nextGroup = dtAdd d.nextGroup (64 * outPeriod path d.decim) := by
  simp [chainStep, chainOut, chainNow, h]

theorem getDdc_groupOut (path : Nat) (x : State) : let d := getDdc path x
    let e := getDdc path (groupOut path x)
    e.groups.head? = some (groupInfo path (chainOut d) x) ∧
      (d.old = [] → e.nextGroup = dtAdd d.nextGroup (64 * outPeriod path d.decim)) := by
  intro d e
  have he : e = _ := getDdc_modDdc path _ x
  rw [he]
  exact ⟨rfl, chainStep_nextGroup⟩

theorem groupOut_only (path : Nat) (x : State) : { groupOut path x with ddc := x.ddc } = x := rfl

theorem ddcOutputGroup_leaves {t : DT} {path : Nat} {s : State} : let v := groupStart t s
    groupDue path v = true → exec (.ddcOutputGroup t path) s = .next (groupOut path (capDdcGroup path v)) :=
  fun h => congrArg Host.Outcome.next (if_pos h)

theorem detectorWindowEnd_ends {t : DT} {path : Nat} {s : State} : let u := advance t s
    let d := getDdc path u
    d.enable = true → d.detEnable ≠ 0 → 2 ^ d.log2Win ≤ d.detQueue.length →
    exec (.detectorWindowEnd t path) s = .next (detectorEnd path u) :=
  fun hen hdet hfull => congrArg Host.Outcome.next (if_pos ⟨hen, hdet, hfull⟩)

/-- R122, R176: a window of a slot path without a ring only reaches the time-domain condition of its fibre. -/
theorem detectorEnd_slot {path : Nat} {u : State} (hring : (getDdc path u).detRing = 0xFFFF) (hslot : isSlotPath path = true) :
    let d := getDdc path u
    let r := windowEnd d
    detectorEnd path u = tdTest (4 + (path - 16) / 16) path
      (r.1.zipIdx.map fun v => if bit d.detEnable v.2 = true then v.1 else below) 0 r.2.1 (bit r.2.1 1)
      (dtAdd r.2.2.1 (2 ^ d.log2Win * outPeriod path d.decim)) (modDdc path (fun _ => r.2.2.2) u) := by
  intro d r
  rw [detectorEnd, pathOwner]
  rw [if_pos hring, if_pos hslot, if_pos hslot]
  rfl

/-! ## The rows together -/

/-- Settles O49, row by row. -/
theorem converterEvents : Obligations.ConverterEvents := by
  intro t s u v
  refine ⟨?_, ?_, fun n => padSettleEnd_ends, ?_, ?_, ?_, ?_, ?_⟩
  · intro n codes r hp hplane hlen hcodes hgroup hlast w
    obtain ⟨hdt, hfacts⟩ := groupArrive_facts n codes v
    simp only [groupFacts, Prod.mk.injEq] at hfacts
    obtain ⟨hnew, hinput, hinvalid⟩ := hfacts
    refine ⟨rfGroup_arrives hp hplane hlen hcodes hgroup hlast, hnew, hdt, hinput, hinvalid, fun hclean hrec hover huntil => ?_,
      fun hover => ?_⟩
    · exact groupArrive_clean (groupOvr_of_clean hclean hrec hover huntil)
    · exact groupArrive_overload (groupOvr_of_overload v.dt hover)
  · intro n r hp
    refine ⟨comparator_releases hp, fun hoff => ?_⟩
    obtain ⟨hnone, hsome⟩ := overdriveGroup_overdriven n u
    rw [comparator_fires hp hoff]
    refine ⟨fun hg => congrArg _ (hnone hg), fun g hg => ?_⟩
    obtain ⟨hmark, hpast⟩ := hsome g hg
    exact ⟨fun hnear hclear => congrArg _ (hmark hnear hclear), fun hfar => congrArg _ (hpast hfar)⟩
  · intro n r hburn
    obtain ⟨hreturn, hrest, hmove⟩ := burnFollows_bitBurned n u
    rw [otpBurnDone_burns hburn]
    exact ⟨fun hret => congrArg _ (hreturn hret), fun hret htarget => congrArg _ (hrest hret htarget),
      fun pad hret htarget => congrArg _ (hmove pad hret htarget)⟩
  · intro n r hp hplane
    refine ⟨fun spare hspare hswap => ?_, fun slice kind hspare hret hstay => ?_⟩
    · rw [sliceSwap_swaps hp hplane hswap, modRf_sliceRotate hspare]
    · rw [sliceSwap_faults hp hplane hstay, sliceFault_first kind hspare hret]
  · intro n codes hp hruns hplane hlen hcodes hgroup
    obtain ⟨hinput, hovr⟩ := getOrx_opticalArrive n codes v
    exact ⟨_, opticalGroup_arrives hp hruns hplane hlen hcodes hgroup, hinput, hovr, opticalArrive_only n codes v⟩
  · intro path hdue x d
    obtain ⟨hgroup, hnext⟩ := getDdc_groupOut path x
    exact ⟨groupOut path x, ddcOutputGroup_leaves hdue, hgroup, hnext, groupOut_only path x⟩
  · intro path d hen hdet hfull
    have hrow := detectorWindowEnd_ends hen hdet hfull
    exact ⟨hrow, fun hring hslot => hrow.trans (congrArg Host.Outcome.next (detectorEnd_slot hring hslot))⟩

end Sys2Proof.Machine

/-! # DDC commands: frequency words

A configuration command with a wrong check fails. Of DDC.SET, either the word itself is checked, or the slot path belongs to a
running fibre and the path is what is wrong. -/

namespace Sys2Proof.Machine

/-- R398, R64: a configuration command of which a check fails completes with BADARG, as a member aborting its bunch. -/
theorem clashCommand_badArg {op : Nat} {rule : UnitRule} {wrong clash : Ctx → State → State → Checks} {absent : Ctx → State → Bool}
    {busy : Ctx → State → State → Bool} {members : Ctx → State → List Member} {result : Ctx → State → Nat} {c : Cmd} {s : State}
    (h : Sent op c s) (hchecks : badOffset (memberChecks rule wrong clash absent (ctxOf c s) (taken c s)) ≠ none) :
    ∃ off, clashCommand op rule wrong clash absent busy members result c s =
      memberFail (ctxOf c s) 2 stBadArg off (taken c s) := by
  rw [clashCommand, takeCommand_sent _ h]
  dsimp only
  split
  case h_1 off _ => exact ⟨off, rfl⟩
  case h_2 hnone => exact absurd ((badOffset_cons _ _).1 hnone).2 hchecks

/-- No check of a configuration command fails only if neither those of its entry nor, its unit being there, those on the state do. -/
theorem memberChecks_none {rule : UnitRule} {wrong clash : Ctx → State → State → Checks} {absent : Ctx → State → Bool} {x : Ctx}
    {s : State} (h : badOffset (memberChecks rule wrong clash absent x s) = none) :
    badOffset (wrong x s (planned s)) = none ∧ (absent x s = false → badOffset (clash x s (planned s)) = none) := by
  simp only [memberChecks, badOffset_append] at h
  obtain ⟨⟨-, hwrong⟩, hclash⟩ := h
  exact ⟨hwrong, fun hthere => by rwa [hthere] at hclash⟩

/-- R108: a frequency word whose 48 bits pass the check and whose upper bits are zero is at most 2^47. -/
theorem frequencyWord_le {e : Entry} (hword : decide (2 ^ 47 < fld e 16 8 % 2 ^ 48) = false)
    (hbits : badOffset (reservedBits e 16 8 (2 ^ 48 - 1)) = none) : fld e 16 8 ≤ 2 ^ 47 := by
  rw [Nat.mod_eq_of_lt ((badOffset_reservedBits_48 e 16).1 hbits)] at hword
  exact Nat.le_of_not_lt (of_decide_eq_false hword)

theorem exec_ddcSet (c : Cmd) (s : State) : exec (.ddcSet c) s = .next (ddcSet c s) := rfl

/-- Settles O16: with every check passed, the path is not held by a running fibre (R219), so the word was checked and is at most
2^47. That the word is judged before an absent unit is the model's order (log 13); the bunch aborts by R64. -/
theorem highFrequencyWordsFail : Obligations.HighFrequencyWordsFail := by
  intro c s h hthere hhigh
  rw [exec_ddcSet, ddcSet]
  refine (clashCommand_badArg h fun hnone => ?_).imp fun _ => congrArg Host.Outcome.next
  obtain ⟨hwrong, hclash⟩ := memberChecks_none hnone
  simp only [ctxOf_unit, slotHeld_taken, pathAbsent_taken] at hwrong hclash
  cases hheld : slotHeld c.unit s with
  | true =>
    have hpath := hclash (hthere hheld)
    rw [if_pos hheld] at hpath
    exact absurd hpath (by decide)
  | false =>
    rw [if_neg (by simp [hheld])] at hwrong
    simp only [badOffset_append, badOffset_cons] at hwrong
    obtain ⟨⟨⟨⟨-, hword, -⟩, hbits⟩, -⟩, -⟩ := hwrong
    exact absurd (frequencyWord_le hword hbits) (Nat.not_le.2 hhigh)

end Sys2Proof.Machine

/-! # Commands that configure the spectral tiles and the trace detectors

Each passes its checks, and `clashCommand_configures` says what it does then. -/

namespace Sys2Proof.Machine

/-! ## The rows -/

theorem exec_pipAssign (c : Cmd) (s : State) : exec (.pipAssign c) s = .next (pipAssign c s) := rfl
theorem exec_specSetFft (c : Cmd) (s : State) : exec (.specSetFft c) s = .next (specSetFft c s) := rfl
theorem exec_specSetTrace (c : Cmd) (s : State) : exec (.specSetTrace c) s = .next (specSetTrace c s) := rfl

/-! ## A write that needs nothing started (R18, R355) -/

theorem startDomains_single {w : Write} (hdomains : domainsOf w = []) (hunits : needsUnits w = false) (u : State) :
    startDomains [w] u = u := by
  simp [startDomains, wakeDomains, domainsFor, hdomains, hunits]

/-- R58: a write of its own lands once what it needs has started. -/
theorem landsStarted (w : Write) (u : State) : let v := startDomains [w] u
    each [w] (fun x s => landWrite [w] s.dt x s) v = landWrite [w] v.dt w v := rfl

/-- One that needs nothing started lands where it is taken. -/
theorem landsAlone {w : Write} (hdomains : domainsOf w = []) (hunits : needsUnits w = false) (u : State) :
    each [w] (fun v s => landWrite [w] s.dt v s) (startDomains [w] u) = landWrite [w] u.dt w u := by
  rw [landsStarted, startDomains_single hdomains hunits]

theorem landsStarted_pipStart (p : Nat) (u : State) : let v := startDomains [.pipStart p] u
    each [.pipStart p] (fun x s => landWrite [.pipStart p] s.dt x s) v = pipStartLand [.pipStart p] p v := rfl

/-! ## PIP.ASSIGN (R148) -/

/-- A start of a healthy channel that breaks no geometry starts its personality, and its RESULT is the pips that it needs. -/
theorem pipAssign_starts {c : Cmd} {s : State} (h : Sent 0x0801 c s) (hu : c.unit < 4) (hp : rfHealthy c.unit s = true)
    (haction : c.u8 16 = 1) (hz : ZeroBytes c.entry 17 64)
    (hfits : startBreaks (ctxOf c s) (taken c s) (planned (taken c s)) = false) :
    let w : Write := .pipStart c.unit
    Configures (.pipAssign c) c s [member (ctxOf c s) 3 c.unit 1 w] (pipsNeeded c.unit (applyAll [w] (planned (taken c s))))
      fun u => pipStartLand [w] c.unit (startDomains [w] u) := by
  intro w
  have hthere : rfPresent c.unit s = true := (Bool.and_eq_true_iff.1 hp).1
  refine clashCommand_configures (exec_pipAssign c s) h (unitWrong_below hu) ?_ ?_ ?_ rfl ?_ ?_
    (landsStarted_pipStart c.unit)
  · rw [badOffset_cons, ctxOf_u8, haction]
    exact ⟨rfl, (badOffset_reserved _ _ _).2 hz⟩
  · exact (badOffset_cons _ _).2 ⟨hfits, badOffset_nil⟩
  · simp [ctxOf_unit, hthere, hp]
  · rw [ctxOf_u8, haction]
    rfl
  · rw [ctxOf_u8, haction]
    rfl

/-- A stop needs only the channel to be there. -/
theorem pipAssign_stops {c : Cmd} {s : State} (h : Sent 0x0801 c s) (hu : c.unit < 4) (hp : rfPresent c.unit s = true)
    (haction : c.u8 16 = 0) (hz : ZeroBytes c.entry 17 64) :
    Configures (.pipAssign c) c s [member (ctxOf c s) 3 c.unit 1 (.pipStop c.unit)] 0
      fun u => if (getSpec c.unit u).running then rfPersonalityStop c.unit u else u := by
  have hstart : ((ctxOf c s).u8 16 == 1) = false := by rw [ctxOf_u8, haction]; rfl
  refine clashCommand_configures (exec_pipAssign c s) h (unitWrong_below hu) ?_ ?_ ?_ rfl ?_ ?_ (landsAlone rfl rfl)
  · rw [badOffset_cons, ctxOf_u8, haction]
    exact ⟨rfl, (badOffset_reserved _ _ _).2 hz⟩
  · simp [startBreaks, hstart]
  · simp [ctxOf_unit, hstart, hp]
  · rw [ctxOf_u8, haction]
    rfl
  · rw [ctxOf_u8, haction]
    rfl

/-! ## SPEC commands (Tables 7-6 and 8-5) -/

/-- R128: a selection that is not the span bins names its first bin. -/
theorem optBin_isSome {x : Ctx} {off : Nat} (h : (optBin x off).isSome = true) : x.u32 off ≠ 0xFFFFFFFF := by
  intro hspan
  rw [optBin, if_pos hspan] at h
  exact absurd h (by decide)

theorem badRing_of_data {n : Nat} {s : State} (h : notDataRing n s = false) : badRing n s = false := by simp [badRing, h]

theorem specSetFft_configures {c : Cmd} {s : State} (h : Sent 0x0901 c s) (hu : c.unit < 4) (hp : rfPresent c.unit s = true)
    (hlow : 10 ≤ c.u8 16) (hhigh : c.u8 16 ≤ 16) (hoverlap : c.u8 17 ≤ 3) (havg : 1 ≤ c.u32 20) (havgMax : c.u32 20 ≤ 16777216)
    (hbins : c.u32 24 = 0xFFFFFFFF ∨ (1 ≤ c.u32 28 ∧ c.u32 24 + c.u32 28 ≤ 2 ^ c.u8 16)) (hz : ZeroBytes c.entry 34 64)
    (hring : c.u16 32 = 0xFFFF ∨ (notDataRing (c.u16 32) s = false ∧ 64 ≤ (getRing (c.u16 32) s).entrySize))
    (hfits : (getSpec c.unit (planned (taken c s))).fft.log2N = c.u8 16 ∨
      brokenByN c.unit (2 ^ c.u8 16) (bunchPeers (ctxOf c s) (taken c s)) (planned (taken c s)) = false) :
    Configures (.specSetFft c) c s [member (ctxOf c s) 3 c.unit 1 (.specFft c.unit (fftOf (ctxOf c s)))] 0
      fun u => fftLand c.unit (fftOf (ctxOf c s)) u.dt u := by
  have hselected : (optBin (ctxOf c s) 24).isSome = true → 1 ≤ c.u32 28 ∧ c.u32 24 + c.u32 28 ≤ 2 ^ c.u8 16 :=
    fun hsome => hbins.resolve_left (optBin_isSome hsome)
  refine clashCommand_configures (exec_specSetFft c s) h (unitWrong_below hu) ?_ ?_ ?_ rfl rfl rfl (landsAlone rfl rfl)
  · simp only [badOffset_append, badOffset_cons, badOffset_nil, badOffset_reserved, Bool.or_eq_false_iff, Bool.and_eq_false_imp,
      decide_eq_false_iff_not, beq_eq_false_iff_ne]
    simp only [ctxOf_u8, ctxOf_u32, ctxOf_e]
    refine ⟨⟨⟨⟨by omega, by omega⟩, fun hsome => ?_⟩, by omega, ⟨by omega, by omega⟩, fun hsome => ?_, trivial⟩, hz⟩
    · obtain ⟨hsome, hin⟩ := hselected hsome
      omega
    · obtain ⟨hsome, -⟩ := hselected hsome
      omega
  · simp only [badOffset_cons, badOffset_nil, ctxOf_u8, ctxOf_u16, ctxOf_unit, badRing_taken, thinRing_taken,
      Bool.or_eq_false_iff, Bool.and_eq_false_imp, bne_iff_ne, and_true]
    refine ⟨fun hchange => hfits.resolve_left hchange, ?_⟩
    rcases hring with hnone | ⟨hdata, hwide⟩
    · simp [badRing, thinRing, hnone]
    · exact ⟨badRing_of_data hdata, by simp [thinRing, hwide]⟩
  · simp [ctxOf_unit, hp]

theorem specSetWindow_configures {c : Cmd} {s : State} (h : Sent 0x0902 c s) (hu : c.unit < 4) (hp : rfPresent c.unit s = true)
    (hwindow : c.u8 16 ≤ 4) (hz : ZeroBytes c.entry 17 64) :
    Configures (.specSetWindow c) c s [member (ctxOf c s) 3 c.unit 1 (.specWindow c.unit (c.u8 16))] 0
      fun u => windowLand c.unit (c.u8 16) u.dt u := by
  refine memberCommand_configures (exec_specSetWindow c s) h (unitWrong_below hu) ?_ ?_ rfl rfl rfl (landsAlone rfl rfl)
  · rw [badOffset_cons]
    exact ⟨decide_eq_false (Nat.not_lt.2 hwindow), (badOffset_reserved _ _ _).2 hz⟩
  · simp [ctxOf_unit, hp]

theorem specSetTrace_configures {c : Cmd} {s : State} (h : Sent 0x0903 c s) (hu : c.unit < 4) (hp : rfPresent c.unit s = true)
    (hindex : c.u8 16 ≤ 3) (hdet : c.u8 17 ≤ 7) (hbpp : 1 ≤ c.u8 18) (hbppMax : c.u8 18 ≤ 64) (hhold : c.u8 19 ≤ 1)
    (hheld : c.u8 19 = 1 → c.u8 17 ≤ 2) (hpoints : 1 ≤ c.u16 24) (hpointsMax : c.u16 24 ≤ 8192) (hlen : 1 ≤ c.u32 28)
    (hlenMax : c.u32 28 ≤ 16777216) (hz : ZeroBytes c.entry 34 64) (hring : badRing (c.u16 32) s = false)
    (hfits : binsFit (frameLen (getSpec c.unit (planned (taken c s))).fft) (optBin (ctxOf c s) 20) (c.u16 24 * c.u8 18) = true)
    (hlimit : limitStale (ctxOf c s) (taken c s) (planned (taken c s)) = false) :
    Configures (.specSetTrace c) c s [member (ctxOf c s) 5 c.unit 1 (.specTrace c.unit (c.u8 16) (traceOf (ctxOf c s)))] 0
      fun u => traceLand c.unit (c.u8 16) (traceOf (ctxOf c s)) u := by
  refine clashCommand_configures (exec_specSetTrace c s) h (unitWrong_below hu) ?_ ?_ ?_ rfl rfl rfl (landsAlone rfl rfl)
  · simp only [badOffset_append, badOffset_cons, badOffset_nil, badOffset_reserved, Bool.or_eq_false_iff, Bool.and_eq_false_imp,
      decide_eq_false_iff_not, beq_iff_eq, Nat.not_lt]
    exact ⟨⟨hindex, ⟨hdet, hheld⟩, ⟨Nat.ne_of_gt hbpp, hbppMax⟩, hhold, ⟨Nat.ne_of_gt hpoints, hpointsMax⟩,
      ⟨Nat.ne_of_gt hlen, hlenMax⟩, trivial⟩, hz⟩
  · simp only [badOffset_cons, badOffset_nil, ctxOf_u8, ctxOf_u16, ctxOf_unit, badRing_taken]
    rw [hfits]
    exact ⟨rfl, hlimit, hring, trivial⟩
  · simp [ctxOf_unit, hp]

/-- Settles O33, command by command: the settings stated are `fftOf` and `traceOf` of the entry, and a trace lands by
`traceLand`. -/
theorem spectralConfigures : Obligations.SpectralConfigures :=
  ⟨fun _ _ => pipAssign_starts, fun _ _ => pipAssign_stops, fun _ _ => specSetFft_configures, fun _ _ => specSetWindow_configures,
    fun _ _ => specSetTrace_configures⟩

end Sys2Proof.Machine

/-! # The rows of pips, spectra, bloom, triggers and captures

Most rows are one operation of their block under its condition; the operations come first, each with the case its row meets. -/

namespace Sys2Proof.Machine

/-! ## The rows -/

theorem exec_pipFrameDone (t : DT) (p : Nat) (upset : List (Int × Int)) (s : State) :
    exec (.pipFrameDone t p upset) s = execPipFrameDone t p upset s := rfl
theorem exec_pipRecomputeDone (t : DT) (n : Nat) (poisoned : Bool) (s : State) :
    exec (.pipRecomputeDone t n poisoned) s = .next (each [0, 1, 2, 3] pump (pipRepaired n poisoned (advance t s))) := rfl
theorem exec_bloomDecay (t : DT) (m : Nat) (s : State) :
    exec (.bloomDecay t m) s = .next (modBloom m settleDecay (advance t s)) := rfl
theorem exec_captureOverflow (t : DT) (k : Nat) (s : State) : exec (.captureOverflow t k) s = .next (capLost k (advance t s)) := rfl

/-! ## A record leaves the units as they are (R143, R330) -/

@[simp] theorem blocks_drop (n cause : Nat) (s : State) : blocks (drop n cause s) = blocks s := by
  unfold drop
  dsimp only
  split
  · split
    · simp [reportDrops]
    · rfl
  · simp [reportDrops]

@[simp] theorem blocks_writeRecord (n : Nat) (bs : List Byte) (s : State) : blocks (writeRecord n bs s) = blocks s := by
  unfold writeRecord
  dsimp only
  split
  · rfl
  · split
    · rw [blocks_publishMany, blocks_each _ _ fun c u => blocks_storeAt _ _ _ u]
    · exact blocks_drop n 1 s

@[simp] theorem getTrig_writeRecord (n p : Nat) (bs : List Byte) (s : State) : getTrig p (writeRecord n bs s) = getTrig p s :=
  (congrArg (getTrig p) (blocks_writeRecord n bs s) :)

/-! ## Frames (R132, R144) -/

/-- R132, R144: a complete frame joins those that wait to leave, or the Parseval check finds its pip at fault. -/
theorem frameDone_complete {p : Nat} {v : State} (upset : List (Int × Int)) : let g := getSpec p v
    let m := nextDealt (g.missing ++ g.lost) 64 g.completed
    let w := modSpec p (fun x => { x with completed := m + 1 }) v
    framesRun p v = true → planeRuns v = true → frameComplete p m v = true →
    frameDone p upset v = if parsevalFails (frameDataOf p m upset w) = true
      then pipFaulted (pipOf g m) 1 (modSpec p (fun x => { x with missing := x.missing ++ [m] }) w)
      else modSpec p (fun x => { x with waiting := x.waiting ++ [(m, pipOf g m, 0, upset)] }) w := by
  intro g m w hrun hplane hwhole
  exact if_pos (Bool.and_eq_true_iff.2 ⟨Bool.and_eq_true_iff.2 ⟨hrun, hplane⟩, hwhole⟩)

/-! ## Averaging blocks (R139, R140) -/

theorem averageDue_seen {x : Spectral} (h : averageDue x = true) : x.seen ≠ 0 := by
  simp only [averageDue, Bool.and_eq_true, decide_eq_true_eq] at h
  exact Nat.ne_of_gt h.1

/-- R139: the record of the running block. -/
def averageBytes (p : Nat) (u : State) : List Byte :=
  let x := getSpec p u
  let r := selected x.fft
  spectrumRecord p x.fft x.avgInfo (portDt p x.firstDt.toNat u) x.firstSeq
    (blockFlags x.avgFlags x.summed x.fft.avg x.accSat) x.summed x.lastPip ((List.range r.2).map fun i =>
      if x.summed = 0 then below
      else averagedLevel (x.acc.getD (r.1 + i) 0) x.summed x.avgInfo.shift (x.avgTerms.getD (r.1 + i) 0))

/-- R139: a block begins anew. -/
def averageAnew (p : Nat) : State → State :=
  modSpec p fun x => { x with seen := 0, summed := 0, avgFlags := 0, accSat := false, acc := [], avgTerms := [] }

theorem endAverage_seen {p : Nat} {u : State} (h : (getSpec p u).seen ≠ 0) : let x := getSpec p u
    endAverage p u = (if x.limitStopped then none else some (x.firstDt, averageBytes p u),
      averageAnew p (if x.limitStopped then u else writeRecord x.fft.ring (averageBytes p u) u)) := if_neg h

theorem averageEnd_writes {p : Nat} {u : State} (h : (getSpec p u).seen ≠ 0) (hgo : (getSpec p u).limitStopped = false) :
    let x := getSpec p u
    averageEnd p u = capSpectrum p x.avgInfo.f x.firstDt (averageBytes p u)
      (averageAnew p (writeRecord x.fft.ring (averageBytes p u) u)) := by
  intro x
  rw [averageEnd, endAverage_seen h, hgo]
  rfl

/-- R183: output that a limit violation stopped writes no record. -/
theorem averageEnd_stopped {p : Nat} {u : State} (h : (getSpec p u).seen ≠ 0) (hstop : (getSpec p u).limitStopped = true) :
    averageEnd p u = averageAnew p u := by
  rw [averageEnd, endAverage_seen h, hstop]
  rfl

/-! ## Trace blocks (R166, R168) -/

theorem traceDue_seen {x : Spectral} {tr : Trace} (h : traceDue x tr = true) : tr.seen ≠ 0 := by
  simp only [traceDue, Bool.and_eq_true, decide_eq_true_eq] at h
  exact Nat.ne_of_gt h.1

theorem limitTest_none {p : Nat} {u : State} (i : Nat) (values : List Int) (flags : Nat) (dt : DT) (seq : Nat)
    (h : (getTrig p u).limit = none) : limitTest p i values flags dt seq u = u := by
  rw [limitTest, h]

/-- R166: without a limit test the end of a block is its record and the block begun anew. -/
theorem traceEnd_untested {p i : Nat} {u : State} (hseen : (tget {} (getSpec p u).traces i).seen ≠ 0)
    (hlimit : (getTrig p u).limit = none) : traceEnd p i u = (endTrace p i u).2.2 := by
  rw [traceEnd]
  dsimp only
  rw [if_neg hseen]
  refine limitTest_none _ _ _ _ _ ?_
  unfold endTrace
  dsimp only
  rw [getTrig_modSpec]
  split
  · exact hlimit
  · rw [getTrig_writeRecord, hlimit]

/-! ## Faults of pips (R144, R353, R356) -/

/-- Table 3-5: a fault that touches no claim aborts no bunch. -/
theorem abortOnFault_nil (cls : Nat) (s : State) : abortOnFault cls [] s = s := by
  have hnone : (s.bunch.table.filter fun b => (b.2.state == .opened || b.2.state == .arming) &&
      (bunchClaims b.1 s).any ([] : List Claim).contains) = [] := by
    simp [List.filter_eq_nil_iff]
  rw [abortOnFault, hnone]
  split
  · rfl
  · rfl

/-- The open fault records are these. -/
def withFaults (l : List FaultRecord) (u : State) : State := { u with health := { u.health with faults := l } }

theorem withFaults_same {l : List FaultRecord} {u : State} (h : u.health.faults = l) : withFaults l u = u := by
  subst h
  rfl

/-- R356: the record that a lone fault opens. -/
def loneRecord (cls cause unit pers outcome : Nat) (u : State) : FaultRecord :=
  { opened := u.dt, closed := 0, cls := cls, cause := cause, unit := unit, state := 0, outcome := outcome
    personality := if pers < 6 then pers else 0xFF, nest := 1, spare := none }

/-- R356: with no record open and nothing halting, a fault that touches no claim is taken up at once. -/
theorem faultArrive_lone {cls unit pers : Nat} {u : State} (cause outcome : Nat) (hfaults : u.health.faults = [])
    (hhalting : u.health.halting = []) : faultArrive cls cause unit pers outcome [] u =
      runRecords 5 (withFaults [loneRecord cls cause unit pers outcome u] u) := by
  have hcalm : stormHalts pers u = false := by rw [stormHalts, hhalting]; rfl
  rw [faultArrive]
  dsimp only
  rw [abortOnFault_nil, hcalm, hfaults]
  rfl

theorem runRecords_nil (k : Nat) {u : State} (h : u.health.faults = []) : runRecords k u = u := by
  cases k with
  | zero => rfl
  | succ k => rw [runRecords, h]

/-- R356: a pip's record that its handling finishes closes, and the next is taken up. -/
theorem runRecords_finished {o : Nat} {u v : State} {r : FaultRecord} {rest : List FaultRecord} (k : Nat) (hnew : r.state = 0)
    (hcls : r.cls = 1) (hdone : handlePip r.unit r.cause (withFaults ({ r with state := 1 } :: rest) u) = (some o, v)) :
    runRecords (k + 1) (withFaults (r :: rest) u) = runRecords k (closeRecord r.cls r.unit o v) := by
  rw [runRecords]
  dsimp only [withFaults] at hdone ⊢
  rw [if_pos hnew, if_pos hcls, hdone]

/-- R356: a record joins the closed ones. -/
def recordClosed (r : FaultRecord) (outcome : Nat) (u : State) : State :=
  { u with health := { u.health with
    closedFaults := ({ r with state := 2, outcome := outcome, closed := u.dt } :: u.health.closedFaults).take 64 } }

theorem closeRecord_only (r : FaultRecord) (outcome : Nat) (u : State) :
    closeRecord r.cls r.unit outcome (withFaults [r] u) = recordClosed r outcome (withFaults [] u) := by
  simp [closeRecord, withFaults, recordClosed]

/-- R353: a pip goes into test with a strike. -/
def pipToTest (n : Nat) (u : State) : State :=
  modPip n (fun c => { c with state := .inTest, personality := 0xF, strike := some u.dt }) u

theorem struckPip_first {n : Nat} {u : State} (cause : Nat) (h : (getPip n u).strike = none) :
    struckPip n cause u = pipToTest n u := by
  rw [struckPip, h]
  rfl

/-- R353: the fault of a pip that no personality has is repaired at once. -/
theorem handlePip_idle {n : Nat} {u : State} (cause : Nat) (h : (getPip n u).personality = 0xF) :
    handlePip n cause u = (some outRepaired, struckPip n cause u) := by
  rw [handlePip, h]
  rfl

/-- R353, R356: the first fault of an idle pip is recorded and closed, and the pip goes into test. -/
theorem pipFaulted_idle {n : Nat} {u : State} (cause : Nat) (hidle : (getPip n u).personality = 0xF)
    (hstrike : (getPip n u).strike = none) (hfaults : u.health.faults = []) (hhalting : u.health.halting = []) :
    pipFaulted n cause u = recordClosed (loneRecord 1 cause n 0xF 0 u) outRepaired (pipToTest n u) := by
  let r : FaultRecord := loneRecord 1 cause n 0xF 0 u
  let handled : FaultRecord := { r with state := 1 }
  have hhandled : handlePip n cause (withFaults [handled] u) = (some outRepaired, withFaults [handled] (pipToTest n u)) := by
    rw [handlePip_idle (u := withFaults [handled] u) cause hidle, struckPip_first (u := withFaults [handled] u) cause hstrike]
    rfl
  rw [pipFaulted, hidle]
  calc faultArrive 1 cause n 0xF 0 [] u
      = runRecords 5 (withFaults [r] u) := faultArrive_lone cause 0 hfaults hhalting
    _ = runRecords 4 (closeRecord 1 n outRepaired (withFaults [handled] (pipToTest n u))) := runRecords_finished 4 rfl rfl hhandled
    _ = runRecords 4 (recordClosed handled outRepaired (withFaults [] (pipToTest n u))) :=
      congrArg (runRecords 4) (closeRecord_only handled outRepaired _)
    _ = recordClosed handled outRepaired (withFaults [] (pipToTest n u)) := runRecords_nil 4 rfl
    _ = recordClosed r outRepaired (pipToTest n u) := congrArg (recordClosed r outRepaired) (withFaults_same hfaults)

/-- R144: nothing is recomputed for a pip that no open record replaces. -/
theorem pipRepaired_none {n : Nat} {u : State} (poisoned : Bool)
    (h : (u.health.faults.find? fun r => r.cls == 1 && r.unit == n && r.state == 1 && r.spare.isSome) = none) :
    pipRepaired n poisoned u = u := by
  rw [pipRepaired, h]

/-- R144, R149: the spare of an RF pip hands over the frames it recomputed, the repair is reported, and the failed pip is
struck. -/
theorem pipRepaired_rf {n k : Nat} {u : State} {r : FaultRecord} (poisoned : Bool)
    (h : (u.health.faults.find? fun r => r.cls == 1 && r.unit == n && r.state == 1 && r.spare.isSome) = some r)
    (hspare : r.spare = some k) (hrf : r.personality < 4) : let p := r.personality
    let due := (getSpec p u).missing.filter fun m => pipOf (getSpec p u) m == k
    let v := modSpec p (fun x => { x with
      missing := x.missing.filter fun m => !due.contains m
      waiting := x.waiting ++ due.map fun m => (m, k, 256 + 128 * b2n poisoned, []) }) u
    pipRepaired n poisoned u = finishRecord 1 n 1 (struckPip n r.cause
      (eventAt r.opened 0x0801 1 p [(16, 1, p), (17, 1, n), (18, 1, k), (19, 1, due.length), (20, 8, due.headD 0),
        (28, 2, sat 2 ((due.map fun m => (u.dt.toNat - frameDue p m u) / tkUs).foldl max 0)), (30, 1, r.cause)]
        { v with health := { v.health with pipRepairs := v.health.pipRepairs + 1 } })) := by
  intro p due v
  rw [pipRepaired, h]
  dsimp only
  rw [if_pos hrf, hspare]
  rfl

/-! ## The bloom (R153 to R164) -/

/-- R156: within a pass the oldest waiting spectrum reaches the maps of its personality. -/
theorem bloomServe_within {p : Nat} {v : State} {q : Nat × Spectrum} {rest : List (Nat × Spectrum)}
    (hqueue : (getSpec p v).queue = q :: rest) (hpass : bloomFresh v ≠ []) :
    bloomServe p v = each (mapsOf p v) (fun k => mapIngest k q.2 (Nat.log2 q.2.levels.length))
      (modSpec p (fun x => { x with queue := rest, served := true }) v) := by
  rw [bloomServe, if_neg hpass, hqueue]

theorem settleDecay_owed {b : BloomMap} (h : b.owed = true) : settleDecay b = { b with
    cells := (b.cells.map fun c => (c.1, c.2 * b.cfg.gain / 65536)).filter fun c => c.2 != 0
    decays := b.decays + 1, owed := false } := if_pos h

/-- R159: a decay makes no snapshot due or undue. -/
@[simp] theorem snapshotDue_settleDecay (b : BloomMap) : snapshotDue (settleDecay b) = snapshotDue b := by
  unfold settleDecay
  split
  · rfl
  · rfl

/-- R161, R164: a snapshot that is due is written after the decay. -/
theorem mapBoundary_due {m : Nat} {v : State} (cleared : Bool) (h : snapshotDue (getBloom m v) = true) :
    let w := modBloom m (fun b => { b with snapAt := b.spectra }) (modBloom m settleDecay v)
    mapBoundary m cleared v = writeRecord (getBloom m w).cfg.snapRing (snapshotBytes m cleared w) w := by
  have hstill : snapshotDue (getBloom m (modBloom m settleDecay v)) = true := by
    rw [getBloom_modBloom, snapshotDue_settleDecay, h]
  exact if_pos hstill

/-! ## Edges of TRIG_IN (R177) -/

/-- R177: an edge 64 tk or more after the last accepted one, or the first, is accepted. -/
theorem trigInStamp_accepts {line : Nat} {u : State} (edge : Nat)
    (h : ∀ d, tget none u.trigIn line = some d → ¬ (u.dt.toNat < d.toNat + 64 ∧ dtLe d u.dt = true)) :
    trigInStamp line edge u = trigInStamp.accept line edge u := by
  rw [trigInStamp]
  split
  next d hd => exact if_neg (h d hd)
  next => rfl

theorem trigInStamp_merges {line : Nat} {u : State} {d : DT} (edge : Nat) (hlast : tget none u.trigIn line = some d)
    (hnear : u.dt.toNat < d.toNat + 64) (hafter : dtLe d u.dt = true) :
    trigInStamp line edge u = lineMerge (0x10 + line) u := by
  rw [trigInStamp, hlast]
  exact if_pos ⟨hnear, hafter⟩

/-! ## The sequencer (R179, R180) -/

/-- R180: a sequencer with steps evaluates the ripe events in ascending DT and keeps the others. -/
theorem seqEvaluate_steps {p : Nat} {u : State} (h : (getTrig p u).seq.steps ≠ []) :
    let ripe := fun (e : TrigEvent) => decide (e.dt.toNat ≤ u.dt.toNat - seqLat p u)
    let sorted := ((getTrig p u).events.filter ripe).foldl (fun l e => insertEvent e l) []
    seqEvaluate p u = each (groupEvents sorted) (seqGroup p)
      (modTrig p (fun x => { x with events := x.events.filter fun e => !ripe e }) u) := by
  intro ripe sorted
  refine if_neg ?_
  rw [getTrig_modTrig]
  exact h

theorem toNat_dtAdd_zero (n : Nat) : (dtAdd 0 n).toNat = n % 2 ^ 64 := by simp [dtAdd]

/-- The sequencer stands at step 0 with nothing counted. -/
def SeqAtHome (x : TrigUnit) : Prop := x.step = 0 ∧ x.count = 0

/-- R179: a later step whose TIMEOUT has passed returns to step 0. -/
theorem seqTimeouts_passed {dt : DT} {x : TrigUnit} {e : StepCfg} (hstep : x.step ≠ 0) (he : x.seq.steps[x.step]? = some e)
    (htime : e.timeout ≠ 0) (hpast : x.entered.toNat + e.timeout ≤ dt.toNat) : SeqAtHome (seqTimeouts dt x) := by
  have htimeout : stepTimeout x = e.timeout := by rw [stepTimeout, he]; rfl
  have hdue : x.step ≠ 0 ∧ e.timeout ≠ 0 ∧ x.entered.toNat + e.timeout ≤ dt.toNat := ⟨hstep, htime, hpast⟩
  rw [seqTimeouts, htimeout, if_pos hdue]
  split
  · exact ⟨rfl, rfl⟩
  · exact ⟨rfl, rfl⟩

theorem sequencerStepTimeout_armed {t : DT} {p : Nat} {s : State} : let v := seqEvaluate p (advance t s)
    (getTrig p v).armed = true →
    exec (.sequencerStepTimeout t p) s = .next (modTrig p (seqTimeouts (dtAdd 0 (seqUpTo p v))) v) :=
  fun harmed => congrArg Host.Outcome.next (if_pos harmed)

/-! ## Captures (R183 to R191) -/

/-- R186: the running record ends: it is kept, EV_CAP_DONE is posted, and the capture stops or goes on. -/
def capEnded (k extra : Nat) (goOn : Bool) (u : State) : State :=
  let c := getCap k u
  let r := capRecord k extra u
  let last := (r.units.getLast?.map (·.1)).getD u.dt
  eventAt last 0x0C01 0 k [(16, 1, k), (17, 1, c.segment), (18, 2, r.flags), (24, 8, r.units.length)]
    (modCap k (fun c => capNext { c with records := tput {} c.records c.segment r } last goOn) u)

theorem capEnd_running {k : Nat} {u : State} (extra : Nat) (goOn : Bool) (h : (getCap k u).phase = 1 ∨ (getCap k u).phase = 2) :
    capEnd k extra goOn u = capEnded k extra goOn u := if_pos h

section
variable {t : DT} {s : State} {k : Nat}

theorem captureEnd_posted (hphase : (getCap k (advance t s)).phase = 2) (hpost : postDone (getCap k (advance t s)) = true) :
    exec (.captureEnd t k) s = .next (capEnded k 0 true (advance t s)) := by
  refine congrArg Host.Outcome.next ((if_pos ⟨hphase, hpost⟩).trans ?_)
  exact capEnd_running 0 true (.inr hphase)

/-- R183: a record that a limit violation cut ends with what it has. -/
theorem captureEnd_cut {d : DT} (hphase : (getCap k (advance t s)).phase = 1 ∨ (getCap k (advance t s)).phase = 2)
    (hpost : postDone (getCap k (advance t s)) = false) (hstop : (getCap k (advance t s)).stopAt = some d)
    (hpast : dtLe d (advance t s).dt = true) :
    exec (.captureEnd t k) s = .next (capEnded k 128 false (advance t s)) := by
  have hcut : capCut (getCap k (advance t s)) (advance t s) = true := by rw [capCut, hstop]; exact hpast
  refine congrArg Host.Outcome.next ((if_neg fun h => ?_).trans ((if_pos hcut).trans (capEnd_running 128 false hphase)))
  exact absurd (hpost.symm.trans h.2) Bool.false_ne_true

theorem captureOverflow_lost (hphase : (getCap k (advance t s)).phase = 1 ∨ (getCap k (advance t s)).phase = 2) :
    let u := advance t s
    let c := getCap k u
    let last := (c.units.head?.map (·.1)).getD u.dt
    exec (.captureOverflow t k) s =
      .next (eventAt last 0x0C02 2 k [(16, 1, k), (17, 1, c.segment), (24, 8, last.toNat)] (capEnded k 32 false u)) := by
  intro u c last
  rw [exec_captureOverflow, ← capEnd_running 32 false hphase]
  exact congrArg Host.Outcome.next (if_pos hphase)

end

/-! ## The rows together -/

/-- Settles O50, row by row. How late a source may deliver (log 27), where a decay starts (log 66) and whose turn it is with the
bloom (log 71) are the model's choices. -/
theorem spectralEvents : Obligations.SpectralEvents := by
  intro t s u
  refine ⟨?_, ?_, ?_, ?_, ?_, ?_, ?_, ?_, ?_, ?_, ?_, ?_, ?_⟩
  · intro p upset hp v g m w hrun hplane hwhole
    rw [exec_pipFrameDone, execPipFrameDone, if_pos hp, frameDone_complete upset hrun hplane hwhole]
  · intro p x hdue r bytes anew
    have hrow : exec (.averagingBlockEnd t p) s = .next (averageEnd p u) := congrArg Host.Outcome.next (if_pos hdue)
    rw [hrow]
    exact ⟨fun hgo => congrArg Host.Outcome.next (averageEnd_writes (averageDue_seen hdue) hgo),
      fun hstop => congrArg Host.Outcome.next (averageEnd_stopped (averageDue_seen hdue) hstop)⟩
  · intro p i x tr hdue hlimit bytes
    have hrow : exec (.traceBlockEnd t p i) s = .next (traceEnd p i u) := congrArg Host.Outcome.next (if_pos hdue)
    rw [hrow, traceEnd_untested (traceDue_seen hdue) hlimit]
    rfl
  · intro n cause hhealthy hlow hhigh
    have hrow : exec (.pipFault t n cause) s = .next (pipFaulted n cause u) := congrArg Host.Outcome.next (if_pos ⟨hhealthy, hlow, hhigh⟩)
    refine ⟨hrow, fun hidle hstrike hfaults hhalting => ?_⟩
    rw [hrow, pipFaulted_idle cause hidle hstrike hfaults hhalting]
    rfl
  · intro n poisoned mine
    rw [exec_pipRecomputeDone]
    refine ⟨fun hnone => ?_, fun r k hmine hspare hrf => ?_⟩
    · rw [pipRepaired_none poisoned hnone]
    · rw [pipRepaired_rf poisoned hmine hspare hrf]
  · intro p q rest v hqueue hturn hpass
    rw [← bloomServe_within hqueue hpass]
    exact congrArg Host.Outcome.next (if_pos hturn)
  · intro m howed
    refine ⟨_, exec_bloomDecay t m s, ?_, fun k hk => getBloom_modBloom_other m k _ _ hk, rfl⟩
    rw [getBloom_modBloom, settleDecay_owed howed]
  · exact fun m hdecaying howed => congrArg Host.Outcome.next (if_pos ⟨hdecaying, howed⟩)
  · intro m v hdue w
    rw [← mapBoundary_due _ hdue]
    exact congrArg Host.Outcome.next (if_pos hdue)
  · intro line hline hpower falling
    have hrow : exec (.trigInEdge t line falling) s = .next (trigInStamp line (b2n (!falling)) u) :=
      congrArg Host.Outcome.next (if_pos ⟨hline, rfl, hpower⟩)
    refine ⟨fun hfirst => ?_, fun d hlast hnear hafter => ?_, congrArg Host.Outcome.next (if_neg fun h => ?_)⟩
    · rw [hrow, trigInStamp_accepts _ hfirst]
      rfl
    · rw [hrow, trigInStamp_merges _ hlast hnear hafter]
    · exact Bool.not_ne_self _ h.2.1
  · exact fun p hsteps => congrArg Host.Outcome.next (seqEvaluate_steps hsteps)
  · intro p v harmed upTo
    refine ⟨_, sequencerStepTimeout_armed harmed, rfl, fun e hstep he htime hpast => ?_⟩
    rw [getTrig_modTrig]
    refine seqTimeouts_passed hstep he htime (hpast.trans_eq (toNat_dtAdd_zero _).symm)
  · intro k c ended
    exact ⟨captureEnd_posted, fun hphase hpost d hstop hpast => captureEnd_cut hphase hpost hstop hpast, captureOverflow_lost⟩

end Sys2Proof.Machine

/-! # BLOOM.READ under a clear that is due

A snapshot without READ_CLEAR is taken of the map as it stands. Its header still says CLEARED (Table 8-1) where a changed setting
of the personality has a clear of the map fall due at that boundary (R162). -/

namespace Sys2Proof.Machine

theorem exec_bloomRead (c : Cmd) (s : State) : exec (.bloomRead c) s = .next (bloomRead c s) := rfl

/-- R159: a decay leaves the settings of its map. -/
@[simp] theorem settleDecay_cfg (b : BloomMap) : (settleDecay b).cfg = b.cfg := by
  unfold settleDecay
  split
  · rfl
  · rfl

/-- R163, R164: BLOOM.READ with READ_CLEAR = 0, of a map that is set, writes its snapshot at once, after a decay that is due. Its
header says whether a clear follows. -/
theorem bloomRead_answers {c : Cmd} {s : State} (h : Sent 0x0A03 c s) (hal : Alone c.unit c) (hu : c.unit < 4)
    (hset : (getBloom c.unit s).set = true) (hkeep : c.u8 24 = 0) (hz : ZeroBytes c.entry 25 64) :
    let u := modBloom c.unit settleDecay (taken c s)
    exec (.bloomRead c) s = .next (done c s (snapshotLen (getBloom c.unit s).cfg)
      (toHost (c.u64 16) (snapshotBytes c.unit (clearFollows c.unit u) u) u)) := by
  intro u
  have hchecks : badOffset (envelope false (.below 4) (ctxOf c s) ++
      ([(10, !(getBloom (ctxOf c s).unit (taken c s)).set)] ++ reserved (ctxOf c s).e 25 64)) = none := by
    simp [envelope_alone s hal (unitWrong_below hu), ctxOf_unit, hset, hz]
  have hcfg : (getBloom c.unit u).cfg = (getBloom c.unit s).cfg := by
    rw [getBloom_modBloom, settleDecay_cfg, getBloom_taken]
  rw [exec_bloomRead, bloomRead, if_pos hkeep, takeCommand_sent _ h, bloomReadNow]
  dsimp only
  rw [hchecks, ← hcfg]
  rfl

/-- Bloom map 0 is set on personality 0, of which a setting changed at DT 0: the map is cleared at the first spectrum from then
on. No spectrum waits. Korsyn runs, and ring 0 holds a command. -/
def clearWaits : State :=
  { steward := { running := true }
    rings := [(0, { created := true, kind := .command, pair := 1, prod := 1 }), (1, { created := true, kind := .completion })]
    bloom := [(0, { set := true, clearDue := [(1, 0)] })] }

/-- BLOOM.READ of map 0 to host address 64, with READ_CLEAR = 0. -/
def readMap : Cmd := { t := 0, ring := 0, entry := BitVec.ofNat 512 (0x0A03 + 0xFFFF * 2 ^ 64 + 64 * 2 ^ 128) }

/-- The map at the boundary that stands as the command is taken. -/
def boundaryMap : State := modBloom readMap.unit settleDecay (taken readMap clearWaits)

/-- The answer to `readMap` with a snapshot that says whether a clear follows. -/
def readAnswer (cleared : Bool) : State :=
  done readMap clearWaits (snapshotLen (getBloom readMap.unit clearWaits).cfg)
    (toHost (readMap.u64 16) (snapshotBytes readMap.unit cleared boundaryMap) boundaryMap)

/-- FLAGS of the snapshot at host address 64 (Table 8-1). -/
def snapshotFlags (s : State) : Byte := readByte s.host (64 + 60)

theorem zeroBytes_readMap : ZeroBytes readMap.entry 12 16 ∧ ZeroBytes readMap.entry 25 64 := by
  constructor
  all_goals
    intro i hfirst hlast
    interval_cases i <;> decide +kernel

/-- R162: the clear falls due at that boundary. -/
theorem clearFollows_boundaryMap : clearFollows readMap.unit boundaryMap = true := by decide +kernel

/-- Bit 2 of FLAGS is CLEARED. -/
theorem snapshotFlags_readAnswer : snapshotFlags (readAnswer false) = 0 ∧ snapshotFlags (readAnswer true) = 4 := by
  decide +kernel

/-- Refutes O34, in its clause of BLOOM.READ with READ_CLEAR = 0: of `clearWaits` it says that the snapshot has CLEARED 0, where the
row sets it, for a clear is due at the boundary of the snapshot. The clause lacks the premise that none is; with it the clause is
`bloomRead_answers`. -/
theorem not_bloomConfigures : ¬ Obligations.BloomConfigures := by
  rintro ⟨-, -, -, -, hread⟩
  obtain ⟨hcommand, hfields⟩ := zeroBytes_readMap
  have hsent : Sent 0x0A03 readMap clearWaits := ⟨by decide +kernel, by decide +kernel⟩
  have halone : Alone readMap.unit readMap := ⟨by decide +kernel, by decide +kernel, rfl, hcommand⟩
  have hunit : readMap.unit < 4 := by decide +kernel
  have hset : (getBloom readMap.unit clearWaits).set = true := by decide +kernel
  have hkeep : readMap.u8 24 = 0 := by decide +kernel
  have hstated : exec (.bloomRead readMap) clearWaits = .next (readAnswer false) :=
    hread readMap clearWaits hsent halone hunit hset hkeep hfields
  have hrow : exec (.bloomRead readMap) clearWaits = .next (readAnswer (clearFollows readMap.unit boundaryMap)) :=
    bloomRead_answers hsent halone hunit hset hkeep hfields
  rw [clearFollows_boundaryMap] at hrow
  have hsame : readAnswer false = readAnswer true := Host.Outcome.next.inj (hstated.symm.trans hrow)
  obtain ⟨hclear, hcleared⟩ := snapshotFlags_readAnswer
  rw [hsame, hcleared] at hclear
  exact absurd hclear (by decide)

end Sys2Proof.Machine

/-! # Commands that configure the trigger units and the captures

Each is one write of one weight that needs nothing started, so it lands where it is taken: `clashCommand_writes`. What is left of a
command is that each field passes its check, field by field. -/

namespace Sys2Proof.Machine

/-- A configuration command of one write that needs nothing started, with every check passed, configures by the landing of that
write. -/
theorem clashCommand_writes {op : Nat} {rule : UnitRule} {wrong clash : Ctx → State → State → Checks}
    {absent : Ctx → State → Bool} {members : Ctx → State → List Member} {c : Cmd} {s : State} {i : Instr} {cls inst : Nat} {w : Write}
    (hi : exec i s = .next (clashCommand op rule wrong clash absent neverBusy members noResult c s))
    (h : Sent op c s) (hu : unitWrong rule c.unit = false)
    (hw : badOffset (wrong (ctxOf c s) (taken c s) (planned (taken c s))) = none)
    (hc : badOffset (clash (ctxOf c s) (taken c s) (planned (taken c s))) = none)
    (ha : absent (ctxOf c s) (taken c s) = false)
    (hm : members (ctxOf c s) (taken c s) = [member (ctxOf c s) cls inst 1 w])
    (hdomains : domainsOf w = []) (hunits : needsUnits w = false) :
    Configures i c s [member (ctxOf c s) cls inst 1 w] 0 fun u => landWrite [w] u.dt w u :=
  clashCommand_configures hi h hu hw hc ha rfl hm rfl (landsAlone hdomains hunits)

/-- The same for one with no check but those of its entry. -/
theorem memberCommand_writes {op : Nat} {rule : UnitRule} {wrong : Ctx → State → State → Checks} {absent : Ctx → State → Bool}
    {members : Ctx → State → List Member} {c : Cmd} {s : State} {i : Instr} {cls inst : Nat} {w : Write}
    (hi : exec i s = .next (memberCommand op rule wrong absent neverBusy members noResult c s))
    (h : Sent op c s) (hu : unitWrong rule c.unit = false)
    (hw : badOffset (wrong (ctxOf c s) (taken c s) (planned (taken c s))) = none)
    (ha : absent (ctxOf c s) (taken c s) = false)
    (hm : members (ctxOf c s) (taken c s) = [member (ctxOf c s) cls inst 1 w])
    (hdomains : domainsOf w = []) (hunits : needsUnits w = false) :
    Configures i c s [member (ctxOf c s) cls inst 1 w] 0 fun u => landWrite [w] u.dt w u :=
  clashCommand_writes hi h hu hw rfl ha hm hdomains hunits

/-! ## The rows -/

theorem exec_trigSetMask (c : Cmd) (s : State) : exec (.trigSetMask c) s = .next (trigSetMask c s) := rfl
theorem exec_trigSetTd (c : Cmd) (s : State) : exec (.trigSetTd c) s = .next (trigSetTd c s) := rfl
theorem exec_trigSetSeq (c : Cmd) (s : State) : exec (.trigSetSeq c) s = .next (trigSetSeq c s) := rfl
theorem exec_trigSetLimit (c : Cmd) (s : State) : exec (.trigSetLimit c) s = .next (trigSetLimit c s) := rfl
theorem exec_trigLimitResume (c : Cmd) (s : State) : exec (.trigLimitResume c) s = .next (trigLimitResume c s) := rfl
theorem exec_trigSetLog (c : Cmd) (s : State) : exec (.trigSetLog c) s = .next (trigSetLog c s) := rfl
theorem exec_trigSetLineLog (c : Cmd) (s : State) : exec (.trigSetLineLog c) s = .next (trigSetLineLog c s) := rfl
theorem exec_capSet (c : Cmd) (s : State) : exec (.capSet c) s = .next (capSet c s) := rfl
theorem exec_capArm (c : Cmd) (s : State) : exec (.capArm c) s = .next (capArm c s) := rfl
theorem exec_capForce (c : Cmd) (s : State) : exec (.capForce c) s = .next (capForce c s) := rfl

/-! ## The settings of TRIG entries (Table 9-3) -/

/-- The settings of a TRIG.SET_MASK entry, its levels read from host memory. -/
def trigMaskOf (x : Ctx) (m : Mem) : MaskCfg :=
  { below := x.u8 17 == 1, bpp := x.u8 18, enable := x.u8 19 == 1, firstBin := optBin x 20, points := x.u16 24
    minPoints := x.u16 26, hyst := x.u16 28, minSpectra := x.u16 30, ignore := x.u16 32
    levels := readI16s m (x.u64 40) (x.u16 24) }

/-- The settings of a TRIG.SET_TD entry. -/
def trigTdOf (x : Ctx) : TdCfg :=
  { detector := x.u8 16, below := x.u8 17 == 1, enable := x.u8 18 == 1, ignore := x.u8 19, path := x.u16 20
    level := x.i16 22, hyst := x.u16 24, minWindows := x.u16 26 }

/-- The settings of a TRIG.SET_SEQ entry, its steps read from host memory. -/
def trigSeqOf (x : Ctx) (m : Mem) : SeqCfg :=
  { steps := (List.range (x.u8 16)).map fun i => stepAt m (x.u64 48 + 32 * i)
    continuous := x.u8 17 == 1, arm := x.u8 18 == 1, holdoff := x.u64 24
    inputs := (List.range 8).map fun i => x.u16 (32 + 2 * i) }

/-- The settings of a TRIG.SET_LIMIT entry, both lines read from host memory. -/
def trigLimitOf (x : Ctx) (m : Mem) : LimitCfg :=
  { trace := x.u8 16, stop := x.u8 17 == 1, enable := x.u8 18 == 1, stopCaps := x.u16 20, ignore := x.u16 22
    upper := readI16s m (x.u64 24) traceMax, lower := readI16s m (x.u64 32) traceMax }

/-- The settings of a TRIG.SET_LOG entry. -/
def trigLogOf (x : Ctx) : ChangeLogCfg :=
  { enable := x.u8 16 == 1, bpp := x.u8 17, thresh := x.u16 18, firstBin := optBin x 20, points := x.u16 24
    ignore := x.u16 26, keyframe := x.u32 28, ring := x.u16 32, maxRate := x.u64 36 }

/-- The settings of a TRIG.SET_LINE_LOG entry. -/
def trigLineLogOf (x : Ctx) : LineLogCfg :=
  { lines := x.u64 16, minGap := x.u32 24, ring := x.u16 28, fallingEdges := x.u8 30 }

/-! ## Conditions, limits and logs (R169 to R176, R181 to R183, R194 to R196) -/

/-- R3: an RF personality is there with its channel. -/
theorem persAbsent_rf {p : Nat} {s : State} (hu : p < 4) (hp : rfPresent p s = true) : persAbsent p s = false := by
  simp [persAbsent, hu, hp]

/-- The same once a TRIG command of it is taken. -/
theorem persAbsent_ctxOf_rf {c : Cmd} {s : State} (hu : c.unit < 4) (hp : rfPresent c.unit s = true) :
    persAbsent (ctxOf c s).unit (taken c s) = false := by
  rw [ctxOf_unit, persAbsent_taken, persAbsent_rf hu hp]

theorem trigSetMask_configures {c : Cmd} {s : State} (h : Sent 0x0B01 c s) (hu : c.unit < 4) (hp : rfPresent c.unit s = true)
    (hindex : c.u8 16 ≤ 3) (hside : c.u8 17 ≤ 1) (hbpp : 1 ≤ c.u8 18) (hbppMax : c.u8 18 ≤ 64) (henable : c.u8 19 ≤ 1)
    (hpointsMax : c.u16 24 ≤ 8192) (hminPoints : c.u16 26 ≤ c.u16 24) (hmin : 1 ≤ c.u16 26) (hhyst : c.u16 28 ≤ 2047)
    (hspectra : 1 ≤ c.u16 30) (hz : ZeroBytes c.entry 34 40) (hend : ZeroBytes c.entry 48 64)
    (hfits : binsFit (frameLen (getSpec c.unit (planned (taken c s))).fft) (optBin (ctxOf c s) 20) (c.u16 24 * c.u8 18) = true) :
    Configures (.trigSetMask c) c s [member (ctxOf c s) 6 c.unit 1 (.trigMask c.unit (c.u8 16) (trigMaskOf (ctxOf c s) s.host))] 0
      (modTrig c.unit fun u => { u with masks := tput none u.masks (c.u8 16) (some (freshMask (trigMaskOf (ctxOf c s) s.host))) }) := by
  refine clashCommand_writes (exec_trigSetMask c s) h (unitWrong_below hu) ?_ ?_ (persAbsent_ctxOf_rf hu hp) ?_ rfl rfl
  · simp only [badOffset_append, badOffset_cons, badOffset_nil, badOffset_reserved, Bool.or_eq_false_iff, decide_eq_false_iff_not,
      Nat.not_lt]
    have hpoints : 1 ≤ c.u16 24 := hmin.trans hminPoints
    exact ⟨⟨⟨hindex, hside, ⟨Nat.ne_of_gt hbpp, hbppMax⟩, henable, ⟨⟨Nat.ne_of_gt hpoints, hpointsMax⟩, hminPoints⟩,
      Nat.ne_of_gt hmin, hhyst, Nat.ne_of_gt hspectra, trivial⟩, hz⟩, hend⟩
  · exact (badOffset_cons _ _).2 ⟨congrArg (!·) hfits, badOffset_nil⟩
  · rw [← taken_host c s]
    rfl

theorem trigSetTd_configures {c : Cmd} {s : State} (h : Sent 0x0B02 c s) (hu : c.unit < 6) (hp : persAbsent c.unit s = false)
    (hdetector : c.u8 16 ≤ 2) (hside : c.u8 17 ≤ 1) (henable : c.u8 18 ≤ 1) (hpath : ownPath c.unit (c.u16 20) = true)
    (hhyst : c.u16 24 ≤ 2047) (hwindows : 1 ≤ c.u16 26) (hz : ZeroBytes c.entry 28 64) :
    Configures (.trigSetTd c) c s [member (ctxOf c s) 6 c.unit 1 (.trigTd c.unit (trigTdOf (ctxOf c s)))] 0
      (modTrig c.unit fun u => { u with td := some (freshTd (trigTdOf (ctxOf c s))) }) := by
  refine memberCommand_writes (exec_trigSetTd c s) h (unitWrong_below hu) ?_ ?_ rfl rfl rfl
  · simp only [badOffset_append, badOffset_cons, badOffset_nil, badOffset_reserved, decide_eq_false_iff_not, Nat.not_lt]
    exact ⟨⟨hdetector, hside, henable, congrArg (!·) hpath, hhyst, Nat.ne_of_gt hwindows, trivial⟩, hz⟩
  · rw [ctxOf_unit, persAbsent_taken, hp]

theorem trigSetLimit_configures {c : Cmd} {s : State} (h : Sent 0x0B04 c s) (hu : c.unit < 4) (hp : rfPresent c.unit s = true)
    (htrace : c.u8 16 ≤ 3) (hstop : c.u8 17 ≤ 1) (henable : c.u8 18 ≤ 1) (hz : ZeroBytes c.entry 19 20)
    (hend : ZeroBytes c.entry 40 64) :
    Configures (.trigSetLimit c) c s [member (ctxOf c s) 6 c.unit 1 (.trigLimit c.unit (trigLimitOf (ctxOf c s) s.host))] 0
      (modTrig c.unit fun u => { u with limit := some (trigLimitOf (ctxOf c s) s.host) }) := by
  refine memberCommand_writes (exec_trigSetLimit c s) h (unitWrong_below hu) ?_ (persAbsent_ctxOf_rf hu hp) ?_ rfl rfl
  · rw [badOffset_append, badOffset_append, badOffset_reserved, badOffset_reserved]
    simp only [badOffset_cons, badOffset_nil, decide_eq_false_iff_not, Nat.not_lt]
    exact ⟨⟨⟨htrace, hstop, henable, trivial⟩, hz⟩, hend⟩
  · rw [← taken_host c s]
    rfl

theorem trigLimitResume_configures {c : Cmd} {s : State} (h : Sent 0x0B05 c s) (hu : c.unit < 4) (hp : rfPresent c.unit s = true)
    (hz : ZeroBytes c.entry 16 64) :
    Configures (.trigLimitResume c) c s [member (ctxOf c s) 6 c.unit 1 (.limitResume c.unit)] 0 (limitResumeLand c.unit) :=
  memberCommand_writes (exec_trigLimitResume c s) h (unitWrong_below hu) ((badOffset_reserved _ _ _).2 hz)
    (persAbsent_ctxOf_rf hu hp) rfl rfl rfl

theorem trigSetLog_configures {c : Cmd} {s : State} (h : Sent 0x0B06 c s) (hu : c.unit < 4) (hp : rfPresent c.unit s = true)
    (henable : c.u8 16 ≤ 1) (hbpp : 1 ≤ c.u8 17) (hbppMax : c.u8 17 ≤ 64) (hthresh : c.u16 18 ≤ 32767) (hpoints : 1 ≤ c.u16 24)
    (hpointsMax : c.u16 24 ≤ 8192) (hz : ZeroBytes c.entry 34 36) (hend : ZeroBytes c.entry 44 64)
    (hfits : binsFit (frameLen (getSpec c.unit (planned (taken c s))).fft) (optBin (ctxOf c s) 20) (c.u16 24 * c.u8 17) = true)
    (hring : notDataRing (c.u16 32) s = false) :
    Configures (.trigSetLog c) c s [member (ctxOf c s) 6 c.unit 1 (.trigLog c.unit (trigLogOf (ctxOf c s)))] 0
      (modTrig c.unit fun u => { u with log := some (freshLog (trigLogOf (ctxOf c s))) }) := by
  refine clashCommand_writes (exec_trigSetLog c s) h (unitWrong_below hu) ?_ ?_ (persAbsent_ctxOf_rf hu hp) rfl rfl rfl
  · simp only [badOffset_append, badOffset_cons, badOffset_nil, badOffset_reserved, Bool.or_eq_false_iff, decide_eq_false_iff_not,
      Nat.not_lt]
    exact ⟨⟨⟨henable, ⟨Nat.ne_of_gt hbpp, hbppMax⟩, hthresh, ⟨Nat.ne_of_gt hpoints, hpointsMax⟩, trivial⟩, hz⟩, hend⟩
  · simp only [badOffset_cons, badOffset_nil, notDataRing_taken, and_true]
    exact ⟨congrArg (!·) hfits, hring⟩

theorem trigSetLineLog_configures {c : Cmd} {s : State} (h : Sent 0x0B07 c s) (hu : c.unit = 0xFFFF)
    (hring : badRing (c.u16 28) s = false) (hedges : c.u8 30 < 16) (hz : ZeroBytes c.entry 31 64) :
    Configures (.trigSetLineLog c) c s [member (ctxOf c s) 6 0xFF 1 (.lineLog (trigLineLogOf (ctxOf c s)))] 0
      fun u => { u with lineLog := { u.lineLog with cfg := trigLineLogOf (ctxOf c s) } } := by
  refine memberCommand_writes (exec_trigSetLineLog c s) h ?_ ?_ rfl rfl rfl rfl
  · rw [hu]
    rfl
  · simp only [badOffset_append, badOffset_cons, badOffset_reserved, badOffset_reservedBits_15, badRing_taken]
    exact ⟨⟨hring, hedges⟩, hz⟩

/-! ## The sequencer (R178, R179) -/

/-- Inputs without a wrong source code pass their checks. -/
theorem badOffset_sources {x : Ctx} (h : ∀ i, i < 8 → badSource (x.u16 (32 + 2 * i)) = false) :
    badOffset ((List.range 8).map fun i => (32, badSource (x.u16 (32 + 2 * i)))) = none := by
  rw [badOffset_none, List.forall_mem_map]
  exact fun i hi => h i (List.mem_range.1 hi)

/-- So many step entries, none of them wrong. -/
theorem any_badStep {m : Mem} {a n : Nat} (h : ∀ i, i < n → badStep m (a + 32 * i) = false) :
    ((List.range n).any fun i => badStep m (a + 32 * i)) = false :=
  List.any_eq_false.2 fun i hi => Bool.eq_false_iff.1 (h i (List.mem_range.1 hi))

theorem trigSetSeq_configures {c : Cmd} {s : State} (h : Sent 0x0B03 c s) (hu : c.unit < 6) (hp : persAbsent c.unit s = false)
    (hcount : c.u8 16 ≤ 8) (hcontinuous : c.u8 17 ≤ 1) (harm : c.u8 18 ≤ 1)
    (hsources : ∀ i, i < 8 → badSource (c.u16 (32 + 2 * i)) = false)
    (hsteps : ∀ i, i < c.u8 16 → badStep s.host (c.u64 48 + 32 * i) = false) (hz : ZeroBytes c.entry 19 24)
    (hend : ZeroBytes c.entry 56 64) :
    Configures (.trigSetSeq c) c s [member (ctxOf c s) 6 c.unit 1 (.trigSeq c.unit (trigSeqOf (ctxOf c s) s.host))] 0
      (seqLand c.unit (trigSeqOf (ctxOf c s) s.host)) := by
  refine clashCommand_writes (exec_trigSetSeq c s) h (unitWrong_below hu) ?_ ?_ ?_ ?_ rfl rfl
  · rw [badOffset_append, badOffset_append, badOffset_append, badOffset_reserved, badOffset_reserved]
    simp only [badOffset_cons, badOffset_nil, decide_eq_false_iff_not, Nat.not_lt]
    exact ⟨⟨⟨⟨hcount, hcontinuous, harm, trivial⟩, badOffset_sources hsources⟩, hz⟩, hend⟩
  · simp only [badOffset_cons, badOffset_nil, taken_host, ctxOf_u8, ctxOf_u64, any_badStep hsteps, Bool.and_false, and_self]
  · rw [ctxOf_unit, persAbsent_taken, hp]
  · rw [← taken_host c s]
    rfl

/-- Settles O35, command by command: the settings stated are `trigMaskOf`, `trigTdOf`, `trigSeqOf`, `trigLimitOf`, `trigLogOf`
and `trigLineLogOf` of the entry. -/
theorem triggerConfigures : Obligations.TriggerConfigures :=
  ⟨fun _ _ => trigSetMask_configures, fun _ _ => trigSetTd_configures, fun _ _ => trigSetSeq_configures,
    fun _ _ => trigSetLimit_configures, fun _ _ => trigLimitResume_configures, fun _ _ => trigSetLog_configures,
    fun _ _ => trigSetLineLog_configures⟩

/-! ## CAP commands (Table 9-8, R185 to R188) -/

/-- BUF_SIZE in equal segments of whole 64 KiB is itself of whole 64 KiB. -/
theorem bufSize_whole {size segments : Nat} (h : size % (segments * 65536) = 0) : size % 65536 = 0 :=
  Nat.mod_eq_zero_of_dvd ((Nat.dvd_mul_left 65536 segments).trans (Nat.dvd_of_mod_eq_zero h))

/-- R184: the source of a capture is there, once its CAP.SET is taken too. -/
theorem capSourceThere_taken {c : Cmd} {s : State}
    (hthere : (if c.u8 16 = 0 then pathAbsent (c.u16 20) s else !rfPresent (c.u16 20) s) = false) :
    (if c.u8 16 = 0 then pathAbsent (c.u16 20) (taken c s) else !rfPresent (c.u16 20) (taken c s)) = false := by
  rwa [pathAbsent_taken, rfPresent_taken]

theorem capSet_configures {c : Cmd} {s : State} (h : Sent 0x0C01 c s) (hu : c.unit < 16) (hkind : c.u8 16 ≤ 2)
    (hpath : isPath (c.u16 20) = true) (hsource : badCapSource (c.u8 16) (c.u16 20) = false)
    (hthere : (if c.u8 16 = 0 then pathAbsent (c.u16 20) s else !rfPresent (c.u16 20) s) = false) (hmode : c.u8 17 ≤ 2)
    (htrigger : c.u8 18 ≤ 5 ∨ c.u8 18 = 0xFF) (hsegments : 1 ≤ c.u8 19) (hsize : 0 < c.u64 24)
    (hwhole : c.u64 24 % (c.u8 19 * 65536) = 0) (hpost : 1 ≤ c.u64 40) (hring : badRing (c.u16 22) s = false)
    (hz : ZeroBytes c.entry 52 64) (hpre : preTooLong (ctxOf c s) (planned (taken c s)) = false) :
    Configures (.capSet c) c s [member (ctxOf c s) 7 c.unit 1 (.capSet c.unit (capOf (ctxOf c s)))] 0
      (capSetLand c.unit (capOf (ctxOf c s))) := by
  refine clashCommand_writes (exec_capSet c s) h (unitWrong_below hu) ?_ ?_ (capSourceThere_taken hthere) rfl rfl rfl
  · simp only [badOffset_append, badOffset_cons, badOffset_nil, badOffset_reserved, Bool.or_eq_false_iff, Bool.and_eq_false_iff,
      decide_eq_false_iff_not, Nat.not_lt, beq_eq_false_iff_ne, bne_eq_false_iff_eq]
    exact ⟨⟨⟨hkind, .inr hsource⟩, congrArg (!·) hpath, hmode, htrigger, ⟨Nat.ne_of_gt hsegments, .inr hwhole⟩,
      ⟨Nat.ne_of_gt hsize, bufSize_whole hwhole⟩, Nat.ne_of_gt hpost, trivial⟩, hz⟩
  · simp only [badOffset_cons, badOffset_nil, badRing_taken, ctxOf_u16, hpre, hring, Bool.and_false, and_self]

/-- A capture that a member of the plan sets, or that is set already, can be armed and forced. -/
theorem noCapture_ctxOf {c : Cmd} {s plan : State} (hset : (getCap c.unit plan).isSet = true) :
    noCapture (ctxOf c s) plan = false := by
  rw [noCapture, ctxOf_unit, hset]
  rfl

theorem capArm_configures {c : Cmd} {s : State} (h : Sent 0x0C02 c s) (hu : c.unit < 16)
    (hset : (getCap c.unit (planned (taken c s))).isSet = true) (harm : c.u8 16 ≤ 1) (hz : ZeroBytes c.entry 17 64) :
    Configures (.capArm c) c s [member (ctxOf c s) 7 c.unit 1 (.capArm c.unit (c.u8 16 == 1))] 0
      (capArmLand c.unit (c.u8 16 == 1)) := by
  refine memberCommand_writes (exec_capArm c s) h (unitWrong_below hu) ?_ rfl rfl rfl rfl
  simp only [badOffset_append, badOffset_cons, badOffset_nil, badOffset_reserved, decide_eq_false_iff_not, Nat.not_lt]
  exact ⟨⟨noCapture_ctxOf hset, harm, trivial⟩, hz⟩

theorem capForce_configures {c : Cmd} {s : State} (h : Sent 0x0C03 c s) (hu : c.unit < 16)
    (hset : (getCap c.unit (planned (taken c s))).isSet = true) (hz : ZeroBytes c.entry 16 64) :
    Configures (.capForce c) c s [member (ctxOf c s) 7 c.unit 1 (.capForce c.unit)] 0
      fun u => capTrigger c.unit u.dt 0xFF capForced u := by
  refine memberCommand_writes (exec_capForce c s) h (unitWrong_below hu) ?_ rfl rfl rfl rfl
  rw [badOffset_cons, badOffset_reserved]
  exact ⟨noCapture_ctxOf hset, hz⟩

/-- Settles O36, command by command: the settings stated are `capOf` of the entry. -/
theorem captureConfigures : Obligations.CaptureConfigures :=
  ⟨fun _ _ => capSet_configures, fun _ _ => capArm_configures, fun _ _ => capForce_configures⟩

end Sys2Proof.Machine

/-! # Commands that configure the generators

Most are one write of one weight that needs nothing started: `clashCommand_writes`. GEN.SEGMENT and GEN.LOAD may be busy, and a
start needs its domains, so those go through `clashCommand_configures`. -/

namespace Sys2Proof.Machine

/-! ## The rows -/

theorem exec_genSegment (c : Cmd) (s : State) : exec (.genSegment c) s = .next (genSegment c s) := rfl
theorem exec_genLoad (c : Cmd) (s : State) : exec (.genLoad c) s = .next (genLoad c s) := rfl
theorem exec_genStart (c : Cmd) (s : State) : exec (.genStart c) s = .next (genStart c s) := rfl
theorem exec_genCarrier (c : Cmd) (s : State) : exec (.genCarrier c) s = .next (genCarrier c s) := rfl
theorem exec_calSetGen (c : Cmd) (s : State) : exec (.calSetGen c) s = .next (calSetGen c s) := rfl

/-! ## What taking a command leaves of a generator's checks -/

@[simp] theorem dramFitted_taken (c : Cmd) (s : State) : dramFitted (taken c s) = dramFitted s :=
  congrArg (fun f : Fuses => 16 * 2 ^ (f.dram - 1) * 2 ^ 30) (taken_fuse c s)

@[simp] theorem hostDram_taken (c : Cmd) (s : State) : hostDram (taken c s) = hostDram s :=
  congrArg (fun fitted => fitted / 8 * 7 - 536870912) (dramFitted_taken c s)

@[simp] theorem tableOf_taken (x : Ctx) (c : Cmd) (s : State) : tableOf x (taken c s) = tableOf x s := by simp [tableOf]

@[simp] theorem loadWrite_taken (x : Ctx) (c : Cmd) (s : State) : loadWrite x (taken c s) = loadWrite x s := by
  simp [loadWrite]

/-- R199: the DAC of a taken command is there. -/
theorem dacAbsent_taken {c : Cmd} {s : State} (hp : dacPresent c.unit s = true) : dacAbsent (ctxOf c s) (taken c s) = false := by
  rw [dacAbsent, ctxOf_unit, dacPresent_taken, hp]
  rfl

theorem dacPresent_of_healthy {n : Nat} {s : State} (h : dacHealthy n s = true) : dacPresent n s = true :=
  (Bool.and_eq_true_iff.1 h).1

/-! ## Segments and tables (Tables 10-1, 10-2, R203, R207, R212) -/

theorem genSegment_configures {c : Cmd} {s : State} (h : Sent 0x0D01 c s) (hu : c.unit < 2) (hp : dacPresent c.unit s = true)
    (hindex : c.u16 16 ≤ 4095) (hmode : c.u8 18 ≤ 1) (hdirect : c.u8 18 = 0 → c.u8 19 = 0) (hlanes : c.u8 19 ≤ 8)
    (hshort : 16 ≤ c.u32 20) (hlong : c.u32 20 ≤ 16777215) (hidle : badCode (c.i16 24) = false) (hresident : c.u8 26 ≤ 1)
    (haligned : c.u64 32 % 64 = 0) (hz : ZeroBytes c.entry 27 32) (hend : ZeroBytes c.entry 40 64)
    (hin : c.u64 32 + c.u32 20 * granuleBytes (segCfg (ctxOf c s)) ≤ hostDram s)
    (hholds : residencyHolds (genAfter c.unit (segWrite (ctxOf c s)) (planned (taken c s))) = true)
    (hbusy : bufferBusy (getGen c.unit s) (genAfter c.unit (segWrite (ctxOf c s)) (planned (taken c s))) = false) :
    Configures (.genSegment c) c s [member (ctxOf c s) 8 c.unit 1 (segWrite (ctxOf c s))] 0
      fun u => modGen c.unit (fun g => { g with
        segments := tput none g.segments (c.u16 16) (some (segCfg (ctxOf c s)))
        held := tput [] g.held (c.u16 16) (heldCells u.dram (segCfg (ctxOf c s))) }) u := by
  refine clashCommand_configures (exec_genSegment c s) h (unitWrong_below hu) ?_ ?_ (dacAbsent_taken hp) ?_ rfl rfl
    (landsAlone rfl rfl)
  · simp only [badOffset_append, badOffset_cons, badOffset_nil, badOffset_reserved, Bool.or_eq_false_iff, Bool.and_eq_false_imp,
      decide_eq_false_iff_not, Nat.not_lt, beq_iff_eq, bne_eq_false_iff_eq]
    exact ⟨⟨⟨hindex, ⟨hmode, hdirect⟩, hlanes, ⟨hshort, hlong⟩, hidle, hresident, haligned, trivial⟩, hz⟩, hend⟩
  · simp only [badOffset_cons, badOffset_nil, beyondDram, hostDram_taken, decide_eq_false_iff_not, Nat.not_lt, and_true]
    exact ⟨congrArg (!·) hholds, hin⟩
  · rw [getGen_taken]
    exact hbusy

/-- Table 10-5: a table with no wrong entry. -/
theorem any_badSeqEntry {m : Mem} {a n : Nat} {table : List SeqEntry} {segments : Table (Option SegCfg)}
    (h : ∀ e ∈ table.zipIdx, badSeqEntry segments n e.2 (readLe m (a + 32 * e.2 + 18) 14 == 0) e.1 = false) :
    (table.zipIdx.any fun e => badSeqEntry segments n e.2 (readLe m (a + 32 * e.2 + 18) 14 == 0) e.1) = false :=
  List.any_eq_false.2 fun e he => Bool.eq_false_iff.1 (h e he)

theorem genLoad_configures {c : Cmd} {s : State} (h : Sent 0x0D02 c s) (hu : c.unit < 2) (hp : dacPresent c.unit s = true)
    (hsome : 1 ≤ c.u16 16) (hmax : c.u16 16 ≤ 4096) (hstart : c.u16 18 < c.u16 16) (hz : ZeroBytes c.entry 20 24)
    (hend : ZeroBytes c.entry 32 64)
    (hentries : ∀ e ∈ (tableOf (ctxOf c s) s).zipIdx, badSeqEntry (getGen c.unit (planned (taken c s))).segments (c.u16 16) e.2
      (readLe s.host (c.u64 24 + 32 * e.2 + 18) 14 == 0) e.1 = false)
    (hholds : residencyHolds (genAfter c.unit (loadWrite (ctxOf c s) s) (planned (taken c s))) = true)
    (hbusy : bufferBusy (getGen c.unit s) (genAfter c.unit (loadWrite (ctxOf c s) s) (planned (taken c s))) = false) :
    Configures (.genLoad c) c s [member (ctxOf c s) 8 c.unit 1 (loadWrite (ctxOf c s) s)] 0
      (genLoadLand c.unit (tableOf (ctxOf c s) s) (c.u16 18)) := by
  refine clashCommand_configures (exec_genLoad c s) h (unitWrong_below hu) ?_ ?_ (dacAbsent_taken hp) ?_ ?_ rfl
    (landsAlone rfl rfl)
  · simp only [badOffset_append, badOffset_cons, badOffset_nil, badOffset_reserved, Bool.or_eq_false_iff,
      decide_eq_false_iff_not, beq_eq_false_iff_ne, Nat.not_lt, Nat.not_le]
    exact ⟨⟨⟨⟨⟨Nat.ne_of_gt hsome, hmax⟩, hstart⟩, Nat.le_of_lt_succ (hstart.trans_le hmax), trivial⟩, hz⟩, hend⟩
  · rw [badOffset_cons, tableOf_taken, loadWrite_taken, taken_host, ctxOf_unit, ctxOf_u16, ctxOf_u64,
      any_badSeqEntry hentries, hholds, Bool.not_true, Bool.or_self, Bool.and_false]
    exact ⟨rfl, badOffset_nil⟩
  · rw [getGen_taken, loadWrite_taken]
    exact hbusy
  · rw [loadWrite_taken]
    rfl

/-! ## Starts and stops (R200, R208) -/

theorem landsStarted_genStart (d start : Nat) (u : State) : let v := startDomains [.genStart d start] u
    each [.genStart d start] (fun x s => landWrite [.genStart d start] s.dt x s) v = withEpoch d (genStartLand d start) v := rfl

theorem genStart_starts {c : Cmd} {s : State} (h : Sent 0x0D03 c s) (hu : c.unit < 2) (hp : dacHealthy c.unit s = true)
    (haction : c.u8 16 = 1) (hindex : c.u16 18 ≤ 4095)
    (hloaded : c.u16 18 < (getGen c.unit (planned (taken c s))).table.length) (hz : ZeroBytes c.entry 17 18)
    (hend : ZeroBytes c.entry 20 64) :
    let w : Write := .genStart c.unit (c.u16 18)
    Configures (.genStart c) c s [member (ctxOf c s) 8 c.unit 1 w] 0
      fun u => withEpoch c.unit (genStartLand c.unit (c.u16 18)) (startDomains [w] u) := by
  intro w
  refine clashCommand_configures (exec_genStart c s) h (unitWrong_below hu) ?_ ?_ ?_ rfl ?_ rfl
    (landsStarted_genStart c.unit (c.u16 18))
  · simp only [badOffset_append, badOffset_cons, badOffset_nil, badOffset_reserved, decide_eq_false_iff_not, Nat.not_lt]
    exact ⟨⟨⟨haction.le, hindex, trivial⟩, hz⟩, hend⟩
  · rw [badOffset_cons, ctxOf_unit, ctxOf_u16, decide_eq_false (Nat.not_le.2 hloaded), Bool.and_false]
    exact ⟨rfl, badOffset_nil⟩
  · rw [dacAbsent_taken (dacPresent_of_healthy hp), ctxOf_unit, dacHealthy_taken, hp, Bool.not_true, Bool.and_false, Bool.or_self]
  · rw [ctxOf_u8, if_pos haction]
    rfl

/-- A stop needs only the DAC to be there. -/
theorem genStart_stops {c : Cmd} {s : State} (h : Sent 0x0D03 c s) (hu : c.unit < 2) (hp : dacPresent c.unit s = true)
    (haction : c.u8 16 = 0) (hindex : c.u16 18 ≤ 4095) (hz : ZeroBytes c.entry 17 18) (hend : ZeroBytes c.entry 20 64) :
    Configures (.genStart c) c s [member (ctxOf c s) 8 c.unit 1 (.genStop c.unit)] 0 (genStopLand c.unit) := by
  have hstop : ((ctxOf c s).u8 16 == 1) = false := by rw [ctxOf_u8, haction]; rfl
  refine clashCommand_writes (exec_genStart c s) h (unitWrong_below hu) ?_ ?_ ?_ ?_ rfl rfl
  · simp only [badOffset_append, badOffset_cons, badOffset_nil, badOffset_reserved, decide_eq_false_iff_not, Nat.not_lt]
    exact ⟨⟨⟨haction.trans_le (Nat.zero_le 1), hindex, trivial⟩, hz⟩, hend⟩
  · rw [badOffset_cons, hstop, Bool.false_and]
    exact ⟨rfl, badOffset_nil⟩
  · rw [dacAbsent_taken hp, hstop, Bool.false_and, Bool.or_self]
  · rw [if_neg (by simpa using hstop)]
    rfl

/-! ## Carriers and the delay (R202, R206) -/

theorem genCarrier_configures {c : Cmd} {s : State} (h : Sent 0x0D04 c s) (hu : c.unit < 2) (hp : dacPresent c.unit s = true)
    (hlane : c.u8 16 ≤ 7) (hword : c.u64 24 ≤ 2 ^ 46) (hphase : c.u64 32 < 2 ^ 48) (hbias : badCode (c.i16 40) = false)
    (hfree : laneHeld c.unit (c.u8 16) (planned (taken c s)) = false) (hz : ZeroBytes c.entry 17 24)
    (hend : ZeroBytes c.entry 42 64) :
    Configures (.genCarrier c) c s
      [member (ctxOf c s) 8 c.unit 1 (.genCarrier c.unit (c.u8 16) (c.u64 24) (c.u64 32) (c.i16 40))] 0
      (modGen c.unit fun x => { x with carriers := tput (0, 0) x.carriers (c.u8 16) (c.u64 24, c.u64 32), bias := c.i16 40 }) := by
  refine clashCommand_writes (exec_genCarrier c s) h (unitWrong_below hu) ?_ ?_ (dacAbsent_taken hp) rfl rfl rfl
  · rw [badOffset_append, badOffset_append, badOffset_append, badOffset_reserved, badOffset_reserved, badOffset_reservedBits_48]
    simp only [badOffset_cons, badOffset_nil, decide_eq_false_iff_not, Nat.not_lt]
    exact ⟨⟨⟨⟨hlane, hword, hbias, trivial⟩, hphase⟩, hz⟩, hend⟩
  · exact (badOffset_cons _ _).2 ⟨hfree, badOffset_nil⟩

theorem calSetGen_configures {c : Cmd} {s : State} (h : Sent 0x1902 c s) (hu : c.unit < 2) (hp : dacPresent c.unit s = true)
    (hlow : -65536 ≤ c.i32 16) (hhigh : c.i32 16 ≤ 65536) (hz : ZeroBytes c.entry 20 64) :
    Configures (.calSetGen c) c s [member (ctxOf c s) 8 c.unit 1 (.calGen c.unit (c.i32 16))] 0
      (modGen c.unit fun g => { g with delayTk := c.i32 16 }) := by
  refine memberCommand_writes (exec_calSetGen c s) h (unitWrong_below hu) ?_ (dacAbsent_taken hp) rfl rfl rfl
  simp only [badOffset_cons, badOffset_reserved, Bool.or_eq_false_iff, decide_eq_false_iff_not, Int.not_lt]
  exact ⟨⟨hlow, hhigh⟩, hz⟩

/-- Settles O37, command by command: the settings stated are `segCfg`, `tableOf` and `loadWrite` of the entry. -/
theorem generatorConfigures : Obligations.GeneratorConfigures :=
  ⟨fun _ _ => genSegment_configures, fun _ _ => genLoad_configures, fun _ _ => genStart_starts, fun _ _ => genStart_stops,
    fun _ _ => genCarrier_configures, fun _ _ => calSetGen_configures⟩

end Sys2Proof.Machine

/-! # Commands that configure the DAS personalities

Settings are one write of one weight; a start needs its domains and units. DAS.SET_SLOT and CAL.SET_FIBRE claim several units, of
which each lands in turn. -/

namespace Sys2Proof.Machine

/-! ## The rows -/

theorem exec_dasStart (c : Cmd) (s : State) : exec (.dasStart c) s = .next (dasStart c s) := rfl
theorem exec_dasSetSlot (c : Cmd) (s : State) : exec (.dasSetSlot c) s = .next (dasSetSlot c s) := rfl
theorem exec_dasSetGrid (c : Cmd) (s : State) : exec (.dasSetGrid c) s = .next (dasSetGrid c s) := rfl
theorem exec_dasSetPmask (c : Cmd) (s : State) : exec (.dasSetPmask c) s = .next (dasSetPmask c s) := rfl
theorem exec_calSetFibre (c : Cmd) (s : State) : exec (.calSetFibre c) s = .next (calSetFibre c s) := rfl
theorem exec_curSetBand (c : Cmd) (s : State) : exec (.curSetBand c) s = .next (curSetBand c s) := rfl

/-! ## What taking a command leaves of a fibre's checks -/

@[simp] theorem slotPaths_taken (f k : Nat) (c : Cmd) (s : State) : slotPaths f k (taken c s) = slotPaths f k s := by
  simp [slotPaths]

@[simp] theorem pmaskOf_taken (x : Ctx) (c : Cmd) (s : State) : pmaskOf x (taken c s) = pmaskOf x s := by simp [pmaskOf]

/-- R3: a receiver of the fibre of a taken command is there. -/
theorem fibreAbsent_taken {c : Cmd} {s : State} (hp : fibrePresent c.unit s = true) :
    fibreAbsent (ctxOf c s) (taken c s) = false := by
  rw [fibreAbsent, ctxOf_unit, fibrePresent_taken, hp]
  rfl

/-! ## Starts and stops (R217, R237) -/

theorem orxPresent_of_healthy {n : Nat} {s : State} (h : orxHealthy n s = true) : orxPresent n s = true :=
  (Bool.and_eq_true_iff.1 h).1

/-- No receiver of a start is missing. -/
theorem any_receiver {receivers first : Nat} {there : Nat → Bool} (h : ∀ k, k < receivers → there (first + k) = true) :
    (((List.range receivers).map fun k => first + k).any fun r => !there r) = false := by
  rw [List.any_map, List.any_eq_false]
  exact fun k hk => not_bang_of_true (h k (List.mem_range.1 hk))

/-- R217, R237: receivers and a DAC that are healthy let a fibre start. -/
theorem startAbsent_of_healthy {receivers : Nat} {x : Ctx} {s : State}
    (hreceivers : ∀ k, k < receivers → orxHealthy (2 * x.unit + k) s = true) (hdac : dacHealthy x.unit s = true) :
    startAbsent receivers x s = false := by
  have hhealthy := any_receiver (there := (orxHealthy · s)) hreceivers
  have hpresent := any_receiver (there := (orxPresent · s)) fun k hk => orxPresent_of_healthy (hreceivers k hk)
  rw [startAbsent, hhealthy, hpresent, hdac, Bool.not_true, Bool.or_self, Bool.and_false, Bool.or_self]

/-- A stop needs only its receivers to be there. -/
theorem startAbsent_of_stop {receivers : Nat} {x : Ctx} {s : State} (hstop : x.u8 16 = 0)
    (hreceivers : ∀ k, k < receivers → orxPresent (2 * x.unit + k) s = true) : startAbsent receivers x s = false := by
  rw [startAbsent, any_receiver (there := (orxPresent · s)) hreceivers, hstop]
  rfl

theorem landsStarted_dasStart (f k : Nat) (u : State) : let v := startDomains [.dasStart f k] u
    each [.dasStart f k] (fun x s => landWrite [.dasStart f k] s.dt x s) v = dasLand f k v := rfl

theorem dasStart_starts {c : Cmd} {s : State} (h : Sent 0x0F01 c s) (hu : c.unit < 2) (haction : c.u8 16 = 1) (hone : 1 ≤ c.u8 17)
    (htwo : c.u8 17 ≤ 2) (hreceivers : ∀ k, k < c.u8 17 → orxHealthy (2 * c.unit + k) s = true)
    (hdac : dacHealthy c.unit s = true) (hz : ZeroBytes c.entry 18 64) :
    let w : Write := .dasStart c.unit (c.u8 17)
    Configures (.dasStart c) c s [member (ctxOf c s) 0xA c.unit 1 w] 0
      fun u => dasLand c.unit (c.u8 17) (startDomains [w] u) := by
  intro w
  refine memberCommand_configures (exec_dasStart c s) h (unitWrong_below hu) ?_ (startAbsent_of_healthy ?_ ?_) rfl ?_ rfl
    (landsStarted_dasStart c.unit (c.u8 17))
  · simp only [badOffset_append, badOffset_cons, badOffset_nil, badOffset_reserved, Bool.or_eq_false_iff, decide_eq_false_iff_not,
      Nat.not_lt, beq_eq_false_iff_ne]
    exact ⟨⟨haction.le, ⟨Nat.ne_of_gt hone, htwo⟩, trivial⟩, hz⟩
  · exact fun k hk => (orxHealthy_taken _ c s).trans (hreceivers k hk)
  · rwa [dacHealthy_taken]
  · rw [ctxOf_u8, if_pos haction]
    rfl

theorem dasStart_stops {c : Cmd} {s : State} (h : Sent 0x0F01 c s) (hu : c.unit < 2) (haction : c.u8 16 = 0) (hone : 1 ≤ c.u8 17)
    (htwo : c.u8 17 ≤ 2) (hreceivers : ∀ k, k < c.u8 17 → orxPresent (2 * c.unit + k) s = true) (hz : ZeroBytes c.entry 18 64) :
    Configures (.dasStart c) c s [member (ctxOf c s) 0xA c.unit 1 (.dasStop c.unit)] 0
      fun u => if dasRuns c.unit u then fibreStop c.unit u else u := by
  refine memberCommand_writes (exec_dasStart c s) h (unitWrong_below hu) ?_ (startAbsent_of_stop haction ?_) ?_ rfl rfl
  · simp only [badOffset_append, badOffset_cons, badOffset_nil, badOffset_reserved, Bool.or_eq_false_iff, decide_eq_false_iff_not,
      Nat.not_lt, beq_eq_false_iff_ne]
    exact ⟨⟨haction.trans_le (Nat.zero_le 1), ⟨Nat.ne_of_gt hone, htwo⟩, trivial⟩, hz⟩
  · exact fun k hk => (orxPresent_taken _ c s).trans (hreceivers k hk)
  · rw [ctxOf_u8, haction]
    rfl

/-! ## Several writes that need nothing started -/

/-- Writes of which none needs a domain or units start nothing. -/
theorem startDomains_none {ws : List Write} (hdomains : ∀ w ∈ ws, domainsOf w = []) (hunits : ∀ w ∈ ws, needsUnits w = false)
    (u : State) : startDomains ws u = u := by
  have hnone : domainsFor ws = [] := by
    have : (ws.map domainsOf).flatten = [] := List.flatten_eq_nil_iff.2 (List.forall_mem_map.2 hdomains)
    rw [domainsFor, this]
    rfl
  have hidle : ws.any needsUnits = false := List.any_eq_false.2 fun w hw => ne_true_of_eq_false (hunits w hw)
  rw [startDomains, hnone, hidle]
  rfl

theorem each_map {α β : Type} (g : α → β) (xs : List α) (f : β → State → State) (u : State) :
    each (xs.map g) f u = each xs (fun x => f (g x)) u := List.foldl_map

/-! ## DAS.SET_SLOT (Table 11-3, R219 to R221, R228) -/

/-- R219: what a slot and its carrier and paths land by. -/
def slotWrites (f k : Nat) (cfg : SlotCfg) (on : Bool) (paths : List Nat) : List Write :=
  .dasSlot f k cfg :: .slotCarrier f k (slotWord k) :: paths.map fun path => .slotPath path (4 * slotWord k) on

/-- The members of a DAS.SET_SLOT write them. -/
theorem slotMembers_writes (x : Ctx) (f k : Nat) (cfg : SlotCfg) (on : Bool) (paths : List Nat) :
    (member x 0xA f 1 (.dasSlot f k cfg) :: member x 8 f 1 (.slotCarrier f k (slotWord k)) ::
      paths.zipIdx.map fun p => member x 2 p.1 (if p.2 = 0 then 1 else 0) (.slotPath p.1 (4 * slotWord k) on)).map (·.write) =
      slotWrites f k cfg on paths := by
  rw [slotWrites, ← List.zipIdx_map_fst 0 paths, List.map_map, List.zipIdx_map_fst]
  simp [member]

/-- A slot needs nothing started: its settings land, then its carrier, then its paths. -/
theorem slotWrites_land (f k : Nat) (cfg : SlotCfg) (on : Bool) (paths : List Nat) (u : State) :
    let ws := slotWrites f k cfg on paths
    each ws (fun w s => landWrite ws s.dt w s) (startDomains ws u) =
      each paths (fun path v => ddcLand path (4 * slotWord k) 0 0 (getDdc path v).outShift on v)
        (modGen f (fun g => { g with carriers := tput (0, 0) g.carriers k (slotWord k, 0) })
          (dasChanged f (fun x => { x with slots := tput {} x.slots k cfg }) u)) := by
  intro ws
  have hdomains : ∀ w ∈ ws, domainsOf w = [] := by simp [ws, slotWrites, domainsOf]
  have hunits : ∀ w ∈ ws, needsUnits w = false := by simp [ws, slotWrites, needsUnits]
  rw [startDomains_none hdomains hunits]
  exact each_map (fun path => Write.slotPath path (4 * slotWord k) on) paths (fun w s => landWrite ws s.dt w s) _

theorem dasSetSlot_configures {c : Cmd} {s : State} (h : Sent 0x0F02 c s) (hu : c.unit < 2) (hp : fibrePresent c.unit s = true)
    (hslot : c.u8 16 ≤ 7) (henable : c.u8 17 ≤ 1) (hgolay : c.u8 18 ≤ 1) (htaper : c.u8 19 ≤ 1)
    (hcode : badSlotCode (slotOf (ctxOf c s)) = false) (hz : ZeroBytes c.entry 23 24) (hend : ZeroBytes c.entry 36 64) :
    let plan := getFibre c.unit (planned (taken c s))
    let k := c.u8 16
    let cfg := slotOf (ctxOf c s)
    (plan.grid.combine = false ∨ entriesDiffer { plan with slots := tput {} plan.slots k cfg } = false) →
    let on := (c.u8 17 == 1) && plan.das
    Configures (.dasSetSlot c) c s
      (member (ctxOf c s) 0xA c.unit 1 (.dasSlot c.unit k cfg) :: member (ctxOf c s) 8 c.unit 1 (.slotCarrier c.unit k (slotWord k)) ::
        (slotPaths c.unit k s).zipIdx.map fun p =>
          member (ctxOf c s) 2 p.1 (if p.2 = 0 then 1 else 0) (.slotPath p.1 (4 * slotWord k) on)) 0
      fun u => each (slotPaths c.unit k s) (fun path v => ddcLand path (4 * slotWord k) 0 0 (getDdc path v).outShift on v)
        (modGen c.unit (fun g => { g with carriers := tput (0, 0) g.carriers k (slotWord k, 0) })
          (dasChanged c.unit (fun x => { x with slots := tput {} x.slots k cfg }) u)) := by
  intro plan k cfg hcombine on
  refine clashCommand_configures (exec_dasSetSlot c s) h (unitWrong_below hu) ?_ ?_ (fibreAbsent_taken hp) rfl ?_ rfl ?_
  · simp only [badOffset_append, badOffset_cons, badOffset_nil, badOffset_reserved, Bool.or_eq_false_iff, decide_eq_false_iff_not,
      Nat.not_lt]
    exact ⟨⟨⟨hslot, henable, ⟨hgolay, hcode⟩, htaper, trivial⟩, hz⟩, hend⟩
  · exact (badOffset_cons _ _).2 ⟨Bool.and_eq_false_iff.2 hcombine, badOffset_nil⟩
  · simp only [slotPaths_taken]
    rfl
  · rw [slotMembers_writes]
    exact slotWrites_land c.unit k cfg on (slotPaths c.unit k s)

/-! ## DAS.SET_GRID and DAS.SET_PMASK (R226 to R228, R233) -/

theorem dasSetGrid_configures {c : Cmd} {s : State} (h : Sent 0x0F03 c s) (hu : c.unit < 2) (hp : fibrePresent c.unit s = true)
    (hpositions : 1 ≤ c.u32 20) (hpositionsMax : c.u32 20 ≤ 262144) (hstep : 1 ≤ c.u16 24) (hstepMax : c.u16 24 ≤ 64)
    (hgauge : 1 ≤ c.u16 26) (hgaugeMax : c.u16 26 ≤ 1024) (hkind : c.u8 28 ≤ 1) (hcombine : c.u8 29 ≤ 1)
    (hnoise : c.u32 36 = 0 ∨ (64 ≤ c.u32 36 ∧ c.u32 36 ≤ 65536)) (hring : notDataRing (c.u16 30) s = false)
    (hz : ZeroBytes c.entry 40 64)
    (hentries : c.u8 29 = 0 ∨ entriesDiffer (getFibre c.unit (planned (taken c s))) = false)
    (hlast : lastCell (gridOf (ctxOf c s)) ≤ 1048575) :
    Configures (.dasSetGrid c) c s [member (ctxOf c s) 0xA c.unit 1 (.dasGrid c.unit (gridOf (ctxOf c s)))] 0
      (dasChanged c.unit fun x => bandReset { x with grid := gridOf (ctxOf c s) }) := by
  refine clashCommand_writes (exec_dasSetGrid c s) h (unitWrong_below hu) ?_ ?_ (fibreAbsent_taken hp) rfl rfl rfl
  · simp only [badOffset_append, badOffset_cons, badOffset_nil, badOffset_reserved, Bool.or_eq_false_iff, decide_eq_false_iff_not,
      Bool.and_eq_false_iff, Nat.not_lt, beq_eq_false_iff_ne, bne_eq_false_iff_eq]
    exact ⟨⟨hlast, ⟨Nat.ne_of_gt hpositions, hpositionsMax⟩, ⟨Nat.ne_of_gt hstep, hstepMax⟩, ⟨Nat.ne_of_gt hgauge, hgaugeMax⟩,
      hkind, hcombine, hnoise, trivial⟩, hz⟩
  · rw [badOffset_cons, badOffset_cons, notDataRing_taken, Bool.and_eq_false_iff]
    exact ⟨hentries.imp_left fun hoff => beq_eq_false_iff_ne.2 (by rw [ctxOf_u8, hoff]; decide), hring, badOffset_nil⟩

theorem dasSetPmask_configures {c : Cmd} {s : State} (h : Sent 0x0F04 c s) (hu : c.unit < 2) (hp : fibrePresent c.unit s = true)
    (henable : c.u8 16 ≤ 1) (hbpp : 1 ≤ c.u8 17) (hbppMax : c.u8 17 ≤ 64) (hhyst : c.u16 18 ≤ 32767) (hpoints : 1 ≤ c.u16 24)
    (hpointsMax : c.u16 24 ≤ 8192) (htraces : 1 ≤ c.u16 26) (hignore : c.u8 28 < 32) (hz : ZeroBytes c.entry 29 32)
    (hend : ZeroBytes c.entry 40 64)
    (hfits : c.u32 20 + c.u16 24 * c.u8 17 ≤ (getFibre c.unit (planned (taken c s))).grid.positions) :
    Configures (.dasSetPmask c) c s [member (ctxOf c s) 0xA c.unit 1 (.dasPmask c.unit (pmaskOf (ctxOf c s) s))] 0
      (modFibre c.unit fun x => { x with
        pmask := pmaskOf (ctxOf c s) s, pmaskViolated := [], pmaskRun := 0, pmaskFired := false }) := by
  refine clashCommand_writes (exec_dasSetPmask c s) h (unitWrong_below hu) ?_ ?_ (fibreAbsent_taken hp) ?_ rfl rfl
  · simp only [badOffset_append, badOffset_cons, badOffset_nil, badOffset_reserved, badOffset_reservedBits_31, Bool.or_eq_false_iff,
      decide_eq_false_iff_not, Nat.not_lt, beq_eq_false_iff_ne]
    exact ⟨⟨⟨⟨henable, ⟨Nat.ne_of_gt hbpp, hbppMax⟩, hhyst, ⟨Nat.ne_of_gt hpoints, hpointsMax⟩, Nat.ne_of_gt htraces, trivial⟩,
      hignore⟩, hz⟩, hend⟩
  · exact (badOffset_cons _ _).2 ⟨decide_eq_false (Nat.not_lt.2 hfits), badOffset_nil⟩
  · rw [pmaskOf_taken]
    rfl

/-! ## CAL.SET_FIBRE (Table 12-7) -/

/-- Of its two members one writes and the other only claims (log 18): the calibration lands by whichever kind of sensing runs. -/
theorem calFibre_lands {f : Nat} {cfg : FibreCal} {ws : List Write}
    (hws : ws = [.claimOnly, .calFibre f cfg] ∨ ws = [.calFibre f cfg, .claimOnly]) (u : State) :
    each ws (fun w s => landWrite ws s.dt w s) (startDomains ws u) =
      let old := (getFibre f u).cal
      let coil := old.coilFirst != cfg.coilFirst || old.coilCells != cfg.coilCells
      modFibre f (fun x => { x with cal := cfg, restart := x.restart || (x.dts && coil) }) u := by
  rcases hws with rfl | rfl
  · rw [startDomains_none (by simp [domainsOf]) (by simp [needsUnits])]
    rfl
  · rw [startDomains_none (by simp [domainsOf]) (by simp [needsUnits])]
    rfl

theorem calSetFibre_configures {c : Cmd} {s : State} (h : Sent 0x1903 c s) (hu : c.unit < 2) (hp : fibrePresent c.unit s = true)
    (hindexLow : 1400000 ≤ c.u32 16) (hindexHigh : c.u32 16 ≤ 1600000) (hfix : c.u32 20 ≤ 4194304)
    (hcoil : c.u16 28 = 0 ∨ (8 ≤ c.u16 28 ∧ c.u16 28 ≤ 4096)) (hentry : c.u8 30 ≤ 63 ∨ c.u8 30 = 0xFF) (htype : c.u8 31 ≤ 1)
    (hz : ZeroBytes c.entry 52 64) :
    let cfg := fibreCalOf (ctxOf c s)
    let w : Write := .calFibre c.unit cfg
    let ms := if dtsRuns c.unit s then [member (ctxOf c s) 0xA c.unit 1 .claimOnly, member (ctxOf c s) 0xB c.unit 1 w]
      else [member (ctxOf c s) 0xA c.unit 1 w, member (ctxOf c s) 0xB c.unit 1 .claimOnly]
    Configures (.calSetFibre c) c s ms 0 fun u =>
      let old := (getFibre c.unit u).cal
      let coil := old.coilFirst != cfg.coilFirst || old.coilCells != cfg.coilCells
      modFibre c.unit (fun x => { x with cal := cfg, restart := x.restart || (x.dts && coil) }) u := by
  intro cfg w ms
  refine memberCommand_configures (exec_calSetFibre c s) h (unitWrong_below hu) ?_ (fibreAbsent_taken hp) rfl ?_ rfl
    (calFibre_lands ?_)
  · simp only [badOffset_append, badOffset_cons, badOffset_nil, badOffset_reserved, Bool.or_eq_false_iff, Bool.and_eq_false_iff,
      decide_eq_false_iff_not, Nat.not_lt, bne_eq_false_iff_eq]
    exact ⟨⟨⟨hindexLow, hindexHigh⟩, hfix, hcoil, hentry, htype, trivial⟩, hz⟩
  · rw [getFibre_taken]
    rfl
  · cases hdts : dtsRuns c.unit s with
    | true => exact .inl (by simp only [ms, hdts]; rfl)
    | false => exact .inr (by simp only [ms, hdts]; rfl)

/-! ## CUR.SET_BAND (Table 13-2, R270) -/

/-- The settings of a CUR.SET_BAND entry. -/
def bandOf (x : Ctx) : BandCfg :=
  { enable := x.u8 16 == 1, log2Win := x.u8 17, thresh := x.i16 18, ring := x.u16 20
    coef := (List.range 5).map fun i => x.i32 (24 + 4 * i) }

/-- Coefficients of 24 bits pass their checks. -/
theorem badOffset_coefs {x : Ctx} (h : ∀ i, i < 5 → badCoef (x.i32 (24 + 4 * i)) = false) :
    badOffset ((List.range 5).map fun i => (24 + 4 * i, badCoef (x.i32 (24 + 4 * i)))) = none := by
  rw [badOffset_none, List.forall_mem_map]
  exact fun i hi => h i (List.mem_range.1 hi)

theorem curSetBand_configures {c : Cmd} {s : State} (h : Sent 0x1302 c s) (hu : c.unit < 2) (hp : fibrePresent c.unit s = true)
    (henable : c.u8 16 ≤ 1) (hwindow : c.u8 17 ≤ 12) (hcoefs : ∀ i, i < 5 → badCoef (c.i32 (24 + 4 * i)) = false)
    (hring : notDataRing (c.u16 20) s = false) (hz : ZeroBytes c.entry 22 24) (hend : ZeroBytes c.entry 44 64) :
    Configures (.curSetBand c) c s [member (ctxOf c s) 0xA c.unit 1 (.curBand c.unit (bandOf (ctxOf c s)))] 0
      (modFibre c.unit fun x => bandReset { x with band := bandOf (ctxOf c s) }) := by
  refine clashCommand_writes (exec_curSetBand c s) h (unitWrong_below hu) ?_ ?_ (fibreAbsent_taken hp) rfl rfl rfl
  · rw [badOffset_append, badOffset_append, badOffset_append, badOffset_reserved, badOffset_reserved]
    simp only [badOffset_cons, badOffset_nil, decide_eq_false_iff_not, Nat.not_lt]
    exact ⟨⟨⟨⟨henable, hwindow, trivial⟩, badOffset_coefs hcoefs⟩, hz⟩, hend⟩
  · rw [badOffset_cons, notDataRing_taken]
    exact ⟨hring, badOffset_nil⟩

/-- Settles O39, command by command: the settings stated are `slotOf`, `gridOf`, `pmaskOf`, `fibreCalOf` and `bandOf` of the entry. -/
theorem dasConfigures : Obligations.DasConfigures :=
  ⟨fun _ _ => dasStart_starts, fun _ _ => dasStart_stops, fun _ _ => dasSetSlot_configures, fun _ _ => dasSetGrid_configures,
    fun _ _ => dasSetPmask_configures, fun _ _ => calSetFibre_configures, fun _ _ => curSetBand_configures⟩

end Sys2Proof.Machine

/-! # The rows of the generators and the laser

First what follows a play (`follow`) and what a latch makes of it, then the end of a play, underruns, and the trips of the laser. -/

namespace Sys2Proof.Machine

/-! ## The rows -/

theorem exec_genLatchPoint (t : DT) (d : Nat) (s : State) : exec (.genLatchPoint t d) s = .next (latchDue d (advance t s)) := rfl

/-! ## What follows a play (R207 to R209) -/

section
variable {tbl : List SeqEntry} {w : Walk} {e : SeqEntry} (he : tbl[w.entry]? = some e)
include he

theorem follow_stop (jump : Bool) : follow tbl w true jump = (none, 2) := by simp [follow, he]

theorem follow_jump : follow tbl w false true =
    (some ({ entry := e.jumpTo, plays := 1, loops := tput 0 w.loops w.entry 0 }, 1), 0) := by simp [follow, he]

/-- REPEATS 0 plays the entry until a condition acts. -/
theorem follow_endless (h : e.repeats = 0) : follow tbl w false false = (some (w, 0), 0) := by simp [follow, he, h]

theorem follow_again (h : w.plays < e.repeats) :
    follow tbl w false false = (some ({ w with plays := w.plays + 1 }, 0), 0) := by
  have hsome : e.repeats ≠ 0 := Nat.ne_zero_of_lt h
  simp [follow, he, h, hsome]

variable (hsome : 0 < e.repeats) (hplayed : e.repeats ≤ w.plays)
include hsome hplayed

/-- All repeats are played and passes of the loop are left. -/
theorem follow_loop (h : tget 0 w.loops w.entry < e.loopCount) : follow tbl w false false =
    (some ({ entry := e.loopTo, plays := 1, loops := tmod 0 w.loops w.entry (· + 1) }, 1), 0) := by
  simp [follow, he, Nat.ne_of_gt hsome, Nat.not_lt.2 hplayed, h]

variable (hlooped : e.loopCount ≤ tget 0 w.loops w.entry)
include hlooped

theorem follow_end (h : bit e.flags 8 = true) : follow tbl w false false = (none, 1) := by
  simp [follow, he, Nat.ne_of_gt hsome, Nat.not_lt.2 hplayed, Nat.not_lt.2 hlooped, h]

theorem follow_next (h : bit e.flags 8 = false) (hnext : e.next ≠ 0xFFFF) : follow tbl w false false =
    (some ({ entry := e.next, plays := 1, loops := tput 0 w.loops w.entry 0 }, 1), 0) := by
  simp [follow, he, Nat.ne_of_gt hsome, Nat.not_lt.2 hplayed, Nat.not_lt.2 hlooped, h, hnext]

end

/-! ## The latch point (R208, R209) -/

/-- Where the play of a generator stands in its table. -/
def walkOf (g : Gen) : Walk := { entry := g.entry, plays := g.plays, loops := g.loops }

/-- A latch changes nothing but its generator. -/
theorem genLatch_frame {d : Nat} {s : State} {e : SeqEntry} (he : (getGen d s).table[(getGen d s).entry]? = some e) :
    genLatch d s = modGen d (fun _ => getGen d (genLatch d s)) s := by
  have hlatch : ∃ f, genLatch d s = modGen d f s := by
    unfold genLatch
    simp only [he]
    exact ⟨_, rfl⟩
  obtain ⟨f, hf⟩ := hlatch
  rw [hf, getGen_modGen]
  rfl

/-- The pending bit that a latch consumes: that of the stop, or of the jump, that acts. -/
def usedBit (e : SeqEntry) (stop jump : Bool) : Option Nat :=
  if stop then condBit e.stopCond else if jump then condBit e.jumpCond else none

/-- The pending bits of a generator without a consumed one. -/
def unusedBits (g : Gen) (used : Option Nat) : List Nat := g.pending.filter fun b => used != some b

theorem unusedBits_none (g : Gen) : unusedBits g none = g.pending := List.filter_eq_self.2 fun _ _ => rfl

theorem unusedBits_some (g : Gen) (b : Nat) : unusedBits g (some b) = g.pending.filter (· != b) :=
  List.filter_congr fun a _ => by rw [bne, bne, Option.some_beq_some, BEq.comm]

section
variable {d : Nat} {s : State} {e : SeqEntry} {stop jump : Bool} (he : (getGen d s).table[(getGen d s).entry]? = some e)
  (hstop : condPending (getGen d s) e.stopCond = stop) (hjump : (!stop && condPending (getGen d s) e.jumpCond) = jump)
include he hstop hjump

/-- A latch after which the sequence stops. -/
theorem getGen_genLatch_stops {cause : Nat} (h : follow (getGen d s).table (walkOf (getGen d s)) stop jump = (none, cause)) :
    getGen d (genLatch d s) =
      { getGen d s with latched := some (none, cause), pending := unusedBits (getGen d s) (usedBit e stop jump) } := by
  rw [walkOf] at h
  simp only [genLatch, he, hstop, hjump, h, getGen_modGen, ← usedBit.eq_def, Option.map_none]
  cases usedBit e stop jump with
  | none => rw [unusedBits_none]
  | some b => rw [unusedBits_some]

/-- A latch after which another play begins. -/
theorem getGen_genLatch_goes {w : Walk} {kind cause : Nat}
    (h : follow (getGen d s).table (walkOf (getGen d s)) stop jump = (some (w, kind), cause)) :
    getGen d (genLatch d s) = { getGen d s with
      latched := some (some w.entry, kind), plays := w.plays, loops := w.loops
      pending := unusedBits (getGen d s) (usedBit e stop jump) } := by
  rw [walkOf] at h
  simp only [genLatch, he, hstop, hjump, h, getGen_modGen, ← usedBit.eq_def, Option.map_some]
  cases usedBit e stop jump with
  | none => rw [unusedBits_none]
  | some b => rw [unusedBits_some]

end

/-- Without a stop or a jump pending nothing is consumed. -/
theorem getGen_genLatch_unasked {d : Nat} {s : State} {e : SeqEntry} {w : Walk} {kind cause : Nat}
    (he : (getGen d s).table[(getGen d s).entry]? = some e) (hstop : condPending (getGen d s) e.stopCond = false)
    (hjump : condPending (getGen d s) e.jumpCond = false)
    (h : follow (getGen d s).table (walkOf (getGen d s)) false false = (some (w, kind), cause)) :
    getGen d (genLatch d s) =
      { getGen d s with latched := some (some w.entry, kind), plays := w.plays, loops := w.loops } := by
  rw [getGen_genLatch_goes he hstop hjump h, usedBit, if_neg Bool.false_ne_true, if_neg Bool.false_ne_true, unusedBits_none]

theorem latchDue_due {d : Nat} {s : State} (hrun : (getGen d s).running = true) (hopen : (getGen d s).latched = none)
    (hdue : dtLe (playEnd (getGen d s)) (dtAdd s.dt 512) = true) : latchDue d s = genLatch d s := if_pos ⟨hrun, hopen, hdue⟩

/-! ## The end of a play (R205, R209, R211) -/

theorem withEpoch_congr {d : Nat} {f h : State → State} {s : State} (hfh : f s = h s) : withEpoch d f s = withEpoch d h s := by
  rw [withEpoch, withEpoch, hfh]

/-- R54: what a segment start settles before the next play begins. -/
def segmentSettled (d : Nat) (u : State) : State := settle (fun b => b == .segment d || b == .epoch d || b == .stack d) u

theorem exec_genSegmentStart {t : DT} {d : Nat} {s : State} (hrun : (getGen d (segmentSettled d (advance t s))).running = true)
    (hend : playEnd (getGen d (segmentSettled d (advance t s))) = (segmentSettled d (advance t s)).dt) :
    exec (.genSegmentStart t d) s = .next (withEpoch d (genAdvance d) (segmentSettled d (advance t s))) :=
  congrArg Host.Outcome.next (if_pos ⟨hrun, hend⟩)

theorem genAdvance_begins {d e kind : Nat} {v : State} (h : (getGen d v).latched = some (some e, kind)) : let g := getGen d v
    genAdvance d v =
      playBegin d (playEnd g) { entry := e, plays := g.plays, loops := g.loops } (kind == 1) (playOut d (playOf g e) v) := by
  simp [genAdvance, h]

theorem genAdvance_stops {d cause : Nat} {v : State} (h : (getGen d v).latched = some (none, cause)) :
    genAdvance d v = genEnd d cause v := by simp [genAdvance, h]

/-! ## Underruns (R214) -/

theorem exec_generatorUnderrun {t : DT} {d : Nat} {s : State} (hrun : (getGen d (advance t s)).running = true)
    (hmissing : (getGen d (advance t s)).missing = none) :
    exec (.generatorUnderrun t d) s = .next (genUnderrun d (advance t s)) :=
  congrArg Host.Outcome.next (if_pos ⟨hrun, hmissing⟩)

/-- The granule that EV_GEN_UNDERRUN reports is the one that the row's DT falls into (log 21). -/
theorem genUnderrun_running {d : Nat} {u : State} (h : (getGen d u).running = true) : let g := getGen d u
    let r := resumeEntry g g.entry
    genUnderrun d u =
      event 0x0D01 2 d [(16, 1, d), (18, 2, g.entry), (20, 2, r.getD 0xFFFF), (24, 8, (granuleStart g u.dt).toNat)]
        (markUnderrun d (modGen d (fun g => { g with
          underruns := g.underruns + 1, plays := 1, loops := [], latched := some (r, if r.isSome then 1 else 4) }) u)) := if_pos h

/-! ## Trips of the laser (R236) -/

theorem laserCut_en (s : State) : (laserCut s).laser.en = false := by
  unfold laserCut
  split
  · rfl
  · next h => exact Bool.eq_false_iff.2 h

/-- A change of a fibre's launches leaves its DAC's owner. -/
theorem dacOwned_modFibre {f : Fibre → Fibre} (hdas : ∀ x, (f x).das = x.das) (hdts : ∀ x, (f x).dts = x.dts) (d n : Nat) (s : State) :
    dacOwned d (modFibre n f s) = dacOwned d s := by
  have hruns : fibreRuns d (modFibre n f s) = fibreRuns d s := by
    rw [fibreRuns, getFibre_modFibre_if]
    split
    · next h => rw [hdas, hdts, h, fibreRuns]
    · rfl
  rw [dacOwned, hruns]
  rfl

theorem dacOwned_laserSwitch (on : Bool) (d : Nat) (s : State) : dacOwned d (laserSwitch on s) = dacOwned d s := by
  rw [laserSwitch, each_keeps (dacOwned d)]
  · rfl
  · intro n u
    rw [dacOwned_modFibre]
    · exact fun _ => rfl
    · exact fun _ => rfl

theorem dacOwned_laserCut (d : Nat) (s : State) : dacOwned d (laserCut s) = dacOwned d s := by
  unfold laserCut
  split
  · exact dacOwned_laserSwitch false d _
  · rfl

/-- The part of a trip that concerns one DAC: it is latched there. -/
def latchTrip (measure d k : Nat) (s : State) : State :=
  if dacOwned k s && (k == d || measure == 4) then modGov k (fun g => { g with tripped := true, disarmed := false }) s else s

/-- A laser that is cut, with the trip that cut it. -/
def cutBy (measure d : Nat) (s : State) : State :=
  let v := laserCut s
  { v with laser := { v.laser with trip := measure, tripDac := d } }

theorem laserTrip_eq (measure d : Nat) (s : State) :
    laserTrip measure d s = latchTrip measure d 1 (latchTrip measure d 0 (cutBy measure d s)) := rfl

/-- What no governor holds is after a trip as after its cut. -/
theorem laserTrip_keeps {β : Type} (g : State → β) (h : ∀ k f u, g (modGov k f u) = g u) (measure d : Nat) (s : State) :
    g (laserTrip measure d s) = g (cutBy measure d s) := by
  have hone : ∀ k u, g (latchTrip measure d k u) = g u := fun k u => by
    rw [latchTrip]
    split
    · exact h k _ u
    · rfl
  rw [laserTrip_eq, hone, hone]

@[simp] theorem laserTrip_dt (measure d : Nat) (s : State) : (laserTrip measure d s).dt = s.dt :=
  (laserTrip_keeps (·.dt) (fun _ _ _ => rfl) measure d s).trans (laserCut_dt s)

theorem laserTrip_en (measure d : Nat) (s : State) : (laserTrip measure d s).laser.en = false :=
  (laserTrip_keeps (·.laser.en) (fun _ _ _ => rfl) measure d s).trans (laserCut_en s)

theorem laserTrip_trip (measure d : Nat) (s : State) : (laserTrip measure d s).laser.trip = measure :=
  laserTrip_keeps (·.laser.trip) (fun _ _ _ => rfl) measure d s

theorem laserTrip_tripDac (measure d : Nat) (s : State) : (laserTrip measure d s).laser.tripDac = d :=
  laserTrip_keeps (·.laser.tripDac) (fun _ _ _ => rfl) measure d s

theorem latchTrip_tripped {measure d : Nat} {s : State} (h : dacOwned d s = true) :
    (getGov d (latchTrip measure d d s)).tripped = true := by
  rw [latchTrip, h, beq_self_eq_true, Bool.true_or, Bool.and_self, if_pos rfl, getGov_modGov]

/-- The trip of one DAC leaves the governor of the other. -/
theorem getGov_latchTrip_other {measure d k n : Nat} {s : State} (h : n ≠ k) : getGov n (latchTrip measure d k s) = getGov n s := by
  rw [latchTrip]
  split
  · exact getGov_modGov_other k n _ s h
  · rfl

theorem dacOwned_latchTrip (measure d k n : Nat) (s : State) : dacOwned n (latchTrip measure d k s) = dacOwned n s := by
  rw [latchTrip]
  split
  · rfl
  · rfl

/-- The trip of an owned DAC is latched in its governor. -/
theorem laserTrip_tripped {measure d : Nat} {s : State} (hd : d < 2) (h : dacOwned d s = true) :
    (getGov d (laserTrip measure d s)).tripped = true := by
  have hcut : dacOwned d (cutBy measure d s) = true := (dacOwned_laserCut d s).trans h
  rw [laserTrip_eq]
  obtain rfl | rfl : d = 0 ∨ d = 1 := by omega
  · rw [getGov_latchTrip_other Nat.zero_ne_one, latchTrip_tripped hcut]
  · exact latchTrip_tripped ((dacOwned_latchTrip measure 1 0 1 _).trans hcut)

theorem exec_laserComparatorTrip {t : DT} {d measure : Nat} {s : State} (howned : dacOwned d (advance t s) = true)
    (hrun : (getGen d (advance t s)).running = true) (hcaps : (getGov d (advance t s)).caps.isSome = true) (hlow : 1 ≤ measure)
    (hhigh : measure ≤ 3) :
    exec (.laserComparatorTrip t d measure) s = .next (event 0x0E01 3 d
      [(16, 1, d), (17, 1, measure), (24, 8, (advance t s).dt.toNat)] (laserTrip measure d (advance t s))) :=
  congrArg Host.Outcome.next (if_pos ⟨howned, hrun, hcaps, hlow, hhigh⟩)

/-! ## LASER_PERMIT (R236) -/

/-- LASER_PERMIT as it reads from now on. -/
def permitNow (permit : Bool) (u : State) : State := { u with laser := { u.laser with permit := permit, permitAt := u.dt } }

theorem exec_laserPermitLow {t : DT} {s : State} (h : (advance t s).laser.permit = true) : let u := advance t s
    let v := permitNow false u
    let w := if dacOwned 0 u || dacOwned 1 u then laserTrip 4 0 v else v
    exec (.laserPermitLow t) s = .next (event 0x0E02 1 0xFFFF [(16, 1, 0), (24, 8, w.dt.toNat)] w) :=
  congrArg Host.Outcome.next (if_pos h)

theorem exec_laserPermitHigh {t : DT} {s : State} (h : (advance t s).laser.permit = false) : let u := advance t s
    exec (.laserPermitHigh t) s = .next (event 0x0E02 1 0xFFFF [(16, 1, 1), (24, 8, u.dt.toNat)] (permitNow true u)) :=
  congrArg Host.Outcome.next (if_neg (ne_true_of_eq_false h))

/-! ## The rows together -/

/-- Settles O51, row by row. Which granule an underrun reports is the model's choice (log 21). -/
theorem generatorEvents : Obligations.GeneratorEvents := by
  intro t s u
  refine ⟨?_, ?_, ?_, ?_, ?_, ?_, ?_⟩
  · intro d e g hrun hopen hdue he
    have hlatch : latchDue d u = genLatch d u := latchDue_due hrun hopen hdue
    refine ⟨genLatch d u, (exec_genLatchPoint t d s).trans (congrArg Host.Outcome.next hlatch),
      genLatch_frame he, fun hstop => ?_, fun hstop hjump => ?_, fun hstop hjump => ?_⟩
    · exact getGen_genLatch_stops he hstop rfl (follow_stop he _)
    · exact getGen_genLatch_goes he hstop hjump (follow_jump he)
    · refine ⟨fun h => ?_, fun h => ?_, fun hsome hplayed h => ?_, fun hsome hplayed hlooped h => ?_,
        fun hsome hplayed hlooped h hnext => ?_⟩
      · exact getGen_genLatch_unasked he hstop hjump (follow_endless he h)
      · exact getGen_genLatch_unasked he hstop hjump (follow_again he h)
      · exact getGen_genLatch_unasked he hstop hjump (follow_loop he hsome hplayed h)
      · rw [getGen_genLatch_stops he hstop hjump (follow_end he hsome hplayed hlooped h), usedBit, if_neg Bool.false_ne_true,
          if_neg Bool.false_ne_true, unusedBits_none]
      · exact getGen_genLatch_unasked he hstop hjump (follow_next he hsome hplayed hlooped h hnext)
  · intro d v g hrun hend
    have hrow := exec_genSegmentStart (t := t) (s := s) hrun hend
    exact ⟨fun e k hlatched => hrow.trans (congrArg Host.Outcome.next (withEpoch_congr (genAdvance_begins hlatched))),
      fun k hlatched => hrow.trans (congrArg Host.Outcome.next (withEpoch_congr (genAdvance_stops hlatched)))⟩
  · exact fun line hhigh => congrArg Host.Outcome.next (if_pos hhigh)
  · intro d g hrun hmissing r
    rw [exec_generatorUnderrun hrun hmissing, genUnderrun_running hrun]
  · intro d measure howned hrun hcaps hlow hhigh v
    exact ⟨exec_laserComparatorTrip howned hrun hcaps hlow hhigh, laserTrip_en measure d u, laserTrip_trip measure d u,
      laserTrip_tripDac measure d u, fun hd => laserTrip_tripped hd howned⟩
  · intro hpermit v
    refine ⟨fun hfree0 hfree1 => ?_, fun howned => ⟨?_, laserTrip_en 4 0 v, laserTrip_trip 4 0 v⟩⟩
    · rw [exec_laserPermitLow hpermit, if_neg (by rw [hfree0, hfree1]; decide)]
      rfl
    · rw [exec_laserPermitLow hpermit, if_pos (Bool.or_eq_true_iff.2 howned), laserTrip_dt]
      rfl
  · exact exec_laserPermitHigh

end Sys2Proof.Machine

/-! # The queue, the life-cycle fuses, and commands of the laser, the sensing blocks and the memory

What a step can do to the queue and the fuses follows from `step_change`. The configuration commands pass their checks and land by
`memberCommand_writes`; those that only PF0 may send are denied before anything else of them is judged. -/

namespace Sys2Proof.Machine

/-! ## The queue and the fuses (R377) -/

/-- No command touches the queue. -/
theorem pending_of_change {i : Instr} {s t : State} (h : Change i s t) : t.pending = s.pending := by
  cases h with
  | none hk => exact (kept_eq hk).2.2.2.2.2
  | reset hr => exact hr.2.2.1
  | fuses _ _ hq => exact hq
  | floor _ _ _ _ hq => exact hq
  | secure _ _ _ hm => exact hm.2.2.1
  | service _ hm => exact hm.2.2.1
  | resume _ hm => exact hm.2.2.1
  | retirn _ _ _ hm => exact hm.2.2.1
  | retire _ _ _ hm => exact hm.2.2.1

/-- Settles O1: it is the definition of a step. -/
theorem stepRunsFront : Obligations.StepRunsFront := fun _ _ _ => rfl

/-- Settles O4: an idle tick keeps the empty queue, and no command touches the queue's rest. -/
theorem queueIsFirstInFirstOut : Obligations.QueueIsFirstInFirstOut := by
  intro s
  cases hq : s.pending with
  | nil =>
    have hidle : (idleTick s).pending = s.pending := (kept_eq (kept_idleTick s)).2.2.2.2.2
    exact ⟨idleTick s, by rw [step, hq], hidle.trans hq⟩
  | cons i rest =>
    obtain ⟨t, ht, hchange⟩ := exec_change i { s with pending := rest }
    exact ⟨t, by rw [step, hq]; exact ht, pending_of_change hchange⟩

/-- The fuses below a LC_STATE that reads SECURED or SERVICE read SECURED. -/
theorem fuses_secured {s : State} (hs : StoneSafe s) (h : s.stone.lifeCycle = .secured ∨ s.stone.lifeCycle = .service) :
    s.fuse.lifeCycle = .secured := by
  obtain ⟨hagree, hnever, -, -⟩ := hs
  rcases hagree with heq | ⟨-, hfuse⟩
  · rcases h with hsec | hserv
    · exact heq.symm.trans hsec
    · exact absurd (heq.symm.trans hserv) hnever
  · exact hfuse

/-- The fuses agree with a LC_STATE other than SERVICE. -/
theorem fuses_agree {s : State} {l : LifeCycle} (hs : StoneSafe s) (h : s.stone.lifeCycle = l) (hl : l ≠ .service) :
    s.fuse.lifeCycle = l := by
  rcases hs.1 with heq | ⟨hserv, -⟩
  · exact heq.symm.trans h
  · exact absurd (h.symm.trans hserv) hl

/-- R377: the fuses stay, or one of the three LC commands that burn them moves them along Table 19-5. -/
theorem fuses_of_change {i : Instr} {s t : State} (hs : StoneSafe s) (h : Change i s t) :
    t.fuse.lifeCycle = s.fuse.lifeCycle ∨
      (Burns s.fuse.lifeCycle t.fuse.lifeCycle ∧ ∃ c, i = .lcSecure c ∨ i = .lcReturn c ∨ i = .lcRetire c) := by
  cases h with
  | none hk => exact .inl (kept_eq hk).1
  | reset hr => exact .inl hr.1
  | fuses hfuse => exact .inl hfuse
  | floor _ _ _ hfuse => exact .inl hfuse
  | secure c hi hstate hm =>
    exact .inr ⟨.inl ⟨fuses_agree hs hstate (by decide), hm.1⟩, c, .inl hi⟩
  | service _ hm => exact .inl hm.1
  | resume hstate hm => exact .inl (hm.1.trans (fuses_secured hs (.inr hstate)).symm)
  | retirn c hi hstate hm =>
    exact .inr ⟨.inr (.inl ⟨fuses_secured hs (.inr hstate), .inl hm.1⟩), c, .inr (.inl hi)⟩
  | retire c hi hstate hm =>
    refine .inr ⟨.inr ?_, c, .inr (.inr hi)⟩
    rcases hstate with hsec | hserv | hret
    · exact .inl ⟨fuses_secured hs (.inl hsec), .inr hm.1⟩
    · exact .inl ⟨fuses_secured hs (.inr hserv), .inr hm.1⟩
    · exact .inr ⟨fuses_agree hs hret (by decide), hm.1⟩

/-- Settles O7: what `fuses_of_change` says of the command at the front. -/
theorem lifeCycleFusesOnlyBurn : Obligations.LifeCycleFusesOnlyBurn := by
  intro s t hs h
  rcases step_change h with hk | ⟨i, rest, hq, hchange⟩
  · exact .inl (kept_eq hk).1
  · have hsRest : StoneSafe { s with pending := rest } := hs
    refine (fuses_of_change hsRest hchange).imp_right fun ⟨hburns, c, hi⟩ => ⟨hburns, c, ?_⟩
    rw [hq]
    simpa using hi

/-! ## Commands that the Ethernet endpoint may not send (Table 2-18, R328) -/

/-- A command that only PF0 may send is denied from elsewhere before anything else of it is judged. -/
theorem takeCommand_denied {op : Nat} {c : Cmd} {s : State} {i : Instr} {go : Ctx → State → State}
    (hm : (getRing c.ring s).master ≠ .pf0) (hi : exec i s = .next (takeCommand op (pf0Only go) c s)) (h : Sent op c s) :
    exec i s = .next (fail (ctxOf c s).ref stDenied (lcCode s.stone.lifeCycle) (taken c s)) := by
  rw [hi, takeCommand_sent _ h, pf0Only, if_neg (c := (ctxOf c s).master = .pf0) hm, taken_stone]

/-- Settles O19. -/
theorem privilegedCommandsDenied : Obligations.PrivilegedCommandsDenied := fun _ _ hm =>
  ⟨takeCommand_denied hm rfl, takeCommand_denied hm rfl, fun _ => takeCommand_denied hm rfl, takeCommand_denied hm rfl,
    takeCommand_denied hm rfl, takeCommand_denied hm rfl, takeCommand_denied hm rfl, takeCommand_denied hm rfl,
    takeCommand_denied hm rfl, takeCommand_denied hm rfl, takeCommand_denied hm rfl⟩

/-! ## STATUS commands with free values (logs 4, 40) -/

theorem exec_excStatus (c : Cmd) (s : State) : exec (.excStatus c) s = .next (excStatus c s) := rfl
theorem exec_netStatus (c : Cmd) (s : State) : exec (.netStatus c) s = .next (netStatus c s) := rfl
theorem exec_healthStatus (c : Cmd) (s : State) : exec (.healthStatus c) s = .next (healthStatus c s) := rfl

theorem sent_draw {op : Nat} {c : Cmd} {s : State} (h : Sent op c s) : Sent op c (draw s).2 := h

/-- The two free values of EXC.STATUS are drawn before the command is taken. -/
theorem excStatus_answers {c : Cmd} {s : State} (hz : ZeroBytes c.entry 24 64) (h : Sent 0x1202 c s) (hu : c.unit < 4)
    (hal : Alone c.unit c) :
    let a := draw s
    let b := draw a.2
    exec (.excStatus c) s = .next (done c b.2 0 (toHost (c.u64 16) (excStatusRecord c.unit a.1 b.1 (taken c b.2)) (taken c b.2))) := by
  intro a b
  rw [exec_excStatus, excStatus]
  exact congrArg Host.Outcome.next (statusCommand_present _ (sent_draw (sent_draw h)) hal (unitWrong_below hu) hz rfl)

theorem netStatus_answers {c : Cmd} {s : State} (hz : ZeroBytes c.entry 24 64) (h : Sent 0x1605 c s) (hu : c.unit < 4)
    (hal : Alone c.unit c) :
    let u := taken c s
    let a := draw u
    let b := draw a.2
    exec (.netStatus c) s = .next (if (getPort c.unit u).fec = 0 then done c s 0 (toHost (c.u64 16) (netRecord c.unit 0 0 u) u)
      else done c s 0 (toHost (c.u64 16) (netRecord c.unit a.1 b.1 b.2) b.2)) := by
  intro u a b
  rw [exec_netStatus, netStatus, plainCommand_sent _ _ h hal (unitWrong_below hu) ((badOffset_reserved _ _ _).2 hz)]
  rfl

theorem dispStatus_answers {c : Cmd} {s : State} (hz : ZeroBytes c.entry 24 64) (h : Sent 0x1706 c s) (hal : Alone 0 c)
    (hp : s.fuse.display = true) :
    let v := draw (taken c s)
    exec (.dispStatus c) s = .next (done c s 0 (toHost (c.u64 16) (dispRecord v.1 v.2) v.2)) := by
  rw [exec_dispStatus, dispStatus, plainCommand_sent _ _ h hal rfl ((badOffset_reserved _ _ _).2 hz),
    if_neg (by simp [displayAbsent, hp])]
  rfl

theorem healthStatus_answers {c : Cmd} {s : State} (hz : ZeroBytes c.entry 24 64) (h : Sent 0x1801 c s) (hal : Alone 0xFFFF c) :
    let v := draw (taken c s)
    exec (.healthStatus c) s = .next (done c s 0 (toHost (c.u64 16) (healthRecord v.1 v.2) v.2)) := by
  rw [exec_healthStatus, healthStatus, plainCommand_sent _ _ h hal rfl ((badOffset_reserved _ _ _).2 hz)]
  rfl

/-- Settles O27, command by command. -/
theorem freeStatusCommands : Obligations.FreeStatusCommands := fun _ _ hz =>
  ⟨excStatus_answers hz, netStatus_answers hz, fun h _ => dispStatus_answers hz h, healthStatus_answers hz⟩

/-! ## LASER commands (Table 11-7, R234 to R236) -/

theorem exec_laserSetModcal (c : Cmd) (s : State) : exec (.laserSetModcal c) s = .next (laserSetModcal c s) := rfl
theorem exec_laserSetCaps (c : Cmd) (s : State) : exec (.laserSetCaps c) s = .next (laserSetCaps c s) := rfl
theorem exec_laserArm (c : Cmd) (s : State) : exec (.laserArm c) s = .next (laserArm c s) := rfl

theorem laserSetModcal_configures {c : Cmd} {s : State} (h : Sent 0x0E01 c s) (hu : c.unit < 2) (hp : dacPresent c.unit s = true)
    (hz : ZeroBytes c.entry 20 24) (hend : ZeroBytes c.entry 32 64) :
    let table := readU16s s.host (c.u64 24) 257
    Configures (.laserSetModcal c) c s [member (ctxOf c s) 9 c.unit 1 (.laserModcal c.unit (c.u32 16) table)] 0
      (modGov c.unit fun g => { g with modcal := some (c.u32 16, table) }) := by
  refine memberCommand_writes (exec_laserSetModcal c s) h (unitWrong_below hu) ?_ (dacAbsent_taken hp) ?_ rfl rfl
  · rw [badOffset_append, badOffset_reserved, badOffset_reserved]
    exact ⟨hz, hend⟩
  · rw [← taken_host c s]
    rfl

theorem laserSetCaps_configures {c : Cmd} {s : State} (h : Sent 0x0E02 c s) (hu : c.unit < 2) (hp : dacPresent c.unit s = true)
    (hpulse : 2048 ≤ c.u64 24) (hpulseMax : c.u64 24 ≤ 20480000) (havg : 20480000 ≤ c.u64 40) (havgMax : c.u64 40 ≤ 20480000000)
    (hz : ZeroBytes c.entry 36 40) (hend : ZeroBytes c.entry 48 64) :
    let cfg : LaserCaps := { peak := c.u32 16, pulse := c.u32 20, pulseWindow := c.u64 24, avg := c.u32 32, avgWindow := c.u64 40 }
    Configures (.laserSetCaps c) c s [member (ctxOf c s) 9 c.unit 1 (.laserCaps c.unit cfg)] 0
      (modGov c.unit fun g => { g with caps := some cfg }) := by
  refine memberCommand_writes (exec_laserSetCaps c s) h (unitWrong_below hu) ?_ (dacAbsent_taken hp) rfl rfl rfl
  simp only [badOffset_append, badOffset_cons, badOffset_nil, badOffset_reserved, Bool.or_eq_false_iff, decide_eq_false_iff_not,
    Nat.not_lt]
  exact ⟨⟨⟨⟨hpulse, hpulseMax⟩, ⟨havg, havgMax⟩, trivial⟩, hz⟩, hend⟩

theorem laserArm_configures {c : Cmd} {s : State} (h : Sent 0x0E03 c s) (hu : c.unit < 2) (hp : dacPresent c.unit s = true)
    (haction : c.u8 16 ≤ 1) (hz : ZeroBytes c.entry 17 64) :
    Configures (.laserArm c) c s [member (ctxOf c s) 9 c.unit 1 (.laserArm c.unit (c.u8 16 == 1))] 0
      (laserArmLand c.unit (c.u8 16 == 1)) := by
  refine memberCommand_writes (exec_laserArm c s) h (unitWrong_below hu) ?_ (dacAbsent_taken hp) rfl rfl rfl
  rw [badOffset_cons]
  exact ⟨decide_eq_false (Nat.not_lt.2 haction), (badOffset_reserved _ _ _).2 hz⟩

/-- Settles O38, command by command. -/
theorem laserConfigures : Obligations.LaserConfigures :=
  ⟨fun _ _ => laserSetModcal_configures, fun _ _ => laserSetCaps_configures, fun _ _ => laserArm_configures⟩

/-! ## DTS, SLOW and EXC commands (Tables 12-4, 12-7, R237 to R257) -/

theorem exec_dtsStart (c : Cmd) (s : State) : exec (.dtsStart c) s = .next (dtsStart c s) := rfl
theorem exec_dtsSet (c : Cmd) (s : State) : exec (.dtsSet c) s = .next (dtsSet c s) := rfl
theorem exec_slowSetScan (c : Cmd) (s : State) : exec (.slowSetScan c) s = .next (slowSetScan c s) := rfl
theorem exec_slowStart (c : Cmd) (s : State) : exec (.slowStart c) s = .next (slowStart c s) := rfl
theorem exec_excSet (c : Cmd) (s : State) : exec (.excSet c) s = .next (excSet c s) := rfl

theorem landsStarted_dtsStart (f : Nat) (u : State) : let v := startDomains [.dtsStart f] u
    each [.dtsStart f] (fun x s => landWrite [.dtsStart f] s.dt x s) v = dtsLand f v := rfl

/-- A fibre has two receivers. -/
theorem both_receivers {P : Nat → Prop} {f : Nat} (h0 : P (2 * f)) (h1 : P (2 * f + 1)) : ∀ k, k < 2 → P (2 * f + k)
  | 0, _ => h0
  | 1, _ => h1

theorem dtsStart_starts {c : Cmd} {s : State} (h : Sent 0x1001 c s) (hu : c.unit < 2) (haction : c.u8 16 = 1)
    (hp0 : orxHealthy (2 * c.unit) s = true) (hp1 : orxHealthy (2 * c.unit + 1) s = true) (hdac : dacHealthy c.unit s = true)
    (hz : ZeroBytes c.entry 17 64) :
    Configures (.dtsStart c) c s [member (ctxOf c s) 0xB c.unit 1 (.dtsStart c.unit)] 0
      fun u => dtsLand c.unit (startDomains [.dtsStart c.unit] u) := by
  refine memberCommand_configures (exec_dtsStart c s) h (unitWrong_below hu) ?_ (startAbsent_of_healthy ?_ ?_) rfl ?_ rfl
    (landsStarted_dtsStart c.unit)
  · rw [badOffset_cons, badOffset_reserved, decide_eq_false_iff_not, Nat.not_lt]
    exact ⟨haction.le, hz⟩
  · exact fun k hk => (orxHealthy_taken _ c s).trans (both_receivers (P := (orxHealthy · s = true)) hp0 hp1 k hk)
  · rwa [dacHealthy_taken]
  · rw [ctxOf_u8, if_pos haction]
    rfl

theorem dtsStart_stops {c : Cmd} {s : State} (h : Sent 0x1001 c s) (hu : c.unit < 2) (haction : c.u8 16 = 0)
    (hp0 : orxPresent (2 * c.unit) s = true) (hp1 : orxPresent (2 * c.unit + 1) s = true) (hz : ZeroBytes c.entry 17 64) :
    Configures (.dtsStart c) c s [member (ctxOf c s) 0xB c.unit 1 (.dtsStop c.unit)] 0
      fun u => if dtsRuns c.unit u then fibreStop c.unit u else u := by
  refine memberCommand_writes (exec_dtsStart c s) h (unitWrong_below hu) ?_ (startAbsent_of_stop haction ?_) ?_ rfl rfl
  · rw [badOffset_cons, badOffset_reserved, decide_eq_false_iff_not, Nat.not_lt]
    exact ⟨haction.trans_le (Nat.zero_le 1), hz⟩
  · exact fun k hk => (orxPresent_taken _ c s).trans (both_receivers (P := (orxPresent · s = true)) hp0 hp1 k hk)
  · rw [ctxOf_u8, haction]
    rfl

theorem dtsSet_configures {c : Cmd} {s : State} (h : Sent 0x1002 c s) (hu : c.unit < 2) (hp : fibrePresent c.unit s = true)
    (hstep : 1 ≤ c.u16 18) (hstepMax : c.u16 18 ≤ 64) (hpositions : 1 ≤ c.u32 28) (hpositionsMax : c.u32 28 ≤ 262144)
    (hparts : 1 ≤ c.u16 32) (hpartsMax : c.u16 32 ≤ 4096) (hcontent : c.u8 34 < 4) (hring : notDataRing (c.u16 36) s = false)
    (hz : ZeroBytes c.entry 35 36) (hend : ZeroBytes c.entry 38 64) :
    let cfg := dtsCfgOf (ctxOf c s)
    Configures (.dtsSet c) c s [member (ctxOf c s) 0xB c.unit 1 (.dtsSet c.unit cfg)] 0 fun u =>
      let old := (getFibre c.unit u).dtsCfg
      let grid := old.firstCell != cfg.firstCell || old.positions != cfg.positions || old.step != cfg.step
      modFibre c.unit (fun x => { x with dtsCfg := cfg, restart := x.restart || grid }) u := by
  refine clashCommand_writes (exec_dtsSet c s) h (unitWrong_below hu) ?_ ?_ (fibreAbsent_taken hp) rfl rfl rfl
  · rw [badOffset_append, badOffset_append, badOffset_append, badOffset_reserved, badOffset_reserved, badOffset_reservedBits_3]
    simp only [badOffset_cons, badOffset_nil, Bool.or_eq_false_iff, decide_eq_false_iff_not, beq_eq_false_iff_ne, Nat.not_lt]
    exact ⟨⟨⟨⟨⟨Nat.ne_of_gt hstep, hstepMax⟩, ⟨Nat.ne_of_gt hpositions, hpositionsMax⟩, ⟨Nat.ne_of_gt hparts, hpartsMax⟩, trivial⟩,
      hcontent⟩, hz⟩, hend⟩
  · rw [badOffset_cons, notDataRing_taken]
    exact ⟨hring, badOffset_nil⟩

@[simp] theorem scanTableOf_taken (x : Ctx) (c : Cmd) (s : State) : scanTableOf x (taken c s) = scanTableOf x s := by
  simp [scanTableOf]

/-- Table 12-4: a scan table with no wrong entry. -/
theorem scanTable_right {c : Cmd} {s : State}
    (h : ∀ i, i < c.u8 16 → ∀ k ∈ scanChecks (readLe s.host (c.u64 24 + 16 * i) 16), k.2 = false) :
    ((scanTableOf (ctxOf c s) s).any fun v => (scanChecks v).any (·.2)) = false := by
  rw [scanTableOf, List.any_map, List.any_eq_false]
  intro i hi
  rw [Function.comp_apply, Bool.not_eq_true, List.any_eq_false]
  exact fun k hk => ne_true_of_eq_false (h i (List.mem_range.1 hi) k hk)

theorem slowSetScan_configures {c : Cmd} {s : State} (h : Sent 0x1101 c s) (hu : c.unit = 0) (hsome : 1 ≤ c.u8 16)
    (hmax : c.u8 16 ≤ 64) (hline : c.u8 17 = 50 ∨ c.u8 17 = 60) (hring : notDataRing (c.u16 18) s = false)
    (hsize : (getRing (c.u16 18) s).entrySize = 64) (hz : ZeroBytes c.entry 20 24) (hend : ZeroBytes c.entry 32 64)
    (hentries : ∀ i, i < c.u8 16 → ∀ k ∈ scanChecks (readLe s.host (c.u64 24 + 16 * i) 16), k.2 = false) :
    let entries := (List.range (c.u8 16)).map fun i => scanEntryOf (readLe s.host (c.u64 24 + 16 * i) 16)
    Configures (.slowSetScan c) c s [member (ctxOf c s) 0xC 0 1 (.slowScan entries (c.u8 17) (c.u16 18))] 0
      (scanLand entries (c.u8 17) (c.u16 18)) := by
  intro entries
  have htable : (scanTableOf (ctxOf c s) s).map scanEntryOf = entries := List.map_map ..
  refine memberCommand_writes (exec_slowSetScan c s) h (unitWrong_below (by omega)) ?_ rfl ?_ rfl rfl
  · simp only [badOffset_append, badOffset_cons, badOffset_nil, badOffset_reserved, scanTableOf_taken, notDataRing_taken,
      taken_ring_entrySize, Bool.or_eq_false_iff, Bool.and_eq_false_iff, decide_eq_false_iff_not, beq_eq_false_iff_ne,
      bne_eq_false_iff_eq, Nat.not_lt]
    exact ⟨⟨⟨⟨Nat.ne_of_gt hsome, hmax⟩, hline, ⟨hring, hsize⟩, .inr (scanTable_right hentries), trivial⟩, hz⟩, hend⟩
  · rw [scanTableOf_taken, htable]
    rfl

theorem slowStart_starts {c : Cmd} {s : State} (h : Sent 0x1102 c s) (hu : c.unit = 0) (haction : c.u8 16 = 1)
    (htable : (planned (taken c s)).slow.table ≠ []) (hz : ZeroBytes c.entry 17 64) :
    Configures (.slowStart c) c s [member (ctxOf c s) 0xC 0 1 .slowStart] 0 scanStartLand := by
  refine memberCommand_writes (exec_slowStart c s) h (unitWrong_below (by omega)) ?_ rfl ?_ rfl rfl
  · rw [badOffset_cons, badOffset_reserved, ctxOf_u8, haction, List.isEmpty_eq_false_iff.2 htable]
    exact ⟨rfl, hz⟩
  · rw [ctxOf_u8, if_pos haction]

theorem slowStart_stops {c : Cmd} {s : State} (h : Sent 0x1102 c s) (hu : c.unit = 0) (haction : c.u8 16 = 0)
    (hz : ZeroBytes c.entry 17 64) :
    Configures (.slowStart c) c s [member (ctxOf c s) 0xC 0 1 .slowStop] 0 scanStopLand := by
  refine memberCommand_writes (exec_slowStart c s) h (unitWrong_below (by omega)) ?_ rfl ?_ rfl rfl
  · rw [badOffset_cons, badOffset_reserved, ctxOf_u8, haction]
    exact ⟨rfl, hz⟩
  · rw [ctxOf_u8, haction]
    rfl

theorem excSet_configures {c : Cmd} {s : State} (h : Sent 0x1201 c s) (hu : c.unit < 4) (henable : c.u8 16 ≤ 1)
    (hperiod : c.u16 18 ≤ 3600) (hcap : 1 ≤ c.u32 20) (hcapMax : c.u32 20 ≤ 20000) (hz : ZeroBytes c.entry 17 18)
    (hend : ZeroBytes c.entry 24 64) :
    let cfg : ExcCfg := { enable := c.u8 16 == 1, impPeriod := c.u16 18, cMax := c.u32 20 }
    Configures (.excSet c) c s [member (ctxOf c s) 0xD c.unit 1 (.excSet c.unit cfg)] 0 (excLand c.unit cfg) := by
  refine memberCommand_writes (exec_excSet c s) h (unitWrong_below hu) ?_ rfl rfl rfl rfl
  simp only [badOffset_append, badOffset_cons, badOffset_nil, badOffset_reserved, Bool.or_eq_false_iff, decide_eq_false_iff_not,
    beq_eq_false_iff_ne, Nat.not_lt]
  exact ⟨⟨⟨henable, hperiod, ⟨Nat.ne_of_gt hcap, hcapMax⟩, trivial⟩, hz⟩, hend⟩

/-- Settles O40, command by command. -/
theorem sensingConfigures : Obligations.SensingConfigures :=
  ⟨fun _ _ => dtsStart_starts, fun _ _ => dtsStart_stops, fun _ _ => dtsSet_configures, fun _ _ => slowSetScan_configures,
    fun _ _ => slowStart_starts, fun _ _ => slowStart_stops, fun _ _ => excSet_configures⟩

end Sys2Proof.Machine

/-! # Commands of the DMA channels, the memory, the links and the display

What a plain command does past its checks is its definition; what a configuration command of the display sets is `modeOf` and
`layerOf` of its entry. -/

namespace Sys2Proof.Machine

/-! ## DMA commands (Table 14-8, R276, R277, R282, R284, R290) -/

theorem exec_dmaSet (c : Cmd) (s : State) : exec (.dmaSet c) s = .next (dmaSet c s) := rfl
theorem exec_dmaStart (c : Cmd) (s : State) : exec (.dmaStart c) s = .next (dmaStart c s) := rfl
theorem exec_dmaRequest (c : Cmd) (s : State) : exec (.dmaRequest c) s = .next (dmaRequest c s) := rfl

/-- A change of a channel rests on what the channel is. -/
theorem modChan_congr {n : Nat} {f g : Channel → Channel} {s : State} (h : f (getChan n s) = g (getChan n s)) :
    modChan n f s = modChan n g s := by
  have h' : f (tget {} s.dma.channels n) = g (tget {} s.dma.channels n) := h
  rw [modChan, modChan, tmod, tmod, h']

theorem any_badRing {ns : List Nat} {s : State} (h : ∀ n ∈ ns, badRing n s = false) : (ns.any fun n => badRing n s) = false :=
  List.any_eq_false.2 fun n hn => ne_true_of_eq_false (h n hn)

/-- Table 14-5: every line that is named is listed. -/
theorem any_badLine {ls : List Nat} (h : ∀ l ∈ ls, l = 0xFFFF ∨ lineListed l = true) :
    (ls.any fun l => l != 0xFFFF && !lineListed l) = false := by
  rw [List.any_eq_false]
  intro l hl
  rcases h l hl with rfl | hlisted
  · simp
  · simp [hlisted]

/-- R276: a channel that is not set up, stopped or in error takes a binding of which nothing is bound already. -/
theorem dmaSet_binds {c : Cmd} {s : State} (h : Sent 0x1401 c s) (hu : c.unit < 224) (hal : Alone c.unit c)
    (hz : ZeroBytes c.entry 36 40) (hfunction : c.u8 16 ≤ 1) (hspace : c.u8 17 ≤ 1) (hbase : c.u64 40 % 4096 = 0)
    (hprogram : c.u64 48 % 16 = 0) (hbellLow : 3 ≤ c.u16 18) (hbellHigh : c.u16 18 ≤ 8191)
    (hbellFree : (getRing (c.u16 18) s).created = false)
    (hlines : ∀ l ∈ (bindingOf (ctxOf c s)).lines, l = 0xFFFF ∨ lineListed l = true)
    (hrings : ∀ r ∈ (bindingOf (ctxOf c s)).prodRings ++ (bindingOf (ctxOf c s)).consRings, badRing r s = false) :
    let u := taken c s
    let b := bindingOf (ctxOf c s)
    ((getChan c.unit u).state = 0 ∨ (getChan c.unit u).state = 4 ∨ (getChan c.unit u).state = 5) →
    bindingTaken c.unit b u = false →
    exec (.dmaSet c) s = .next (done c s 0 (bindRings c.unit b (modChan c.unit (fun _ => b) u))) := by
  intro u b hstate hfree
  have hidle : ¬(((getChan c.unit u).state ≠ 0 ∧ (getChan c.unit u).state ≠ 4 ∧ (getChan c.unit u).state ≠ 5) ∨
      bindingTaken c.unit b u = true) := by
    rw [hfree, or_iff_left Bool.false_ne_true]
    omega
  have hprod := any_badRing fun r hr => (badRing_taken r c s).trans (hrings r (List.mem_append_left _ hr))
  have hcons := any_badRing fun r hr => (badRing_taken r c s).trans (hrings r (List.mem_append_right _ hr))
  rw [exec_dmaSet, dmaSet, plainCommand_sent _ _ h hal (unitWrong_below hu)]
  · exact congrArg Host.Outcome.next (if_neg hidle)
  · simp only [badOffset_append, badOffset_cons, badOffset_nil, badOffset_reserved, taken_ring_created, hprod, hcons,
      any_badLine hlines, Bool.or_eq_false_iff, decide_eq_false_iff_not, bne_eq_false_iff_eq, Nat.not_lt]
    exact ⟨⟨hfunction, hspace, ⟨⟨hbellLow, hbellHigh⟩, hbellFree⟩, trivial, trivial, trivial, hbase, hprogram, trivial⟩, hz⟩

/-- The checks of a DMA.START of a channel that is set up. -/
theorem dmaStart_right {c : Cmd} {s : State} (haction : c.u8 16 ≤ 2) (hset : (getChan c.unit (taken c s)).isSet = true)
    (hz : ZeroBytes c.entry 17 64) :
    badOffset ([(10, decide (c.unit < 224) && !(getChan c.unit (taken c s)).isSet), (16, decide (2 < c.u8 16))] ++
      reserved c.entry 17 64) = none := by
  simp only [badOffset_append, badOffset_cons, badOffset_nil, badOffset_reserved, hset, decide_eq_false_iff_not, Nat.not_lt]
  exact ⟨⟨Bool.and_false _, haction, trivial⟩, hz⟩

/-- R277, R282: a channel that stands starts at its program, or goes on. -/
theorem dmaStart_starts {c : Cmd} {s : State} (h : Sent 0x1402 c s) (hu : c.unit < 224) (hal : Alone c.unit c)
    (hz : ZeroBytes c.entry 17 64) (haction : c.u8 16 = 1 ∨ c.u8 16 = 2) :
    let u := taken c s
    (getChan c.unit u).isSet = true → (getChan c.unit u).state ≠ 1 → (getChan c.unit u).state ≠ 2 → dmaAdmission c.unit u = none →
    exec (.dmaStart c) s = .next (done c s 0 (modChan c.unit (fun k =>
      if c.u8 16 = 1 then { k with state := 1, counters := [], pos := k.program, posSpace := k.programSpace, moved := 0
                                   remaining := 0, done := false, refetch := false }
      else { k with state := 1, done := false, refetch := k.state == 3 }) u)) := by
  intro u hset hrun hwait hadmits
  have hstart : ¬(ctxOf c s).u8 16 = 0 := by rw [ctxOf_u8]; omega
  have hidle : ¬((getChan (ctxOf c s).unit u).state = 1 ∨ (getChan (ctxOf c s).unit u).state = 2) := not_or.2 ⟨hrun, hwait⟩
  rw [exec_dmaStart, dmaStart, plainCommand_sent _ _ h hal (unitWrong_below hu) (dmaStart_right (by omega) hset hz)]
  rw [if_neg hstart, if_neg hidle, ctxOf_unit, hadmits]
  rfl

/-- R290: a channel without a transfer stops at once. -/
theorem dmaStart_stops {c : Cmd} {s : State} (h : Sent 0x1402 c s) (hu : c.unit < 224) (hal : Alone c.unit c)
    (hz : ZeroBytes c.entry 17 64) (haction : c.u8 16 = 0) :
    let u := taken c s
    (getChan c.unit u).isSet = true → (getChan c.unit u).transfer = none →
    exec (.dmaStart c) s = .next (done c s 0 (modChan c.unit (fun k =>
      { k with state := if (getChan c.unit u).state = 0 then 0 else 4, wait := none }) u)) := by
  intro u hset hnone
  have hstanding : ¬(getChan c.unit u).transfer.isSome = true := by rw [hnone]; exact Bool.false_ne_true
  rw [exec_dmaStart, dmaStart, plainCommand_sent _ _ h hal (unitWrong_below hu) (dmaStart_right (by omega) hset hz),
    if_pos (c := (ctxOf c s).u8 16 = 0) haction, dmaHalt, ctxOf_unit, if_neg hstanding]
  exact congrArg (fun v => Host.Outcome.next (done c s 0 v)) (modChan_congr rfl)

theorem dmaRequest_raises {c : Cmd} {s : State} (h : Sent 0x1404 c s) (hal : Alone 0xFFFF c) (hlow : 256 ≤ c.u16 16)
    (hhigh : c.u16 16 ≤ 447) (hcount : 1 ≤ c.u16 18) (hz : ZeroBytes c.entry 20 64) :
    exec (.dmaRequest c) s = .next (done c s 0 (raiseLine (c.u16 16) (c.u16 18) (taken c s))) := by
  rw [exec_dmaRequest, dmaRequest, plainCommand_sent _ _ h hal rfl]
  · rfl
  · simp only [badOffset_append, badOffset_cons, badOffset_nil, badOffset_reserved, Bool.or_eq_false_iff, decide_eq_false_iff_not,
      beq_eq_false_iff_ne, Nat.not_lt]
    exact ⟨⟨⟨hlow, hhigh⟩, Nat.ne_of_gt hcount, trivial⟩, hz⟩

/-- Settles O28, command by command: the binding stated is `bindingOf` of the entry. -/
theorem dmaCommands : Obligations.DmaCommands := by
  refine ⟨?_, fun _ _ => dmaStart_starts, fun _ _ => dmaStart_stops, fun _ _ => dmaRequest_raises⟩
  intro c s h hu hal hz hfunction hspace hbase hprogram b hbellLow hbellHigh hbellFree hlines hrings
  exact dmaSet_binds h hu hal hz hfunction hspace hbase hprogram hbellLow hbellHigh hbellFree hlines hrings

/-! ## MEM commands (Table 15-7, R301, R303 to R306, R309, R311) -/

theorem exec_memSetFreq (c : Cmd) (s : State) : exec (.memSetFreq c) s = .next (memSetFreq c s) := rfl
theorem exec_memSetIdle (c : Cmd) (s : State) : exec (.memSetIdle c) s = .next (memSetIdle c s) := rfl
theorem exec_memReadLog (c : Cmd) (s : State) : exec (.memReadLog c) s = .next (memReadLog c s) := rfl
theorem exec_memRepair (c : Cmd) (s : State) : exec (.memRepair c) s = .next (memRepair c s) := rfl

theorem memSetFreq_right {c : Cmd} {s : State} (hpoint : c.u8 16 ≤ 3) (hz : ZeroBytes c.entry 17 64) :
    badOffset ((16, decide (3 < (ctxOf c s).u8 16)) :: reserved (ctxOf c s).e 17 64) = none := by
  rw [badOffset_cons, badOffset_reserved, decide_eq_false_iff_not, Nat.not_lt]
  exact ⟨hpoint, hz⟩

/-- R306: the point in force. -/
theorem memSetFreq_same {c : Cmd} {s : State} (h : Sent 0x1501 c s) (hal : Alone 0xFFFF c) (hz : ZeroBytes c.entry 17 64)
    (hpoint : c.u8 16 ≤ 3) (hsame : c.u8 16 = s.memCtl.point) : exec (.memSetFreq c) s = .next (done c s 0 (taken c s)) := by
  rw [exec_memSetFreq, memSetFreq, plainCommand_sent _ _ h hal rfl (memSetFreq_right hpoint hz)]
  exact congrArg Host.Outcome.next (if_pos (hsame.trans (congrArg (·.point) (taken_memCtl c s).symm)))

/-- R304 to R306: another point, with nothing in the way, is taken, and begins unless training holds it. -/
theorem memSetFreq_changes {c : Cmd} {s : State} (h : Sent 0x1501 c s) (hal : Alone 0xFFFF c) (hpoint : c.u8 16 ≤ 3)
    (hz : ZeroBytes c.entry 17 64) :
    let u := taken c s
    c.u8 16 ≠ u.memCtl.point → u.memCtl.change = none → pipsShort (planned u) = false → currantsShort (planned u) = false →
    dramCharge (planned u) ≤ budgetAt (c.u8 16) →
    (anyPersonality u = true → hopReady (c.u8 16) u = true) →
    let v := modMem (fun m => { m with change := some (c.u8 16, (ctxOf c s).ref, u.dt, none) }) u
    exec (.memSetFreq c) s = .next (if v.memCtl.training then v else dfsBegin v) := by
  intro u hother hnone hpips hcurrants hbudget hhop v
  have hidle : ¬u.memCtl.change.isSome = true := by rw [hnone]; exact Bool.false_ne_true
  have hready : ¬(anyPersonality u && !hopReady (c.u8 16) u) = true := by simpa using hhop
  rw [exec_memSetFreq, memSetFreq, plainCommand_sent _ _ h hal rfl (memSetFreq_right hpoint hz)]
  rw [if_neg (c := (ctxOf c s).u8 16 = u.memCtl.point) hother, if_neg hidle,
    if_neg (c := pipsShort _) fun hshort => Bool.false_ne_true (hpips.mp hshort),
    if_neg (c := currantsShort _) fun hshort => Bool.false_ne_true (hcurrants.mp hshort),
    if_neg (c := budgetAt ((ctxOf c s).u8 16) < _) (Nat.not_lt.2 hbudget),
    if_neg (c := (anyPersonality u && !hopReady ((ctxOf c s).u8 16) u) = true) hready]
  rfl

theorem memSetIdle_sets {c : Cmd} {s : State} (h : Sent 0x1502 c s) (hal : Alone 0xFFFF c) (hidle : c.u32 16 ≤ 1000000)
    (hz : ZeroBytes c.entry 20 64) :
    exec (.memSetIdle c) s = .next (done c s 0 (modMem (fun m => { m with idleUs := c.u32 16 }) (taken c s))) := by
  rw [exec_memSetIdle, memSetIdle, plainCommand_sent _ _ h hal rfl]
  · rfl
  · rw [badOffset_cons, badOffset_reserved, decide_eq_false_iff_not, Nat.not_lt]
    exact ⟨hidle, hz⟩

/-- R309: unread entries of the log, oldest first, up to the number asked for. -/
theorem memReadLog_reads {c : Cmd} {s : State} (h : Sent 0x1504 c s) (hal : Alone 0xFFFF c) (hsome : 1 ≤ c.u16 24)
    (hmax : c.u16 24 ≤ 256) (hz : ZeroBytes c.entry 26 64) :
    let u := taken c s
    let es := (u.memCtl.log.filter fun e => !e.read).take (c.u16 24)
    let bytes := (es.zipIdx.map fun e => logBytes (u.memCtl.logLost && e.2 == 0) e.1).flatten
    exec (.memReadLog c) s = .next (done c s es.length (toHost (c.u64 16) bytes (modMem (fun m => { m with
      log := markRead (c.u16 24) m.log, logLost := m.logLost && es.isEmpty }) u))) := by
  rw [exec_memReadLog, memReadLog, plainCommand_sent _ _ h hal rfl]
  · rfl
  · simp only [badOffset_append, badOffset_cons, badOffset_nil, badOffset_reserved, Bool.or_eq_false_iff, decide_eq_false_iff_not,
      beq_eq_false_iff_ne, Nat.not_lt]
    exact ⟨⟨⟨Nat.ne_of_gt hsome, hmax⟩, trivial⟩, hz⟩

/-- R311: with nothing in the way the remapped rows are burned. -/
theorem memRepair_burns {c : Cmd} {s : State} (h : Sent 0x1505 c s) (hal : Alone 0xFFFF c) (hz : ZeroBytes c.entry 16 64) :
    let u := taken c s
    repairBusy u = false →
    let r := burnRows u.memCtl.remap 0 u
    exec (.memRepair c) s = .next (done c s r.1 r.2) := by
  intro u hidle
  rw [exec_memRepair, memRepair, plainCommand_sent _ _ h hal rfl ((badOffset_reserved _ _ _).2 hz),
    if_neg (ne_true_of_eq_false hidle)]
  rfl

/-- Settles O17. -/
theorem sameFrequencyPointIsOk : Obligations.SameFrequencyPointIsOk := fun _ _ h hal hpoint hz => memSetFreq_same h hal hz hpoint

/-- Settles O29, command by command. -/
theorem memoryCommands : Obligations.MemoryCommands :=
  ⟨fun _ _ => memSetFreq_same, fun _ _ => memSetFreq_changes, fun _ _ => memSetIdle_sets, fun _ _ => memReadLog_reads,
    fun _ _ => memRepair_burns⟩

/-! ## NET, DISP.ALLOC and HEALTH commands (Tables 16-5, 17-5, 18-8) -/

theorem exec_netSetPort (c : Cmd) (s : State) : exec (.netSetPort c) s = .next (netSetPort c s) := rfl
theorem exec_netSetControl (c : Cmd) (s : State) : exec (.netSetControl c) s = .next (netSetControl c s) := rfl
theorem exec_dispAlloc (c : Cmd) (s : State) : exec (.dispAlloc c) s = .next (dispAlloc c s) := rfl
theorem exec_healthSetRotation (c : Cmd) (s : State) : exec (.healthSetRotation c) s = .next (healthSetRotation c s) := rfl
theorem exec_healthReadFaults (c : Cmd) (s : State) : exec (.healthReadFaults c) s = .next (healthReadFaults c s) := rfl
theorem exec_healthSetRetired (c : Cmd) (s : State) : exec (.healthSetRetired c) s = .next (healthSetRetired c s) := rfl

/-- R319: one port has the PTP option. -/
theorem ptp_free {c : Cmd} {s : State}
    (h : bit (c.u8 18) 0 = true → ∀ p, p < 4 → p ≠ c.unit → bit (getPort p s).options 0 = false) :
    (bit (c.u8 18) 0 && (List.range 4).any fun p => p != c.unit && bit (getPort p s).options 0) = false := by
  rw [Bool.and_eq_false_imp]
  intro hptp
  rw [List.any_eq_false]
  intro p hp
  rw [Bool.and_eq_true, bne_iff_ne]
  rintro ⟨hother, hset⟩
  exact absurd hset (ne_true_of_eq_false (h hptp p (List.mem_range.1 hp) hother))

/-- R319, R326: a change of MODE or FEC takes the link of a port down; a mode other than off starts the port. -/
theorem netSetPort_sets {c : Cmd} {s : State} (h : Sent 0x1601 c s) (hu : c.unit < 4) (hal : Alone c.unit c) (hmode : c.u8 16 ≤ 3)
    (hfec : c.u8 17 ≤ 1) (hneeds : c.u8 16 = 1 ∨ c.u8 16 = 2 → c.u8 17 = 1) (hoptions : c.u8 18 < 8)
    (hz1 : ZeroBytes c.entry 19 20) (hz2 : ZeroBytes c.entry 26 28) (hz3 : ZeroBytes c.entry 52 64)
    (hptp : bit (c.u8 18) 0 = true → ∀ p, p < 4 → p ≠ c.unit → bit (getPort p s).options 0 = false)
    (hfree : portBound c.unit (taken c s) = false) :
    let u := taken c s
    let old := getPort c.unit u
    let v := if old.mode ≠ c.u8 16 ∨ old.fec ≠ c.u8 17 then portLink c.unit false u else u
    let w := modPort c.unit (fun y => { y with
      mode := c.u8 16, fec := c.u8 17, options := c.u8 18, mac := fld c.entry 20 6, ipv4 := c.u32 28, ipv6 := fld c.entry 32 16
      txDelay := c.i16 48, rxDelay := c.i16 50 }) v
    exec (.netSetPort c) s = .next (done c s 0 (if c.u8 16 = 0 then w else wakeDomains [.ethernet c.unit] w)) := by
  intro u old v w
  have hchange : v = if (old.mode != c.u8 16 || old.fec != c.u8 17) = true then portLink c.unit false u else u := by simp [v]
  rw [exec_netSetPort, netSetPort, plainCommand_sent _ _ h hal (unitWrong_below hu)]
  · rw [ctxOf_unit, if_neg (ne_true_of_eq_false hfree)]
    simp only [w, hchange]
    rfl
  · simp only [badOffset_append, badOffset_reserved, badOffset_reservedBits_7, badOffset_cons, badOffset_nil, getPort_taken,
      decide_eq_false_iff_not, Nat.not_lt]
    refine ⟨⟨⟨⟨⟨hmode, ?_, hfec, ptp_free hptp, trivial⟩, hoptions⟩, hz1⟩, hz2⟩, hz3⟩
    rw [Bool.and_eq_false_imp, beq_iff_eq, Bool.or_eq_false_iff, beq_eq_false_iff_ne, beq_eq_false_iff_ne]
    simp only [ctxOf_u8]
    omega

/-- The checks of a NET.SET_CONTROL. -/
theorem netSetControl_right {c : Cmd} {s : State} (hu : c.unit < 4) (hal : Alone c.unit c) (haction : c.u8 16 ≤ 1)
    (hz : ZeroBytes c.entry 17 18) (hend : ZeroBytes c.entry 38 64) :
    badOffset (envelope false (.below 4) (ctxOf c s) ++ [(16, decide (1 < (ctxOf c s).u8 16))] ++ reserved (ctxOf c s).e 17 18 ++
      reserved (ctxOf c s).e 38 64) = none := by
  simp only [badOffset_append, badOffset_reserved, badOffset_cons, badOffset_nil, decide_eq_false_iff_not, Nat.not_lt]
  exact ⟨⟨⟨envelope_alone s hal (unitWrong_below hu), haction, trivial⟩, hz⟩, hend⟩

/-- R327: the endpoint's rings are kept, or made anew from three numbers that are free. -/
theorem netSetControl_enables {c : Cmd} {s : State} (h : Sent 0x1604 c s) (hu : c.unit < 4) (hal : Alone c.unit c)
    (hm : (getRing c.ring s).master = .pf0) (haction : c.u8 16 = 1) (hz : ZeroBytes c.entry 17 18) (hend : ZeroBytes c.entry 38 64)
    (hfree : portBound c.unit (taken c s) = false) :
    let u := taken c s
    let a := draw u
    let b := draw a.2
    let kept := u.endpoint.ring ≠ 0 ∧ (getRing u.endpoint.ring u).master = .ethernet
    (kept → exec (.netSetControl c) s = .next (endpointOn (ctxOf c s) u.endpoint.ring u)) ∧
    (¬ kept → ∀ n, freeTriple a.1 b.2 = some n →
      exec (.netSetControl c) s =
        .next (endpointOn (ctxOf c s) n (endpointRings n (0x810000 + 0x7000 * (b.1 % 292)) b.2))) := by
  intro u a b kept
  have hon : ¬(ctxOf c s).u8 16 = 0 := by rw [ctxOf_u8]; omega
  rw [exec_netSetControl, netSetControl, takeCommand_sent _ h, pf0Only_of_pf0 _ _ hm]
  rw [netSetControl_right hu hal haction.le hz hend]
  simp only [ctxOf_unit, if_neg (ne_true_of_eq_false hfree), if_neg hon]
  refine ⟨fun hkept => ?_, fun hnot n hn => ?_⟩
  · rw [if_pos hkept]
  · rw [if_neg hnot, hn]

theorem netSetControl_disables {c : Cmd} {s : State} (h : Sent 0x1604 c s) (hu : c.unit < 4) (hal : Alone c.unit c)
    (hm : (getRing c.ring s).master = .pf0) (haction : c.u8 16 = 0) (hz : ZeroBytes c.entry 17 18) (hend : ZeroBytes c.entry 38 64)
    (hfree : portBound c.unit (taken c s) = false) :
    let u := taken c s
    exec (.netSetControl c) s = .next (done c s 0
      (if u.endpoint.port = some c.unit then { u with endpoint := { u.endpoint with port := none } } else u)) := by
  intro u
  have hoff : (ctxOf c s).u8 16 = 0 := haction
  rw [exec_netSetControl, netSetControl, takeCommand_sent _ h, pf0Only_of_pf0 _ _ hm]
  rw [netSetControl_right hu hal (haction.trans_le (Nat.zero_le 1)) hz hend]
  simp only [ctxOf_unit, if_neg (ne_true_of_eq_false hfree), if_pos hoff]
  rfl

/-- R338: without host planes the pool is given back, or moved to where the DRAM has room. -/
theorem dispAlloc_allocates {c : Cmd} {s : State} (h : Sent 0x1704 c s) (hal : Alone 0 c) (hp : s.fuse.display = true)
    (hpages : c.u64 16 % 4096 = 0) (hz : ZeroBytes c.entry 24 64) :
    let u := taken c s
    planeHeld u = false →
    (c.u64 16 = 0 → exec (.dispAlloc c) s = .next (done c s 0 (modDisp (fun d => { d with pool := none }) u))) ∧
    (c.u64 16 ≠ 0 → dramSpace (modDisp (fun d => { d with pool := some (0, c.u64 16) }) (planned u)) ≤ hostDram u →
      let v := draw u
      let page := v.1 % ((hostDram u - c.u64 16) / 4096 + 1)
      exec (.dispAlloc c) s =
        .next (done c s page (modDisp (fun d => { d with pool := some (4096 * page, c.u64 16) }) v.2))) := by
  intro u hidle
  have hthere : ¬displayAbsent (ctxOf c s) u = true := by simp [displayAbsent, u, hp]
  have hright : badOffset ((16, (ctxOf c s).u64 16 % 4096 != 0) :: reserved (ctxOf c s).e 24 64) = none := by
    rw [badOffset_cons, badOffset_reserved, bne_eq_false_iff_eq]
    exact ⟨hpages, hz⟩
  rw [exec_dispAlloc, dispAlloc, plainCommand_sent _ _ h hal rfl hright, if_neg hthere, if_neg (ne_true_of_eq_false hidle)]
  refine ⟨fun hnone => ?_, fun hsome hroom => ?_⟩
  · rw [ctxOf_u64, if_pos hnone]
    rfl
  · rw [ctxOf_u64, if_neg hsome, if_neg (Nat.not_lt.2 hroom)]
    rfl

theorem healthSetRotation_sets {c : Cmd} {s : State} (h : Sent 0x1802 c s) (hal : Alone 0xFFFF c)
    (hpips : badPeriod (c.u32 16) = false) (hcurrants : badPeriod (c.u32 20) = false) (hz : ZeroBytes c.entry 26 64) :
    let u := taken c s
    exec (.healthSetRotation c) s = .next (done c s 0 { u with health := { u.health with
      pipDue := dtAdd u.dt (visitSpacing (c.u32 16) (pipsHealthy u)), curDue := dtAdd u.dt (visitSpacing (c.u32 20) (currantsHealthy u))
      pipPeriod := c.u32 16, curPeriod := c.u32 20, tempWarn := if c.i16 24 = 0 then 9500 else c.i16 24 } }) := by
  rw [exec_healthSetRotation, healthSetRotation, plainCommand_sent _ _ h hal rfl]
  · rfl
  · rw [badOffset_append, badOffset_reserved]
    exact ⟨(badOffset_cons _ _).2 ⟨hpips, (badOffset_cons _ _).2 ⟨hcurrants, badOffset_nil⟩⟩, hz⟩

theorem healthReadFaults_reads {c : Cmd} {s : State} (h : Sent 0x1803 c s) (hal : Alone 0xFFFF c) (hsome : 1 ≤ c.u8 24)
    (hmax : c.u8 24 ≤ 68) (hz : ZeroBytes c.entry 25 64) :
    let u := taken c s
    let rs := (u.health.faults ++ u.health.closedFaults).take (c.u8 24)
    exec (.healthReadFaults c) s = .next (done c s rs.length (toHost (c.u64 16) (rs.map faultBytes).flatten u)) := by
  rw [exec_healthReadFaults, healthReadFaults, plainCommand_sent _ _ h hal rfl]
  · rfl
  · simp only [badOffset_append, badOffset_cons, badOffset_nil, badOffset_reserved, Bool.or_eq_false_iff, decide_eq_false_iff_not,
      beq_eq_false_iff_ne, Nat.not_lt]
    exact ⟨⟨⟨Nat.ne_of_gt hsome, hmax⟩, trivial⟩, hz⟩

/-- R355: before the first admission the units named are retired. -/
theorem healthSetRetired_retires {c : Cmd} {s : State} (h : Sent 0x1804 c s) (hal : Alone 0xFFFF c) (hpips : c.u64 16 < 2 ^ 36)
    (hcurrants : c.u32 24 < 2 ^ 18) (hz : ZeroBytes c.entry 28 64) :
    let u := taken c s
    u.health.admitted = false →
    let v := each ((List.range 36).filter fun n => bit (c.u64 16) n && pipPresent n u) (fun n => retirePip n 0) u
    let w := each ((List.range 18).filter fun n => bit (c.u32 24) n && currantPresent n v) (fun n => retireCurrant n 0) v
    exec (.healthSetRetired c) s = .next (done c s 0 w) := by
  intro u hbefore
  rw [exec_healthSetRetired, healthSetRetired, plainCommand_sent _ _ h hal rfl]
  · rw [if_neg (ne_true_of_eq_false hbefore)]
    rfl
  · simp only [badOffset_append, badOffset_cons, badOffset_nil, badOffset_reserved, decide_eq_false_iff_not, Nat.not_le]
    exact ⟨⟨hpips, hcurrants, trivial⟩, hz⟩

/-- Settles O30, command by command. -/
theorem linkAndHealthCommands : Obligations.LinkAndHealthCommands :=
  ⟨fun _ _ => netSetPort_sets, fun _ _ => netSetControl_enables, fun _ _ => netSetControl_disables,
    fun _ _ h _ => dispAlloc_allocates h, fun _ _ => healthSetRotation_sets, fun _ _ => healthReadFaults_reads,
    fun _ _ => healthSetRetired_retires⟩

end Sys2Proof.Machine

/-! # Configuration commands of the display and of the RF front end

The settings of an entry are `modeOf` and `layerOf`; the checks pass field by field. -/

namespace Sys2Proof.Machine

/-! ## The display's rows and its presence (R3) -/

theorem exec_dispSetMode (c : Cmd) (s : State) : exec (.dispSetMode c) s = .next (dispSetMode c s) := rfl
theorem exec_dispSetLayer (c : Cmd) (s : State) : exec (.dispSetLayer c) s = .next (dispSetLayer c s) := rfl
theorem exec_dispSetPalette (c : Cmd) (s : State) : exec (.dispSetPalette c) s = .next (dispSetPalette c s) := rfl
theorem exec_dispSetPsr (c : Cmd) (s : State) : exec (.dispSetPsr c) s = .next (dispSetPsr c s) := rfl

theorem displayAbsent_taken {x : Ctx} {c : Cmd} {s : State} (h : s.fuse.display = true) : displayAbsent x (taken c s) = false := by
  rw [displayAbsent, taken_fuse, h]
  rfl

theorem unitWrong_display {unit : Nat} (h : unit = 0) : unitWrong (.below 1) unit = false := unitWrong_below (h ▸ Nat.one_pos)

/-! ## DISP.SET_MODE (R334, R343) -/

/-- Output off has no timing to check. -/
theorem dispSetMode_off {c : Cmd} {s : State} (h : Sent 0x1701 c s) (hu : c.unit = 0) (hp : s.fuse.display = true)
    (hoff : c.u8 16 = 0) (hsync : c.u8 40 < 4) (hz : ZeroBytes c.entry 41 44) (hend : ZeroBytes c.entry 48 64) :
    let cfg : ModeCfg := { background := c.u32 44 }
    Configures (.dispSetMode c) c s [member (ctxOf c s) 0xE 0 1 (.dispMode cfg)] 0 (modeLand cfg false) := by
  intro cfg
  have hoff' : (ctxOf c s).u8 16 = 0 := hoff
  refine clashCommand_writes (exec_dispSetMode c s) h (unitWrong_display hu) ?_ ?_ (displayAbsent_taken hp) ?_ rfl rfl
  · simp only [if_pos hoff', badOffset_append, badOffset_cons, badOffset_nil, badOffset_reserved, badOffset_reservedBits_3,
      decide_eq_false_iff_not, Nat.not_lt]
    exact ⟨⟨⟨⟨hoff'.trans_le (Nat.zero_le 2), trivial⟩, hsync⟩, hz⟩, hend⟩
  · rw [if_pos hoff']
    rfl
  · rw [displayMember, modeOf, if_pos hoff']
    rfl

/-- R336: no enabled layer of the plan reaches past the columns or lines of a mode. -/
theorem layersPast_fits {plan : State} {span : LayerCfg → Nat} {active : Nat}
    (h : ∀ i, i < 4 → (tget {} plan.disp.layers i).enable = true → span (tget {} plan.disp.layers i) ≤ active) :
    layersPast plan span active = false := by
  rw [layersPast, List.any_eq_false]
  intro i hi
  have hlt : i < 4 := by
    simp only [List.mem_cons, List.not_mem_nil, or_false] at hi
    omega
  rw [Bool.and_eq_true, decide_eq_true_eq]
  rintro ⟨henable, hpast⟩
  exact absurd (h i hlt henable) (Nat.not_le.2 hpast)

theorem landsStarted_dispMode (cfg : ModeCfg) (u : State) : let v := startDomains [.dispMode cfg] u
    each [.dispMode cfg] (fun x s => landWrite [.dispMode cfg] s.dt x s) v = modeLand cfg false v := rfl

/-- A mode that a link rate carries and that every enabled layer fits. -/
theorem dispSetMode_on {c : Cmd} {s : State} (h : Sent 0x1701 c s) (hu : c.unit = 0) (hp : s.fuse.display = true)
    (houtput : c.u8 16 = 1 ∨ c.u8 16 = 2) (hbpc : c.u8 17 = 8 ∨ c.u8 17 = 10) (hlanes : c.u8 18 = 1 ∨ c.u8 18 = 2 ∨ c.u8 18 = 4)
    (hcode : c.u8 19 ≤ 3) (hclock : 25000 ≤ c.u32 20) (hclockMax : c.u32 20 ≤ 600000) (hcolumns : c.u16 24 ≤ 3840)
    (hlines : c.u16 32 ≤ 2160) (hsync : c.u8 40 < 4) (hz : ZeroBytes c.entry 41 44) (hend : ZeroBytes c.entry 48 64)
    (hlayers : ∀ i, i < 4 → (tget {} (planned (taken c s)).disp.layers i).enable = true →
      let l := tget {} (planned (taken c s)).disp.layers i
      l.x + l.w ≤ c.u16 24 ∧ l.y + l.h ≤ c.u16 32)
    {rate : Nat} (hrate : rateFor (c.u8 16) (c.u32 20) (c.u8 17) (c.u8 18) (c.u8 19) = some rate) :
    let cfg : ModeCfg := { output := c.u8 16, bpc := c.u8 17, lanes := c.u8 18, rate := rate, pclk := c.u32 20
                           h := [c.u16 24, c.u16 26, c.u16 28, c.u16 30], v := [c.u16 32, c.u16 34, c.u16 36, c.u16 38]
                           syncPol := c.u8 40, background := c.u32 44 }
    Configures (.dispSetMode c) c s [member (ctxOf c s) 0xE 0 1 (.dispMode cfg)] 0
      fun u => modeLand cfg false (startDomains [.dispMode cfg] u) := by
  intro cfg
  have hon : ¬(ctxOf c s).u8 16 = 0 := by rw [ctxOf_u8]; omega
  have hcarried : rateFor ((ctxOf c s).u8 16) ((ctxOf c s).u32 20) ((ctxOf c s).u8 17) ((ctxOf c s).u8 18) ((ctxOf c s).u8 19) =
      some rate := hrate
  refine clashCommand_configures (exec_dispSetMode c s) h (unitWrong_display hu) ?_ ?_ (displayAbsent_taken hp) rfl ?_ rfl
    (landsStarted_dispMode cfg)
  · simp only [if_neg hon, hcarried, badOffset_append, badOffset_cons, badOffset_nil, badOffset_reserved, badOffset_reservedBits_3,
      decide_eq_false_iff_not, Nat.not_lt, Bool.or_eq_false_iff, Bool.and_eq_false_iff, bne_eq_false_iff_eq, or_assoc]
    have houtputMax : c.u8 16 ≤ 2 := by omega
    exact ⟨⟨⟨⟨houtputMax, hbpc, hlanes, hcode, ⟨hclock, hclockMax⟩, rfl,
      hcolumns, hlines, trivial⟩, hsync⟩, hz⟩, hend⟩
  · have hcolumnsFit : layersPast (planned (taken c s)) (fun l => l.x + l.w) (c.u16 24) = false :=
      layersPast_fits fun i hi henable => (hlayers i hi henable).1
    have hlinesFit : layersPast (planned (taken c s)) (fun l => l.y + l.h) (c.u16 32) = false :=
      layersPast_fits fun i hi henable => (hlayers i hi henable).2
    rw [if_neg hon, ctxOf_u16, ctxOf_u16, hcolumnsFit, hlinesFit]
    rfl
  · rw [displayMember, modeOf, if_neg hon, hcarried]
    rfl

/-! ## DISP.SET_LAYER (R336 to R339) -/

/-- R336: no other enabled layer of the plan stands at the Z of the entry. -/
theorem zTaken_free {x : Ctx} {plan : State}
    (h : ∀ i, i < 4 → i ≠ x.u8 16 → (tget {} plan.disp.layers i).enable = true → (tget {} plan.disp.layers i).z ≠ x.u8 18) :
    zTaken x plan = false := by
  rw [zTaken, List.any_eq_false]
  intro i hi
  have hlt : i < 4 := by
    simp only [List.mem_cons, List.not_mem_nil, or_false] at hi
    omega
  rw [Bool.and_eq_true, Bool.and_eq_true, bne_iff_ne, beq_iff_eq]
  rintro ⟨⟨hother, henable⟩, hsame⟩
  exact h i hlt hother henable hsame

/-- R339: an enabled bloom layer with right fields. -/
theorem bloomLayer_right {x : Ctx} (h : x.u8 28 ≤ 3 ∧ 1 ≤ x.u8 30 % 16 ∧ x.u8 30 % 16 ≤ 8 ∧ 1 ≤ x.u8 30 / 16 ∧ x.u8 30 / 16 ≤ 8 ∧
    (x.u8 30 % 16 = 1 ∨ x.u8 30 / 16 = 1) ∧ (x.u8 29 % 2 = 1 ∨ x.u16 50 ≠ 0)) : badOffset (bloomLayerWrong x) = none := by
  obtain ⟨hmap, hred, hredMax, hrep, hrepMax, hone, hgain⟩ := h
  simp only [bloomLayerWrong, badOffset_cons, badOffset_nil, Bool.or_eq_false_iff, Bool.and_eq_false_iff, decide_eq_false_iff_not,
    beq_eq_false_iff_ne, bne_eq_false_iff_eq, Nat.not_lt]
  exact ⟨hmap, ⟨⟨⟨⟨Nat.ne_of_gt hred, hredMax⟩, Nat.ne_of_gt hrep⟩, hrepMax⟩, hone⟩, hgain.imp_left (by omega), trivial⟩

/-- R337, R338: an enabled host plane with right fields, inside the pool. -/
theorem plane_right {x : Ctx} {s : State} (h : x.u8 28 ≤ 3 ∧ x.u8 29 % 4 ≠ 3 ∧ (x.u8 28 ≠ 0 → x.u16 24 % 2 = 0) ∧
    (x.u8 28 = 1 ∨ x.u8 28 = 3 → x.u16 26 % 2 = 0) ∧ x.u16 30 % 256 = 0 ∧ x.u16 24 * sampleBytes (x.u8 28) ≤ x.u16 30 ∧
    x.u64 32 % 4096 = 0 ∧ outOfPool (x.u64 32) s = false ∧ (x.u8 28 = 0 → x.u64 40 = 0) ∧
    (x.u8 28 ≠ 0 → x.u64 40 % 4096 = 0 ∧ outOfPool (x.u64 40) s = false ∧ x.u16 48 % 256 = 0 ∧
      x.u16 24 * sampleBytes (x.u8 28) ≤ x.u16 48)) :
    badOffset (planeWrong x) = none ∧ badOffset (planeOutside x s) = none := by
  obtain ⟨hformat, hcsc, heven, hevenLines, hpitch, hline, hbase, hpool, hnone, hchroma⟩ := h
  simp only [planeWrong, planeOutside, badOffset_cons, badOffset_nil, Bool.and_eq_false_imp, decide_eq_false_iff_not,
    beq_eq_false_iff_ne, bne_eq_false_iff_eq, bne_iff_ne, beq_iff_eq, Bool.or_eq_true, Nat.not_lt]
  exact ⟨⟨hformat, hcsc, heven, hevenLines, hpitch, hline, hbase, hnone, fun hf => (hchroma hf).1, fun hf => (hchroma hf).2.2.1,
    fun hf => (hchroma hf).2.2.2, trivial⟩, hpool, fun hf => (hchroma hf).2.1, trivial⟩

theorem outOfPool_taken (base : Nat) (c : Cmd) (s : State) : outOfPool base (taken c s) = outOfPool base s := by
  rw [outOfPool, taken_disp]
  rfl

/-- An enabled layer has a Z of its own and, with the output on, lies in the active area. -/
theorem layer_clash {x : Ctx} {plan : State}
    (h : (∀ i, i < 4 → i ≠ x.u8 16 → (tget {} plan.disp.layers i).enable = true → (tget {} plan.disp.layers i).z ≠ x.u8 18) ∧
      (plan.disp.mode.output ≠ 0 →
        x.u16 20 + x.u16 24 ≤ plan.disp.mode.h.getD 0 0 ∧ x.u16 22 + x.u16 26 ≤ plan.disp.mode.v.getD 0 0)) :
    badOffset ((18, zTaken x plan) :: (if plan.disp.mode.output = 0 then [] else
      [(20, !spanFits (x.u16 20) (x.u16 24) (plan.disp.mode.h.getD 0 0)),
        (22, !spanFits (x.u16 22) (x.u16 26) (plan.disp.mode.v.getD 0 0))])) = none := by
  obtain ⟨hz, hfits⟩ := h
  rw [badOffset_cons]
  refine ⟨zTaken_free hz, ?_⟩
  split
  · rfl
  · next hon =>
    rw [badOffset_cons, badOffset_cons, spanFits, spanFits, decide_eq_true (hfits hon).1, decide_eq_true (hfits hon).2]
    exact ⟨rfl, rfl, badOffset_nil⟩

/-- A layer that is enabled keeps to what its kind keeps to; one that is disabled is stored as it is (log 37). -/
theorem dispSetLayer_configures {c : Cmd} {s : State} (h : Sent 0x1702 c s) (hu : c.unit = 0) (hp : s.fuse.display = true)
    (hindex : c.u8 16 ≤ 3) (hz : c.u8 18 ≤ 3) (hbits : if c.u8 16 = 0 then c.u8 29 < 2 ∧ c.u16 30 < 256 else c.u8 29 < 8)
    (hend : ZeroBytes c.entry 52 64) (henable : c.u8 17 ≤ 1)
    (hbloom : c.u8 17 = 1 → c.u8 16 = 0 → badOffset (bloomLayerWrong (ctxOf c s)) = none)
    (hplane : c.u8 17 = 1 → c.u8 16 ≠ 0 →
      badOffset (planeWrong (ctxOf c s)) = none ∧ badOffset (planeOutside (ctxOf c s) (taken c s)) = none)
    (hclash : c.u8 17 = 1 →
      let plan := planned (taken c s)
      (∀ i, i < 4 → i ≠ c.u8 16 → (tget {} plan.disp.layers i).enable = true → (tget {} plan.disp.layers i).z ≠ c.u8 18) ∧
        (plan.disp.mode.output ≠ 0 →
          c.u16 20 + c.u16 24 ≤ plan.disp.mode.h.getD 0 0 ∧ c.u16 22 + c.u16 26 ≤ plan.disp.mode.v.getD 0 0)) :
    Configures (.dispSetLayer c) c s [member (ctxOf c s) 0xE 0 1 (.dispLayer (c.u8 16) (layerOf (ctxOf c s)))] 0
      (modDisp fun d => { d with layers := tput {} d.layers (c.u8 16) (layerOf (ctxOf c s)) }) := by
  refine clashCommand_writes (exec_dispSetLayer c s) h (unitWrong_display hu) ?_ ?_ (displayAbsent_taken hp) rfl rfl rfl
  · simp only [badOffset_append, badOffset_cons, badOffset_nil, badOffset_reserved, decide_eq_false_iff_not, Nat.not_lt]
    refine ⟨⟨⟨⟨⟨hindex, henable, hz, trivial⟩, ?_⟩, ?_⟩, ?_⟩, hend⟩
    · split
      · exact badOffset_nil
      · next hon =>
        have hon' : c.u8 17 = 1 := not_not.1 hon
        split
        · next hkind => exact hbloom hon' hkind
        · next hkind => exact (hplane hon' hkind).1
    · by_cases hkind : (ctxOf c s).u8 16 = 0
      · rw [if_pos hkind, badOffset_reservedBits_1]
        exact ((if_pos (c := c.u8 16 = 0) hkind).mp hbits).1
      · rw [if_neg hkind, badOffset_reservedBits_7]
        exact (if_neg (c := c.u8 16 = 0) hkind).mp hbits
    · by_cases hkind : (ctxOf c s).u8 16 = 0
      · rw [if_pos hkind, badOffset_reservedBits_255]
        exact ((if_pos (c := c.u8 16 = 0) hkind).mp hbits).2
      · rw [if_neg hkind]
        rfl
  · dsimp only
    split
    · rfl
    · next hon =>
      have hon' : c.u8 17 = 1 := not_not.1 hon
      rw [badOffset_append]
      refine ⟨?_, layer_clash (hclash hon')⟩
      split
      · exact badOffset_nil
      · next hkind => exact (hplane hon' hkind).2

/-! ## DISP.SET_PALETTE and DISP.SET_PSR (R339, R344) -/

theorem dispSetPalette_configures {c : Cmd} {s : State} (h : Sent 0x1703 c s) (hu : c.unit = 0) (hp : s.fuse.display = true)
    (hz : ZeroBytes c.entry 16 24) (hend : ZeroBytes c.entry 32 64) :
    let entries := readU32s s.host (c.u64 24) 256
    Configures (.dispSetPalette c) c s [member (ctxOf c s) 0xE 0 1 (.dispPalette entries)] 0
      (modDisp fun d => { d with palette := entries }) := by
  refine memberCommand_writes (exec_dispSetPalette c s) h (unitWrong_display hu) ?_ (displayAbsent_taken hp) ?_ rfl rfl
  · rw [badOffset_append, badOffset_reserved, badOffset_reserved]
    exact ⟨hz, hend⟩
  · rw [← taken_host c s]
    rfl

theorem dispSetPsr_configures {c : Cmd} {s : State} (h : Sent 0x1705 c s) (hu : c.unit = 0) (hp : s.fuse.display = true)
    (hmode : c.u8 16 ≤ 2) (hidle : 2 ≤ c.u8 17) (hend : ZeroBytes c.entry 18 64)
    (hedp : (planned (taken c s)).disp.mode.output = 2) :
    Configures (.dispSetPsr c) c s [member (ctxOf c s) 0xE 0 1 (.dispPsr (c.u8 16) (c.u8 17))] 0
      (modDisp fun d => { d with psrMode := c.u8 16, idleFrames := c.u8 17 }) := by
  refine clashCommand_writes (exec_dispSetPsr c s) h (unitWrong_display hu) ?_ ?_ (displayAbsent_taken hp) rfl rfl rfl
  · simp only [badOffset_append, badOffset_cons, badOffset_nil, badOffset_reserved, decide_eq_false_iff_not, Nat.not_lt]
    exact ⟨⟨hmode, hidle, trivial⟩, hend⟩
  · rw [badOffset_cons, hedp]
    exact ⟨rfl, badOffset_nil⟩

/-- Settles O42, command by command: the settings stated are `modeOf` and `layerOf` of the entry. -/
theorem displayConfigures : Obligations.DisplayConfigures := by
  refine ⟨fun _ _ => dispSetMode_off, ?_, ?_, fun _ _ => dispSetPalette_configures, fun _ _ => dispSetPsr_configures⟩
  · intro c s h hu hp houtput hbpc hlanes hcode hclock hclockMax hcolumns hlines hsync hz hend hlayers rate hrate
    exact dispSetMode_on h hu hp houtput hbpc hlanes hcode hclock hclockMax hcolumns hlines hsync hz hend hlayers hrate
  · intro c s h hu hp hindex hz hbits hend henable hfields hclash
    refine dispSetLayer_configures h hu hp hindex hz hbits hend henable (fun hon hkind => ?_) (fun hon hkind => ?_) hclash
    · exact bloomLayer_right ((if_pos hkind).mp (hfields hon))
    · have hright := (if_neg hkind).mp (hfields hon)
      rw [← outOfPool_taken (c.u64 32) c s, ← outOfPool_taken (c.u64 40) c s] at hright
      exact plane_right hright

/-! ## RF.SET_RANGE and CAL.SET_RF (Tables 5-3, 5-6) -/

theorem exec_rfSetRange (c : Cmd) (s : State) : exec (.rfSetRange c) s = .next (rfSetRange c s) := rfl
theorem exec_calSetRf (c : Cmd) (s : State) : exec (.calSetRf c) s = .next (calSetRf c s) := rfl
theorem exec_ddcSetDetect (c : Cmd) (s : State) : exec (.ddcSetDetect c) s = .next (ddcSetDetect c s) := rfl

/-- R3: the RF channel of a taken command is there. -/
theorem rfAbsent_taken {c : Cmd} {s : State} (hp : rfPresent c.unit s = true) : (!rfPresent (ctxOf c s).unit (taken c s)) = false := by
  rw [ctxOf_unit, rfPresent_taken, hp]
  rfl

theorem rfSetRange_configures {c : Cmd} {s : State} (h : Sent 0x0601 c s) (hu : c.unit < 4) (hp : rfPresent c.unit s = true)
    (hatten : c.u8 16 ≤ 31) (hpad : c.u8 17 ≤ 1) (href : c.u8 18 ≤ 1) (hz : ZeroBytes c.entry 19 64)
    (hnear : rangeTooFar (ctxOf c s) (taken c s) = false) :
    let pad := c.u8 17 == 1
    let moves := (rangePlan (ctxOf c s) s).pad != pad
    let weight := 2 + b2n moves + b2n (c.u8 18 == 1)
    Configures (.rfSetRange c) c s [member (ctxOf c s) 1 c.unit weight (.rfRange c.unit pad (c.u8 16) (c.u8 18 == 1) moves)] 0
      (rangeLand c.unit pad (c.u8 16) (c.u8 18 == 1) moves) := by
  refine clashCommand_configures (exec_rfSetRange c s) h (unitWrong_below hu) ?_ ?_ (rfAbsent_taken hp) rfl ?_ rfl
    (landsAlone rfl rfl)
  · simp only [badOffset_append, badOffset_cons, badOffset_nil, badOffset_reserved, decide_eq_false_iff_not, Nat.not_lt]
    exact ⟨⟨hatten, hpad, href, trivial⟩, hz⟩
  · exact (badOffset_cons _ _).2 ⟨hnear, badOffset_nil⟩
  · rw [rangeOf, rangePlan_taken]
    rfl

theorem calSetRf_configures {c : Cmd} {s : State} (h : Sent 0x1901 c s) (hu : c.unit < 4) (hp : rfPresent c.unit s = true)
    (hcount : c.u16 18 ≤ 4096) (hstep : 1 < c.u16 18 → c.u64 40 ≠ 0) (hz : ZeroBytes c.entry 48 64) :
    let table := readI16s s.host (c.u64 24) (c.u16 18)
    Configures (.calSetRf c) c s
      [member (ctxOf c s) 3 c.unit 1 (.calRf c.unit (c.i16 16) table (c.i32 20) (c.u64 32) (c.u64 40))] 0
      fun u => calRfLand c.unit (c.i16 16) table (c.i32 20) (c.u64 32) (c.u64 40) u.dt u := by
  refine memberCommand_writes (exec_calSetRf c s) h (unitWrong_below hu) ?_ (rfAbsent_taken hp) ?_ rfl rfl
  · simp only [badOffset_append, badOffset_cons, badOffset_nil, badOffset_reserved, Bool.or_eq_false_iff, Bool.and_eq_false_imp,
      decide_eq_false_iff_not, decide_eq_true_eq, beq_eq_false_iff_ne, Nat.not_lt]
    exact ⟨⟨⟨hcount, hstep⟩, trivial⟩, hz⟩
  · rw [← taken_host c s]
    rfl

/-! ## DDC.SET and DDC.SET_DETECT (Tables 6-5, 6-6) -/

/-- R3, R219: the path of a taken command is there and not Korsyn's. -/
theorem pathAbsent_ctxOf {c : Cmd} {s : State} (h : pathAbsent c.unit s = false) :
    pathAbsent (ctxOf c s).unit (taken c s) = false := (pathAbsent_taken _ _ _).trans h

theorem ddcSet_configures {c : Cmd} {s : State} (h : Sent 0x0701 c s) (hpath : isPath c.unit = true)
    (hp : pathAbsent c.unit s = false) (hfree : slotHeld c.unit s = false) (hword : c.u64 16 ≤ 2 ^ 47) (hphase : c.u64 24 < 2 ^ 48)
    (hdecim : badDecim c.unit (c.u8 32) s = false) (hshift : c.u8 33 ≤ 8) (henable : c.u8 34 ≤ 1) (hz : ZeroBytes c.entry 35 64) :
    Configures (.ddcSet c) c s
      [member (ctxOf c s) 2 c.unit 1 (.ddcSet c.unit (c.u64 16) (c.u64 24) (c.u8 32) (c.u8 33) (c.u8 34 == 1))] 0
      (ddcSetLand c.unit (c.u64 16) (c.u64 24) (c.u8 32) (c.u8 33) (c.u8 34 == 1)) := by
  have hfree' : slotHeld (ctxOf c s).unit (taken c s) = false := (slotHeld_taken _ _ _).trans hfree
  have hlow : c.u64 16 < 2 ^ 48 := hword.trans_lt (by decide)
  refine clashCommand_writes (exec_ddcSet c s) h rfl ?_ ?_ (pathAbsent_ctxOf hp) rfl rfl rfl
  · have hmod : c.u64 16 % 2 ^ 48 ≤ 2 ^ 47 := (Nat.mod_le _ _).trans hword
    rw [hfree', Bool.and_false, if_neg Bool.false_ne_true]
    rw [badOffset_append, badOffset_append, badOffset_append, badOffset_reserved, badOffset_reservedBits_48, badOffset_reservedBits_48]
    simp only [badOffset_cons, badOffset_nil, decide_eq_false_iff_not, Nat.not_lt]
    exact ⟨⟨⟨⟨congrArg (!·) hpath, hmod, hshift, henable, trivial⟩, hlow⟩, hphase⟩, hz⟩
  · rw [hfree', if_neg Bool.false_ne_true, badOffset_cons, badDecim_taken]
    exact ⟨hdecim, badOffset_nil⟩

theorem ddcSetDetect_configures {c : Cmd} {s : State} (h : Sent 0x0702 c s) (hpath : isPath c.unit = true)
    (hp : pathAbsent c.unit s = false) (hwindow : c.u8 16 ≤ 20) (halpha : c.u8 17 ≤ 16) (hkinds : c.u8 18 < 8)
    (hz : ZeroBytes c.entry 19 20) (hend : ZeroBytes c.entry 22 64)
    (hring : c.u16 20 = 0xFFFF ∨ (notDataRing (c.u16 20) s = false ∧
      65536 ≤ 2 ^ c.u8 16 * outPeriod c.unit (getDdc c.unit (planned (taken c s))).decim)) :
    Configures (.ddcSetDetect c) c s
      [member (ctxOf c s) 2 c.unit 1 (.ddcDetect c.unit (c.u8 16) (c.u8 17) (c.u8 18) (c.u16 20))] 0
      (detectLand c.unit (c.u8 16) (c.u8 17) (c.u8 18) (c.u16 20)) := by
  refine clashCommand_writes (exec_ddcSetDetect c s) h rfl ?_ ?_ (pathAbsent_ctxOf hp) rfl rfl rfl
  · rw [badOffset_append, badOffset_append, badOffset_append, badOffset_reserved, badOffset_reserved, badOffset_reservedBits_7]
    simp only [badOffset_cons, badOffset_nil, decide_eq_false_iff_not, Nat.not_lt]
    exact ⟨⟨⟨⟨congrArg (!·) hpath, hwindow, halpha, trivial⟩, hkinds⟩, hz⟩, hend⟩
  · simp only [badOffset_cons, badOffset_nil, badRing_taken, Bool.and_eq_false_imp, bne_iff_ne, decide_eq_false_iff_not, Nat.not_lt,
      and_true]
    refine ⟨fun hsome => (hring.resolve_left hsome).2, ?_⟩
    rcases hring with hnone | ⟨hdata, -⟩
    · rw [ctxOf_u16, hnone]
      rfl
    · exact badRing_of_data hdata

/-- Settles O32, command by command. -/
theorem frontEndConfigures : Obligations.FrontEndConfigures :=
  ⟨fun _ _ => rfSetRange_configures, fun _ _ => calSetRf_configures, fun _ _ => ddcSet_configures,
    fun _ _ => ddcSetDetect_configures⟩

end Sys2Proof.Machine

/-! # DMA instructions

`dmaFetch_runs` says when an instruction runs; what each instruction then does is one lemma per outcome. -/

namespace Sys2Proof.Machine

/-! ## What events leave of a channel -/

theorem dma_of_blocks {s t : State} (h : blocks t = blocks s) : t.dma = s.dma := by
  have hdma : (blocks t).dma = (blocks s).dma := by rw [h]
  exact hdma

@[simp] theorem getChan_event (k code sev unit : Nat) (fs : List (Nat × Nat × Nat)) (s : State) :
    getChan k (event code sev unit fs s) = getChan k s := by
  rw [getChan, getChan, dma_of_blocks (blocks_event code sev unit fs s)]

/-! ## Fetch (R278) and stops (R288, R290) -/

/-- R278: a channel that is ready, at a word that it can fetch, runs it. -/
theorem dmaFetch_runs {t : DT} {n op : Nat} {w : U128} {run : Channel → State → State} {s : State}
    (hready : dmaReady (getChan n (advance t s)) = true)
    (hserved : spaceWaits (getChan n (advance t s)) (getChan n (advance t s)).posSpace (advance t s) = false)
    (hfetch : dmaNoFetch (getChan n (advance t s)) (advance t s) = false)
    (hword : dmaWordAt (getChan n (advance t s)) (advance t s) = w.toNat) (hop : w.toNat % 16 = op) :
    dmaFetch t n op w run s = run (getChan n (advance t s)) (advance t s) := by
  have hgo : ¬(!dmaReady (getChan n (advance t s)) ||
      spaceWaits (getChan n (advance t s)) (getChan n (advance t s)).posSpace (advance t s)) = true := by
    rw [hready, hserved]
    decide
  rw [dmaFetch]
  rw [if_neg hgo, if_neg (ne_true_of_eq_false hfetch), if_pos ⟨hword, hop⟩]

/-- R290: with no stop pending an instruction boundary is nothing special. -/
theorem dmaSettle_none {n : Nat} {s : State} (h : (getChan n s).stopRef = none) : dmaSettle n s = s := by simp [dmaSettle, h]

/-- R290: a pending stop takes effect there, and its command completes. -/
theorem dmaSettle_some {n : Nat} {r : CmdRef} {s : State} (h : (getChan n s).stopRef = some r) :
    dmaSettle n s =
      ok r 0 (modChan n (fun c => { c with stopRef := none, state := if c.state = 5 then 5 else 4, wait := none }) s) := by
  simp [dmaSettle, h]

/-- R288: an error with no stop pending reports where the channel stands. -/
theorem dmaStop_none {n cause : Nat} {s : State} (h : (getChan n s).stopRef = none) : let c := getChan n s
    dmaStop n cause s =
      event 0x1401 2 n [(16, 1, n), (17, 1, cause), (20, 4, sat 4 c.remaining), (24, 8, dmaPosition c)]
        (modChan n (fun c => { c with state := 5, cause := cause, done := false, transfer := none, wait := none }) s) := by
  intro c
  rw [dmaStop]
  rw [dmaSettle_none]
  · rw [getChan_modChan]
    rfl
  · rw [getChan_event, getChan_modChan]
    exact h

/-! ## Transfers (R279, R280) -/

theorem dmaMove_misaligned {n : Nat} {w : U128} {c : Channel} {s : State} (hright : transferError c w = none)
    (hlen : wbits w 43 21 % 4 ≠ 0) : dmaMove n w c s = dmaStop n 5 s := by
  rw [dmaMove]
  rw [hright, if_pos hlen]
  rfl

theorem dmaMove_begins {n : Nat} {w : U128} {c : Channel} {s : State} (hright : transferError c w = none)
    (hlen : wbits w 43 21 % 4 = 0) (hsource : sideError c false true (wbits w 45 44) (wbits w 85 46) (wbits w 43 21) s = none)
    (hdest : sideError c true true (wbits w 87 86) (wbits w 127 88) (wbits w 43 21) s = none) :
    dmaMove n w c s = dmaBegin n w [(wbits w 45 44, wbits w 85 46, wbits w 87 86, wbits w 127 88, wbits w 43 21)] s := by
  rw [dmaMove]
  rw [hright, if_neg (not_not.2 hlen), hsource, hdest]
  rfl

theorem dmaGather_stops {n cause : Nat} {w : U128} {c : Channel} {s : State} (hserved : spaceWaits c (wbits w 45 44) s = false)
    (hlist : dmaList c w s = .inl cause) : dmaGather n w c s = dmaStop n cause s := by
  rw [dmaGather, if_neg (ne_true_of_eq_false hserved), hlist]

theorem dmaScatter_stops {n cause : Nat} {w : U128} {c : Channel} {s : State} (hserved : spaceWaits c (wbits w 45 44) s = false)
    (hlist : dmaList c w s = .inl cause) : dmaScatter n w c s = dmaStop n cause s := by
  rw [dmaScatter, if_neg (ne_true_of_eq_false hserved), hlist]

theorem dmaGather_begins {n : Nat} {w : U128} {c : Channel} {s : State} {items : List (Nat × Nat × Nat)}
    (hserved : spaceWaits c (wbits w 45 44) s = false) (hlist : dmaList c w s = .inr items)
    (hdest : sideError c true false (wbits w 87 86) (wbits w 127 88) ((items.map fun i => i.2.2).sum) s = none)
    (hsources : ∀ i ∈ items, sideError c false false i.1 i.2.1 i.2.2 s = none) :
    dmaGather n w c s =
      dmaBegin n w ((items.zip (runs (wbits w 87 86) (wbits w 127 88) (items.map fun i => i.2.2))).map fun i =>
        (i.1.1, i.1.2.1, wbits w 87 86, i.2, i.1.2.2)) s := by
  rw [dmaGather, if_neg (ne_true_of_eq_false hserved), hlist]
  dsimp only
  rw [hdest, List.findSome?_eq_none_iff.2 hsources]
  rfl

theorem dmaScatter_begins {n : Nat} {w : U128} {c : Channel} {s : State} {items : List (Nat × Nat × Nat)}
    (hserved : spaceWaits c (wbits w 45 44) s = false) (hlist : dmaList c w s = .inr items)
    (hdests : ∀ i ∈ items, sideError c true false i.1 i.2.1 i.2.2 s = none) :
    dmaScatter n w c s = dmaBegin n w (items.map fun i => (2, 0, i.1, i.2.1, i.2.2)) s := by
  rw [dmaScatter, if_neg (ne_true_of_eq_false hserved), hlist]
  dsimp only
  rw [List.findSome?_eq_none_iff.2 hdests]

/-! ## LOOP and WAIT (R282, R283) -/

section
variable {n : Nat} {w : U128} {c : Channel} {s : State}

theorem dmaLoop_wrong (h : wbits w 7 6 ≠ 0 ∨ wbits w 127 48 ≠ 0 ∨ wbits w 47 32 = 0 ∨ c.pos < 16 * wbits w 47 32) :
    dmaLoop n w c s = dmaStop n 5 s := if_pos h

theorem dmaLoop_right (hkind : wbits w 7 6 = 0) (hhigh : wbits w 127 48 = 0) (hback : wbits w 47 32 ≠ 0)
    (hin : 16 * wbits w 47 32 ≤ c.pos) :
    ¬(wbits w 7 6 ≠ 0 ∨ wbits w 127 48 ≠ 0 ∨ wbits w 47 32 = 0 ∨ c.pos < 16 * wbits w 47 32) := by omega

/-- The last pass goes on, its counter free again. -/
theorem dmaLoop_ends (hright : ¬(wbits w 7 6 ≠ 0 ∨ wbits w 127 48 ≠ 0 ∨ wbits w 47 32 = 0 ∨ c.pos < 16 * wbits w 47 32))
    (h : (tget none c.counters (wbits w 5 4)).getD (wbits w 31 8) = 0) :
    dmaLoop n w c s = dmaNext n (modChan n (fun c => { c with counters := tput none c.counters (wbits w 5 4) none }) s) := by
  rw [dmaLoop]
  rw [if_neg hright, h]

theorem dmaLoop_repeats {v : Nat} (hright : ¬(wbits w 7 6 ≠ 0 ∨ wbits w 127 48 ≠ 0 ∨ wbits w 47 32 = 0 ∨ c.pos < 16 * wbits w 47 32))
    (h : (tget none c.counters (wbits w 5 4)).getD (wbits w 31 8) = v + 1) :
    dmaLoop n w c s = modChan n (fun c => { c with
      counters := tput none c.counters (wbits w 5 4) (some v), pos := c.pos - 16 * wbits w 47 32, refetch := false, done := true }) s := by
  rw [dmaLoop]
  rw [if_neg hright, h]

theorem waitHolds_time (hkind : wbits w 5 4 = 3) : waitHolds w s = decide (wbits w 127 64 ≤ s.dt.toNat) := by
  simp [waitHolds, hkind]

/-- R283: a WAIT for anything but lines and semaphores consumes nothing. -/
theorem waitPass_other (hkind : 2 ≤ wbits w 5 4) :
    waitPass n w s = dmaNext n (modChan n (fun c => { c with state := 1, wait := none }) s) := by
  rw [waitPass]
  dsimp only
  rw [if_neg (by omega), if_neg (by omega)]

theorem dmaWait_passes (hright : waitError c w = none) (hkind : wbits w 5 4 = 3) (hpast : wbits w 127 64 ≤ s.dt.toNat) :
    dmaWait n w c s = dmaNext n (modChan n (fun c => { c with state := 1, wait := none }) s) := by
  have hholds : waitHolds w s = true := (waitHolds_time hkind).trans (decide_eq_true hpast)
  rw [dmaWait, hright]
  dsimp only
  rw [if_pos ⟨hkind, hholds⟩, waitPass_other (by omega)]

theorem dmaWait_waits (hright : waitError c w = none) (h : wbits w 5 4 ≠ 3 ∨ s.dt.toNat < wbits w 127 64) :
    dmaWait n w c s = modChan n (fun c => { c with state := 2, wait := some w, done := false, refetch := false }) s := by
  have hnot : ¬(wbits w 5 4 = 3 ∧ waitHolds w s = true) := by
    rintro ⟨hkind, hholds⟩
    rw [waitHolds_time hkind, decide_eq_true_eq] at hholds
    exact h.elim (fun hother => hother hkind) (fun hlater => Nat.not_le.2 hlater hholds)
  rw [dmaWait, hright]
  dsimp only
  rw [if_neg hnot]

/-! ## SIGNAL (R284) -/

/-- The reserved fields of a SIGNAL are zero, and its count is not, where its kind has one. -/
def signalRight (w : U128) : Prop :=
  wbits w 7 7 = 0 ∧ wbits w 63 45 = 0 ∧ wbits w 127 96 = 0 ∧ (wbits w 5 4 ≠ 1 → wbits w 31 8 ≠ 0)

theorem signalRight_checks (h : signalRight w) :
    ¬(wbits w 7 7 ≠ 0 ∨ wbits w 63 45 ≠ 0 ∨ wbits w 127 96 ≠ 0 ∨ (wbits w 5 4 ≠ 1 ∧ wbits w 31 8 = 0)) := by
  obtain ⟨h7, h63, h127, hcount⟩ := h
  rintro (hbit | hobj | hhigh | ⟨hkind, hnone⟩)
  · exact hbit h7
  · exact hobj h63
  · exact hhigh h127
  · exact hcount hkind hnone

theorem dmaSignal_consumes (h : signalRight w) (hkind : wbits w 5 4 = 0) (hbit : bit w.toNat 6 = true)
    (hbound : boundCons c (wbits w 44 32) = true) (hheld : wbits w 31 8 ≤ ringHeld (getRing (wbits w 44 32) s)) :
    dmaSignal n w c s =
      dmaNext n (modRing (wbits w 44 32) (fun r => { r with cons := r.cons + BitVec.ofNat 16 (wbits w 31 8) }) s) := by
  rw [dmaSignal]
  dsimp only
  rw [if_neg (signalRight_checks h), if_pos hkind, if_pos hbit, hbound, decide_eq_true hheld]
  rfl

theorem dmaSignal_publishes (h : signalRight w) (hkind : wbits w 5 4 = 0) (hbit : bit w.toNat 6 = false)
    (hbound : boundProd c (wbits w 44 32) = true) (hfree : wbits w 31 8 ≤ ringFree (getRing (wbits w 44 32) s)) :
    dmaSignal n w c s = dmaNext n (publishMany (wbits w 44 32) (wbits w 31 8) s) := by
  rw [dmaSignal]
  dsimp only
  rw [if_neg (signalRight_checks h), if_pos hkind, if_neg (ne_true_of_eq_false hbit), hbound, decide_eq_true hfree]
  rfl

theorem dmaSignal_posts (h : signalRight w) (hkind : wbits w 5 4 = 1) :
    dmaSignal n w c s = dmaNext n (event 0x1403 0 n [(16, 1, n), (20, 4, wbits w 95 64), (24, 8, dmaPosition c)] s) := by
  rw [dmaSignal]
  dsimp only
  rw [if_neg (signalRight_checks h), if_neg (by omega), if_pos hkind]

theorem dmaSignal_adds (h : signalRight w) (hkind : wbits w 5 4 = 2) (hobj : wbits w 44 32 < 768) :
    dmaSignal n w c s = dmaNext n { s with dma := { s.dma with
      semaphores := tmod 0 s.dma.semaphores (wbits w 44 32) fun v => min 65535 (v + wbits w 31 8) } } := by
  rw [dmaSignal]
  dsimp only
  rw [if_neg (signalRight_checks h), if_neg (by omega), if_neg (by omega), if_pos hkind, if_pos hobj]

theorem dmaSignal_raises (h : signalRight w) (hkind : wbits w 5 4 = 3) (hlow : 256 ≤ wbits w 44 32) (hhigh : wbits w 44 32 ≤ 447) :
    dmaSignal n w c s = dmaNext n (raiseLine (wbits w 44 32) (wbits w 31 8) s) := by
  rw [dmaSignal]
  dsimp only
  rw [if_neg (signalRight_checks h), if_neg (by omega), if_neg (by omega), if_neg (by omega), if_pos ⟨hlow, hhigh⟩]

/-! ## LINK and END (R278, R293) -/

theorem dmaLink_goes (hz : wbits w 63 6 = 0) (hspace : wbits w 5 4 ≤ 1) (haligned : wbits w 127 64 % 16 = 0)
    (hin : wbits w 5 4 = 1 → wbits w 127 64 < 2 ^ 40) :
    dmaLink n w c s = modChan n (fun c => { c with pos := wbits w 127 64, posSpace := wbits w 5 4, refetch := false, done := true }) s :=
  if_neg (by omega)

theorem dmaLink_wrong (h : wbits w 63 6 ≠ 0 ∨ 1 < wbits w 5 4 ∨ wbits w 127 64 % 16 ≠ 0 ∨
    (wbits w 5 4 = 1 ∧ 2 ^ 40 ≤ wbits w 127 64)) : dmaLink n w c s = dmaStop n 5 s := if_pos h

/-- What an END makes of its channel: it parks, or a kick has it fetch its address again. -/
def parked (c : Channel) : Channel :=
  if c.kick then { c with kick := false, refetch := true, done := true } else { c with state := 3, done := true, refetch := false }

theorem dmaEnd_silent (h : bit w.toNat 4 = false ∨ c.refetch = true) : dmaEnd n w c s = modChan n parked s :=
  if_neg (by rcases h with hquiet | hagain
             · simp [hquiet]
             · simp [hagain])

theorem dmaEnd_notifies (hnotify : bit w.toNat 4 = true) (hfirst : c.refetch = false) :
    dmaEnd n w c s = event 0x1402 0 n [(16, 1, n), (24, 8, dmaPosition c)] (modChan n parked s) :=
  if_pos (by simp [hnotify, hfirst])

end

/-! ## The instructions together -/

/-- Settles O53, instruction by instruction. That a row which names another instruction only lets time pass is the model's choice
(log 9), and so is what SCATTER reads (log 48). -/
theorem dmaInstructions : Obligations.DmaInstructions := by
  intro t n w s u c hready hserved hfetch hword next stop begun
  have hrun : ∀ {op : Nat} {run : Channel → State → State}, w.toNat % 16 = op →
      (Host.Outcome.next (dmaFetch t n op w run s) : Out) = .next (run c u) := fun hop =>
    congrArg Host.Outcome.next (dmaFetch_runs hready hserved hfetch hword hop)
  have hgo : ∀ {op : Nat} {run : Channel → State → State} {v : State}, w.toNat % 16 = op → run c u = v →
      (Host.Outcome.next (dmaFetch t n op w run s) : Out) = .next v := fun hop hv => (hrun hop).trans (congrArg _ hv)
  refine ⟨fun hop hright => ⟨fun hlen => hgo hop (dmaMove_misaligned hright hlen),
      fun hlen hsource hdest => hgo hop (dmaMove_begins hright hlen hsource hdest)⟩,
    fun hlistServed items hlist => ⟨fun hop hdest hsources => hgo hop (dmaGather_begins hlistServed hlist hdest hsources),
      fun hop hdests => hgo hop (dmaScatter_begins hlistServed hlist hdests)⟩,
    fun hlistServed cause hlist => ⟨fun hop => hgo hop (dmaGather_stops hlistServed hlist),
      fun hop => hgo hop (dmaScatter_stops hlistServed hlist)⟩, ?_, ?_, ?_, ?_, ?_, ?_⟩
  · intro hop k back
    refine ⟨fun hwrong => hgo hop (dmaLoop_wrong hwrong), fun hkind hhigh hback hin => ?_⟩
    have hright := dmaLoop_right hkind hhigh hback hin
    exact ⟨fun hlast => hgo hop (dmaLoop_ends hright hlast), fun v hmore => hgo hop (dmaLoop_repeats hright hmore)⟩
  · exact fun hop hright => ⟨fun hkind hpast => hgo hop (dmaWait_passes hright hkind hpast),
      fun hlater => hgo hop (dmaWait_waits hright hlater)⟩
  · intro hop h7 h63 h127 obj count r
    have hcounted : count ≠ 0 → signalRight w := fun hcount => ⟨h7, h63, h127, fun _ => hcount⟩
    refine ⟨fun hkind hcount hbit hbound hheld => hgo hop (dmaSignal_consumes (hcounted hcount) hkind hbit hbound hheld),
      fun hkind hcount hbit hbound hfree => hgo hop (dmaSignal_publishes (hcounted hcount) hkind hbit hbound hfree),
      fun hkind => hgo hop (dmaSignal_posts ⟨h7, h63, h127, fun hother => absurd hkind hother⟩ hkind),
      fun hkind hcount hobj => hgo hop (dmaSignal_adds (hcounted hcount) hkind hobj),
      fun hkind hcount hlow hhigh => hgo hop (dmaSignal_raises (hcounted hcount) hkind hlow hhigh)⟩
  · exact fun hop => ⟨fun hz hspace haligned hin => hgo hop (dmaLink_goes hz hspace haligned hin),
      fun hwrong => hgo hop (dmaLink_wrong hwrong)⟩
  · exact fun hop => ⟨fun hsilent => hgo hop (dmaEnd_silent hsilent),
      fun hnotify hfirst => hgo hop (dmaEnd_notifies hnotify hfirst)⟩
  · intro hop
    have hstops : exec (.dmaUndefinedOp t n w) s = .next (stop 4) :=
      (congrArg Host.Outcome.next (if_pos hop)).trans (hrun rfl)
    exact ⟨hstops, fun hnone => hstops.trans (congrArg Host.Outcome.next (dmaStop_none hnone))⟩

end Sys2Proof.Machine

/-! # The rows of transfers, request lines and messages

Each row's conditions hold, so its one branch is taken; what is left is what a burst between two places of DRAM moves, and what one
more request of a line comes to. -/

namespace Sys2Proof.Machine

/-! ## WAITs that hold (R283) -/

/-- A WAIT for a line takes its requests. -/
theorem waitPass_line {n : Nat} {w : U128} {s : State} (hkind : wbits w 5 4 = 0) :
    waitPass n w s = dmaNext n (modChan n (fun c => { c with state := 1, wait := none })
      { s with dma := { s.dma with lines := tmod 0 s.dma.lines (wbits w 44 32) (· - wbits w 31 8) } }) := by
  rw [waitPass]
  dsimp only
  rw [if_pos hkind]

/-- A WAIT for a semaphore takes its units. -/
theorem waitPass_semaphore {n : Nat} {w : U128} {s : State} (hkind : wbits w 5 4 = 1) :
    waitPass n w s = dmaNext n (modChan n (fun c => { c with state := 1, wait := none })
      { s with dma := { s.dma with semaphores := tmod 0 s.dma.semaphores (wbits w 44 32) (· - wbits w 31 8) } }) := by
  rw [waitPass]
  dsimp only
  rw [if_neg (by omega), if_pos hkind]

theorem exec_dmaWaitSatisfied {t : DT} {n : Nat} {w : U128} {s : State} (hwait : (getChan n (advance t s)).wait = some w)
    (hstate : (getChan n (advance t s)).state = 2) (hholds : waitHolds w (advance t s) = true)
    (hfirst : waitFirst n w (advance t s) = true) :
    exec (.dmaWaitSatisfied t n) s = .next (waitPass n w (advance t s)) := by
  change execDmaWaitSatisfied t n s = _
  rw [execDmaWaitSatisfied]
  rw [hwait]
  exact congrArg Host.Outcome.next (if_pos ⟨hstate, hholds, hfirst⟩)

/-! ## Bursts (R279, R280, R288, R297) -/

/-- R302: a burst touches the DRAM where a side of it lies there. -/
def burstTouched (p : Nat × Nat × Nat × Nat × Nat) (u : State) : State := if p.1 = 0 ∨ p.2.2.1 = 0 then dramTouch u else u

/-- A burst's source is DRAM that it cannot read. -/
def burstBad (x : Transfer) (p : Nat × Nat × Nat × Nat × Nat) (u : State) : Prop :=
  p.1 = 0 ∧ (inDram p.2.1 (min x.burst p.2.2.2.2) u = false ∨ poisonedIn p.2.1 (min x.burst p.2.2.2.2) u = true)

/-- A burst's destination is DRAM beyond capacity. -/
def burstOut (x : Transfer) (p : Nat × Nat × Nat × Nat × Nat) (u : State) : Prop :=
  p.2.2.1 = 0 ∧ inDram p.2.2.2.1 (min x.burst p.2.2.2.2) u = false

section
variable {n : Nat} {x : Transfer} {p : Nat × Nat × Nat × Nat × Nat} {rest : List (Nat × Nat × Nat × Nat × Nat)} {u : State}

theorem burstBad_iff : (p.1 == 0 && (!inDram p.2.1 (min x.burst p.2.2.2.2) u || poisonedIn p.2.1 (min x.burst p.2.2.2.2) u)) = true ↔
    burstBad x p u := by simp [burstBad]

theorem burstOut_iff : (p.2.2.1 == 0 && !inDram p.2.2.2.1 (min x.burst p.2.2.2.2) u) = true ↔ burstOut x p u := by simp [burstOut]

variable (hx : (getChan n u).transfer = some x) (hp : x.pieces = p :: rest) (hready : burstReady (getChan n u) x u = true)
  (hserved : p.1 = 0 ∨ p.2.2.1 = 0 → dramStalled u = false)
include hx hp hready hserved

/-- A burst that may be issued moves its bytes, free ones where its source cannot be read, and then stops the channel where a side
of it failed. -/
theorem dmaBurst_issued : let bad := p.1 == 0 && (!inDram p.2.1 (min x.burst p.2.2.2.2) u || poisonedIn p.2.1 (min x.burst p.2.2.2.2) u)
    let out := p.2.2.1 == 0 && !inDram p.2.2.2.1 (min x.burst p.2.2.2.2) u
    let v := burstMove n (getChan n u) x p bad (burstTouched p u)
    dmaBurst n u = if bad then dmaStop n 1 v else if out then dmaStop n 2 v else v := by
  have hstall : ¬((p.1 == 0 || p.2.2.1 == 0) && dramStalled u) = true := by simpa using hserved
  have htouched : (if (p.1 == 0 || p.2.2.1 == 0) = true then dramTouch u else u) = burstTouched p u := by simp [burstTouched]
  intro bad out v
  rw [dmaBurst, hx]
  dsimp only
  rw [if_neg (not_bang_of_true hready), hp]
  dsimp only
  rw [if_neg hstall, htouched]
  rfl

theorem dmaBurst_bad (h : burstBad x p u) :
    dmaBurst n u = dmaStop n 1 (burstMove n (getChan n u) x p true (burstTouched p u)) := by
  have hissued := dmaBurst_issued hx hp hready hserved
  dsimp only at hissued
  rw [hissued, if_pos (burstBad_iff.2 h), burstBad_iff.2 h]

theorem dmaBurst_out (hbad : ¬burstBad x p u) (h : burstOut x p u) :
    dmaBurst n u = dmaStop n 2 (burstMove n (getChan n u) x p false (burstTouched p u)) := by
  have hissued := dmaBurst_issued hx hp hready hserved
  dsimp only at hissued
  have hgood := Bool.eq_false_iff.2 (mt burstBad_iff.1 hbad)
  rw [hissued, hgood, if_neg Bool.false_ne_true, if_pos (burstOut_iff.2 h)]

theorem dmaBurst_good (hbad : ¬burstBad x p u) (hout : ¬burstOut x p u) :
    dmaBurst n u = burstMove n (getChan n u) x p false (burstTouched p u) := by
  have hissued := dmaBurst_issued hx hp hready hserved
  dsimp only at hissued
  have hgood := Bool.eq_false_iff.2 (mt burstBad_iff.1 hbad)
  rw [hissued, hgood, if_neg Bool.false_ne_true, if_neg (mt burstOut_iff.1 hout)]

end

@[simp] theorem getChan_storeAt (n l a : Nat) (bs : List Byte) (s : State) : getChan n (storeAt l a bs s) = getChan n s := by
  rw [getChan, getChan, dma_of_blocks (blocks_storeAt l a bs s)]

/-- A burst from DRAM to DRAM, without a request and without RATE, copies its bytes and steps both sides. -/
theorem burstMove_dram {n : Nat} {x : Transfer} {p : Nat × Nat × Nat × Nat × Nat} {rest : List (Nat × Nat × Nat × Nat × Nat)}
    {w : State} (hp : x.pieces = p :: rest) (hsource : p.1 = 0) (hdest : p.2.2.1 = 0)
    (hin : inDram p.2.2.2.1 (min x.burst p.2.2.2.2) w = true) (hreq : x.req = false) (hrate : (getChan n w).rate = 0) :
    let len := min x.burst p.2.2.2.2
    let left := p.2.2.2.2 - len
    burstMove n (getChan n w) x p false w = modChan n (fun c => { c with
      remaining := c.remaining - len, moved := c.moved + len, recent := []
      transfer := some { x with pieces := if left = 0 then rest else (0, p.2.1 + len, 0, p.2.2.2.1 + len, left) :: rest } })
      (storeAt 2 p.2.2.2.1 (readBytes w.dram p.2.1 len) w) := by
  obtain ⟨source, a, dest, d, count⟩ := p
  obtain rfl : source = 0 := hsource
  obtain rfl : dest = 0 := hdest
  replace hin : inDram d (min x.burst count) w = true := hin
  intro len left
  simp only [burstMove, hreq, hin, Bool.false_eq_true, Bool.true_eq_false, and_false, if_false, hp]
  have hcopy : sideWrite (getChan n w) 0 d (sideRead (getChan n w) 0 a len w).1 (sideRead (getChan n w) 0 a len w).2 =
      storeAt 2 d (readBytes w.dram a len) w := rfl
  rw [hcopy]
  refine modChan_congr ?_
  simp only [getChan_storeAt, if_pos hrate]
  rfl

/-! ## Ends of transfers and errors (R287 to R290) -/

theorem exec_dmaTransferDone {t : DT} {n : Nat} {x : Transfer} {s : State} (hx : (getChan n (advance t s)).transfer = some x)
    (hdone : x.pieces = []) (hstate : (getChan n (advance t s)).state = 1)
    (hflush : x.flush = true → dmaHostUp (getChan n (advance t s)) (advance t s) = true) :
    exec (.dmaTransferDone t n) s = .next (dmaSettle n (dmaNext n (modChan n (fun c => { c with transfer := none }) (advance t s)))) := by
  refine congrArg Host.Outcome.next (if_pos ⟨hstate, ?_⟩)
  rw [hx, Option.any_some, hdone]
  simpa [Bool.or_eq_true, imp_iff_not_or] using hflush

theorem exec_dmaErrorResponse {t : DT} {n cause : Nat} {x : Transfer} {s : State} (hx : (getChan n (advance t s)).transfer = some x)
    (hstate : (getChan n (advance t s)).state = 1) (hcause : cause = 1 ∨ cause = 2) :
    exec (.dmaErrorResponse t n cause) s = .next (dmaStop n cause
      (if burstReady (getChan n (advance t s)) x (advance t s) then
        match x.pieces with
        | p :: _ => burstMove n (getChan n (advance t s)) x p true (advance t s)
        | [] => advance t s
      else advance t s)) := by
  change execDmaErrorResponse t n cause s = _
  rw [execDmaErrorResponse]
  dsimp only
  rw [hx]
  exact congrArg Host.Outcome.next (if_pos ⟨hstate, hcause⟩)

/-- R288: between instructions only a fetch can fail. -/
theorem exec_dmaErrorResponse_fetch {t : DT} {n : Nat} {s : State} (h : dmaReady (getChan n (advance t s)) = true) :
    exec (.dmaErrorResponse t n 3) s = .next (dmaStop n 3 (advance t s)) := by
  have hnone : (getChan n (advance t s)).transfer = none := by
    simp only [dmaReady, Bool.and_eq_true, Option.isNone_iff_eq_none] at h
    exact h.1.2
  change execDmaErrorResponse t n 3 s = _
  rw [execDmaErrorResponse]
  dsimp only
  rw [hnone]
  exact congrArg Host.Outcome.next (if_pos ⟨h, rfl⟩)

/-! ## Request lines (R285) -/

theorem raiseLine_counts {line : Nat} {s : State} (h : tget 0 s.dma.lines line < 65535) :
    raiseLine line 1 s = { s with dma := { s.dma with lines := tput 0 s.dma.lines line (tget 0 s.dma.lines line + 1) } } := by
  have hlost : tget 0 s.dma.lines line + 1 - 65535 = 0 := by omega
  rw [raiseLine]
  dsimp only
  rw [if_pos hlost, Nat.min_eq_right (by omega)]

theorem raiseLine_loses {line : Nat} {s : State} (h : tget 0 s.dma.lines line = 65535) : let old := tget (0, 0) s.dma.lost line
    let first := if old.1 = 0 then s.dt else old.2
    raiseLine line 1 s = event 0x1404 1 0xFFFF [(16, 2, line), (20, 4, sat 4 (old.1 + 1)), (24, 8, first.toNat)]
      { s with dma := { s.dma with lines := tput 0 s.dma.lines line 65535
                                   lost := tput (0, 0) s.dma.lost line (old.1 + 1, first) } } := by
  intro old first
  rw [raiseLine]
  dsimp only
  rw [h]
  rfl

/-! ## Messages (R295, R296) -/

theorem exec_msixUnmask (t : DT) (function vector : Nat) (s : State) :
    exec (.msixUnmask t function vector) s = .next (vectorControl function vector false (advance t s)) := rfl

/-- A vector as unmasked, with nothing of it pending. -/
def unmasked (key : Nat) (u : State) : State :=
  { u with pcie := { u.pcie with
    masked := u.pcie.masked.filter (· != key), pendingVecs := u.pcie.pendingVecs.filter (· != key) } }

theorem vectorControl_idle {function vector : Nat} {u : State} (h : 64 * function + vector ∉ u.pcie.pendingVecs) :
    vectorControl function vector false u = unmasked (64 * function + vector) u :=
  if_neg (by simpa using h)

/-- R296: a message of a vector that is not masked, of a function whose link is up. -/
theorem sendMsi_sends {function vector : Nat} {u : State} (hopen : 64 * function + vector ∉ u.pcie.masked)
    (hlink : u.pcie.link = true) (hfunction : function = 0 ∨ u.pcie.pf1Enabled = true) :
    sendMsi function vector u =
      { u with pcie := { u.pcie with sent := tmod 0 u.pcie.sent (64 * function + vector) (· + 1) } } := by
  rw [sendMsi]
  dsimp only
  rw [if_neg (by simpa using hopen), if_pos (by simpa [hlink] using hfunction)]

theorem vectorControl_pending {function vector : Nat} {u : State} (h : 64 * function + vector ∈ u.pcie.pendingVecs) :
    vectorControl function vector false u = sendMsi function vector (unmasked (64 * function + vector) u) :=
  if_pos (by simpa using h)

/-! ## The rows together -/

/-- Settles O54, row by row. RATE's window is the model's choice (log 61). -/
theorem dmaEvents : Obligations.DmaEvents := by
  intro t s u
  refine ⟨?_, ?_, ?_, ?_, ?_, ?_, ?_, ?_⟩
  · intro n w hwait hstate hholds hfirst obj count pass
    have hrow := exec_dmaWaitSatisfied hwait hstate hholds hfirst
    exact ⟨fun hkind => hrow.trans (congrArg Host.Outcome.next (waitPass_line hkind)),
      fun hkind => hrow.trans (congrArg Host.Outcome.next (waitPass_semaphore hkind)),
      fun hkind => hrow.trans (congrArg Host.Outcome.next (waitPass_other hkind))⟩
  · intro n x p rest c hx hp hready hserved len bad out w
    refine ⟨fun hbad => congrArg Host.Outcome.next (dmaBurst_bad hx hp hready hserved hbad),
      fun hbad hout => congrArg Host.Outcome.next (dmaBurst_out hx hp hready hserved hbad hout), fun hbad hout => ?_⟩
    have hgood := dmaBurst_good hx hp hready hserved hbad hout
    refine ⟨congrArg Host.Outcome.next hgood, fun hsource hdest hreq hrate => ?_⟩
    refine congrArg Host.Outcome.next (hgood.trans ?_)
    have hin : inDram p.2.2.2.1 len u = true := by
      rw [← Bool.not_eq_false]
      exact fun hbeyond => hout ⟨hdest, hbeyond⟩
    have htouched : burstTouched p u = dramTouch u := if_pos (.inl hsource)
    have hw : w = dramTouch u := if_pos (.inl hsource)
    rw [htouched, hw]
    exact burstMove_dram (w := dramTouch u) hp hsource hdest hin hreq hrate
  · intro n x hx hdone hstate hflush v
    have hrow := exec_dmaTransferDone hx hdone hstate hflush
    have hv : getChan n v = { getChan n u with transfer := none, pos := (getChan n u).pos + 16, refetch := false, done := true } := by
      simp [v]
    refine ⟨fun hnone => hrow.trans (congrArg Host.Outcome.next (dmaSettle_none ?_)), fun r hstop => ?_⟩
    · change (getChan n v).stopRef = none
      rw [hv, ← hnone]
    · have hpending : (getChan n v).stopRef = some r := by rw [hv, ← hstop]
      refine hrow.trans (congrArg Host.Outcome.next ((dmaSettle_some hpending).trans (congrArg (ok r 0) (modChan_congr ?_))))
      rw [hv, hstate]
      rfl
  · intro n x cause hx hstate hcause
    have hrow := exec_dmaErrorResponse hx hstate hcause
    refine ⟨fun hidle => ?_, fun p rest hready hp => ?_⟩
    · rw [hrow, if_neg (ne_true_of_eq_false hidle)]
    · rw [hrow, if_pos hready, hp]
  · exact fun n hready => exec_dmaErrorResponse_fetch hready
  · intro line hlisted
    have hrow : exec (.requestLineRequest t line) s = .next (raiseLine line 1 u) := congrArg Host.Outcome.next (if_pos hlisted)
    exact ⟨fun hroom => hrow.trans (congrArg Host.Outcome.next (raiseLine_counts hroom)),
      fun hfull => hrow.trans (congrArg Host.Outcome.next (raiseLine_loses hfull))⟩
  · intro n r hthere hsome htime hdue hserved
    exact congrArg Host.Outcome.next (if_pos ⟨hthere, hsome, htime, hdue, hserved⟩)
  · intro function vector key v
    refine ⟨fun hidle => ?_, fun hpending hlink hfunction => ?_⟩
    · rw [exec_msixUnmask, vectorControl_idle hidle]
      rfl
    · have hopen : key ∉ v.pcie.masked := by simp [v]
      rw [exec_msixUnmask, vectorControl_pending hpending]
      exact congrArg Host.Outcome.next (sendMsi_sends (u := v) hopen hlink hfunction)

end Sys2Proof.Machine

/-! # The rows of the DRAM and of the SRAM

An error is logged, counted and reported by `memError`; the rows then do what Table 15-3 and Table 15-6 add. -/

namespace Sys2Proof.Machine

/-! ## Point changes, training, self-refresh and refresh (R301, R302, R304, R305) -/

section
variable {t : DT} {s : State}

theorem exec_dfsDone {target : Nat} {ref : CmdRef} {taken began : DT}
    (hchange : (advance t s).memCtl.change = some (target, ref, taken, some began))
    (hthere : (getPll 2 (advance t s)).absent = none) : let w := pllRun 2 (dramKHz target) (advance t s)
    let v := dramResumed { w with memCtl := { w.memCtl with point := target, change := none, selfRefresh := false } }
    exec (.dfsDone t) s = .next (event 0x1502 0 0xFFFF [(16, 1, target), (17, 1, b2n !(getPll 2 v).hop),
      (18, 2, sat 2 (micros began v.dt)), (20, 4, sat 4 (micros taken began))] (ok ref 0 v)) := by
  have hpresent : ¬(getPll 2 (advance t s)).absent.isSome = true := by rw [hthere]; exact Bool.false_ne_true
  change execDfsDone t s = _
  rw [execDfsDone]
  dsimp only
  rw [hchange]
  exact congrArg Host.Outcome.next (if_neg hpresent)

theorem exec_trainingWindow (hwiped : (advance t s).stone.dramWiped = true) (hidle : (advance t s).memCtl.training = false)
    (hserved : dramStalled (advance t s) = false) : let u := advance t s
    exec (.trainingWindow t) s = .next { u with memCtl := { u.memCtl with training := true, lastTraining := u.dt } } :=
  congrArg Host.Outcome.next (if_pos (by rw [hwiped, hidle, hserved]; rfl))

theorem exec_trainingWindowEnd (htraining : (advance t s).memCtl.training = true) :
    exec (.trainingWindowEnd t) s = .next (dfsBegin (modMem (fun m => { m with training := false }) (advance t s))) :=
  congrArg Host.Outcome.next (if_pos htraining)

/-- R305: with no change taken meanwhile nothing begins. -/
theorem dfsBegin_none {u : State} (h : u.memCtl.change = none) : dfsBegin u = u := by rw [dfsBegin, h]

theorem exec_selfRefreshEntry (hwiped : (advance t s).stone.dramWiped = true) (hset : (advance t s).memCtl.idleUs ≠ 0)
    (hidle : dramBusy (advance t s) = false) (hserved : dramStalled (advance t s) = false)
    (hlong : (advance t s).memCtl.idleUs * tkUs ≤ dtSub (advance t s).dt (advance t s).memCtl.lastRequest) : let u := advance t s
    exec (.selfRefreshEntry t) s = .next { u with memCtl := { u.memCtl with selfRefresh := true } } := by
  refine congrArg Host.Outcome.next (if_pos ?_)
  rw [hwiped, bne_iff_ne.2 hset, hidle, hserved, decide_eq_true hlong]
  rfl

theorem exec_dramRefresh {channel bank : Nat} (hwiped : (advance t s).stone.dramWiped = true) (hchannel : channel < 16)
    (hawake : (advance t s).memCtl.selfRefresh = false) : let u := advance t s
    exec (.dramRefresh t channel bank) s = .next { u with memCtl := { u.memCtl with
      refreshes := u.memCtl.refreshes + 1, lastRefresh := some (channel, bank) } } :=
  congrArg Host.Outcome.next (if_pos (by rw [hwiped, decide_eq_true hchannel, hawake]; rfl))

/-! ## The log and the reports (R307, R309) -/

/-- R309: an error is like none of the last second in the log, which has room. -/
def loggedAnew (e : LogEntry) (u : State) : Prop :=
  u.memCtl.log.length < 256 ∧ ∀ o ∈ u.memCtl.log, sameError o e = false ∨ o.read = true ∨ tkS ≤ dtSub e.dt o.dt

theorem logError_anew {e : LogEntry} {u : State} (h : loggedAnew e u) :
    logError e u = (1, modMem (fun m => { m with log := m.log ++ [e] }) u) := by
  obtain ⟨hroom, hnew⟩ := h
  have hnone : (u.memCtl.log.find? fun o => sameError o e && !o.read && decide (dtSub e.dt o.dt < tkS)) = none := by
    rw [List.find?_eq_none]
    intro o ho
    rw [Bool.and_eq_true, Bool.and_eq_true, Bool.not_eq_true', decide_eq_true_eq]
    rintro ⟨⟨hlike, hunread⟩, hrecent⟩
    rcases hnew o ho with hother | hread | hold
    · exact absurd hlike (ne_true_of_eq_false hother)
    · exact absurd hread (ne_true_of_eq_false hunread)
    · exact Nat.not_le.2 hrecent hold
  have hsmall : decide (256 ≤ u.memCtl.log.length) = false := decide_eq_false (Nat.not_le.2 hroom)
  rw [logError]
  dsimp only
  rw [hnone]
  simp only [hsmall, Bool.false_eq_true, if_false, Bool.false_and, Bool.or_false]

/-- A table that does not list a number reads its default there. -/
theorem tget_of_notMem {α : Type} {d : α} {t : Table α} {k : Nat} (h : ∀ p ∈ t, p.1 ≠ k) : tget d t k = d := by
  induction t with
  | nil => rfl
  | cons e rest ih =>
    obtain ⟨i, v⟩ := e
    have hne : i ≠ k := h _ (List.mem_cons_self ..)
    rw [tget, if_neg hne]
    exact ih fun p hp => h p (List.mem_cons_of_mem _ hp)

/-- R309: the first correctable error of a channel is reported. -/
theorem reportError_first {e : LogEntry} {count group : Nat} {u : State} (h : ∀ p ∈ u.memCtl.ceEvent, p.1 ≠ group) :
    reportError e count group false u =
      event 0x1501 1 e.unit [(16, 1, e.kind), (17, 1, e.cls), (18, 2, e.unit), (20, 4, count), (24, 8, e.addr)]
        (modMem (fun m => { m with ceEvent := m.ceEvent ++ [(group, u.dt)] }) u) := by
  have hnever : tget none (u.memCtl.ceEvent.map fun p => (p.1, some p.2)) group = none := by
    refine tget_of_notMem ?_
    rw [List.forall_mem_map]
    exact h
  have hkept : (u.memCtl.ceEvent.filter fun p => p.1 != group) = u.memCtl.ceEvent :=
    List.filter_eq_self.2 fun p hp => bne_iff_ne.2 (h p hp)
  rw [reportError]
  dsimp only
  rw [hnever]
  simp only [Bool.not_false, Bool.and_false, Bool.false_eq_true, if_false, modMem, hkept]

/-! ## DRAM errors (R308, R310, Table 15-3) -/

theorem exec_dramEccError_link {r : DramError} (hwiped : (advance t s).stone.dramWiped = true) (hkind : r.kind = 3) :
    let u := advance t s
    exec (.dramEccError t r) s = .next (memError (newEntry u 3 (requesterClass r.requester u) r.channel r.row r.column r.bank r.bit
      r.addr) r.channel false u) := by
  intro u
  refine congrArg Host.Outcome.next ?_
  rw [if_neg (not_bang_of_true hwiped), if_neg (by omega), if_neg (by omega), if_neg (by omega), hkind]

theorem exec_dramEccError_corrected {r : DramError} (hwiped : (advance t s).stone.dramWiped = true) (hkind : r.kind = 1) :
    let u := advance t s
    let cls := requesterClass r.requester u
    exec (.dramEccError t r) s = .next (countRow cls r.channel r.bank r.row r.column r.addr
      (memError (newEntry u 1 cls r.channel r.row r.column r.bank r.bit r.addr) r.channel false
        { u with memCtl := { u.memCtl with dramCe := satAdd u32max u.memCtl.dramCe 1 } })) := by
  intro u cls
  refine congrArg Host.Outcome.next ?_
  rw [if_neg (not_bang_of_true hwiped), if_neg (by omega), if_pos hkind, if_neg (by omega), hkind]
  rfl

/-- The word of an uncorrectable error among those that are poisoned. -/
def withPoisoned (word : Nat) (u : State) : List Nat :=
  if word ∈ u.memCtl.poisoned then u.memCtl.poisoned else u.memCtl.poisoned ++ [word]

theorem mem_withPoisoned (word : Nat) (u : State) : word ∈ withPoisoned word u := by
  rw [withPoisoned]
  split
  · assumption
  · exact List.mem_append_right _ (List.mem_singleton_self word)

theorem exec_dramEccError_uncorrectable {r : DramError} (hwiped : (advance t s).stone.dramWiped = true) (hkind : r.kind = 2) :
    let u := advance t s
    let cls := requesterClass r.requester u
    let word := r.addr / 8 * 8
    let v := { u with memCtl := { u.memCtl with
      dramUe := satAdd u32max u.memCtl.dramUe 1
      poisoned := withPoisoned word u
      places := tput (0, 0, 0, 0) u.memCtl.places word (r.channel, r.bank, r.row, r.column) } }
    let w := remapRow cls r.channel r.bank r.row r.column r.addr
      (memError (newEntry u 2 cls r.channel r.row r.column r.bank 0xFF r.addr) r.channel true v)
    exec (.dramEccError t r) s = .next (faultArrive 7 2 r.channel 0xF 1 [] (poisonResponse r.requester w)) := by
  intro u cls word v w
  have hv : v = modMem (fun m => { m with
      dramUe := satAdd u32max m.dramUe 1, poisoned := if m.poisoned.contains word then m.poisoned else m.poisoned ++ [word]
      places := tput (0, 0, 0, 0) m.places word (r.channel, r.bank, r.row, r.column) }) u := by
    simp [v, modMem, withPoisoned]
  refine congrArg Host.Outcome.next ?_
  rw [if_neg (not_bang_of_true hwiped), if_pos hkind, if_pos hkind, hkind]
  simp only [w, hv]
  rfl

theorem exec_patrolScrub_clean {address : Nat} (h : address / 8 * 8 ∉ (advance t s).memCtl.poisoned) : let u := advance t s
    exec (.patrolScrub t address) s = .next { u with memCtl := { u.memCtl with scrubbed := address } } :=
  congrArg Host.Outcome.next (if_neg (mt List.contains_iff_mem.1 h))

theorem exec_patrolScrub_poisoned {address : Nat} (h : address / 8 * 8 ∈ (advance t s).memCtl.poisoned) : let u := advance t s
    let word := address / 8 * 8
    let v := { u with memCtl := { u.memCtl with scrubbed := address } }
    let p := tget (0, 0, 0, 0) u.memCtl.places word
    exec (.patrolScrub t address) s = .next (memError (newEntry u 2 0 p.1 p.2.2.1 p.2.2.2 p.2.1 0xFF word) p.1 true
      { v with memCtl := { v.memCtl with dramUe := satAdd u32max u.memCtl.dramUe 1 } }) :=
  congrArg Host.Outcome.next (if_pos (List.contains_iff_mem.2 h))

/-! ## SRAM errors (R312, Table 15-6) -/

theorem exec_sramEccError_uncorrectable {r : SramError} (hlow : 1 ≤ r.block) (hhigh : r.block ≤ 7) (hkind : r.uncorrectable = true) :
    let u := advance t s
    let unit := r.block * 256 + r.inst % 256
    let v := sramLost r.block r.inst (spareSramRow r.block r.inst r.row r.addr
      (memError (newEntry u 5 0 unit r.row 0 0 0xFF r.addr) (16 + r.block) true
        { u with memCtl := { u.memCtl with sramUe := satAdd u32max u.memCtl.sramUe 1 } }))
    exec (.sramEccError t r) s =
      .next (if r.block = 1 ∨ r.block = 3 ∨ r.block = 6 then v else faultArrive 6 5 unit 0xF 1 [] v) := by
  intro u unit v
  refine congrArg Host.Outcome.next ?_
  rw [if_neg (by omega), hkind]
  rfl

theorem exec_sramEccError_corrected {r : SramError} (hlow : 1 ≤ r.block) (hhigh : r.block ≤ 7) (hkind : r.uncorrectable = false) :
    let u := advance t s
    let w := memError (newEntry u 4 0 (r.block * 256 + r.inst % 256) r.row 0 0 r.bit r.addr) (16 + r.block) false
      { u with memCtl := { u.memCtl with
        sramCe := satAdd u32max u.memCtl.sramCe 1
        sramHistory := (u.memCtl.sramHistory.filter fun h => decide (dtSub u.dt h.2 < 86400 * tkS)) ++
          [((r.block, r.inst, r.row), u.dt)] } }
    exec (.sramEccError t r) s = .next (if 2 ≤ (w.memCtl.sramHistory.filter fun h => h.1 == (r.block, r.inst, r.row)).length then
      spareSramRow r.block r.inst r.row r.addr w else w) := by
  intro u w
  refine congrArg Host.Outcome.next ?_
  rw [if_neg (by omega), hkind]
  rfl

end

/-! ## The rows together -/

/-- Settles O55, row by row. How times round and SRAM rows are counted is the model's choice (logs 7 and 55). -/
theorem memoryEvents : Obligations.MemoryEvents := by
  intro t s u
  refine ⟨fun target ref taken began => exec_dfsDone, exec_trainingWindow, fun htraining => ⟨exec_trainingWindowEnd htraining,
      fun hnone => (exec_trainingWindowEnd htraining).trans (congrArg Host.Outcome.next (dfsBegin_none hnone))⟩,
    exec_selfRefreshEntry, fun hfree => congrArg Host.Outcome.next (if_neg (ne_true_of_eq_false hfree)),
    fun channel bank => exec_dramRefresh, fun address => ⟨exec_patrolScrub_clean, exec_patrolScrub_poisoned⟩, ?_, ?_⟩
  · intro r hwiped cls word logged anew
    refine ⟨?_, exec_dramEccError_corrected hwiped, fun hkind => ?_⟩
    · intro hkind e hnew hquiet
      rw [exec_dramEccError_link hwiped hkind, memError, logError_anew hnew]
      exact congrArg Host.Outcome.next (reportError_first hquiet)
    · exact ⟨exec_dramEccError_uncorrectable hwiped hkind, mem_withPoisoned word u⟩
  · intro r hlow hhigh unit
    refine ⟨fun hkind => ?_, fun hkind => ?_⟩
    · have hrow := exec_sramEccError_uncorrectable (t := t) (s := s) hlow hhigh hkind
      exact ⟨fun hunit => hrow.trans (congrArg Host.Outcome.next (if_pos hunit)),
        fun hother => hrow.trans (congrArg Host.Outcome.next (if_neg (by omega)))⟩
    · have hrow := exec_sramEccError_corrected (t := t) (s := s) hlow hhigh hkind
      exact ⟨fun hfew => hrow.trans (congrArg Host.Outcome.next (if_neg (Nat.not_le.2 hfew))),
        fun hmany => hrow.trans (congrArg Host.Outcome.next (if_pos hmany))⟩

end Sys2Proof.Machine

/-! # The steward rows (R360 to R366, Table 18-7)

A restart aborts bunches, completes commands, posts events and may halt every personality: first that none of this touches DT or
whether Korsyn runs. -/

namespace Sys2Proof.Machine

/-! ## What leaves Korsyn as it is -/

/-- DT, and what a restart of Korsyn settles: whether it runs, takes commands, is out, and how often it restarted. -/
def korsyn (s : State) : DT × Bool × Bool × Option (Nat × DT) × Nat :=
  (s.dt, s.steward.running, s.steward.closed, s.steward.outage, s.steward.restartCount)

theorem korsyn_of_blocks {s t : State} (h : blocks t = blocks s) : korsyn t = korsyn s := by
  have hkorsyn : korsyn (blocks t) = korsyn (blocks s) := congrArg korsyn h
  exact hkorsyn

@[simp] theorem korsyn_mk (s : State) fuse stone power rings bunch clock time rf orx ddc spec bloom trig lineLog trigIn cap gen
    route laser fibre slow exc dma memCtl pcie port endpoint disp health host dram sram freeCount pending :
    korsyn (State.mk s.dt fuse stone power s.steward rings bunch clock time rf orx ddc spec bloom trig lineLog trigIn cap gen
      route laser fibre slow exc dma memCtl pcie port endpoint disp health host dram sram freeCount pending) = korsyn s := rfl

@[simp] theorem korsyn_ite (c : Prop) [Decidable c] (s t : State) :
    korsyn (if c then s else t) = if c then korsyn s else korsyn t := apply_ite korsyn c s t

@[simp] theorem korsyn_each {α : Type} {xs : List α} {f : α → State → State} (h : ∀ x u, korsyn (f x u) = korsyn u) (s : State) :
    korsyn (each xs f s) = korsyn s := each_keeps korsyn xs f h s

@[simp] theorem korsyn_event (code sev unit : Nat) (fs : List (Nat × Nat × Nat)) (s : State) :
    korsyn (event code sev unit fs s) = korsyn s := korsyn_of_blocks (blocks_event code sev unit fs s)
@[simp] theorem korsyn_eventAt (dt : DT) (code sev unit : Nat) (fs : List (Nat × Nat × Nat)) (s : State) :
    korsyn (eventAt dt code sev unit fs s) = korsyn s := korsyn_of_blocks (blocks_eventAt dt code sev unit fs s)
@[simp] theorem korsyn_deliverEvent (e : Event) (s : State) : korsyn (deliverEvent e s) = korsyn s :=
  korsyn_of_blocks (blocks_deliverEvent e s)
@[simp] theorem korsyn_publish (n : Nat) (bs : List Byte) (s : State) : korsyn (publish n bs s) = korsyn s :=
  korsyn_of_blocks (blocks_publish n bs s)
@[simp] theorem korsyn_storeAt (l a : Nat) (bs : List Byte) (s : State) : korsyn (storeAt l a bs s) = korsyn s :=
  korsyn_of_blocks (blocks_storeAt l a bs s)
@[simp] theorem korsyn_writeRecord (n : Nat) (bs : List Byte) (s : State) : korsyn (writeRecord n bs s) = korsyn s :=
  korsyn_of_blocks (blocks_writeRecord n bs s)
@[simp] theorem korsyn_complete (ref : CmdRef) (d : Done) (s : State) : korsyn (complete ref d s) = korsyn s :=
  korsyn_of_blocks (blocks_complete ref d s)
@[simp] theorem korsyn_completeOpt (ref : Option CmdRef) (d : Done) (s : State) : korsyn (completeOpt ref d s) = korsyn s :=
  korsyn_of_blocks (blocks_completeOpt ref d s)
@[simp] theorem korsyn_ok (ref : CmdRef) (r : Nat) (s : State) : korsyn (ok ref r s) = korsyn s :=
  korsyn_of_blocks (blocks_ok ref r s)
@[simp] theorem korsyn_fail (ref : CmdRef) (st r : Nat) (s : State) : korsyn (fail ref st r s) = korsyn s :=
  korsyn_of_blocks (blocks_fail ref st r s)
@[simp] theorem korsyn_flushCompletions (n k : Nat) (s : State) : korsyn (flushCompletions n k s) = korsyn s :=
  korsyn_of_blocks (blocks_flushCompletions n k s)

@[simp] theorem korsyn_modRing (n : Nat) (f : Ring → Ring) (s : State) : korsyn (modRing n f s) = korsyn s := rfl
@[simp] theorem korsyn_modBunch (n : Nat) (f : Bunch → Bunch) (s : State) : korsyn (modBunch n f s) = korsyn s := rfl
@[simp] theorem korsyn_modStone (f : Stone → Stone) (s : State) : korsyn (modStone f s) = korsyn s := rfl
@[simp] theorem korsyn_modCap (k : Nat) (f : Capture → Capture) (s : State) : korsyn (modCap k f s) = korsyn s := rfl
@[simp] theorem korsyn_modTrig (k : Nat) (f : TrigUnit → TrigUnit) (s : State) : korsyn (modTrig k f s) = korsyn s := rfl
@[simp] theorem korsyn_modSpec (p : Nat) (f : Spectral → Spectral) (s : State) : korsyn (modSpec p f s) = korsyn s := rfl
@[simp] theorem korsyn_modFibre (p : Nat) (f : Fibre → Fibre) (s : State) : korsyn (modFibre p f s) = korsyn s := rfl
@[simp] theorem korsyn_modDdc (p : Nat) (f : DdcPath → DdcPath) (s : State) : korsyn (modDdc p f s) = korsyn s := rfl
@[simp] theorem korsyn_modPip (n : Nat) (f : Core → Core) (s : State) : korsyn (modPip n f s) = korsyn s := rfl
@[simp] theorem korsyn_modCurrant (n : Nat) (f : Core → Core) (s : State) : korsyn (modCurrant n f s) = korsyn s := rfl
@[simp] theorem korsyn_modRf (n : Nat) (f : RfChan → RfChan) (s : State) : korsyn (modRf n f s) = korsyn s := rfl
@[simp] theorem korsyn_modGen (n : Nat) (f : Gen → Gen) (s : State) : korsyn (modGen n f s) = korsyn s := rfl
@[simp] theorem korsyn_modGov (n : Nat) (f : Governor → Governor) (s : State) : korsyn (modGov n f s) = korsyn s := rfl

/-! ### Lines, captures and records (R143, R184 to R196) -/

@[simp] theorem korsyn_packBytes (n : Nat) (bs : List Byte) (s : State) : korsyn (packBytes n bs s) = korsyn s := by
  simp [packBytes]

@[simp] theorem korsyn_lineLog (code edge data : Nat) (dt : DT) (s : State) : korsyn (lineLog code edge data dt s) = korsyn s := by
  simp [lineLog]

@[simp] theorem korsyn_capEnd (k extra : Nat) (goOn : Bool) (s : State) : korsyn (capEnd k extra goOn s) = korsyn s := by
  simp [capEnd]

@[simp] theorem korsyn_capsStop (ks : List Nat) (flag : Nat) (s : State) : korsyn (capsStop ks flag s) = korsyn s := by
  simp [capsStop]

@[simp] theorem korsyn_capsStopAt (ks : List Nat) (dt : DT) (s : State) : korsyn (capsStopAt ks dt s) = korsyn s := by
  unfold capsStopAt
  split
  · exact korsyn_capsStop ks _ s
  · exact korsyn_each (fun k u => korsyn_modCap k _ u) s

@[simp] theorem korsyn_capSpill (k : Nat) (u : DT × Nat) (s : State) : korsyn (capSpill k u s) = korsyn s := by simp [capSpill]

@[simp] theorem korsyn_capFeed (k : Nat) (u : DT × Nat) (s : State) : korsyn (capFeed k u s) = korsyn s := by
  unfold capFeed
  dsimp only
  split
  · rw [korsyn_modCap]
    split
    · simp
    · rfl
  · rfl

@[simp] theorem korsyn_capSpectrum (p f : Nat) (dt : DT) (bs : List Byte) (s : State) :
    korsyn (capSpectrum p f dt bs s) = korsyn s := by
  simp [capSpectrum, capNote]

@[simp] theorem korsyn_endAverage (p : Nat) (s : State) : korsyn (endAverage p s).2 = korsyn s := by
  unfold endAverage
  dsimp only
  split
  · rfl
  · simp

@[simp] theorem korsyn_averageEnd (p : Nat) (s : State) : korsyn (averageEnd p s) = korsyn s := by
  unfold averageEnd
  dsimp only
  split
  · simp
  · simp

@[simp] theorem korsyn_endTrace (p i : Nat) (s : State) : korsyn (endTrace p i s).2.2 = korsyn s := by simp [endTrace]

@[simp] theorem korsyn_deliverTrig (source : Nat) (dt onset : DT) (s : State) :
    korsyn (deliverTrig source dt onset s) = korsyn s := by
  simp [deliverTrig]

@[simp] theorem korsyn_limitViolation (p i fails : Nat) (c : LimitCfg) (dt : DT) (seq : Nat) (s : State) :
    korsyn (limitViolation p i fails c dt seq s) = korsyn s := by simp [limitViolation]

@[simp] theorem korsyn_limitTest (p i : Nat) (values : List Int) (flags : Nat) (dt : DT) (seq : Nat) (s : State) :
    korsyn (limitTest p i values flags dt seq s) = korsyn s := by
  unfold limitTest
  split
  · rfl
  · simp

@[simp] theorem korsyn_traceEnd (p i : Nat) (s : State) : korsyn (traceEnd p i s) = korsyn s := by simp [traceEnd]

@[simp] theorem korsyn_blocksEnd (p : Nat) (s : State) : korsyn (blocksEnd p s) = korsyn s := by simp [blocksEnd]

/-! ### Personalities that stop (R88, R148, R217, R359) -/

@[simp] theorem korsyn_setPips (p : Nat) (l : List Nat) (s : State) : korsyn (setPips p l s) = korsyn s := by simp [setPips]

@[simp] theorem korsyn_assignPips (p n : Nat) (s : State) : korsyn (assignPips p n s) = korsyn s := by
  induction n generalizing s with
  | zero => rfl
  | succ n ih =>
    unfold assignPips
    dsimp only
    split
    · split
      · simp [ih, pipTo]
      · rfl
    · split
      · split
        · simp [ih, pipTo]
        · rfl
      · rfl

@[simp] theorem korsyn_assignCurrants (f n : Nat) (s : State) : korsyn (assignCurrants f n s) = korsyn s := by
  induction n generalizing s with
  | zero => rfl
  | succ n ih =>
    unfold assignCurrants
    dsimp only
    split
    · split
      · simp [ih, currantTo]
      · rfl
    · split
      · split
        · simp [ih, currantTo]
        · rfl
      · rfl

@[simp] theorem korsyn_assignUnits (p : Nat) (s : State) : korsyn (assignUnits p s) = korsyn s := by simp [assignUnits]

@[simp] theorem korsyn_padChange (ch : Nat) (s : State) : korsyn (padChange ch s) = korsyn s := by
  simp [padChange, burnDue]

@[simp] theorem korsyn_rfStop (ch : Nat) (s : State) : korsyn (rfStop ch s) = korsyn s := by simp [rfStop, rfPowerDown]

@[simp] theorem korsyn_rfPersonalityStop (p : Nat) (s : State) : korsyn (rfPersonalityStop p s) = korsyn s := by
  simp [rfPersonalityStop]

@[simp] theorem korsyn_fibreStop (f : Nat) (s : State) : korsyn (fibreStop f s) = korsyn s :=
  (korsyn_assignUnits _ _).trans (korsyn_each (fun path u => korsyn_modDdc path _ u) _)

@[simp] theorem korsyn_laserSwitch (on : Bool) (s : State) : korsyn (laserSwitch on s) = korsyn s :=
  korsyn_each (fun f u => korsyn_modFibre f _ u) _

@[simp] theorem korsyn_laserCut (s : State) : korsyn (laserCut s) = korsyn s := by simp [laserCut]

@[simp] theorem korsyn_laserArmLand (d : Nat) (arm : Bool) (s : State) : korsyn (laserArmLand d arm s) = korsyn s := by
  simp [laserArmLand]

@[simp] theorem korsyn_markersTo (d new : Nat) (dt : DT) (s : State) : korsyn (markersTo d new dt s) = korsyn s := by
  simp [markersTo]

@[simp] theorem korsyn_playOut (d : Nat) (next : Option Play) (s : State) : korsyn (playOut d next s) = korsyn s := by
  simp [playOut, sampleOut]

@[simp] theorem korsyn_genEnd (d cause : Nat) (s : State) : korsyn (genEnd d cause s) = korsyn s := by simp [genEnd]

@[simp] theorem korsyn_haltNow (p cause : Nat) (s : State) : korsyn (haltNow p cause s) = korsyn s := by simp [haltNow]

@[simp] theorem korsyn_haltPersonality (p cause : Nat) (s : State) : korsyn (haltPersonality p cause s) = korsyn s := by
  simp [haltPersonality, haltLater]

/-! ### What a restart does to commands and bunches (R361 to R363) -/

@[simp] theorem korsyn_freeDone (id : Nat) (ref : CmdRef) (s : State) : korsyn (freeDone id ref s) = korsyn s := by
  simp [freeDone, freeBunch]

@[simp] theorem korsyn_abortBunch (id cause status reason opcode tag : Nat) (s : State) :
    korsyn (abortBunch id cause status reason opcode tag s) = korsyn s := by
  unfold abortBunch
  extract_lets b mine gone table unstaged aborted named posted freed committed
  have hposted : korsyn posted = korsyn s := by simp [posted, aborted, unstaged]
  have hfreed : korsyn freed = korsyn posted := by
    simp only [freed]
    split <;> simp [freeBunch]
  have hcommitted : korsyn committed = korsyn freed := by
    simp only [committed]
    split <;> simp
  rw [korsyn_each (fun g u => by split <;> simp), hcommitted, hfreed, hposted]

@[simp] theorem korsyn_faultTaken (keep : Option CmdRef) (s : State) : korsyn (faultTaken keep s) = korsyn s := by
  exact korsyn_each (fun n u => korsyn_modRing n _ u) s

@[simp] theorem korsyn_restartAborts (s : State) : korsyn (restartAborts s) = korsyn s := by simp [restartAborts]

@[simp] theorem korsyn_postHeld (held : List Event) (lost : Bool) (s : State) : korsyn (postHeld held lost s) = korsyn s := by
  unfold postHeld
  dsimp only
  split
  · rw [korsyn_each fun n u => korsyn_modRing n _ u, korsyn_each korsyn_deliverEvent]
  · exact korsyn_each korsyn_deliverEvent s

@[simp] theorem korsyn_freeLanded (s : State) : korsyn (freeLanded s) = korsyn s := rfl

@[simp] theorem korsyn_flushAll (s : State) : korsyn (flushAll s) = korsyn s := by simp [flushAll]

@[simp] theorem korsyn_stewardStorm (s : State) : korsyn (stewardStorm s) = korsyn s := by simp [stewardStorm]

/-- What is run when the image is back comes before the commands: R365, R366. -/
theorem korsyn_stewardBack (cause : Nat) (since : DT) (u : State) : korsyn (stewardBack cause since u) =
    (u.dt, true, false, none,
      if cause != 3 && cause != 4 then satAdd 65535 u.steward.restartCount 1 else u.steward.restartCount) := by
  unfold stewardBack
  extract_lets old fault recent handover begun updated record health recorded aborted posted landed answered flushed
  clear_value handover
  have hupdated : korsyn updated = korsyn begun := by
    simp only [updated]
    split <;> simp [rewriteCaps]
  have hanswered : korsyn answered = korsyn landed := by
    simp only [answered]
    split <;> simp
  have hall : korsyn flushed = korsyn begun := by
    rw [korsyn_flushAll, hanswered, korsyn_freeLanded, korsyn_postHeld, korsyn_event, korsyn_restartAborts, korsyn_faultTaken,
      korsyn_ite, korsyn_mk, ite_self, hupdated]
  rw [korsyn_ite, korsyn_stewardStorm, ite_self, hall]
  rfl

/-! ## The generators stop (R209, R362) -/

theorem laser_of_blocks {s t : State} (h : blocks t = blocks s) : t.laser = s.laser := by
  have hlaser : (blocks t).laser = (blocks s).laser := by rw [h]
  exact hlaser

theorem gen_of_blocks {s t : State} (h : blocks t = blocks s) : t.gen = s.gen := by
  have hgen : (blocks t).gen = (blocks s).gen := by rw [h]
  exact hgen

theorem getGen_congr {s t : State} (h : t.gen = s.gen) (k : Nat) : getGen k t = getGen k s := by rw [getGen, h, getGen]

theorem blocks_packBytes (n : Nat) (bs : List Byte) (s : State) : blocks (packBytes n bs s) = blocks s :=
  blocks_each _ _ (fun c u => blocks_publish n c u) s

/-- R196: an edge of a logged line writes its ring and the log's own state. -/
theorem blocks_lineLog (code edge data : Nat) (dt : DT) (s : State) :
    ∃ l, blocks (lineLog code edge data dt s) = { blocks s with lineLog := l } := by
  unfold lineLog
  extract_lets log last d bytes
  split
  · exact ⟨s.lineLog, rfl⟩
  · split
    · exact ⟨_, rfl⟩
    · split
      · exact ⟨_, blocks_packBytes _ _ _⟩
      · exact ⟨_, rfl⟩

@[simp] theorem lineLog_laser (code edge data : Nat) (dt : DT) (s : State) : (lineLog code edge data dt s).laser = s.laser := by
  obtain ⟨l, hblocks⟩ := blocks_lineLog code edge data dt s
  exact laser_of_blocks
    (t := { lineLog code edge data dt s with lineLog := s.lineLog })
    (congrArg (fun u : State => { u with lineLog := s.lineLog }) hblocks)

@[simp] theorem lineLog_gen (code edge data : Nat) (dt : DT) (s : State) : (lineLog code edge data dt s).gen = s.gen := by
  obtain ⟨l, hblocks⟩ := blocks_lineLog code edge data dt s
  exact gen_of_blocks
    (t := { lineLog code edge data dt s with lineLog := s.lineLog })
    (congrArg (fun u : State => { u with lineLog := s.lineLog }) hblocks)

@[simp] theorem markersTo_laser (d new : Nat) (dt : DT) (s : State) : (markersTo d new dt s).laser = s.laser :=
  each_keeps State.laser _ _ (fun m u => lineLog_laser m _ 0 dt u) s

theorem getGen_markersTo_other {d k : Nat} (h : k ≠ d) (new : Nat) (dt : DT) (s : State) :
    getGen k (markersTo d new dt s) = getGen k s :=
  (getGen_modGen_other d k _ _ h).trans
    (each_keeps (getGen k) _ _ (fun m u => getGen_congr (lineLog_gen m _ 0 dt u) k) s)

@[simp] theorem playOut_laser (d : Nat) (next : Option Play) (s : State) : (playOut d next s).laser = s.laser :=
  each_keeps State.laser _ _ (fun _ u => (modGen_laser d _ _).trans (markersTo_laser d _ _ u)) s

theorem getGen_playOut_other {d k : Nat} (h : k ≠ d) (next : Option Play) (s : State) : getGen k (playOut d next s) = getGen k s :=
  (getGen_modGen_other d k _ _ h).trans (each_keeps (getGen k) _ _
    (fun _ u => (getGen_modGen_other d k _ _ h).trans (getGen_markersTo_other h _ _ u)) s)

@[simp] theorem genEnd_laser (d cause : Nat) (s : State) : (genEnd d cause s).laser = s.laser := by
  unfold genEnd
  dsimp only
  split
  · refine (laser_of_blocks (blocks_event ..)).trans ?_
    simp
  · rfl

theorem getGen_genEnd_other {d k : Nat} (h : k ≠ d) (cause : Nat) (s : State) : getGen k (genEnd d cause s) = getGen k s := by
  unfold genEnd
  dsimp only
  split
  · refine (getGen_congr (gen_of_blocks (blocks_event ..)) k).trans ?_
    rw [getGen_modGen_other d k _ _ h, getGen_markersTo_other h, getGen_playOut_other h]
  · rfl

theorem genEnd_stops (d cause : Nat) (s : State) : (getGen d (genEnd d cause s)).running = false := by
  unfold genEnd
  dsimp only
  split
  · rw [getGen_congr (gen_of_blocks (blocks_event ..)), getGen_modGen]
  next h => exact Bool.eq_false_of_not_eq_true h

/-! ## The rows -/

section
variable {t : DT} {s : State}

theorem exec_stewardFault {cause : Nat} (hready : (advance t s).stone.stage = .ready)
    (hruns : (advance t s).steward.running = true) : let u := advance t s
    exec (.stewardFault t cause) s = .next { u with
      sram := u.sram.filter fun c => sramKept u c.1
      steward := { u.steward with running := false, outage := some (cause, u.dt), held := [], heldLost := false, handover := none } } :=
  congrArg Host.Outcome.next ((if_pos hready).trans (if_pos hruns))

theorem exec_stewardRestartDone_good {cause : Nat} {since : DT} (hout : (advance t s).steward.outage = some (cause, since)) :
    exec (.stewardRestartDone t true) s = .next (stewardBack cause since (advance t s)) := by
  change execStewardRestartDone t true s = _
  rw [execStewardRestartDone]
  dsimp only
  rw [hout]
  rfl

theorem exec_stewardRestartDone_bad {cause : Nat} {since : DT} (hout : (advance t s).steward.outage = some (cause, since))
    (hfault : ¬ (cause = 3 ∨ cause = 4)) : let u := advance t s
    exec (.stewardRestartDone t false) s = .next { u with steward := { u.steward with halted := true, outage := none } } := by
  change execStewardRestartDone t false s = _
  rw [execStewardRestartDone]
  dsimp only
  rw [hout]
  exact congrArg Host.Outcome.next ((if_neg Bool.false_ne_true).trans (if_neg hfault))

theorem exec_stewardOutageTimeout {cause : Nat} {since : DT} (hdown : (advance t s).steward.running = false)
    (hready : (advance t s).stone.stage = .ready) (hout : (advance t s).steward.outage = some (cause, since))
    (hlong : 2 * tkS ≤ dtSub (advance t s).dt since) :
    exec (.stewardOutageTimeout t) s = .next (genEnd 1 3 (genEnd 0 3 (laserCut (advance t s)))) := by
  refine congrArg Host.Outcome.next (if_pos ?_)
  rw [hdown, hready, hout]
  simp [hlong]

theorem exec_handoverTimeout {since : DT} {h : Handover} (hout : (advance t s).steward.outage = some (3, since))
    (hold : (advance t s).steward.handover = some h) (hlong : 500 * tkMs ≤ dtSub (advance t s).dt since) : let u := advance t s
    exec (.handoverTimeout t) s = .next { u with
      sram := writeCells (zeroRange 0 0x800000 u.sram) h.oldImage
      steward := { u.steward with outage := some (4, since) } } := by
  change execHandoverTimeout t s = _
  rw [execHandoverTimeout]
  dsimp only
  rw [hout, hold]
  exact congrArg Host.Outcome.next (if_pos hlong)

end

/-- Settles O59, row by row. The restart count counts the causes that are faults (log 56); what a restart keeps of the SRAM is the
model's choice (log 25). -/
theorem stewardEvents : Obligations.StewardEvents := by
  intro t s u
  refine ⟨fun cause => exec_stewardFault, fun cause since hout => ⟨⟨_, exec_stewardRestartDone_good hout, rfl, ?_⟩, ?_⟩, ?_,
    fun since h => exec_handoverTimeout⟩
  · have hback := korsyn_stewardBack cause since u
    simp only [korsyn, Prod.mk.injEq] at hback
    obtain ⟨hdt, hruns, hopen, hover, hcount⟩ := hback
    refine ⟨hruns, hopen, hover, hdt, fun hnot3 hnot4 => hcount.trans (if_pos ?_)⟩
    simp [hnot3, hnot4]
  · exact fun hnot3 hnot4 => exec_stewardRestartDone_bad hout (not_or.2 ⟨hnot3, hnot4⟩)
  · intro cause since hdown hready hout hlong
    refine ⟨_, exec_stewardOutageTimeout hdown hready hout hlong, rfl, ?_, ?_, genEnd_stops 1 3 _⟩
    · rw [genEnd_laser, genEnd_laser, laserCut_en]
    · rw [getGen_genEnd_other (by decide), genEnd_stops]

end Sys2Proof.Machine

/-! # The power rows (R369 to R375)

A wake begins the locks and nothing else; what a restore takes up again leaves the stone domain, Korsyn and the epoch as they
were restored. -/

namespace Sys2Proof.Machine

/-! ## What a wake and a restore leave alone -/

/-- R68: beginning a lock is a matter of the clocks. -/
theorem pllBegin_only_clock (n target : Nat) (s : State) : ∃ c, pllBegin n target s = { s with clock := c } := by
  unfold pllBegin
  dsimp only
  split
  · exact ⟨_, rfl⟩
  · split
    · exact ⟨s.clock, rfl⟩
    · exact ⟨_, rfl⟩

/-- R374: WAKE_STAT and the wake request to the host. -/
def wakeMarked (fired : Byte) (s : State) : State :=
  let v := { s with stone := { s.stone with wakeStat := if s.stone.wakeStat = 0 then fired else s.stone.wakeStat } }
  if fired &&& 1 = 0 then { v with pcie := { v.pcie with wakeRequest := true } } else v

theorem wakeMarked_keeps {α : Type} (g : State → α) (h : ∀ (u : State) x y, g { u with stone := x, pcie := y } = g u) (fired : Byte)
    (s : State) : g (wakeMarked fired s) = g s := by
  unfold wakeMarked
  dsimp only
  split
  · exact h _ _ _
  · exact h _ _ s.pcie

/-- R375: the locks a wake from Standby begins. -/
def wakeLocks (s : State) : State :=
  let v := each [2, 1] (fun n => modPll n (fun c => { c with xtal := c.xtal || !s.clock.refOk })) s
  pllBegin 1 640000 (pllBegin 2 (dramKHz v.memCtl.point) v)

theorem wakeLocks_only_clock (s : State) : ∃ c, wakeLocks s = { s with clock := c } := by
  unfold wakeLocks
  dsimp only
  obtain ⟨c1, hfabric⟩ := pllBegin_only_clock 1 640000
    (pllBegin 2 (dramKHz s.memCtl.point) (each [2, 1] (fun n => modPll n (fun c => { c with xtal := c.xtal || !s.clock.refOk })) s))
  obtain ⟨c2, hdram⟩ := pllBegin_only_clock 2 (dramKHz s.memCtl.point)
    (each [2, 1] (fun n => modPll n (fun c => { c with xtal := c.xtal || !s.clock.refOk })) s)
  refine ⟨c1, hfabric.trans ?_⟩
  rw [hdram]
  rfl

/-- R375: a state whose clocks and supplies come back. -/
def woken (c : Clock) (v : State) : State :=
  { v with
    clock := c
    stone := { v.stone with restoring := true, xtalB := true }
    power := { v.power with wakeEdge := v.dt, wakePending := 0 } }

theorem wakeUp_standby {fired : Byte} {s : State} (h : s.power.state = .standby) :
    ∃ c, wakeUp fired s = woken c (wakeMarked fired s) := by
  obtain ⟨c, hlocks⟩ := wakeLocks_only_clock (wakeMarked fired s)
  have hwake : wakeUp fired s = modStone (fun x => { x with restoring := true, xtalB := true })
      (let v := wakeLocks (wakeMarked fired s)
       { v with power := { v.power with wakeEdge := v.dt, wakePending := 0 } }) :=
    if_pos ((wakeMarked_keeps (·.power.state) (fun _ _ _ => rfl) fired s).trans h)
  refine ⟨c, ?_⟩
  rw [hwake, hlocks]
  generalize wakeMarked fired s = v
  rfl

theorem wakeUp_deep {fired : Byte} {s : State} (h : s.power.state ≠ .standby) :
    wakeUp fired s = deviceReset false (wakeMarked fired s) :=
  if_neg fun hstandby => h ((wakeMarked_keeps (·.power.state) (fun _ _ _ => rfl) fired s).symm.trans hstandby)

@[simp] theorem blocks_flushAll (s : State) : blocks (flushAll s) = blocks s :=
  blocks_each _ _ (fun n u => blocks_flushCompletions n _ u) s

/-- R361: what commands taken and not completed end with is in the rings. -/
theorem blocks_faultTaken (keep : Option CmdRef) (s : State) :
    blocks (faultTaken keep s) = { blocks s with bunch := { (blocks s).bunch with deferred := [] } } := by
  unfold faultTaken
  extract_lets done ended
  have hended : blocks ended = blocks s := blocks_each _ _ (fun n u => blocks_modRing n _ u) s
  exact congrArg (fun u : State => { u with bunch := { u.bunch with deferred := [] } }) hended

/-- R380: a change of power state writes the state and posts its event. -/
theorem blocks_powerChange (next : Power) (wake : Nat) (dt : DT) (s : State) :
    ∃ p, blocks (powerChange next wake dt s) = { blocks s with power := p } := by
  unfold powerChange
  dsimp only
  split
  · exact ⟨s.power, rfl⟩
  · exact ⟨_, blocks_event ..⟩

/-- R68: a domain's ADPLL other than ADPLL-S starts, and nothing but the clocks changes. -/
theorem pllRun_only_clock {n : Nat} (h : n ≠ 0) (target : Nat) (s : State) : ∃ c, pllRun n target s = { s with clock := c } := by
  obtain ⟨c, hbegin⟩ := pllBegin_only_clock n target s
  unfold pllRun
  dsimp only
  rw [hbegin]
  split
  · exact ⟨_, rfl⟩
  · split
    · exact ⟨_, rfl⟩
    · exact ⟨_, rfl⟩

theorem resumed_of_blocks {s v : State} {b : BunchUnit} {p : PowerUnit} (h : blocks v = { blocks s with bunch := b, power := p }) :
    v.stone = s.stone ∧ v.steward.running = s.steward.running ∧ v.time = s.time :=
  ⟨(congrArg State.stone h :), (congrArg (·.steward.running) h :), (congrArg State.time h :)⟩

/-- R375: the stone domain, Korsyn and the epoch after a restore. -/
theorem standbyBack_resumes (s : State) :
    (standbyBack s).stone.restoring = false ∧ (standbyBack s).steward.running = true ∧ (standbyBack s).time.holdover = true := by
  unfold standbyBack
  extract_lets begun locked served korsynWas epochWas resumed
  obtain ⟨c2, hdram⟩ := pllRun_only_clock (by decide) (dramKHz begun.memCtl.point) begun (n := 2)
  obtain ⟨c1, hfabric⟩ := pllRun_only_clock (by decide) 640000 (pllRun 2 (dramKHz begun.memCtl.point) begun) (n := 1)
  have hstone : resumed.stone.restoring = false := by
    change locked.stone.restoring = false
    rw [show locked = _ from hfabric, hdram]
    rfl
  have hruns : resumed.steward.running = true := rfl
  have htime : resumed.time.holdover = true := rfl
  clear_value resumed
  obtain ⟨p, hpower⟩ := blocks_powerChange .ready resumed.stone.wakeStat.toNat resumed.power.wakeEdge resumed
  have hblocks := (blocks_flushAll _).trans ((blocks_faultTaken none _).trans
    (congrArg (fun u : State => { u with bunch := { u.bunch with deferred := [] } }) hpower))
  obtain ⟨hstoneKept, hrunsKept, htimeKept⟩ := resumed_of_blocks hblocks
  rw [hstoneKept, hrunsKept, htimeKept]
  exact ⟨hstone, hruns, htime⟩

/-! ## The rows -/

section
variable {t : DT} {s : State}

theorem exec_readyEntry (hstate : (advance t s).power.state = .active) (hfree : domainUsed (advance t s) = false)
    (hruns : (advance t s).steward.running = true) :
    let w := pllBegin 1 640000 (pllStop 3 (pllStop 0 (domainsDown (advance t s))))
    exec (.readyEntry t) s = .next (alignedSettle (powerChange .ready 0 w.dt (relockGo w))) :=
  congrArg Host.Outcome.next (if_pos ⟨hstate, hfree, hruns⟩)

/-- R372: the part as the stone domain takes it over. -/
def takenOver (deep : Power) (v : State) : State :=
  alignedSettle { v with
    dram := if deep = .off then [] else v.dram
    memCtl := { v.memCtl with selfRefresh := true, poisoned := if deep = .off then [] else v.memCtl.poisoned }
    clock := { v.clock with relock := none }
    steward := { v.steward with running := false }
    power := { v.power with state := deep, entering := none } }

/-- R372, R374: and what it does then, a wake if a source has fired meanwhile. -/
def entryEnd (deep : Power) (v : State) : State :=
  let dram := if deep = .off then [] else v.dram
  let v := modMem (fun m => { m with selfRefresh := true, poisoned := if deep = .off then [] else m.poisoned }) v
  let v := alignedSettle { v with
    dram := dram, clock := { v.clock with relock := none }
    steward := { v.steward with running := false }
    power := { v.power with state := deep, entering := none } }
  if v.power.wakePending = 0 then v else wakeUp v.power.wakePending v

theorem entryEnd_quiet {deep : Power} {v : State} (h : v.power.wakePending = 0) : entryEnd deep v = takenOver deep v := if_pos h

theorem entryEnd_fired {deep : Power} {v : State} (h : v.power.wakePending ≠ 0) :
    entryEnd deep v = wakeUp v.power.wakePending (takenOver deep v) := if_neg h

theorem exec_standbyEntryDone {deep : Power} (h : (advance t s).power.entering = some deep) :
    exec (.standbyEntryDone t) s =
      .next (entryEnd deep (dramResumed (each [0, 1, 2, 3] pllStop (domainsDown (laserCut (advance t s)))))) := by
  change execStandbyEntryDone t s = _
  unfold execStandbyEntryDone
  extract_lets u down resumed
  rw [show u.power.entering = _ from h]
  change _ = Host.Outcome.next (entryEnd deep resumed)
  clear_value resumed
  rfl

theorem exec_wake_entering {sources : Byte} {deep : Power} (h : (advance t s).power.entering = some deep) : let u := advance t s
    exec (.wake t sources) s =
      .next { u with power := { u.power with wakePending := u.power.wakePending ||| wakeFired deep sources u } } := by
  change execWake t sources s = _
  rw [execWake]
  dsimp only
  rw [h]

theorem exec_wake {sources : Byte} (h : (advance t s).power.entering = none) (hasleep : asleep (advance t s) = true)
    (hrest : (advance t s).stone.restoring = false) : let u := advance t s
    let fired := wakeFired u.power.state sources u
    exec (.wake t sources) s = .next (if fired = 0 then u else wakeUp fired u) := by
  intro u fired
  change execWake t sources s = _
  rw [execWake]
  dsimp only
  rw [h]
  refine congrArg Host.Outcome.next ?_
  change (if asleep u && !u.stone.restoring && fired != 0 then wakeUp fired u else u) = _
  rw [show asleep u = true from hasleep, show u.stone.restoring = false from hrest]
  by_cases hfired : fired = 0
  · rw [if_pos hfired]
    exact if_neg (by simp [hfired])
  · rw [if_neg hfired]
    exact if_pos (by simpa using hfired)

theorem exec_standbyRestoreDone (h : (advance t s).stone.restoring = true) : let u := advance t s
    exec (.standbyRestoreDone t) s = .next (match imageError u.sram 0 u.stone.imageLen u with
      | none => standbyBack u
      | some e => modStone (fun x => { x with error := e }) (deviceReset false u)) :=
  congrArg Host.Outcome.next (if_pos h)

end

/-- Settles O60, row by row. A source that fires during an entry waits for its end (log 29). -/
theorem powerEvents : Obligations.PowerEvents := by
  intro t s u
  refine ⟨exec_readyEntry, ?_, fun sources deep => exec_wake_entering, ?_, fun hrestoring => ⟨exec_standbyRestoreDone hrestoring,
    standbyBack_resumes u⟩⟩
  · intro deep hdeep v w
    have hrow : exec (.standbyEntryDone t) s = .next (entryEnd deep v) := exec_standbyEntryDone hdeep
    clear_value v
    exact ⟨fun hquiet => hrow.trans (congrArg Host.Outcome.next (entryEnd_quiet hquiet)),
      fun hfired => hrow.trans (congrArg Host.Outcome.next (entryEnd_fired hfired))⟩
  · intro sources hentering hasleep hrest fired v w
    have hrow := exec_wake (sources := sources) hentering hasleep hrest
    refine ⟨fun hnone => hrow.trans (congrArg Host.Outcome.next (if_pos hnone)), fun hfired hdeep => ?_, fun hfired hstandby => ?_⟩
    · exact hrow.trans (congrArg Host.Outcome.next ((if_neg hfired).trans (wakeUp_deep hdeep)))
    · obtain ⟨c, hwake⟩ := wakeUp_standby (fired := fired) hstandby
      have hdt := wakeMarked_keeps State.dt (fun _ _ _ => rfl) fired u
      have hsram := wakeMarked_keeps State.sram (fun _ _ _ => rfl) fired u
      have hdram := wakeMarked_keeps State.dram (fun _ _ _ => rfl) fired u
      exact ⟨_, hrow.trans (congrArg Host.Outcome.next ((if_neg hfired).trans hwake)), rfl, rfl, hdt, rfl, rfl, hsram, hdram⟩

end Sys2Proof.Machine

/-! # The display rows (R332 to R344) -/

namespace Sys2Proof.Machine

/-! ## What a frame leaves of the display -/

theorem disp_of_blocks {s t : State} (h : blocks t = blocks s) : t.disp = s.disp := by
  have hdisp : (blocks t).disp = (blocks s).disp := by rw [h]
  exact hdisp

@[simp] theorem event_disp (code sev unit : Nat) (fs : List (Nat × Nat × Nat)) (s : State) :
    (event code sev unit fs s).disp = s.disp := disp_of_blocks (blocks_event code sev unit fs s)

/-- R343: EV_DISP_MODE ends the mode change and changes nothing else of the display. -/
theorem modeEvent_disp (failed : Nat) (late : Bool) (s : State) :
    (modeEvent failed late s).disp = { s.disp with modeChange := none } := event_disp _ _ _ _ _

theorem psrLeave_frame (s : State) : (psrLeave s).disp.frame = s.disp.frame := by
  unfold psrLeave
  dsimp only
  split <;> rfl

theorem psrLeave_dt (s : State) : (psrLeave s).dt = s.dt := by
  unfold psrLeave
  dsimp only
  split <;> rfl

/-- R335: a frame that starts is counted and stamped. -/
theorem frameStartNow_stamps (s : State) :
    (frameStartNow s).disp.frame = s.disp.frame + 1 ∧ (frameStartNow s).disp.frameDt = s.dt := by
  unfold frameStartNow
  extract_lets started
  have hframe : started.disp.frame = s.disp.frame + 1 := rfl
  have hdt : started.disp.frameDt = s.dt := rfl
  clear_value started
  split
  next late _ =>
    split
    · rw [modeEvent_disp]
      exact ⟨hframe, hdt⟩
    · exact ⟨hframe, hdt⟩
  next => exact ⟨hframe, hdt⟩

/-- R344: without PSR the panel never refreshes itself. -/
theorem psrEnter_off {s : State} (h : s.disp.psrMode = 0) : psrEnter s = s :=
  if_neg (by simp [h])

/-! ## The rows -/

section
variable {t : DT} {s : State}

theorem exec_displayFrameStart (hmode : (advance t s).disp.mode.output ≠ 0) : let v := pllRun 3 (advance t s).disp.mode.pclk (advance t s)
    framesOut v = true → exec (.displayFrameStart t) s = .next (frameStartNow (psrLeave v)) := by
  intro v hout
  change execDisplayFrameStart t s = _
  unfold execDisplayFrameStart
  dsimp only
  rw [if_pos (bne_iff_ne.2 hmode)]
  exact congrArg Host.Outcome.next (if_pos hout)

theorem exec_displayVerticalActiveEnd (hout : framesOut (advance t s) = true) (hframe : (advance t s).disp.frame ≠ 0)
    (hmode : (advance t s).disp.modeChange = none) : let u := advance t s
    exec (.displayVerticalActiveEnd t) s =
      .next (each u.disp.releases releaseEvent { u with disp := { u.disp with releases := [] } }) :=
  congrArg Host.Outcome.next (if_pos (by simp [hout, hframe, hmode, -advance_disp]))

/-- R340: the end of a frame, up to what lands at it. -/
def frameEnded (underflow : List Nat) (u : State) : State :=
  let w := if scansOut u = true then underflows (underflow.take 4) u else u
  settle (fun _ => false) { w with disp := { w.disp with update := [] } }

theorem exec_displayFrameEnd {underflow : List Nat} (hout : framesOut (advance t s) = true) (hframe : (advance t s).disp.frame ≠ 0)
    (hanchored : displayAnchored (frameEnded underflow (advance t s)) = []) : let v := frameEnded underflow (advance t s)
    exec (.displayFrameEnd t underflow) s = .next (if displayDue v = [] then
      psrEnter { v with disp := { v.disp with idleRun := v.disp.idleRun + 1 } }
    else each (displayDue v) displayBunch (modDisp (fun d => { d with idleRun := 0 }) (psrLeave v))) := by
  intro v
  have hrow : exec (.displayFrameEnd t underflow) s =
      .next (let due := displayDue v ++ displayAnchored v
        let w := each (displayAnchored v) (fun id s => pointReached id s.dt s) v
        if due = [] then psrEnter (modDisp (fun d => { d with idleRun := d.idleRun + 1 }) w)
        else each due displayBunch (modDisp (fun d => { d with idleRun := 0 }) (psrLeave w))) :=
    congrArg Host.Outcome.next (if_pos (by simp [hout, hframe, -advance_disp]))
  rw [hrow, show displayAnchored v = [] from hanchored, List.append_nil]
  rfl

theorem exec_hpdUnplug (hdisplay : (advance t s).fuse.display = true) (hsink : (advance t s).disp.sink = true) : let u := advance t s
    exec (.hpdUnplug t) s = .next (hpdEvent 0 { u with disp := { u.disp with
      sink := false, link := false, psrActive := false, update := [], modeChange := u.disp.modeChange.map fun m => (m.1, false) } }) :=
  congrArg Host.Outcome.next (if_pos (by simp [hdisplay, hsink, -advance_disp, -advance_fuse]))

theorem exec_hpdPlug (hdisplay : (advance t s).fuse.display = true) (hsink : (advance t s).disp.sink = false) : let u := advance t s
    exec (.hpdPlug t) s = .next (hpdEvent 1 { u with disp := { u.disp with sink := true, retries := 0, wait := some true } }) :=
  congrArg Host.Outcome.next (if_pos (by simp [hdisplay, hsink, -advance_disp, -advance_fuse]))

theorem exec_hpdIrq {lost : Bool} (hdisplay : (advance t s).fuse.display = true) (hsink : (advance t s).disp.sink = true) :
    let u := advance t s
    exec (.hpdIrq t lost) s =
      .next (hpdEvent 2 (if lost then modDisp (fun d => { d with link := false, retries := 0 }) u else u)) :=
  congrArg Host.Outcome.next (if_pos (by simp [hdisplay, hsink, -advance_disp, -advance_fuse]))

/-- R335: a training that is due. -/
def trainingDue (u : State) : Bool :=
  u.disp.mode.output != 0 && (getPll 3 u).absent.isNone && u.disp.sink && !u.disp.link && decide (u.disp.retries < 3)

theorem trainingDue_iff (u : State) : trainingDue u = true ↔
    u.disp.mode.output ≠ 0 ∧ (getPll 3 u).absent = none ∧ u.disp.sink = true ∧ u.disp.link = false ∧ u.disp.retries < 3 := by
  simp [trainingDue, and_assoc]

theorem exec_linkTrainingDone_up (h : trainingDue (advance t s) = true) : let u := advance t s
    let v := pllRun 3 u.disp.mode.pclk u
    let up := { v with disp := { v.disp with link := true, retries := 0, modeChange := v.disp.modeChange.map fun m => (m.1, false) } }
    exec (.linkTrainingDone t true) s = .next (if u.disp.modeChange.any (·.2) then frameStartNow up else up) :=
  congrArg Host.Outcome.next ((if_pos h).trans (if_pos rfl))

theorem exec_linkTrainingDone_again (h : trainingDue (advance t s) = true)
    (hmode : (advance t s).disp.modeChange = none ∨ (advance t s).disp.retries < 2) : let u := advance t s
    let v := pllRun 3 u.disp.mode.pclk u
    exec (.linkTrainingDone t false) s = .next { v with disp := { v.disp with retries := v.disp.retries + 1 } } := by
  refine congrArg Host.Outcome.next ((if_pos h).trans ((if_neg Bool.false_ne_true).trans ?_))
  dsimp only
  split
  next late heq =>
    rcases hmode with hnone | hfew
    · rw [hnone] at heq
      cases heq
    · exact if_neg (Nat.ne_of_lt hfew)
  next => rfl

theorem exec_linkTrainingDone_failed {late : Bool} (h : trainingDue (advance t s) = true)
    (hmode : (advance t s).disp.modeChange = some (late, true)) (hlast : (advance t s).disp.retries = 2) : let u := advance t s
    let v := pllRun 3 u.disp.mode.pclk u
    exec (.linkTrainingDone t false) s = .next (modeEvent 1 late { v with disp := { v.disp with retries := v.disp.retries + 1 } }) := by
  refine congrArg Host.Outcome.next ((if_pos h).trans ((if_neg Bool.false_ne_true).trans ?_))
  dsimp only
  rw [hmode]
  exact if_pos hlast

end

/-- Settles O57, row by row. A failed retraining without a mode change posts nothing (log 36); the rate EV_DISP_UNDERFLOW counts
over is the model's choice (log 38). -/
theorem displayEvents : Obligations.DisplayEvents := by
  intro t s u
  refine ⟨?_, exec_displayVerticalActiveEnd, ?_, ?_, ?_⟩
  · intro hmode v hout
    obtain ⟨c, hclock⟩ := pllRun_only_clock (by decide) u.disp.mode.pclk u (n := 3)
    obtain ⟨hframe, hdt⟩ := frameStartNow_stamps (psrLeave v)
    refine ⟨_, exec_displayFrameStart hmode hout, rfl, ?_, ?_⟩
    · rw [hframe, psrLeave_frame]
      rw [show v = _ from hclock]
    · rw [hdt, psrLeave_dt]
  · intro underflow hout hframe w v idle hanchored
    have hrow := exec_displayFrameEnd (underflow := underflow) hout hframe hanchored
    refine ⟨fun hnone => ?_, fun hdue => hrow.trans (congrArg Host.Outcome.next (if_neg hdue))⟩
    have hidle := hrow.trans (congrArg Host.Outcome.next (if_pos hnone))
    exact ⟨hidle, fun hoff => hidle.trans (congrArg Host.Outcome.next (psrEnter_off hoff))⟩
  · intro hpd hdisplay
    exact ⟨exec_hpdUnplug hdisplay, exec_hpdPlug hdisplay, fun hsink => ⟨exec_hpdIrq hdisplay hsink, exec_hpdIrq hdisplay hsink⟩⟩
  · intro hmode hpll hsink hlink hretries v up again
    have hdue : trainingDue u = true := (trainingDue_iff u).2 ⟨hmode, hpll, hsink, hlink, hretries⟩
    have hup := exec_linkTrainingDone_up hdue
    refine ⟨fun hnot => hup.trans (congrArg Host.Outcome.next (if_neg ?_)),
      fun late hwaits => hup.trans (congrArg Host.Outcome.next (if_pos ?_)),
      exec_linkTrainingDone_again hdue, fun late => exec_linkTrainingDone_failed hdue⟩
    · simp only [Option.any_eq_true, not_exists, not_and]
      intro m hm
      exact ne_true_of_eq_false (hnot m hm)
    · rw [show u.disp.modeChange = _ from hwaits]
      rfl

end Sys2Proof.Machine

/-! # The health rows (R345 to R355, R392) -/

namespace Sys2Proof.Machine

/-! ## Changes of one unit -/

theorem modPip_congr {n : Nat} {f g : Core → Core} {s : State} (h : f (getPip n s) = g (getPip n s)) : modPip n f s = modPip n g s := by
  have hunit : f (tget {} s.health.pips n) = g (tget {} s.health.pips n) := h
  rw [modPip, modPip, tmod, tmod, hunit]

theorem modCurrant_congr {n : Nat} {f g : Core → Core} {s : State} (h : f (getCurrant n s) = g (getCurrant n s)) :
    modCurrant n f s = modCurrant n g s := by
  have hunit : f (tget {} s.health.currants n) = g (tget {} s.health.currants n) := h
  rw [modCurrant, modCurrant, tmod, tmod, hunit]

theorem modOrx_congr {n : Nat} {f g : OrxChan → OrxChan} {s : State} (h : f (getOrx n s) = g (getOrx n s)) :
    modOrx n f s = modOrx n g s := by
  have hunit : f (tget {} s.orx n) = g (tget {} s.orx n) := h
  rw [modOrx, modOrx, tmod, tmod, hunit]

/-- A unit that is not retired goes where it is sent. -/
theorem pipTo_moves {state : UnitState} {p n : Nat} {s : State} (h : (getPip n s).state ≠ .retired) :
    pipTo state p n s = modPip n (fun c => { c with state := state, personality := p }) s :=
  modPip_congr (by simp [h])

theorem currantTo_moves {state : UnitState} {p kernel n : Nat} {s : State} (h : (getCurrant n s).state ≠ .retired) :
    currantTo state p kernel n s = modCurrant n (fun c => { c with state := state, personality := p, kernel := kernel }) s :=
  modCurrant_congr (by simp [h])

/-- R355: outside the first admission the end of a test lets nothing go on. -/
theorem firstTestEnd_over {s : State} (h : s.health.firstTest = false) : firstTestEnd s = s :=
  if_neg (by simp [h])

/-! ## Visits (R345, R346) -/

/-- R345: the turn goes on to the next pip. -/
def pipTurn (n : Nat) (v : State) : State := { v with health := { v.health with
  nextPip := n + 1, pipDue := dtAdd v.health.pipDue (visitSpacing v.health.pipPeriod (pipsHealthy v)) } }

/-- R345: the turn goes on to the next currant. -/
def currantTurn (n : Nat) (v : State) : State := { v with health := { v.health with
  nextCurrant := n + 1, curDue := dtAdd v.health.curDue (visitSpacing v.health.curPeriod (currantsHealthy v)) } }

theorem visitPip_spare {n : Nat} {u : State} (h : (getPip n u).state = .spare) :
    visitPip n u = pipTurn n (modPip n (fun c => { c with state := .inTest, personality := 0xF }) u) := by
  rw [← pipTo_moves (by rw [h]; decide)]
  unfold visitPip
  dsimp only
  rw [h]
  rfl

/-- R346: an assigned pip whose claim unit a host bunch holds waits; any other is relieved. -/
theorem visitPip_assigned {n k : Nat} {u : State} (h : (getPip n u).state = .assigned) (hidle : idlePip u = some k) :
    let p := (getPip n u).personality
    visitPip n u = if hostHolds { cls := 3, inst := p } u then u
      else pipTurn n (schedule [({ cls := 3, inst := p }, .relievePip p n k)] (pipTo .relieving p k u)) := by
  unfold visitPip
  dsimp only
  rw [h, hidle]
  rfl

theorem visitCurrant_spare {n : Nat} {u : State} (h : (getCurrant n u).state = .spare) :
    visitCurrant n u = currantTurn n (modCurrant n (fun c => { c with state := .inTest, personality := 0xF, kernel := 0 }) u) := by
  rw [← currantTo_moves (by rw [h]; decide)]
  unfold visitCurrant
  dsimp only
  rw [h]
  rfl

theorem visitCurrant_assigned {n k : Nat} {u : State} (h : (getCurrant n u).state = .assigned) (hidle : idleCurrant u = some k) :
    let p := (getCurrant n u).personality
    let claim : Claim := { cls := if dasRuns (p - 4) u then 0xA else 0xB, inst := p - 4 }
    visitCurrant n u = if hostHolds claim u then u
      else currantTurn n (schedule [(claim, .relieveCurrant p n k)] (currantTo .relieving p 0xFF k u)) := by
  unfold visitCurrant
  dsimp only
  rw [h, hidle]
  rfl

/-! ## The rows -/

section
variable {t : DT} {s : State}

theorem exec_tempThreshold (sensor : Nat) (centi : Int) : let u := advance t s
    let r := tempStep u.health.tempWarn (tget 0 u.health.tempLevel sensor) centi
    let v := { u with health := { u.health with
      temps := tput 2500 u.health.temps sensor centi, tempLevel := tput 0 u.health.tempLevel sensor r.1 } }
    (r.2 = none → exec (.tempThreshold t sensor centi) s = .next v) ∧
    (∀ sev, r.2 = some sev → exec (.tempThreshold t sensor centi) s =
      .next (event 0x1808 sev sensor [(16, 1, sensor), (18, 2, enc 2 centi)] v)) := by
  intro u r v
  have hrow : exec (.tempThreshold t sensor centi) s = .next (match r.2 with
      | some sev => event 0x1808 sev sensor [(16, 1, sensor), (18, 2, enc 2 centi)] v
      | none => v) := rfl
  exact ⟨fun hnone => by rw [hrow, hnone], fun sev hsev => by rw [hrow, hsev]⟩

/-- R345: what every visit waits for is over. -/
theorem rotationWaits_over {kind : Nat} {u : State} (hdue : rotationHeld kind u = false) (hadmitted : u.health.admitted = true)
    (htested : u.health.firstTest = false) : ¬ (rotationHeld kind u || !u.health.admitted || u.health.firstTest) = true := by
  simp [hdue, hadmitted, htested]

theorem exec_rotationVisit_pip {n : Nat} (hdue : rotationHeld 1 (advance t s) = false)
    (hadmitted : (advance t s).health.admitted = true) (htested : (advance t s).health.firstTest = false)
    (hturn : n = nextPipVisit (advance t s)) (hhealthy : pipHealthy n (advance t s) = true) :
    exec (.rotationVisit t 1 n) s = .next (visitPip n (advance t s)) :=
  congrArg Host.Outcome.next
    ((if_neg (rotationWaits_over hdue hadmitted htested)).trans ((if_pos rfl).trans (if_pos ⟨hturn, hhealthy⟩)))

theorem exec_rotationVisit_currant {n : Nat} (hdue : rotationHeld 2 (advance t s) = false)
    (hadmitted : (advance t s).health.admitted = true) (htested : (advance t s).health.firstTest = false)
    (hturn : n = nextCurrantVisit (advance t s)) (hhealthy : currantHealthy n (advance t s) = true) :
    exec (.rotationVisit t 2 n) s = .next (visitCurrant n (advance t s)) :=
  congrArg Host.Outcome.next ((if_neg (rotationWaits_over hdue hadmitted htested)).trans
    ((if_neg (by decide)).trans (if_pos ⟨hturn, hhealthy⟩)))

theorem exec_unitTestDone_pip {n : Nat} (pass : Bool) (hruns : (advance t s).steward.running = true)
    (hhealthy : pipHealthy n (advance t s) = true) (htest : (getPip n (advance t s)).state = .inTest) :
    exec (.unitTestDone t 1 n pass) s = .next (firstTestEnd (pipTested n pass (advance t s))) :=
  congrArg Host.Outcome.next ((if_neg (not_bang_of_true hruns)).trans ((if_pos rfl).trans
    (if_pos (Bool.and_eq_true_iff.2 ⟨hhealthy, beq_iff_eq.2 htest⟩))))

theorem exec_unitTestDone_currant {n : Nat} (pass : Bool) (hruns : (advance t s).steward.running = true)
    (hhealthy : currantHealthy n (advance t s) = true) (htest : (getCurrant n (advance t s)).state = .inTest) :
    exec (.unitTestDone t 2 n pass) s = .next (firstTestEnd (currantTested n pass (advance t s))) :=
  congrArg Host.Outcome.next ((if_neg (not_bang_of_true hruns)).trans ((if_neg (by decide)).trans
    (if_pos (Bool.and_eq_true_iff.2 ⟨hhealthy, beq_iff_eq.2 htest⟩))))

theorem exec_orxSliceSwap {n : Nat} (fault : Option Int) (hhealthy : orxHealthy n (advance t s) = true)
    (hruns : fibreRuns (n / 2) (advance t s) = true) (hplane : planeRuns (advance t s) = true) :
    exec (.orxSliceSwap t n fault) s = .next (let v := match fault with
        | some ppm => orxFault n ppm (advance t s)
        | none => advance t s
      if orxSwapHere n v then modOrx n orxRotate v else v) :=
  congrArg Host.Outcome.next (if_pos (by simp [hhealthy, hruns, hplane]))

theorem exec_dacLoopback {dac : Nat} (ppm : Int) (hhealthy : dacHealthy dac (advance t s) = true)
    (hruns : (advance t s).steward.running = true) : let u := advance t s
    let n := tget 0 u.health.loopFails dac + 1
    let v := { u with health := { u.health with loopFails := tput 0 u.health.loopFails dac n } }
    exec (.dacLoopback t dac ppm) s = .next (if ppm.natAbs ≤ 20000 then
        { u with health := { u.health with loopFails := tput 0 u.health.loopFails dac 0 } }
      else if n = 2 then dacRetire dac ppm v else v) :=
  congrArg Host.Outcome.next (if_pos (Bool.and_eq_true_iff.2 ⟨hhealthy, hruns⟩))

theorem exec_dieReferenceCheck {die : Nat} (milliDy ppm : Int) (hon : tget false (advance t s).power.dies die = true)
    (hruns : (advance t s).steward.running = true) : let u := advance t s
    exec (.dieReferenceCheck t die milliDy ppm) s = .next (let v := if 50 < milliDy.natAbs then
        { u with health := { u.health with
          gainCorrection := tput 0 u.health.gainCorrection die (tget 0 u.health.gainCorrection die - milliDy) } }
        else u
      if 250 < milliDy.natAbs then event 0x1806 1 die [(16, 1, 3), (17, 1, die), (18, 1, 1), (20, 4, enc 4 ppm)] v else v) :=
  congrArg Host.Outcome.next (if_pos (Bool.and_eq_true_iff.2 ⟨hon, hruns⟩))

theorem slowKick_busy {u : State} (h : u.slow.job ≠ none) : slowKick u = u :=
  if_neg (by simpa using h)

end

/-- Settles O58, row by row. The spacing of visits and swaps and what a failed receiver halts are the model's choices
(logs 68 and 79). -/
theorem healthEvents : Obligations.HealthEvents := by
  intro t s u
  refine ⟨exec_tempThreshold, ?_, ?_, ?_, ?_, ?_, ?_, ?_⟩
  · intro n hdue hadmitted htested hturn hhealthy on p
    have hrow := exec_rotationVisit_pip hdue hadmitted htested hturn hhealthy
    refine ⟨fun hspare => ?_, fun k hassigned hidle hfree => ?_, fun k hassigned hidle hheld => ?_⟩
    · rw [hrow, visitPip_spare hspare]
      rfl
    · rw [hrow, visitPip_assigned hassigned hidle]
      exact congrArg Host.Outcome.next (if_neg (ne_true_of_eq_false hfree))
    · rw [hrow, visitPip_assigned hassigned hidle]
      exact congrArg Host.Outcome.next (if_pos hheld)
  · intro n hdue hadmitted htested hturn hhealthy on p claim
    have hrow := exec_rotationVisit_currant hdue hadmitted htested hturn hhealthy
    refine ⟨fun hspare => ?_, fun k hassigned hidle hfree => ?_⟩
    · rw [hrow, visitCurrant_spare hspare]
      rfl
    · rw [hrow, visitCurrant_assigned hassigned hidle]
      exact congrArg Host.Outcome.next (if_neg (ne_true_of_eq_false hfree))
  · intro n hruns htested
    refine ⟨fun hhealthy htest => ⟨?_, exec_unitTestDone_pip false hruns hhealthy htest⟩,
      fun hhealthy htest => ⟨?_, exec_unitTestDone_currant false hruns hhealthy htest⟩⟩
    · rw [← pipTo_moves (by rw [htest]; decide), exec_unitTestDone_pip true hruns hhealthy htest]
      exact congrArg Host.Outcome.next (firstTestEnd_over htested)
    · rw [← currantTo_moves (by rw [htest]; decide), exec_unitTestDone_currant true hruns hhealthy htest]
      exact congrArg Host.Outcome.next (firstTestEnd_over htested)
  · intro n hhealthy hruns hplane
    refine ⟨fun sp hswap hspare => ?_, ?_⟩
    · refine (exec_orxSliceSwap none hhealthy hruns hplane).trans (congrArg Host.Outcome.next ((if_pos hswap).trans (modOrx_congr ?_)))
      rw [orxRotate, hspare]
    · intro ppm v hstays
      exact (exec_orxSliceSwap (some ppm) hhealthy hruns hplane).trans (congrArg Host.Outcome.next (if_neg (ne_true_of_eq_false hstays)))
  · intro dac ppm hhealthy hruns n v
    have hrow := exec_dacLoopback ppm hhealthy hruns
    refine ⟨fun hnear => hrow.trans (congrArg Host.Outcome.next (if_pos hnear)), fun hfar hfirst => ?_, fun hfar hsecond => ?_⟩
    · exact hrow.trans (congrArg Host.Outcome.next ((if_neg (Nat.not_le.2 hfar)).trans (if_neg hfirst)))
    · exact hrow.trans (congrArg Host.Outcome.next ((if_neg (Nat.not_le.2 hfar)).trans (if_pos hsecond)))
  · intro die milliDy ppm hon hruns v
    rw [exec_dieReferenceCheck milliDy ppm hon hruns]
    dsimp only
    refine ⟨fun hnear => ?_, fun hfar hmild => ?_, fun hwarn => ?_⟩
    · rw [if_neg (by omega), if_neg (by omega)]
    · rw [if_neg (by omega), if_pos hfar]
    · rw [if_pos hwarn, if_pos (by omega)]
  · intro hruns v
    have hrow : exec (.slowSelftestDue t) s = .next (slowKick v) := congrArg Host.Outcome.next (if_pos hruns)
    exact ⟨hrow, fun hbusy => hrow.trans (congrArg Host.Outcome.next (slowKick_busy hbusy))⟩

end Sys2Proof.Machine

/-! # The link rows (R317 to R331) -/

namespace Sys2Proof.Machine

/-! ## What a command datagram writes (R328) -/

theorem storeAt_rings (l a : Nat) (bs : List Byte) (s : State) : (storeAt l a bs s).rings = s.rings := by
  unfold storeAt unpoison
  split
  · rfl
  · split <;> rfl

theorem storeAt_endpoint (l a : Nat) (bs : List Byte) (s : State) : (storeAt l a bs s).endpoint = s.endpoint := by
  unfold storeAt unpoison
  split
  · rfl
  · split <;> rfl

/-- R328: the entries of a datagram go to memory; of the rings only the command ring's producer moves. -/
theorem acceptEntries_writes (d : Datagram) (n : Nat) (u : State) : let v := acceptEntries d n u
    v.endpoint = { u.endpoint with lastSeq := BitVec.ofNat 32 d.seq, lastFirst := d.first, lastCount := d.count } ∧
    v.rings = tmod {} u.rings n (fun r => { r with prod := r.prod + BitVec.ofNat 16 d.count }) := by
  unfold acceptEntries
  extract_lets r stored moved
  have hrings : stored.rings = u.rings := each_keeps State.rings _ _ (fun e w => storeAt_rings _ _ _ w) u
  have hendpoint : stored.endpoint = u.endpoint := each_keeps State.endpoint _ _ (fun e w => storeAt_endpoint _ _ _ w) u
  clear_value stored
  refine ⟨?_, ?_⟩
  · exact congrArg (fun e : Endpoint => { e with lastSeq := BitVec.ofNat 32 d.seq, lastFirst := d.first, lastCount := d.count })
      hendpoint
  · rw [← hrings]
    rfl

/-! ## The rows -/

section
variable {t : DT} {s : State}

/-- R317: bus mastering is off, and MSI-X holds nothing of PF1. -/
def pf1Down (v : State) : State := { v with pcie := { v.pcie with
  pf1Enabled := false, masked := v.pcie.masked.filter fun k => decide (k < 64)
  pendingVecs := v.pcie.pendingVecs.filter fun k => decide (k < 64) } }

theorem pf1Down_vectors (v : State) : (∀ k ∈ (pf1Down v).pcie.masked, k < 64) ∧ ∀ k ∈ (pf1Down v).pcie.pendingVecs, k < 64 :=
  ⟨fun _ hk => of_decide_eq_true (List.mem_filter.1 hk).2, fun _ hk => of_decide_eq_true (List.mem_filter.1 hk).2⟩

/-- R317: the channels of PF1 that run or wait. -/
def pf1Channels (u : State) : List Nat := (u.dma.channels.filter fun c => c.2.pf1 && (c.2.state == 1 || c.2.state == 2)).map (·.1)

theorem pf1Channels_none {u : State} (h : ∀ c ∈ u.dma.channels, c.2.pf1 = false ∨ (c.2.state ≠ 1 ∧ c.2.state ≠ 2)) :
    pf1Channels u = [] := by
  refine List.map_eq_nil_iff.2 (List.filter_eq_nil_iff.2 fun c hc => ?_)
  rcases h c hc with hpf0 | ⟨hnot1, hnot2⟩
  · simp [hpf0]
  · simp [hnot1, hnot2]

theorem exec_pf1Flr : let u := advance t s
    exec (.pf1Flr t) s = .next (pf1Down (each (pf1Channels u)
      (fun n v => dmaSettle n (modChan n (fun c => { c with state := 4, transfer := none, wait := none }) v)) u)) := rfl

theorem exec_pcieLinkChange {width rate : Nat} (hnew : ¬ ((advance t s).pcie.width = width ∧ (advance t s).pcie.rate = rate)) :
    let u := advance t s
    let v := { u with pcie := { u.pcie with width := width, rate := rate } }
    exec (.pcieLinkChange t width rate) s = .next (if width < 8 ∨ rate < 32 then
      event 0x0104 1 0xFFFF [(16, 1, width), (17, 1, rate), (20, 4, pf1Budget v / 1000000)] v else v) :=
  congrArg Host.Outcome.next (if_neg hnew)

theorem exec_ethLinkChange {port : Nat} {up : Bool} (hmode : (getPort port (advance t s)).mode ≠ 0)
    (hnew : (getPort port (advance t s)).up ≠ up) : let u := advance t s
    exec (.ethLinkChange t port up) s = .next (event 0x1601 1 port [(16, 1, port), (17, 1, b2n up), (24, 8, u.dt.toNat)]
      (modPort port (fun x => { x with up := up }) u)) :=
  congrArg Host.Outcome.next ((if_neg hmode).trans (if_neg hnew))

theorem exec_ethFrameReceived_answered {port : Nat} {frame : FrameKind} (hup : (getPort port (advance t s)).up = true)
    (hframe : frame = .arp ∨ frame = .neighbour ∨ frame = .icmp) (hruns : (advance t s).steward.running = true) :
    exec (.ethFrameReceived t port frame) s = .next (modPort port (fun x => { x with sent := x.sent + 1 }) (advance t s)) := by
  refine congrArg Host.Outcome.next ((if_neg (not_bang_of_true hup)).trans ?_)
  rcases hframe with rfl | rfl | rfl
  · exact if_pos hruns
  · exact if_pos hruns
  · exact if_pos hruns

theorem exec_ethFrameReceived_ptp {port : Nat} (hup : (getPort port (advance t s)).up = true)
    (hptp : bit (getPort port (advance t s)).options 0 = true) :
    exec (.ethFrameReceived t port .ptp) s = .next (advance t s) :=
  congrArg Host.Outcome.next ((if_neg (not_bang_of_true hup)).trans ((if_neg Bool.false_ne_true).trans (if_pos hptp)))

theorem exec_ethFrameReceived_other {port : Nat} (hup : (getPort port (advance t s)).up = true) :
    exec (.ethFrameReceived t port .other) s =
      .next (modPort port (fun x => { x with rxDiscarded := x.rxDiscarded + 1 }) (advance t s)) :=
  congrArg Host.Outcome.next
    ((if_neg (not_bang_of_true hup)).trans ((if_neg Bool.false_ne_true).trans (if_neg Bool.false_ne_true)))

/-- R321: the oldest entry leaves its ring. -/
theorem exec_streamDatagramSend {ring : Nat} {c : StreamCfg} : let u := settle (· == .stream ring) (advance t s)
    (getRing ring u).stream = some c → ringHeld (getRing ring u) ≠ 0 → (getRing ring u).stopped = false →
    ringReach (getRing ring u) u = true →
    let up := (getPort c.port u).up
    let v := modRing ring (fun r => { r with
      cons := r.cons + 1, published := r.published.drop 1, streamSeq := if up then r.streamSeq + 1 else r.streamSeq }) u
    exec (.streamDatagramSend t ring) s = .next (if up then
        portSent c.port (modPort c.port (fun p => { p with lastPayload := datagramBytes ring c u }) v)
      else drop ring 2 (modPort c.port (fun p => { p with discardedDown := p.discardedDown + 1 }) v)) := by
  intro u hbound hheld hgoing hreach
  change execStreamDatagramSend t ring s = _
  unfold execStreamDatagramSend
  extract_lets v r
  rw [show r.stream = _ from hbound]
  refine congrArg Host.Outcome.next (if_neg ?_)
  rintro (hempty | hstopped | hfar)
  · exact hheld hempty
  · exact Bool.false_ne_true (hgoing.symm.trans hstopped)
  · exact Bool.false_ne_true (hfar.symm.trans hreach)

theorem exec_streamDropReport {ring : Nat} {d : DT} (hlast : (getRing ring (advance t s)).dropEvent = some d)
    (hsecond : tkS ≤ dtSub (advance t s).dt d) (hdrops : 0 < (getRing ring (advance t s)).drops) :
    exec (.streamDropReport t ring) s = .next (reportDrops ring (advance t s)) := by
  refine congrArg Host.Outcome.next (if_pos ?_)
  rw [hlast]
  simp [hsecond, hdrops, -getRing_advance]

/-- R323: the frame whose samples have all left the path is written. -/
theorem exec_vdifFrame {ring base : Nat} {c : VdifCfg} {next : DT} : let u := settle (· == .stream ring) (advance t s)
    let r := getRing ring u
    let p := outPeriod c.path (getDdc c.path u).decim
    let ts := (List.range (vdifSamples c)).map fun i => next.toNat + i * p
    r.vdif = some c → r.vdifNext = some next → r.vdifSecond = some base → (getDdc c.path u).enable = true →
    vdifSkip c.path p (vdifSamples c) next.toNat u = 0 → (∀ x ∈ ts, (groupAt c.path p x u).isSome = true) →
    exec (.vdifFrame t ring) s =
      .next (vdifWrite ring c next.toNat r.vdifFrame base (ts.map fun x => pathSample c.path p x u) u) := by
  intro u r p ts hcfg hnext hbase hon hskip hout
  change execVdifFrame t ring () s = _
  unfold execVdifFrame
  extract_lets v q
  rw [show q.vdif = _ from hcfg, show q.vdifNext = _ from hnext]
  dsimp only
  rw [show q.vdifSecond = _ from hbase]
  dsimp only
  rw [show vdifSkip c.path _ (vdifSamples c) next.toNat v = 0 from hskip, Nat.zero_mul, Nat.add_zero, Nat.add_zero]
  exact congrArg Host.Outcome.next (if_pos (Bool.and_eq_true_iff.2 ⟨hon, List.all_eq_true.2 hout⟩))

theorem exec_controlCommandDatagram {d : Datagram} : let u := advance t s
    let n := u.endpoint.ring
    fromPeer d u = true → d.kind = 1 → d.ring = n → d.count = d.entries.length → d.seq = (u.endpoint.lastSeq + 1).toNat →
    d.first = (getRing n u).prod.toNat → ringHeld (getRing n u) + d.count ≤ ringSize (getRing n u) →
    exec (.controlCommandDatagram t d) s = .next (acceptEntries d n u) := by
  intro u n hpeer hkind hring hcount hseq hfirst hroom
  refine congrArg Host.Outcome.next ((if_neg (not_bang_of_true ?_)).trans (if_pos ⟨hseq, hfirst, hroom⟩))
  simp only [Bool.and_eq_true, beq_iff_eq, decide_eq_true_eq]
  exact ⟨⟨⟨hpeer, hkind⟩, hring⟩, hcount⟩

theorem exec_controlResendDatagram {d : Datagram} {p : Nat} : let u := advance t s
    let n := u.endpoint.ring
    fromPeer d u = true → d.kind = 4 → d.count = 0 → u.endpoint.port = some p →
    exec (.controlResendDatagram t d) s = .next (modPort p (fun x => { x with sent := x.sent + 1 }) { u with
      endpoint := { u.endpoint with
        out := u.endpoint.out ++ [(4, some u.endpoint.lastSeq.toNat, n, (getRing n u).prod.toNat, 0)] } }) := by
  intro u n hpeer hkind hcount hport
  refine congrArg Host.Outcome.next ((if_neg (not_bang_of_true ?_)).trans ((if_pos hcount).trans ?_))
  · exact Bool.and_eq_true_iff.2 ⟨hpeer, beq_iff_eq.2 hkind⟩
  · unfold endpointEmit
    rw [show (advance t s).endpoint.port = _ from hport]
    rfl

end

/-- Settles O56, row by row. No event at a return to the full link, and the details of the reset, are log 54's; the frame of a
VDIF stream is log 52's. -/
theorem linkEvents : Obligations.LinkEvents := by
  intro t s u
  refine ⟨?_, ⟨_, exec_pf1Flr, rfl, (pf1Down_vectors _).1, (pf1Down_vectors _).2, ?_⟩, rfl, rfl,
    fun port up => exec_ethLinkChange, ?_, ?_, fun ring d => exec_streamDropReport, fun ring c next base => exec_vdifFrame, ?_,
    fun d p => exec_controlResendDatagram⟩
  · intro width rate v hnew
    have hrow := exec_pcieLinkChange (t := t) hnew
    exact ⟨fun hwidth hrate => hrow.trans (congrArg Host.Outcome.next (if_neg (by omega))),
      fun hreduced => hrow.trans (congrArg Host.Outcome.next (if_pos hreduced))⟩
  · intro hnone
    rw [pf1Channels_none hnone]
    rfl
  · intro port frame hup
    refine ⟨exec_ethFrameReceived_answered hup, ?_, ?_⟩
    · rintro rfl hptp
      exact exec_ethFrameReceived_ptp hup hptp
    · rintro rfl
      exact exec_ethFrameReceived_other hup
  · intro ring c v r hbound hheld hgoing hreach
    have hrow := exec_streamDatagramSend hbound hheld hgoing hreach
    refine ⟨fun hup => hrow.trans ?_, fun hdown => hrow.trans ?_⟩
    · rw [show (getPort c.port (settle (· == .stream ring) (advance t s))).up = _ from hup]
      rfl
    · rw [show (getPort c.port (settle (· == .stream ring) (advance t s))).up = _ from hdown]
      rfl
  · intro d n hpeer hkind hring hcount hseq hfirst hroom
    obtain ⟨hendpoint, hrings⟩ := acceptEntries_writes d n u
    refine ⟨_, exec_controlCommandDatagram hpeer hkind hring hcount hseq hfirst hroom, hendpoint, ?_, hrings⟩
    rw [getRing, hrings, tget_tmod_same]
    rfl

end Sys2Proof.Machine

/-! # The rows of the fibres, the slow converter, the excitation outputs and the currants (R226 to R272) -/

namespace Sys2Proof.Machine

theorem modFibre_congr {n : Nat} {f g : Fibre → Fibre} {s : State} (h : f (getFibre n s) = g (getFibre n s)) :
    modFibre n f s = modFibre n g s := by
  have hunit : f (tget {} s.fibre n) = g (tget {} s.fibre n) := h
  rw [modFibre, modFibre, tmod, tmod, hunit]

/-! ## Traces (R226, R228, R270) -/

theorem launchDue_slot {x : Fibre} {slot : Nat} {l : Launch} (h : launchDue x slot = some l) : l.slot = slot :=
  beq_iff_eq.1 (List.mem_filter.1 (List.mem_of_getElem? h)).2

theorem traceOfSlot_slot {f slot : Nat} {u : State} {tr : TraceData} (h : traceOfSlot f slot u = some tr) : tr.slot = slot := by
  unfold traceOfSlot at h
  split at h
  next l hl =>
    split at h
    · rw [← Option.some.inj h]
      exact launchDue_slot hl
    · cases h
  next => cases h

/-- R226: while the next launch in order has no trace, nothing leaves. -/
theorem dasDeliver_waits {f n : Nat} {u : State} {l : Launch} {rest : List Launch} (hnext : (getFibre f u).launches = l :: rest)
    (hnone : (getFibre f u).ready.find? (fun r => r.1.slot == l.slot) = none) : dasDeliver f n u = u := by
  cases n with
  | zero => rfl
  | succ n =>
    unfold dasDeliver
    dsimp only
    rw [hnext]
    dsimp only
    rw [hnone]

theorem dasReady_waits {f : Nat} {u : State} {l : Launch} {rest : List Launch} {tr : TraceData}
    (hnext : (getFibre f u).launches = l :: rest) (hready : (getFibre f u).ready = []) (hslot : l.slot ≠ tr.slot) :
    dasReady f [(tr, false)] u = modFibre f (fun x => { x with ready := [(tr, false)] }) u := by
  have hjoined : modFibre f (fun x => { x with ready := x.ready ++ [(tr, false)] }) u =
      modFibre f (fun x => { x with ready := [(tr, false)] }) u := modFibre_congr (by rw [hready]; rfl)
  unfold dasReady
  dsimp only
  rw [hjoined]
  refine dasDeliver_waits (l := l) (rest := rest) ?_ ?_
  · rw [getFibre_modFibre]
    exact hnext
  · rw [getFibre_modFibre]
    simp [hslot.symm]

section
variable {t : DT} {s : State}

theorem exec_dasTraceReady {f slot : Nat} {tr : TraceData} (hdas : (getFibre f (advance t s)).das = true)
    (htrace : traceOfSlot f slot (advance t s) = some tr) :
    exec (.dasTraceReady t f slot) s = .next (dasReady f [(tr, false)] (advance t s)) := by
  refine congrArg Host.Outcome.next ((if_pos hdas).trans ?_)
  rw [htrace]

theorem exec_dasBandWindowEnd {f seq : Nat} {l : Launch} : let u := advance t s
    let x := getFibre f u
    x.das = true → bandFull x = true → x.bandFirst = some (l, seq) →
    let es := (List.range l.grid.positions).map fun p =>
      if x.bandBad.contains p then below else bandLevel (x.bandTaps.getD p {}).sum
    let bits := (List.range (ceilDiv l.grid.positions 8)).map fun i =>
      ((List.range 8).map fun j => if x.band.thresh < es.getD (8 * i + j) below then 2 ^ j else 0).sum
    exec (.dasBandWindowEnd t f) s = .next (modFibre f
      (fun x => { bandReset x with bandTaps := x.bandTaps.map fun t => { t with sum := 0 } })
      (writeRecord x.band.ring (padZero 64 (dasHeader 8 f x.cal l seq (bandLen l.grid.positions) x.bandFlags x.bandLength ++
        (es.map (leInt 2)).flatten ++ (bits.map (leBytes 1)).flatten)) u)) := by
  intro u x hdas hfull hfirst es bits
  refine congrArg Host.Outcome.next ((if_pos (Bool.and_eq_true_iff.2 ⟨hdas, hfull⟩)).trans ?_)
  unfold bandEnd
  extract_lets y
  rw [show y.bandFirst = _ from hfirst]

/-! ## Stacks (R239, R240, R243) -/

theorem fibre_unhopped {x : Fibre} (h : x.hopped = false) : { x with hopped := false } = x :=
  congrArg (fun b => { x with hopped := b }) h.symm

/-- R239, R240: a launch joins its stack, or is left out with its causes. -/
theorem dtsLaunch_joins {f : Nat} {l : Launch} {rest : List Launch} {a b : List Int} {ovr : Bool} {v : State}
    (hnext : (getFibre f v).launches = l :: rest) (hopped : (getFibre f v).hopped = false) : let x := getFibre f v
    let causes := leftOutCauses x l ovr
    let y := { x with
      launches := rest, prevLaunch := some l.dt, stackSeen := x.stackSeen + 1, stackLast := l.dt
      stackFirst := if x.stackSeen = 0 then l.dt else x.stackFirst, stackFlags := x.stackFlags ||| causes }
    (causes = 0 → dtsLaunch f a b ovr v = modFibre f (fun _ => { y with
      stackSummed := y.stackSummed + 1, sumA := addCells y.sumA a, sumS := addCells y.sumS b
      stackSat := y.stackSat || cellsSat y.sumA a || cellsSat y.sumS b }) v) ∧
    (causes ≠ 0 → dtsLaunch f a b ovr v = modFibre f (fun _ => { y with leftOut := y.leftOut + 1 }) v) := by
  intro x causes y
  refine ⟨fun hclean => modFibre_congr ?_, fun hleft => modFibre_congr ?_⟩
  · simp only [hnext]
    refine (if_pos hclean).trans (Eq.symm ?_)
    exact (fibre_unhopped (by exact hopped)).symm
  · simp only [hnext]
    refine (if_neg hleft).trans (Eq.symm ?_)
    exact (fibre_unhopped (by exact hopped)).symm

/-- R239: the oldest launch, once its cells are there. -/
def dtsOldest (f : Nat) (v : State) : State :=
  match (getFibre f v).launches with
  | l :: _ =>
    if (getFibre f v).dts = true ∧ (getFibre f v).stackSeen < dtsRequested (getFibre f v) ∧ launchComplete f l v = true then
      dtsLaunch f (launchCells f 0 l v) (launchCells f 1 l v) (launchOvr f l v) v
    else v
  | [] => v

theorem exec_dtsLaunch {f : Nat} {l : Launch} {rest : List Launch} : let v := settle (· == .stack f) (advance t s)
    let x := getFibre f v
    x.hopped = false → x.dts = true → x.launches = l :: rest → x.stackSeen < dtsRequested x → launchComplete f l v = true →
    exec (.dtsLaunch t f) s = .next (dtsLaunch f (launchCells f 0 l v) (launchCells f 1 l v) (launchOvr f l v) v) := by
  intro v x hopped hdts hnext hroom hcomplete
  have hrow : exec (.dtsLaunch t f) s =
      .next (dtsOldest f (if (getFibre f v).hopped then pllRun 1 (getPll 1 v).target v else v)) := rfl
  rw [hrow, if_neg (ne_true_of_eq_false hopped), dtsOldest, hnext]
  exact congrArg Host.Outcome.next (if_pos ⟨hdts, hroom, hcomplete⟩)

theorem fibre_of_blocks {u v : State} (h : blocks v = blocks u) : v.fibre = u.fibre := by
  have hfibre : (blocks v).fibre = (blocks u).fibre := by rw [h]
  exact hfibre

/-- R243: whether a change of the reference is reported or not, the stack's end is the same for the fibres. -/
theorem getFibre_reported (c : Prop) [Decidable c] (code sev unit k : Nat) (fs : List (Nat × Nat × Nat)) (u : State) :
    getFibre k (if c then u else event code sev unit fs u) = getFibre k u := by
  split
  · rfl
  · rw [getFibre, getFibre, fibre_of_blocks (blocks_event code sev unit fs u)]

theorem dtsStackEnd_ends (f : Nat) (u : State) : let x := getFibre f u
    let v := dtsStackEnd f u
    (getFibre f v).record = some (dtsRecord f x) ∧ (getFibre f v).stackSeq = x.stackSeq + 1 ∧ (getFibre f v).stackSeen = 0 ∧
    (getFibre f v).sumA = [] ∧ (getFibre f v).sumS = [] ∧ ∀ k, k ≠ f → getFibre k v = getFibre k u := by
  unfold dtsStackEnd
  dsimp only
  rw [getFibre_reported, getFibre_modFibre]
  refine ⟨rfl, rfl, rfl, rfl, rfl, fun k hk => ?_⟩
  rw [getFibre_reported, getFibre_modFibre_other f k _ _ hk]

theorem exec_dtsStackEnd {f : Nat} (hdts : (getFibre f (advance t s)).dts = true)
    (hseen : dtsRequested (getFibre f (advance t s)) ≤ (getFibre f (advance t s)).stackSeen) :
    exec (.dtsStackEnd t f) s = .next (settle (· == .stack f) (stackHop (dtsStackEnd f (advance t s)))) :=
  congrArg Host.Outcome.next (if_pos ⟨hdts, hseen⟩)

theorem exec_dtsRecordReady {f : Nat} {bytes : List Byte} (h : (getFibre f (advance t s)).record = some bytes) :
    exec (.dtsRecordReady t f) s = .next (writeRecord (getFibre f (advance t s)).dtsCfg.ring bytes
      (modFibre f (fun x => { x with record := none }) (advance t s))) := by
  change execDtsRecordReady t f s = _
  unfold execDtsRecordReady
  extract_lets u
  rw [show (getFibre f u).record = _ from h]

/-! ## Conversions (R248 to R255) -/

theorem exec_slowEntryDelayEnd : let v := settle (· == .conversion) (advance t s)
    jobDelayed v = true → notStarted v = true → dtLe (convStart v) v.dt = true →
    exec (.slowEntryDelayEnd t) s = .next (modSlow (fun x => { x with poweredUp := true, since := convStart v }) v) := by
  intro v hdelayed hwaits hdue
  exact congrArg Host.Outcome.next ((if_pos hdelayed).trans (if_pos (Bool.and_eq_true_iff.2 ⟨hwaits, hdue⟩)))

/-- R248: the running conversion integrates from now on, with some flags of its start. -/
def integrates (v : State) (bits : Nat) (w : State) : State :=
  let e := jobEntry v
  let start := dtAdd v.slow.since powerUpTk
  modSlow (fun x => { x with
    integrating := true, since := start, poweredUp := true, lastGain := some e.gain
    startFlags := bits + 8 * b2n (gainChanged v) + 16 * b2n (v.slow.lastOvr.any fun d => decide (dtSub start d < 2 * tkMs)) }) w

theorem slowBegin_off {v : State} (h : (getExc (jobEntry v).exc v).cfg.enable = false) : slowBegin v = integrates v 2 v := by
  unfold slowBegin
  dsimp only
  rw [h]
  rfl

theorem slowBegin_on {v : State} (h : (getExc (jobEntry v).exc v).cfg.enable = true) :
    slowBegin v = integrates v (4 * b2n ((draw v).1 % 2 == 1)) (draw v).2 := by
  unfold slowBegin
  dsimp only
  rw [h]
  simp only [Bool.not_true, Bool.not_false, Bool.true_and, Bool.false_eq_true, if_false]
  rw [show 2 * b2n false = 0 from rfl, Nat.zero_add]
  rfl

theorem exec_slowIntegrationStart (h : integrationDue (powerUp (settle (· == .conversion) (advance t s))) = true) :
    exec (.slowIntegrationStart t) s = .next (slowBegin (powerUp (settle (· == .conversion) (advance t s)))) :=
  congrArg Host.Outcome.next (if_pos h)

theorem exec_slowConversionEnd (code : Int) (hrun : (advance t s).slow.integrating = true)
    (hdue : dtLe (convEnd (advance t s)) (advance t s).dt = true) :
    exec (.slowConversionEnd t code) s =
      .next (settle (· == .conversion) (slowEnd code (advance t s).slow.startFlags (advance t s))) :=
  congrArg Host.Outcome.next (if_pos (Bool.and_eq_true_iff.2 ⟨hrun, hdue⟩))

theorem exec_slowPartialEntryFlush (hsome : (advance t s).slow.partials ≠ [])
    (hold : 100 * tkMs ≤ dtSub (advance t s).dt (advance t s).slow.partialFirst) : let u := advance t s
    let v := modSlow (fun x => { x with partials := [] }) u
    exec (.slowPartialEntryFlush t) s = .next (if ringRoom (getRing u.slow.ring v) v then publish u.slow.ring
        (u.slow.partials.flatten ++ (List.replicate (4 - u.slow.partials.length) resultPadding).flatten) v
      else modSlow (fun y => { y with
        lost := y.lost + u.slow.partials.length, lostFirst := if y.lost = 0 then u.slow.partialFirst else y.lostFirst }) v) :=
  congrArg Host.Outcome.next ((if_pos ⟨hsome, hold⟩).trans (if_neg hsome))

/-! ## Excitation outputs (R255, R257) -/

/-- R255: a break is there, latched for the next conversion or not. -/
def excBroken (n : Nat) (latch : Bool) (u : State) : State :=
  event 0x1201 2 n [(16, 1, n), (17, 1, 1), (24, 8, u.dt.toNat)]
    (modExc n (fun x => { x with broken := true, breakLatched := x.breakLatched || latch }) u)

theorem exec_excBreakDetect {n : Nat} (hon : (getExc n (advance t s)).cfg.enable = true)
    (hwhole : (getExc n (advance t s)).broken = false) : let u := advance t s
    exec (.excBreakDetect t n) s = .next (if converting n u then
      settle (· == .conversion) (slowAbort (excBroken n (!converting n u) u)) else excBroken n (!converting n u) u) :=
  congrArg Host.Outcome.next (if_pos ⟨hon, hwhole⟩)

theorem exec_impedanceCheckDue {n : Nat} : let u := advance t s
    let x := getExc n u
    x.cfg.enable = true → x.cfg.impPeriod ≠ 0 → n < 4 → dtLe x.nextCheck u.dt = true → n ∉ u.slow.checksDue →
    exec (.impedanceCheckDue t n) s = .next (slowKick (modSlow (fun y => { y with checksDue := y.checksDue ++ [n] })
      (modExc n (fun x => { x with nextCheck := dtAdd x.nextCheck (x.cfg.impPeriod * tkS) }) u))) := by
  intro u x hon hperiod hlow hdue hnew
  refine congrArg Host.Outcome.next (if_pos ⟨hon, hperiod, hlow, hdue, ?_⟩)
  exact Bool.eq_false_iff.2 (mt List.contains_iff_mem.1 hnew)

theorem exec_impedanceCheckDone {n nF uS : Nat} (hjob : (advance t s).slow.job = some (.impedance n))
    (hdue : dtLe (dtAdd (advance t s).slow.since toneTk) (advance t s).dt = true) :
    exec (.impedanceCheckDone t n nF uS) s = .next (settle (· == .conversion) (impedanceEnd n nF uS (advance t s))) :=
  congrArg Host.Outcome.next (if_pos ⟨hjob, hdue⟩)

/-! ## Currants (R272, R356) -/

theorem exec_currantFault {n cause : Nat} (hhealthy : currantHealthy n (advance t s) = true) (hlow : 1 ≤ cause) (hhigh : cause ≤ 4) :
    exec (.currantFault t n cause) s = .next (currantFaulted n cause (advance t s)) :=
  congrArg Host.Outcome.next (if_pos ⟨hhealthy, hlow, hhigh⟩)

/-- R272: a currant goes into test with a strike. -/
def currantToTest (n : Nat) (u : State) : State :=
  modCurrant n (fun c => { c with state := .inTest, personality := 0xF, kernel := 0, strike := some u.dt }) u

theorem struckCurrant_first {n : Nat} {u : State} (cause : Nat) (h : (getCurrant n u).strike = none) :
    struckCurrant n cause u = currantToTest n u := by
  rw [struckCurrant, h]
  rfl

/-- R272: the fault of a currant that serves no fibre is repaired at once. -/
theorem handleCurrant_idle {n : Nat} {u : State} (cause : Nat) (h : (getCurrant n u).personality = 0xF) :
    handleCurrant n cause u = (some outRepaired, struckCurrant n cause u) := by
  rw [handleCurrant, h]
  rfl

/-- R356: a currant's record that its handling finishes closes, and the next is taken up. -/
theorem runRecords_currant {o : Nat} {u v : State} {r : FaultRecord} {rest : List FaultRecord} (k : Nat) (hnew : r.state = 0)
    (hcls : r.cls = 2) (hdone : handleCurrant r.unit r.cause (withFaults ({ r with state := 1 } :: rest) u) = (some o, v)) :
    runRecords (k + 1) (withFaults (r :: rest) u) = runRecords k (closeRecord r.cls r.unit o v) := by
  rw [runRecords]
  dsimp only [withFaults] at hdone ⊢
  rw [if_pos hnew, if_neg (by rw [hcls]; decide), if_pos hcls, hdone]

/-- R272, R356: the first fault of an idle currant is recorded and closed, and the currant goes into test. -/
theorem currantFaulted_idle {n : Nat} {u : State} (cause : Nat) (hidle : (getCurrant n u).personality = 0xF)
    (hstrike : (getCurrant n u).strike = none) (hfaults : u.health.faults = []) (hhalting : u.health.halting = []) :
    currantFaulted n cause u = recordClosed (loneRecord 2 cause n 0xF 0 u) outRepaired (currantToTest n u) := by
  let r : FaultRecord := loneRecord 2 cause n 0xF 0 u
  let handled : FaultRecord := { r with state := 1 }
  have hhandled : handleCurrant n cause (withFaults [handled] u) = (some outRepaired, withFaults [handled] (currantToTest n u)) := by
    rw [handleCurrant_idle (u := withFaults [handled] u) cause hidle, struckCurrant_first (u := withFaults [handled] u) cause hstrike]
    rfl
  have hunclaimed : currantFaulted n cause u = faultArrive 2 cause n 0xF 0 [] u := by
    rw [currantFaulted, hidle]
    rfl
  calc currantFaulted n cause u
      = runRecords 5 (withFaults [r] u) := hunclaimed.trans (faultArrive_lone cause 0 hfaults hhalting)
    _ = runRecords 4 (closeRecord 2 n outRepaired (withFaults [handled] (currantToTest n u))) := runRecords_currant 4 rfl rfl hhandled
    _ = runRecords 4 (recordClosed handled outRepaired (withFaults [] (currantToTest n u))) :=
      congrArg (runRecords 4) (closeRecord_only handled outRepaired _)
    _ = recordClosed handled outRepaired (withFaults [] (currantToTest n u)) := runRecords_nil 4 rfl
    _ = recordClosed r outRepaired (currantToTest n u) := congrArg (recordClosed r outRepaired) (withFaults_same hfaults)

theorem currantRepaired_none {n : Nat} {slots : List Nat} {u : State}
    (h : (u.health.faults.find? fun r => r.cls == 2 && r.unit == n && r.state == 1 && r.spare.isSome) = none) :
    currantRepaired n slots u = u := by
  unfold currantRepaired
  rw [h]

theorem currantRepaired_das {n : Nat} {slots : List Nat} {r : FaultRecord} {u : State}
    (h : (u.health.faults.find? fun r => r.cls == 2 && r.unit == n && r.state == 1 && r.spare.isSome) = some r)
    (hdas : (getFibre (r.personality - 4) u).das = true) :
    let f := r.personality - 4
    let due := (slots.take 2).filter fun k => (traceOfSlot f k u).isSome
    let first := ((due.head?.bind (launchDue (getFibre f u))).map (·.dt.toNat)).getD 0
    let v := each due (fun k v => match traceOfSlot f k v with
      | some tr => dasReady f [(tr, true)] v
      | none => v) { u with health := { u.health with curRepairs := u.health.curRepairs + 1 } }
    currantRepaired n slots u = finishRecord 2 n 1 (struckCurrant n r.cause
      (event 0x1301 1 r.personality [(16, 1, r.personality), (17, 1, n), (18, 1, r.spare.getD 0), (19, 1, due.length),
        (20, 1, r.cause), (24, 8, first)] v)) := by
  unfold currantRepaired
  rw [h]
  dsimp only
  rw [hdas]
  rfl

end

/-- Settles O52, row by row. What lands at a stack or at a conversion, and the measured values, are the model's choices (logs 6, 40,
42, 62, 65, 70 and 86). -/
theorem fibreEvents : Obligations.FibreEvents := by
  intro t s u
  refine ⟨?_, fun f l seq => exec_dasBandWindowEnd, ?_, ?_, fun f bytes => exec_dtsRecordReady, exec_slowEntryDelayEnd,
    ?_, ?_, ?_, ?_, ?_, ?_⟩
  · intro f slot tr x hdas htrace
    have hrow := exec_dasTraceReady hdas htrace
    refine ⟨hrow, fun l rest hnext hready hslot => hrow.trans (congrArg Host.Outcome.next (dasReady_waits hnext hready ?_))⟩
    rw [traceOfSlot_slot htrace]
    exact hslot
  · intro f l rest v x hopped hdts hnext hroom hcomplete causes y
    have hrow := exec_dtsLaunch hopped hdts hnext hroom hcomplete
    obtain ⟨hclean, hleft⟩ := dtsLaunch_joins (a := launchCells f 0 l v) (b := launchCells f 1 l v) (ovr := launchOvr f l v) hnext hopped
    exact ⟨fun hnone => hrow.trans (congrArg Host.Outcome.next (hclean hnone)),
      fun hsome => hrow.trans (congrArg Host.Outcome.next (hleft hsome))⟩
  · intro f x hdts hseen v
    exact ⟨exec_dtsStackEnd hdts hseen, dtsStackEnd_ends f u⟩
  · intro v hdue e start begun
    have hrow := exec_slowIntegrationStart hdue
    exact ⟨fun hoff => hrow.trans (congrArg Host.Outcome.next (slowBegin_off hoff)),
      fun hon => hrow.trans (congrArg Host.Outcome.next (slowBegin_on hon))⟩
  · intro code hrun hdue
    exact exec_slowConversionEnd code hrun hdue
  · intro hsome hold v
    have hrow := exec_slowPartialEntryFlush hsome hold
    exact ⟨fun hroom => hrow.trans (congrArg Host.Outcome.next (if_pos hroom)),
      fun hfull => hrow.trans (congrArg Host.Outcome.next (if_neg (ne_true_of_eq_false hfull)))⟩
  · intro n x broken
    refine ⟨fun hon hwhole => ⟨fun hrests => ?_, fun hbusy => ?_⟩, fun hbroken => congrArg Host.Outcome.next (if_pos hbroken), ?_, ?_⟩
    · rw [exec_excBreakDetect hon hwhole, show converting n (advance t s) = _ from hrests]
      rfl
    · rw [exec_excBreakDetect hon hwhole, show converting n (advance t s) = _ from hbusy]
      rfl
    · intro hon hperiod hlow hdue hnew v
      have hrow := exec_impedanceCheckDue hon hperiod hlow hdue hnew
      exact ⟨hrow, fun hbusy => hrow.trans (congrArg Host.Outcome.next (slowKick_busy hbusy))⟩
    · intro nF uS hjob dt hdue v
      rw [exec_impedanceCheckDone hjob hdue]
      refine ⟨fun hwithin => congrArg (fun w => Host.Outcome.next (settle _ (nextJob dt w))) (if_neg (Nat.not_lt.2 hwithin)),
        fun hbeyond => congrArg (fun w => Host.Outcome.next (settle _ (nextJob dt w))) (if_pos hbeyond)⟩
  · intro n cause hhealthy hlow hhigh
    have hrow := exec_currantFault hhealthy hlow hhigh
    exact ⟨hrow, fun hfree hfirst hfaults hhalting =>
      hrow.trans (congrArg Host.Outcome.next (currantFaulted_idle cause hfree hfirst hfaults hhalting))⟩
  · intro n slots mine
    exact ⟨fun hnone => congrArg Host.Outcome.next (currantRepaired_none hnone),
      fun r hsome hdas => congrArg Host.Outcome.next (currantRepaired_das hsome hdas)⟩

end Sys2Proof.Machine
